-- ==== Sys2Proof/Word.lean ====
section
/-! DEFINITION. The word types of the K1: bytes, 64-bit register words, 128-bit Barkecel instruction
words (R7, R57), and the shape of a sparse map from numbers to values. -/
namespace Sys2Proof

/-- One byte (R7). -/
abbrev Byte := BitVec 8

/-- A register word; a 32-bit register uses bits [31:0]. -/
abbrev Word := BitVec 64

/-- A Barkecel instruction word (R57). -/
abbrev IWord := BitVec 128

/-- A sparse map: keys strictly rising, no entry equal to the map's default. -/
abbrev AMap (β : Type) := List (Nat × β)

end Sys2Proof
end

