-- ==== Sys2Proof/Syntax.lean ====
section
/-! DEFINITION. The commands of the K1 block: one constructor per row of the opcode table, with the
operands the row needs. A command is an operation, a management write, a pin change, an arrival on a link
or a timed event of the module. -/
namespace Sys2Proof

/-- The engines of a core, by class code (R48). -/
inductive Cls where
  | tally | move | reduce | shape | sort | scale | tensor
deriving DecidableEq, Repr

/-- A logical core: compute die, region, core (R44). -/
structure CoreId where
  die : Nat
  region : Nat
  core : Nat
deriving DecidableEq, Repr

/-- A region of a compute die. -/
structure RegionId where
  die : Nat
  region : Nat
deriving DecidableEq, Repr

/-- A packet: the two header words of R397 and R400, and the payload. -/
structure Packet where
  w0 : Word
  w1 : Word
  payload : List Byte
deriving DecidableEq, Repr

/-- A link frame that decoded: header word (R378), Bellows credit word (R415) and body (R377). -/
structure Frame where
  hdr : Word
  credit : Word
  body : List Byte
deriving DecidableEq, Repr

/-- The four command paths of R529. -/
inductive Path where
  | ihlyelA | ihlyelB | inband | i3c
deriving DecidableEq, Repr

/-- A command as it reaches the Vigil (R532): its path, tag, requester (in-band SMOD and SRC) and payload. -/
structure Req where
  path : Path
  tag : Nat
  smod : Bool
  src : Nat
  payload : List Byte
deriving DecidableEq, Repr

/-- An on-module link (R505): the mesh link of a die towards north, east, south or west (0 to 3), or an
attachment of an I/O die. -/
inductive OnLink where
  | mesh (die side : Nat)
  | attach (iod a : Nat)
deriving DecidableEq, Repr

/-- Which reclaim a RECLAIM write starts (R368). -/
inductive PoolSpace where
  | region (r : RegionId)
  | fabric
deriving DecidableEq, Repr

/-- Where a packet that waits for an output port stands: the input pool queue of a port, or the packets
the module's own cores and Flues have sent. -/
inductive PktSource where
  | port (p pool : Nat)
  | origin
deriving DecidableEq, Repr

/-- What the stages of Kindling found (R552 to R554): types booted from their fallback slot, the failing lanes that
training found at memory stacks and at mesh links and attachments, and the spare slots that failed their self-test. -/
structure KindlingReport where
  fallback : List Nat
  stackLanes : List (Nat × List Nat)
  linkLanes : List (OnLink × List Nat)
  failedSlots : List (RegionId × Nat)
  backupLeads : Bool
  milliseconds : Nat
deriving DecidableEq, Repr

/-- One sensor reading of a thermal sample: its site sensor and its value in 0.1 °C (R582). -/
structure TempReading where
  site : Nat
  unit : Nat
  value : Int
deriving DecidableEq, Repr

/-- The I3C common command codes of R565. -/
inductive Ccc where
  | enec (mask : Nat) | disec (mask : Nat) | rstdaa | entdaa (addr : Nat) | setdasa (static addr : Nat)
  | getpid | getbcr | getdcr | getstatus | getmwl | getmrl
deriving DecidableEq, Repr

/-- The commands: one constructor per row of the opcode table, in its order. -/
inductive Instr where
  | registerWrite (addr width : Nat) (data : Word)
  | instructionBankWrite (c : CoreId) (bank off width : Nat) (data : Word)
  | bankArm (c : CoreId)
  | bankDisarm (c : CoreId)
  | bankSwap (c : CoreId)
  | start (c : CoreId) (e : Cls)
  | stop (c : CoreId) (e : Cls)
  | clearFault (c : CoreId) (e : Cls)
  | retry (c : CoreId) (e : Cls)
  | instructionComplete (c : CoreId) (e : Cls)
  | waitTimeout (c : CoreId) (e : Cls)
  | fetchPastEnd (c : CoreId) (e : Cls)
  | seti (c : CoreId)
  | addi (c : CoreId)
  | add (c : CoreId)
  | sub (c : CoreId)
  | ld (c : CoreId)
  | st (c : CoreId)
  | stf (c : CoreId)
  | cmp (c : CoreId)
  | cmpi (c : CoreId)
  | skipk (c : CoreId)
  | djnz (c : CoreId)
  | nop (c : CoreId) (e : Cls)
  | halt (c : CoreId) (e : Cls)
  | bank (c : CoreId) (e : Cls)
  | jump (c : CoreId) (e : Cls)
  | loop (c : CoreId) (e : Cls)
  | skip (c : CoreId) (e : Cls)
  | dadv (c : CoreId) (e : Cls)
  | get (c : CoreId)
  | put (c : CoreId)
  | setloc (c : CoreId)
  | alloc (c : CoreId)
  | free (c : CoreId)
  | share (c : CoreId)
  | give (c : CoreId)
  | qsend (c : CoreId)
  | qrecv (c : CoreId)
  | qdrop (c : CoreId)
  | moveRequestTimeout (c : CoreId)
  | clr (c : CoreId)
  | sum (c : CoreId)
  | iadd (c : CoreId)
  | max (c : CoreId)
  | min (c : CoreId)
  | argmax (c : CoreId)
  | argmin (c : CoreId)
  | and (c : CoreId)
  | or (c : CoreId)
  | xor (c : CoreId)
  | out (c : CoreId)
  | spill (c : CoreId)
  | fill (c : CoreId)
  | gather (c : CoreId)
  | scatter (c : CoreId)
  | compact (c : CoreId)
  | filter (c : CoreId)
  | hist (c : CoreId)
  | count (c : CoreId)
  | sort (c : CoreId)
  | sortkv (c : CoreId)
  | topk (c : CoreId)
  | merge (c : CoreId)
  | quant (c : CoreId)
  | dequant (c : CoreId)
  | cvt (c : CoreId)
  | div (c : CoreId)
  | sqrt (c : CoreId)
  | exp (c : CoreId)
  | log (c : CoreId)
  | rsqrt (c : CoreId)
  | zero (c : CoreId)
  | mma (c : CoreId)
  | rd (c : CoreId)
  | redInject (c : CoreId) (data : Word)
  | tenInject (c : CoreId) (data : Word)
  | inject (c : CoreId) (e : Cls) (data : Word)
  | packetArrival (p : Packet)
  | rxHoldDrop (c : CoreId)
  | remoteSignal (p : Packet)
  | sigack (p : Packet)
  | remoteSignalLost (r : RegionId) (token : Nat)
  | barrierCarry (r : RegionId) (obj : Nat)
  | syncSave (r : RegionId) (data : Word)
  | syncRestore (r : RegionId) (data : Word)
  | syncSaveFinish (r : RegionId)
  | timeMessageSend (port : Nat)
  | time (port : Nat) (f : Frame)
  | holdoverTimeout
  | relock
  | almSet (count : Word)
  | arm
  | armValidationDone
  | handshakeOpen
  | handshakeResult
  | handshakeTimeout
  | jobStart
  | jobAbort
  | jobEnd
  | calendarLaunch (die : Nat)
  | calendarLateLaunch (die : Nat)
  | calendarCheck (die : Nat)
  | dsPartWrite (die : Nat) (data : Word)
  | cacheWindowWrite (die w : Nat) (ctl : Bool) (data : Word)
  | cacheInvalidateDone (die w : Nat)
  | stackReadRequest (addr len : Nat)
  | stackWriteRequest (addr : Nat) (data : List Byte)
  | scrub (stack : Nat)
  | stackRetrain (stack : Nat) (byWrite : Bool)
  | stackRetrainDone (stack : Nat) (failing : List Nat)
  | onmodLinkRetrain (l : OnLink) (failing : List Nat)
  | allocWaitGrant (r : RegionId)
  | allocWaitTimeout (r : RegionId)
  | reclaim (sp : PoolSpace) (owner : Nat)
  | reclaimDone (sp : PoolSpace)
  | frameSend (port : Nat)
  | dataFrame (port : Nat) (f : Frame)
  | replayFrame (port : Nat) (f : Frame)
  | idleFrame (port : Nat) (f : Frame)
  | badFrame (port : Nat) (undecoded : Bool) (replayed : Option Nat)
  | trainFrame (port lane : Nat) (body : List Byte)
  | trainTimeout (port : Nat)
  | trainRetry (port : Nat)
  | down (port : Nat) (f : Frame)
  | laneSignalLoss (port lane : Nat)
  | silentTimeout (port : Nat)
  | stallTimeout (port : Nat)
  | portEnable (port : Nat)
  | portDisable (port : Nat)
  | portRetrain (port : Nat)
  | packetAccept (port : Nat)
  | packetRoute (src : PktSource)
  | escapeRoute (src : PktSource)
  | portPacketStart (port : Nat)
  | memrd (port : Nat) (p : Packet)
  | memwr (port : Nat) (p : Packet)
  | ethFrame (port : Nat) (frame : List Byte)
  | ethHoldDrop (port : Nat)
  | flipArm
  | equinoxFlip
  | drainEnd
  | epDataAccess (write : Bool) (data : Word)
  | congestionMap
  | damperRefill (level d : Nat)
  | damperConfigWrite (addr width : Nat) (data : Word)
  | admissionGrant (owner : Nat)
  | admissionTimeout (owner : Nat)
  | load (f : Nat)
  | unload (f : Nat)
  | flueAbortCmd (f : Nat)
  | clear (f : Nat)
  | flueLoadDone
  | flueLaunch (f : Nat)
  | quickLaunch (f : Nat)
  | flueBufferGrant (f : Nat)
  | flueBufferTimeout (f : Nat)
  | grant (p : Packet)
  | grantRepeat (f : Nat)
  | resend (p : Packet)
  | pieceResendTimeout (f peer seg : Nat) (down : Bool)
  | abort (p : Packet)
  | flueTimeout (f : Nat)
  | flueUnlaunchedMismatch (f : Nat)
  | flueChunk (p : Packet)
  | countMessage (p : Packet)
  | hubTask (f hub : Nat)
  | taskTakeback (f hub : Nat) (upd : Bool)
  | flueComplete (f : Nat)
  | quickValue (p : Packet)
  | quickDown (p : Packet)
  | quickResend (f : Nat)
  | heartbeat (site : Nat) (stuck : List Nat)
  | heartbeatTimeout (site : Nat)
  | spareSubstitute (die : Nat) (data : Word)
  | autoSubstitute (c : CoreId)
  | substitutionDone (die : Nat)
  | healthUpdate
  | mirrorPacket (p : Packet)
  | mirrorHoldTimeout
  | mirrorStop (port : Nat) (f : Frame)
  | digest (port : Nat) (f : Frame)
  | digestTimeout (tick : Nat)
  | takeoverJudge
  | verdict (port : Nat) (f : Frame)
  | verdictTimeout
  | relayEnd
  | recMark (id : Word)
  | recGap
  | replayInject
  | replayEnd
  | vigilFailover
  | idRead (q : Req)
  | statusRead (q : Req)
  | almRead (q : Req)
  | lifeRead (q : Req)
  | fencePort (q : Req)
  | fenceModule (q : Req)
  | releasePort (q : Req)
  | releaseModule (q : Req)
  | domainReset (q : Req)
  | domainRelease (site : Nat)
  | powerDown (q : Req)
  | powerOn (q : Req)
  | damp (q : Req)
  | bankModule (q : Req)
  | resetModule (q : Req)
  | regRead (q : Req)
  | regWrite (q : Req)
  | memRead (q : Req)
  | memWrite (q : Req)
  | attest (q : Req)
  | certRead (q : Req)
  | cfgInstall (q : Req)
  | cfgRead (q : Req)
  | imgStage (q : Req)
  | i3cResponseRead (len : Nat)
  | fenceN (level : Bool)
  | pwrOffN (level : Bool)
  | powerApply
  | kindlingDone (r : KindlingReport)
  | kindlingStageTimeout (stage : Nat)
  | supplySample (volts amps : List Nat)
  | coolantSample (inlet outlet : Int) (flow : Nat)
  | thermalSample (readings : List TempReading)
  | throttleUpdate
  | lifeCommit
  | lifeMirror
  | referenceTakeover
  | codewordLock (port : Nat)
  | rateMeasurementEnd (port : Nat)
  | ethAlignmentLock (port : Nat)
  | backupVigilLost
  | kindlingImageFailure (type : Nat)
  | supplyRecovery
  | i3cCcc (c : Ccc)
deriving DecidableEq, Repr

end Sys2Proof
end

