-- ==== Sys2Proof/Machine/RegNames.lean ====
section
/-! DEFINITION. The management address and the fields of every register of the manual, under the manual's
own names (R30 to R36 and the register tables of each chapter). A register's address takes the unit it
belongs to; a field is its bit range. -/
namespace Sys2Proof.Machine

/-- A field of a register: bits [hi:lo]. -/
structure Fld where
  hi : Nat
  lo : Nat
deriving DecidableEq, Repr

/-- The class code of an engine (R48), which also selects its window (R33). -/
def clsCode : Cls → Nat
  | .tally => 0 | .move => 1 | .reduce => 2 | .shape => 3 | .sort => 4 | .scale => 5 | .tensor => 6

/-- OFFSET of an engine's window in its core (R33). -/
def engWindow : Cls → Nat
  | .tally => 0x7000 | .move => 0x6000 | .reduce => 0x1000 | .shape => 0x3000 | .sort => 0x4000
  | .scale => 0x5000 | .tensor => 0x2000

/-- The address of SITE, BLOCK, UNIT, OFFSET 0 (R30). -/
def unitBase (site block unit : Nat) : Nat := site * 0x100000000 + block * 0x1000000 + unit * 0x10000

/-- The window of a logical core, or of a spare slot as core 64 or 65 (R32). -/
def coreBase (c : CoreId) : Nat := unitBase c.die c.region c.core

/-- The window of an engine (R33). -/
def engBase (c : CoreId) (e : Cls) : Nat := coreBase c + engWindow e

/-- The registers of a lane (R409). -/
def laneBase (l : Nat) : Nat := unitBase (0x40 + l / 64) (1 + l / 32 % 2) (l % 32)

/-- The reliability registers' home: the block of the Vigil on I/O die 0 (R527); the leading Vigil's site is resolved at the access. -/
def vigRelBase : Nat := unitBase 0x40 0x20 0

namespace Reg

/-- HTH_BANK_CTL (R103). -/
def HTH_BANK_CTL (c : CoreId) : Nat := coreBase c + 0x100
/-- HTH_DESC_TABLE (R103). -/
def HTH_DESC_TABLE (c : CoreId) : Nat := coreBase c + 0x108
/-- HTH_CTX (R103). -/
def HTH_CTX (c : CoreId) : Nat := coreBase c + 0x110
/-- HTH_ISTORE_ECC (R103). -/
def HTH_ISTORE_ECC (c : CoreId) : Nat := coreBase c + 0x118
/-- SEQ_CTL (R105). -/
def SEQ_CTL (c : CoreId) (e : Cls) : Nat := engBase c e
/-- SEQ_STATUS (R105). -/
def SEQ_STATUS (c : CoreId) (e : Cls) : Nat := engBase c e + 0x8
/-- ENTRY (R105). -/
def ENTRY (c : CoreId) (e : Cls) : Nat := engBase c e + 0x10
/-- WAIT_LIMIT (R105). -/
def WAIT_LIMIT (c : CoreId) (e : Cls) : Nat := engBase c e + 0x18
/-- CR_BASE (R105). -/
def CR_BASE (c : CoreId) (e : Cls) : Nat := engBase c e + 0x20
/-- CR_SEQ (R105). -/
def CR_SEQ (c : CoreId) (e : Cls) : Nat := engBase c e + 0x28
/-- SAT_TOTAL (R105). -/
def SAT_TOTAL (c : CoreId) (e : Cls) : Nat := engBase c e + 0x30
/-- FLUSH_TOTAL (R105). -/
def FLUSH_TOTAL (c : CoreId) (e : Cls) : Nat := engBase c e + 0x38
/-- RETIRED (R105). -/
def RETIRED (c : CoreId) (e : Cls) : Nat := engBase c e + 0x40
/-- WAIT_CYCLES (R105). -/
def WAIT_CYCLES (c : CoreId) (e : Cls) : Nat := engBase c e + 0x48
/-- SYN_OBJ[n] (R146). -/
def SYN_OBJ (r : RegionId) (n_ : Nat) : Nat := unitBase r.die r.region 0xE0 + 8 * n_
/-- SYN_XLAT[e] (R146). -/
def SYN_XLAT (r : RegionId) (e_ : Nat) : Nat := unitBase r.die r.region 0xE0 + 0x8000 + 8 * e_
/-- SYN_TRACK[t].MEMBER[w] (R146). -/
def SYN_TRACK_MEMBER (r : RegionId) (t_ : Nat) (w_ : Nat) : Nat := unitBase r.die r.region 0xE0 + 0xC000 + 192 * t_ + 8 * w_
/-- SYN_TRACK[t].CUR[w] (R146). -/
def SYN_TRACK_CUR (r : RegionId) (t_ : Nat) (w_ : Nat) : Nat := unitBase r.die r.region 0xE0 + 0xC040 + 192 * t_ + 8 * w_
/-- SYN_TRACK[t].NEXT[w] (R146). -/
def SYN_TRACK_NEXT (r : RegionId) (t_ : Nat) (w_ : Nat) : Nat := unitBase r.die r.region 0xE0 + 0xC080 + 192 * t_ + 8 * w_
/-- SYN_CTXMAP[c] (R146). -/
def SYN_CTXMAP (r : RegionId) (c_ : Nat) : Nat := unitBase r.die r.region 0xE0 + 0xF000 + 8 * c_
/-- SYN_REBASE[g] (R146). -/
def SYN_REBASE (r : RegionId) (g_ : Nat) : Nat := unitBase r.die r.region 0xE0 + 0xF208 + 8 * (g_ - 1)
/-- SYN_SAVE_LOC (R146). -/
def SYN_SAVE_LOC (r : RegionId) : Nat := unitBase r.die r.region 0xE0 + 0xF400
/-- SYN_SAVE_CTL (R146). -/
def SYN_SAVE_CTL (r : RegionId) : Nat := unitBase r.die r.region 0xE0 + 0xF408
/-- SYN_STATUS (R146). -/
def SYN_STATUS (r : RegionId) : Nat := unitBase r.die r.region 0xE0 + 0xF410
/-- SYN_ERR_EVENTS (R146). -/
def SYN_ERR_EVENTS (r : RegionId) : Nat := unitBase r.die r.region 0xE0 + 0xF418
/-- SYN_STALE (R146). -/
def SYN_STALE (r : RegionId) : Nat := unitBase r.die r.region 0xE0 + 0xF420
/-- SYN_LOST (R146). -/
def SYN_LOST (r : RegionId) : Nat := unitBase r.die r.region 0xE0 + 0xF428
/-- SYN_OUTQ (R146). -/
def SYN_OUTQ (r : RegionId) : Nat := unitBase r.die r.region 0xE0 + 0xF430
/-- ALM_NOW (R179). -/
def ALM_NOW  : Nat := unitBase 0xF0 1 0
/-- ALM_CTL (R179). -/
def ALM_CTL  : Nat := unitBase 0xF0 1 0 + 0x8
/-- ALM_STATUS (R179). -/
def ALM_STATUS  : Nat := unitBase 0xF0 1 0 + 0x10
/-- ALM_SET (R179). -/
def ALM_SET  : Nat := unitBase 0xF0 1 0 + 0x18
/-- ALM_TRIM (R179). -/
def ALM_TRIM  : Nat := unitBase 0xF0 1 0 + 0x20
/-- ALM_OFFSET (R179). -/
def ALM_OFFSET  : Nat := unitBase 0xF0 1 0 + 0x28
/-- ALM_OOS_EVENTS (R179). -/
def ALM_OOS_EVENTS  : Nat := unitBase 0xF0 1 0 + 0x30
/-- ALM_DISAGREE_EVENTS (R179). -/
def ALM_DISAGREE_EVENTS  : Nat := unitBase 0xF0 1 0 + 0x38
/-- ALM_EPOCH (R179). -/
def ALM_EPOCH  : Nat := unitBase 0xF0 1 0 + 0x40
/-- ALM_JOB (R179). -/
def ALM_JOB  : Nat := unitBase 0xF0 1 0 + 0x48
/-- ALM_DIGEST (R179). -/
def ALM_DIGEST  : Nat := unitBase 0xF0 1 0 + 0x50
/-- ALM_JOB_CTL (R179). -/
def ALM_JOB_CTL  : Nat := unitBase 0xF0 1 0 + 0x58
/-- ALM_JOB_STATUS (R179). -/
def ALM_JOB_STATUS  : Nat := unitBase 0xF0 1 0 + 0x60
/-- ALM_CAL_CTL (R179). -/
def ALM_CAL_CTL  : Nat := unitBase 0xF0 1 0 + 0x68
/-- ALM_OVR_COUNT (R179). -/
def ALM_OVR_COUNT  : Nat := unitBase 0xF0 1 0 + 0x70
/-- ALM_OVR_LAST (R179). -/
def ALM_OVR_LAST  : Nat := unitBase 0xF0 1 0 + 0x78
/-- ALM_CAL_LOC[d] (R179). -/
def ALM_CAL_LOC (d_ : Nat) : Nat := unitBase 0xF0 1 0 + 0x100 + 8 * d_
/-- ALM_CAL_LEN[d] (R179). -/
def ALM_CAL_LEN (d_ : Nat) : Nat := unitBase 0xF0 1 0 + 0x300 + 8 * d_
/-- ALM_CAL_POS[d] (R179). -/
def ALM_CAL_POS (d_ : Nat) : Nat := unitBase 0xF0 1 0 + 0x500 + 8 * d_
/-- RED_LANE_STATE (R241). -/
def RED_LANE_STATE (c : CoreId) : Nat := engBase c .reduce + 0x100
/-- RED_STATUS (R241). -/
def RED_STATUS (c : CoreId) : Nat := engBase c .reduce + 0x108
/-- RED_RESIDUE_EVENTS (R241). -/
def RED_RESIDUE_EVENTS (c : CoreId) : Nat := engBase c .reduce + 0x110
/-- RED_REPLAYS (R241). -/
def RED_REPLAYS (c : CoreId) : Nat := engBase c .reduce + 0x118
/-- RED_RESIDUE_FAILS (R241). -/
def RED_RESIDUE_FAILS (c : CoreId) : Nat := engBase c .reduce + 0x120
/-- RED_INJECT (R241). -/
def RED_INJECT (c : CoreId) : Nat := engBase c .reduce + 0x128
/-- TEN_TILE_STATE (R265). -/
def TEN_TILE_STATE (c : CoreId) : Nat := engBase c .tensor + 0x100
/-- TEN_STATUS (R265). -/
def TEN_STATUS (c : CoreId) : Nat := engBase c .tensor + 0x108
/-- TEN_HAZARD_EVENTS (R265). -/
def TEN_HAZARD_EVENTS (c : CoreId) : Nat := engBase c .tensor + 0x110
/-- TEN_HAZARD_LAST (R265). -/
def TEN_HAZARD_LAST (c : CoreId) : Nat := engBase c .tensor + 0x118
/-- TEN_RESIDUE_EVENTS (R265). -/
def TEN_RESIDUE_EVENTS (c : CoreId) : Nat := engBase c .tensor + 0x120
/-- TEN_REPLAYS (R265). -/
def TEN_REPLAYS (c : CoreId) : Nat := engBase c .tensor + 0x128
/-- TEN_RESIDUE_FAILS (R265). -/
def TEN_RESIDUE_FAILS (c : CoreId) : Nat := engBase c .tensor + 0x130
/-- TEN_INJECT (R265). -/
def TEN_INJECT (c : CoreId) : Nat := engBase c .tensor + 0x138
/-- TEN_MACS (R265). -/
def TEN_MACS (c : CoreId) : Nat := engBase c .tensor + 0x140
/-- TEN_ARRAY_BUSY (R265). -/
def TEN_ARRAY_BUSY (c : CoreId) : Nat := engBase c .tensor + 0x148
/-- STATUS (R308). -/
def UNIT_STATUS (c : CoreId) (e : Cls) : Nat := engBase c e + 0x100
/-- CHECK_EVENTS (R308). -/
def UNIT_CHECK_EVENTS (c : CoreId) (e : Cls) : Nat := engBase c e + 0x108
/-- REPLAYS (R308). -/
def UNIT_REPLAYS (c : CoreId) (e : Cls) : Nat := engBase c e + 0x110
/-- CHECK_FAILS (R308). -/
def UNIT_CHECK_FAILS (c : CoreId) (e : Cls) : Nat := engBase c e + 0x118
/-- INJECT (R308). -/
def UNIT_INJECT (c : CoreId) (e : Cls) : Nat := engBase c e + 0x120
/-- SHP_SKIPPED (Shape only) (R308). -/
def SHP_SKIPPED (c : CoreId) (e : Cls) : Nat := engBase c e + 0x128
/-- SHP_LOST (Shape only) (R308). -/
def SHP_LOST (c : CoreId) (e : Cls) : Nat := engBase c e + 0x130
/-- MOV_TIMEOUT (R310). -/
def MOV_TIMEOUT (c : CoreId) : Nat := engBase c .move + 0x100
/-- MOV_HOLD (R310). -/
def MOV_HOLD (c : CoreId) : Nat := engBase c .move + 0x108
/-- MOV_STATUS (R310). -/
def MOV_STATUS (c : CoreId) : Nat := engBase c .move + 0x110
/-- MOV_TIMEOUTS (R310). -/
def MOV_TIMEOUTS (c : CoreId) : Nat := engBase c .move + 0x118
/-- MOV_RXDROP (R310). -/
def MOV_RXDROP (c : CoreId) : Nat := engBase c .move + 0x120
/-- MOV_CORRECTED (R310). -/
def MOV_CORRECTED (c : CoreId) : Nat := engBase c .move + 0x128
/-- MOV_BYTES_IN (R310). -/
def MOV_BYTES_IN (c : CoreId) : Nat := engBase c .move + 0x130
/-- MOV_BYTES_OUT (R310). -/
def MOV_BYTES_OUT (c : CoreId) : Nat := engBase c .move + 0x138
/-- MOV_QCFG[q] (R310). -/
def MOV_QCFG (c : CoreId) (q_ : Nat) : Nat := engBase c .move + 0x180 + 8 * q_
/-- MOV_QSTAT[q] (R310). -/
def MOV_QSTAT (c : CoreId) (q_ : Nat) : Nat := engBase c .move + 0x200 + 8 * q_
/-- HTH_HEARTH_ECC (R340). -/
def HTH_HEARTH_ECC (c : CoreId) : Nat := coreBase c + 0x120
/-- HTH_BANK_CONFLICTS (R340). -/
def HTH_BANK_CONFLICTS (c : CoreId) : Nat := coreBase c + 0x128
/-- MEM_DS_PART (R341). -/
def MEM_DS_PART (d : Nat) : Nat := unitBase d 0xF0 0
/-- MEM_DS_ECC (R341). -/
def MEM_DS_ECC (d : Nat) : Nat := unitBase d 0xF0 0 + 0x8
/-- MEM_DS_HITS (R341). -/
def MEM_DS_HITS (d : Nat) : Nat := unitBase d 0xF0 0 + 0x10
/-- MEM_DS_MISSES (R341). -/
def MEM_DS_MISSES (d : Nat) : Nat := unitBase d 0xF0 0 + 0x18
/-- MEM_CWIN_BASE[w] (R341). -/
def MEM_CWIN_BASE (d : Nat) (w_ : Nat) : Nat := unitBase d 0xF0 0 + 0x100 + 16 * w_
/-- MEM_CWIN_CTL[w] (R341). -/
def MEM_CWIN_CTL (d : Nat) (w_ : Nat) : Nat := unitBase d 0xF0 0 + 0x108 + 16 * w_
/-- MEM_STACK_STATUS (R342). -/
def MEM_STACK_STATUS (s : Nat) : Nat := unitBase (0x80 + s) 0 0xFF
/-- MEM_LINK_CTL (R342). -/
def MEM_LINK_CTL (s : Nat) : Nat := unitBase (0x80 + s) 0 0xFF + 0x8
/-- MEM_SCRUB (R342). -/
def MEM_SCRUB (s : Nat) : Nat := unitBase (0x80 + s) 0 0xFF + 0x10
/-- MEM_RETRAINS (R342). -/
def MEM_RETRAINS (s : Nat) : Nat := unitBase (0x80 + s) 0 0xFF + 0x18
/-- MEM_ATOMIC_STATUS (R342). -/
def MEM_ATOMIC_STATUS (s : Nat) : Nat := unitBase (0x80 + s) 0 0xFF + 0x20
/-- MEM_ATOMIC_EVENTS (R342). -/
def MEM_ATOMIC_EVENTS (s : Nat) : Nat := unitBase (0x80 + s) 0 0xFF + 0x28
/-- MEM_ATOMIC_FAILS (R342). -/
def MEM_ATOMIC_FAILS (s : Nat) : Nat := unitBase (0x80 + s) 0 0xFF + 0x30
/-- MEM_PARTIAL (R342). -/
def MEM_PARTIAL (s : Nat) : Nat := unitBase (0x80 + s) 0 0xFF + 0x38
/-- MEM_AWIN_SUM (R342). -/
def MEM_AWIN_SUM (s : Nat) : Nat := unitBase (0x80 + s) 0 0xFF + 0x40
/-- MEM_AWIN_BASE[w] (R342). -/
def MEM_AWIN_BASE (s : Nat) (w_ : Nat) : Nat := unitBase (0x80 + s) 0 0xFF + 0x100 + 16 * w_
/-- MEM_AWIN_CTL[w] (R342). -/
def MEM_AWIN_CTL (s : Nat) (w_ : Nat) : Nat := unitBase (0x80 + s) 0 0xFF + 0x108 + 16 * w_
/-- MEM_CH_ECC (R343). -/
def MEM_CH_ECC (s ch : Nat) : Nat := unitBase (0x80 + s) 0 ch
/-- MEM_CH_SLOTS (R343). -/
def MEM_CH_SLOTS (s ch : Nat) : Nat := unitBase (0x80 + s) 0 ch + 0x8
/-- GRT_RPOOL_CFG (R369). -/
def GRT_RPOOL_CFG (r : RegionId) : Nat := unitBase r.die r.region 0xE2
/-- GRT_RCTL (R369). -/
def GRT_RCTL (r : RegionId) : Nat := unitBase r.die r.region 0xE2 + 0x8
/-- GRT_RPOOL_STAT (R369). -/
def GRT_RPOOL_STAT (r : RegionId) : Nat := unitBase r.die r.region 0xE2 + 0x10
/-- GRT_STATUS (R369). -/
def GRT_STATUS (r : RegionId) : Nat := unitBase r.die r.region 0xE2 + 0x18
/-- GRT_RPOOL_OVERFLOWS (R369). -/
def GRT_RPOOL_OVERFLOWS (r : RegionId) : Nat := unitBase r.die r.region 0xE2 + 0x20
/-- GRT_REFUSALS (R369). -/
def GRT_REFUSALS (r : RegionId) : Nat := unitBase r.die r.region 0xE2 + 0x28
/-- GRT_DEFERRALS (R369). -/
def GRT_DEFERRALS (r : RegionId) : Nat := unitBase r.die r.region 0xE2 + 0x30
/-- GRT_BAD_FREES (R369). -/
def GRT_BAD_FREES (r : RegionId) : Nat := unitBase r.die r.region 0xE2 + 0x38
/-- GRT_WAIT_LIMIT (R369). -/
def GRT_WAIT_LIMIT (r : RegionId) : Nat := unitBase r.die r.region 0xE2 + 0x40
/-- GRT_WAITQ (R369). -/
def GRT_WAITQ (r : RegionId) : Nat := unitBase r.die r.region 0xE2 + 0x48
/-- GRT_QUERY_LOC (R369). -/
def GRT_QUERY_LOC (r : RegionId) : Nat := unitBase r.die r.region 0xE2 + 0x50
/-- GRT_QUERY_OWN (R369). -/
def GRT_QUERY_OWN (r : RegionId) : Nat := unitBase r.die r.region 0xE2 + 0x58
/-- GRT_QUERY_CHG (R369). -/
def GRT_QUERY_CHG (r : RegionId) : Nat := unitBase r.die r.region 0xE2 + 0x60
/-- GRT_RPOOL_OWNER[e] (R369). -/
def GRT_RPOOL_OWNER (r : RegionId) (e_ : Nat) : Nat := unitBase r.die r.region 0xE2 + 0x100 + 8 * e_
/-- GRT_RPOOL_INUSE[e] (R369). -/
def GRT_RPOOL_INUSE (r : RegionId) (e_ : Nat) : Nat := unitBase r.die r.region 0xE2 + 0x800 + 8 * e_
/-- GRT_CPOOL_CFG[c] (R369). -/
def GRT_CPOOL_CFG (r : RegionId) (c_ : Nat) : Nat := unitBase r.die r.region 0xE2 + 0x1000 + 64 * c_
/-- GRT_CPOOL_STAT[c] (R369). -/
def GRT_CPOOL_STAT (r : RegionId) (c_ : Nat) : Nat := unitBase r.die r.region 0xE2 + 0x1008 + 64 * c_
/-- GRT_CPOOL_OWNER[c][e] (R369). -/
def GRT_CPOOL_OWNER (r : RegionId) (c_ : Nat) (e_ : Nat) : Nat := unitBase r.die r.region 0xE2 + 0x1010 + 64 * c_ + 8 * e_
/-- GRT_CPOOL_INUSE[c] (R369). -/
def GRT_CPOOL_INUSE (r : RegionId) (c_ : Nat) : Nat := unitBase r.die r.region 0xE2 + 0x1030 + 64 * c_
/-- GRT_CPOOL_OVERFLOWS[c] (R369). -/
def GRT_CPOOL_OVERFLOWS (r : RegionId) (c_ : Nat) : Nat := unitBase r.die r.region 0xE2 + 0x1038 + 64 * c_
/-- GRT_FPOOL_CFG (R369). -/
def GRT_FPOOL_CFG  : Nat := unitBase 0xF0 4 0
/-- GRT_FCTL (R369). -/
def GRT_FCTL  : Nat := unitBase 0xF0 4 0 + 0x8
/-- GRT_FPOOL_STAT (R369). -/
def GRT_FPOOL_STAT  : Nat := unitBase 0xF0 4 0 + 0x10
/-- GRT_FPOOL_STATUS (R369). -/
def GRT_FPOOL_STATUS  : Nat := unitBase 0xF0 4 0 + 0x18
/-- GRT_FPOOL_OVERFLOWS (R369). -/
def GRT_FPOOL_OVERFLOWS  : Nat := unitBase 0xF0 4 0 + 0x20
/-- GRT_FPOOL_BAD_FREES (R369). -/
def GRT_FPOOL_BAD_FREES  : Nat := unitBase 0xF0 4 0 + 0x28
/-- GRT_FQUERY_LOC (R369). -/
def GRT_FQUERY_LOC  : Nat := unitBase 0xF0 4 0 + 0x30
/-- GRT_FQUERY_OWN (R369). -/
def GRT_FQUERY_OWN  : Nat := unitBase 0xF0 4 0 + 0x38
/-- GRT_FQUERY_CHG (R369). -/
def GRT_FQUERY_CHG  : Nat := unitBase 0xF0 4 0 + 0x40
/-- GRT_FPOOL_OWNER[e] (R369). -/
def GRT_FPOOL_OWNER (e_ : Nat) : Nat := unitBase 0xF0 4 0 + 0x1000 + 8 * e_
/-- GRT_FPOOL_INUSE[e] (R369). -/
def GRT_FPOOL_INUSE (e_ : Nat) : Nat := unitBase 0xF0 4 0 + 0x1800 + 8 * e_
/-- LNK_IOD_STATUS (R408). -/
def LNK_IOD_STATUS (n : Nat) : Nat := unitBase (0x40 + n) 0 0
/-- LNK_HOP_LIMIT (R408). -/
def LNK_HOP_LIMIT (n : Nat) : Nat := unitBase (0x40 + n) 0 0 + 0x8
/-- LNK_ETH_NOMATCH (R408). -/
def LNK_ETH_NOMATCH (n : Nat) : Nat := unitBase (0x40 + n) 0 0 + 0x10
/-- LNK_ETH_FIB[e].W0 (R408). -/
def LNK_ETH_FIB_W0 (n : Nat) (e_ : Nat) : Nat := unitBase (0x40 + n) 0 0 + 0x8000 + 16 * e_
/-- LNK_ETH_FIB[e].W1 (R408). -/
def LNK_ETH_FIB_W1 (n : Nat) (e_ : Nat) : Nat := unitBase (0x40 + n) 0 0 + 0x8008 + 16 * e_
/-- LNK_LANE_STATUS (R409). -/
def LNK_LANE_STATUS (l : Nat) : Nat := laneBase l
/-- LNK_LANE_FEC (R409). -/
def LNK_LANE_FEC (l : Nat) : Nat := laneBase l + 0x8
/-- LNK_LANE_OPT (R409). -/
def LNK_LANE_OPT (l : Nat) : Nat := laneBase l + 0x10
/-- LNK_PORT_CFG (R409). -/
def LNK_PORT_CFG (l : Nat) : Nat := laneBase l + 0x100
/-- LNK_PORT_CTL (R409). -/
def LNK_PORT_CTL (l : Nat) : Nat := laneBase l + 0x108
/-- LNK_PORT_STATUS (R409). -/
def LNK_PORT_STATUS (l : Nat) : Nat := laneBase l + 0x110
/-- LNK_PEER (R409). -/
def LNK_PEER (l : Nat) : Nat := laneBase l + 0x118
/-- LNK_ASYM (R409). -/
def LNK_ASYM (l : Nat) : Nat := laneBase l + 0x120
/-- LNK_ASYM_TRIM (R409). -/
def LNK_ASYM_TRIM (l : Nat) : Nat := laneBase l + 0x128
/-- LNK_PORT_FLAGS (R409). -/
def LNK_PORT_FLAGS (l : Nat) : Nat := laneBase l + 0x130
/-- LNK_CRC_ERRS (R409). -/
def LNK_CRC_ERRS (l : Nat) : Nat := laneBase l + 0x138
/-- LNK_FEC_UNCORR (R409). -/
def LNK_FEC_UNCORR (l : Nat) : Nat := laneBase l + 0x140
/-- LNK_REPLAYS (R409). -/
def LNK_REPLAYS (l : Nat) : Nat := laneBase l + 0x148
/-- LNK_DOWNS (R409). -/
def LNK_DOWNS (l : Nat) : Nat := laneBase l + 0x150
/-- LNK_BADHDR (R409). -/
def LNK_BADHDR (l : Nat) : Nat := laneBase l + 0x158
/-- LNK_DISCARDS (R409). -/
def LNK_DISCARDS (l : Nat) : Nat := laneBase l + 0x160
/-- LNK_ETH_DROPS (R409). -/
def LNK_ETH_DROPS (l : Nat) : Nat := laneBase l + 0x168
/-- LNK_TX_BYTES (R409). -/
def LNK_TX_BYTES (l : Nat) : Nat := laneBase l + 0x170
/-- LNK_RX_BYTES (R409). -/
def LNK_RX_BYTES (l : Nat) : Nat := laneBase l + 0x178
/-- RTE_MODE (R451). -/
def RTE_MODE  : Nat := unitBase 0xF0 2 0
/-- RTE_EPOCH (R451). -/
def RTE_EPOCH  : Nat := unitBase 0xF0 2 0 + 0x8
/-- RTE_FLIP_AT (R451). -/
def RTE_FLIP_AT  : Nat := unitBase 0xF0 2 0 + 0x10
/-- RTE_DRAIN (R451). -/
def RTE_DRAIN  : Nat := unitBase 0xF0 2 0 + 0x18
/-- RTE_ESC_DELAY (R451). -/
def RTE_ESC_DELAY  : Nat := unitBase 0xF0 2 0 + 0x20
/-- RTE_STATUS (R451). -/
def RTE_STATUS  : Nat := unitBase 0xF0 2 0 + 0x28
/-- RTE_NOROUTE (R451). -/
def RTE_NOROUTE  : Nat := unitBase 0xF0 2 0 + 0x30
/-- RTE_ESCVIOL (R451). -/
def RTE_ESCVIOL  : Nat := unitBase 0xF0 2 0 + 0x38
/-- RTE_CMAP_LOC (R451). -/
def RTE_CMAP_LOC  : Nat := unitBase 0xF0 2 0 + 0x40
/-- RTE_CMAP_CTL (R451). -/
def RTE_CMAP_CTL  : Nat := unitBase 0xF0 2 0 + 0x48
/-- RTE_CMAP_SEQ (R451). -/
def RTE_CMAP_SEQ  : Nat := unitBase 0xF0 2 0 + 0x50
/-- RTE_ESC_PKTS (R451). -/
def RTE_ESC_PKTS  : Nat := unitBase 0xF0 2 0 + 0x58
/-- RTE_EP_SEL (R451). -/
def RTE_EP_SEL  : Nat := unitBase 0xF0 2 0 + 0x60
/-- RTE_EP_DATA (R451). -/
def RTE_EP_DATA  : Nat := unitBase 0xF0 2 0 + 0x68
/-- RTE_POOLS0 (R451). -/
def RTE_POOLS0  : Nat := unitBase 0xF0 2 0 + 0x70
/-- RTE_POOLS1 (R451). -/
def RTE_POOLS1  : Nat := unitBase 0xF0 2 0 + 0x78
/-- RTE_PORT[p] (R451). -/
def RTE_PORT (p_ : Nat) : Nat := unitBase 0xF0 2 0 + 0xA000 + 8 * p_
/-- RTE_IOD_ESC_PKTS (R452). -/
def RTE_IOD_ESC_PKTS (n : Nat) : Nat := unitBase (0x40 + n) 0x10 0
/-- RTE_IOD_HOLD_DROPS (R452). -/
def RTE_IOD_HOLD_DROPS (n : Nat) : Nat := unitBase (0x40 + n) 0x10 0 + 0x8
/-- RTE_RP_TX_BYTES (R452). -/
def RTE_RP_TX_BYTES (r : RegionId) : Nat := unitBase r.die r.region 0xE1
/-- RTE_RP_RX_BYTES (R452). -/
def RTE_RP_RX_BYTES (r : RegionId) : Nat := unitBase r.die r.region 0xE1 + 0x8
/-- RTE_MESH_BYTES[n] (R452). -/
def RTE_MESH_BYTES (d : Nat) (n_ : Nat) : Nat := unitBase d 0xF1 0 + 8 * n_
/-- DMP_STATUS (R453). -/
def DMP_STATUS  : Nat := unitBase 0xF0 5 0
/-- DMP_ADMIT_WAIT (R453). -/
def DMP_ADMIT_WAIT  : Nat := unitBase 0xF0 5 0 + 0x8
/-- DMP_DEFERRALS (R453). -/
def DMP_DEFERRALS  : Nat := unitBase 0xF0 5 0 + 0x10
/-- DMP_THROTTLES (R453). -/
def DMP_THROTTLES  : Nat := unitBase 0xF0 5 0 + 0x18
/-- DMP_REFUSALS (R453). -/
def DMP_REFUSALS  : Nat := unitBase 0xF0 5 0 + 0x20
/-- DMP_GATE_OVERRUNS (R453). -/
def DMP_GATE_OVERRUNS  : Nat := unitBase 0xF0 5 0 + 0x28
/-- DMP_ADMIT[a] (R453). -/
def DMP_ADMIT (a_ : Nat) : Nat := unitBase 0xF0 5 0 + 0x1000 + 8 * a_
/-- DMP_ADMIT_Q[a] (R453). -/
def DMP_ADMIT_Q (a_ : Nat) : Nat := unitBase 0xF0 5 0 + 0x1800 + 8 * a_
/-- DMP_L1_CFG[d] (R453). -/
def DMP_L1_CFG (d_ : Nat) : Nat := unitBase 0xF0 5 0 + 0x2000 + 16 * d_
/-- DMP_L1_TOK[d] (R453). -/
def DMP_L1_TOK (d_ : Nat) : Nat := unitBase 0xF0 5 0 + 0x2008 + 16 * d_
/-- DMP_L0_CFG[d] (R453). -/
def DMP_L0_CFG (d_ : Nat) : Nat := unitBase 0xF0 5 0 + 0x4000 + 16 * d_
/-- DMP_L0_TOK[d] (R453). -/
def DMP_L0_TOK (d_ : Nat) : Nat := unitBase 0xF0 5 0 + 0x4008 + 16 * d_
/-- DMP_GATE_CFG[g] (R453). -/
def DMP_GATE_CFG (g_ : Nat) : Nat := unitBase 0xF0 5 0 + 0x8000 + 128 * g_
/-- DMP_GATE_WIN[g][i] (R453). -/
def DMP_GATE_WIN (g_ : Nat) (i_ : Nat) : Nat := unitBase 0xF0 5 0 + 0x8008 + 128 * g_ + 8 * i_
/-- FLU_CMD (R490). -/
def FLU_CMD  : Nat := unitBase 0xF0 3 0
/-- FLU_CMD_LOC (R490). -/
def FLU_CMD_LOC  : Nat := unitBase 0xF0 3 0 + 0x8
/-- FLU_STATUS (R490). -/
def FLU_STATUS  : Nat := unitBase 0xF0 3 0 + 0x10
/-- FLU_TIMEOUT (R490). -/
def FLU_TIMEOUT  : Nat := unitBase 0xF0 3 0 + 0x18
/-- FLU_RESEND (R490). -/
def FLU_RESEND  : Nat := unitBase 0xF0 3 0 + 0x20
/-- FLU_QRESEND (R490). -/
def FLU_QRESEND  : Nat := unitBase 0xF0 3 0 + 0x28
/-- FLU_WAIT (R490). -/
def FLU_WAIT  : Nat := unitBase 0xF0 3 0 + 0x30
/-- FLU_MISMATCHES (R490). -/
def FLU_MISMATCHES  : Nat := unitBase 0xF0 3 0 + 0x38
/-- FLU_TIMEOUTS (R490). -/
def FLU_TIMEOUTS  : Nat := unitBase 0xF0 3 0 + 0x40
/-- FLU_RESENDS (R490). -/
def FLU_RESENDS  : Nat := unitBase 0xF0 3 0 + 0x48
/-- FLU_ABORTS (R490). -/
def FLU_ABORTS  : Nat := unitBase 0xF0 3 0 + 0x50
/-- FLU_REFUSALS (R490). -/
def FLU_REFUSALS  : Nat := unitBase 0xF0 3 0 + 0x58
/-- FLU_LAST_EARLY (R490). -/
def FLU_LAST_EARLY  : Nat := unitBase 0xF0 3 0 + 0x60
/-- FLU_BYTES_IN (R490). -/
def FLU_BYTES_IN  : Nat := unitBase 0xF0 3 0 + 0x68
/-- FLU_BYTES_OUT (R490). -/
def FLU_BYTES_OUT  : Nat := unitBase 0xF0 3 0 + 0x70
/-- FLU_ENTRY[f] (R490). -/
def FLU_ENTRY (f_ : Nat) : Nat := unitBase 0xF0 3 0 + 0x1000 + 8 * f_
/-- HTH_SPARE_CMD (R525). -/
def HTH_SPARE_CMD (d : Nat) : Nat := unitBase d 0xFF 0 + 0x100
/-- HTH_SPARE_CTL (R525). -/
def HTH_SPARE_CTL (d : Nat) : Nat := unitBase d 0xFF 0 + 0x108
/-- HTH_SUBSTITUTIONS (R525). -/
def HTH_SUBSTITUTIONS (d : Nat) : Nat := unitBase d 0xFF 0 + 0x110
/-- HTH_SPARE_MAP[r] (R525). -/
def HTH_SPARE_MAP (d : Nat) (r_ : Nat) : Nat := unitBase d 0xFF 0 + 0x1000 + 8 * r_
/-- HTH_SPARE_MARK[r] (R525). -/
def HTH_SPARE_MARK (d : Nat) (r_ : Nat) : Nat := unitBase d 0xFF 0 + 0x1400 + 8 * r_
/-- RTE_MESH_LINK[n] (R526). -/
def RTE_MESH_LINK (d : Nat) (n_ : Nat) : Nat := unitBase d 0xF1 0 + 0x100 + 8 * n_
/-- RTE_MESH_RETRAINS[n] (R526). -/
def RTE_MESH_RETRAINS (d : Nat) (n_ : Nat) : Nat := unitBase d 0xF1 0 + 0x120 + 8 * n_
/-- RTE_IOD_ATTACH[a] (R526). -/
def RTE_IOD_ATTACH (n : Nat) (a_ : Nat) : Nat := unitBase (0x40 + n) 0x10 0 + 0x100 + 8 * a_
/-- RTE_IOD_RETRAINS[a] (R526). -/
def RTE_IOD_RETRAINS (n : Nat) (a_ : Nat) : Nat := unitBase (0x40 + n) 0x10 0 + 0x120 + 8 * a_
/-- VIG_REL_STATUS (R527). -/
def VIG_REL_STATUS  : Nat := vigRelBase + 0x1000
/-- VIG_REL_EVENTS[i] (R527). -/
def VIG_REL_EVENTS (i_ : Nat) : Nat := vigRelBase + 0x1008 + 8 * i_
/-- VIG_ASH_SEL (R527). -/
def VIG_ASH_SEL  : Nat := vigRelBase + 0x1048
/-- VIG_ASH_WORD[w] (R527). -/
def VIG_ASH_WORD (w_ : Nat) : Nat := vigRelBase + 0x1050 + 8 * w_
/-- VIG_ASH_HEAD (R527). -/
def VIG_ASH_HEAD  : Nat := vigRelBase + 0x1090
/-- VIG_ASH_ACK (R527). -/
def VIG_ASH_ACK  : Nat := vigRelBase + 0x1098
/-- VIG_ASH_LOST (R527). -/
def VIG_ASH_LOST  : Nat := vigRelBase + 0x10A0
/-- VIG_HEALTH_CTL (R527). -/
def VIG_HEALTH_CTL  : Nat := vigRelBase + 0x1100
/-- VIG_HEALTH_W (R527). -/
def VIG_HEALTH_W  : Nat := vigRelBase + 0x1108
/-- VIG_HEALTH_THR (R527). -/
def VIG_HEALTH_THR  : Nat := vigRelBase + 0x1110
/-- VIG_HEALTH (R527). -/
def VIG_HEALTH  : Nat := vigRelBase + 0x1118
/-- VIG_LATE_CFG (R527). -/
def VIG_LATE_CFG  : Nat := vigRelBase + 0x1120
/-- VIG_LATE_SEL (R527). -/
def VIG_LATE_SEL  : Nat := vigRelBase + 0x1128
/-- VIG_LATE_DATA (R527). -/
def VIG_LATE_DATA  : Nat := vigRelBase + 0x1130
/-- VIG_SHD_CTL (R527). -/
def VIG_SHD_CTL  : Nat := vigRelBase + 0x1200
/-- VIG_SHD_TAKE (R527). -/
def VIG_SHD_TAKE  : Nat := vigRelBase + 0x1208
/-- VIG_SHD_STATUS (R527). -/
def VIG_SHD_STATUS  : Nat := vigRelBase + 0x1210
/-- VIG_SHD_LAST (R527). -/
def VIG_SHD_LAST  : Nat := vigRelBase + 0x1218
/-- VIG_SHD_HOLD (R527). -/
def VIG_SHD_HOLD  : Nat := vigRelBase + 0x1220
/-- VIG_QNONCE (R527). -/
def VIG_QNONCE  : Nat := vigRelBase + 0x1300
/-- VIG_QKEYS (R527). -/
def VIG_QKEYS  : Nat := vigRelBase + 0x1308
/-- VIG_QREJECTS (R527). -/
def VIG_QREJECTS  : Nat := vigRelBase + 0x1310
/-- VIG_REC_LOC (R527). -/
def VIG_REC_LOC  : Nat := vigRelBase + 0x1400
/-- VIG_REC_SIZE (R527). -/
def VIG_REC_SIZE  : Nat := vigRelBase + 0x1408
/-- VIG_REC_CTL (R527). -/
def VIG_REC_CTL  : Nat := vigRelBase + 0x1410
/-- VIG_REC_MARK (R527). -/
def VIG_REC_MARK  : Nat := vigRelBase + 0x1418
/-- VIG_REC_SEQ (R527). -/
def VIG_REC_SEQ  : Nat := vigRelBase + 0x1420
/-- VIG_REC_HEAD (R527). -/
def VIG_REC_HEAD  : Nat := vigRelBase + 0x1428
/-- VIG_REC_GAPS (R527). -/
def VIG_REC_GAPS  : Nat := vigRelBase + 0x1430
/-- VIG_RPL_LOC (R527). -/
def VIG_RPL_LOC  : Nat := vigRelBase + 0x1500
/-- VIG_RPL_SIZE (R527). -/
def VIG_RPL_SIZE  : Nat := vigRelBase + 0x1508
/-- VIG_RPL_START (R527). -/
def VIG_RPL_START  : Nat := vigRelBase + 0x1510
/-- VIG_RPL_END (R527). -/
def VIG_RPL_END  : Nat := vigRelBase + 0x1518
/-- VIG_RPL_CTL (R527). -/
def VIG_RPL_CTL  : Nat := vigRelBase + 0x1520
/-- VIG_RPL_STATUS (R527). -/
def VIG_RPL_STATUS  : Nat := vigRelBase + 0x1528
/-- VIG_IDENT (R568). -/
def VIG_IDENT  : Nat := unitBase 0xF0 0 0
/-- VIG_SERIAL (R568). -/
def VIG_SERIAL  : Nat := unitBase 0xF0 0 0 + 0x8
/-- VIG_STATE (R568). -/
def VIG_STATE  : Nat := unitBase 0xF0 0 0 + 0x10
/-- VIG_MODULE_ID (R568). -/
def VIG_MODULE_ID  : Nat := unitBase 0xF0 0 0 + 0x18
/-- VIG_BOOT_STATUS (R568). -/
def VIG_BOOT_STATUS  : Nat := unitBase 0xF0 0 0 + 0x20
/-- VIG_INBAND_CTL (R568). -/
def VIG_INBAND_CTL  : Nat := unitBase 0xF0 0 0 + 0x28
/-- VIG_CMD_REJECTS (R568). -/
def VIG_CMD_REJECTS  : Nat := unitBase 0xF0 0 0 + 0x30
/-- VIG_MGMT_DROPS (R568). -/
def VIG_MGMT_DROPS  : Nat := unitBase 0xF0 0 0 + 0x38
/-- VIG_REPRO_ID (R568). -/
def VIG_REPRO_ID  : Nat := unitBase 0xF0 0 0 + 0x40
/-- VIG_SECVER (R568). -/
def VIG_SECVER  : Nat := unitBase 0xF0 0 0 + 0x48
/-- VIG_ROLE (R569). -/
def VIG_ROLE (n : Nat) : Nat := unitBase (0x40 + n) 0x20 0
/-- VIG_IHL_STATUS (R569). -/
def VIG_IHL_STATUS (n : Nat) : Nat := unitBase (0x40 + n) 0x20 0 + 0x8
/-- VIG_IHL_CMDS (R569). -/
def VIG_IHL_CMDS (n : Nat) : Nat := unitBase (0x40 + n) 0x20 0 + 0x10
/-- VIG_FAILOVERS (R569). -/
def VIG_FAILOVERS (n : Nat) : Nat := unitBase (0x40 + n) 0x20 0 + 0x18
/-- PWR_STATUS (R593). -/
def PWR_STATUS  : Nat := unitBase 0xF0 6 0
/-- PWR_THERM_CTL (R593). -/
def PWR_THERM_CTL  : Nat := unitBase 0xF0 6 0 + 0x8
/-- PWR_INPUT (R593). -/
def PWR_INPUT  : Nat := unitBase 0xF0 6 0 + 0x10
/-- PWR_PEAK (R593). -/
def PWR_PEAK  : Nat := unitBase 0xF0 6 0 + 0x18
/-- PWR_COOLANT (R593). -/
def PWR_COOLANT  : Nat := unitBase 0xF0 6 0 + 0x20
/-- PWR_LAST_FAULT (R593). -/
def PWR_LAST_FAULT  : Nat := unitBase 0xF0 6 0 + 0x28
/-- PWR_THROTTLE_CYCLES (R593). -/
def PWR_THROTTLE_CYCLES  : Nat := unitBase 0xF0 6 0 + 0x30
/-- PWR_EVENTS[i] (R593). -/
def PWR_EVENTS (i_ : Nat) : Nat := unitBase 0xF0 6 0 + 0x40 + 8 * i_
/-- PWR_PAIR[p] (R593). -/
def PWR_PAIR (p_ : Nat) : Nat := unitBase 0xF0 6 0 + 0x100 + 8 * p_
/-- PWR_DIE[d] (R593). -/
def PWR_DIE (d_ : Nat) : Nat := unitBase 0xF0 6 0 + 0x200 + 8 * d_
/-- PWR_STACK[s] (R593). -/
def PWR_STACK (s_ : Nat) : Nat := unitBase 0xF0 6 0 + 0x400 + 8 * s_
/-- PWR_IOD[n] (R593). -/
def PWR_IOD (n_ : Nat) : Nat := unitBase 0xF0 6 0 + 0x600 + 8 * n_
/-- LNK_OE_STATUS (R409). -/
def LNK_OE_STATUS (m : Nat) : Nat := unitBase (0x40 + m / 2) (1 + m % 2) 0xFF
/-- RTE_MTAB0 (R451). -/
def RTE_MTAB0 (m_ : Nat) : Nat := unitBase 0xF0 2 0 + 0x2000 + 8 * m_
/-- RTE_MTAB1 (R451). -/
def RTE_MTAB1 (m_ : Nat) : Nat := unitBase 0xF0 2 0 + 0x6000 + 8 * m_

end Reg

/-! The fields, each named register_field. -/
namespace F

def HTH_BANK_CTL_SWAPS : Fld := ⟨31, 16⟩
def HTH_BANK_CTL_DISARM : Fld := ⟨2, 2⟩
def HTH_BANK_CTL_ARMED : Fld := ⟨1, 1⟩
def HTH_BANK_CTL_ACTIVE : Fld := ⟨0, 0⟩
def HTH_DESC_TABLE_COUNT : Fld := ⟨31, 24⟩
def HTH_DESC_TABLE_BASE : Fld := ⟨16, 0⟩
def HTH_CTX_CONTEXT : Fld := ⟨5, 0⟩
def HTH_ISTORE_ECC_UNCORR : Fld := ⟨63, 32⟩
def HTH_ISTORE_ECC_CORR : Fld := ⟨31, 0⟩
def SEQ_CTL_RETRY : Fld := ⟨3, 3⟩
def SEQ_CTL_CLEAR_FAULT : Fld := ⟨2, 2⟩
def SEQ_CTL_STOP : Fld := ⟨1, 1⟩
def SEQ_CTL_START : Fld := ⟨0, 0⟩
def SEQ_STATUS_QDEPTH : Fld := ⟨37, 31⟩
def SEQ_STATUS_FAULT_PC : Fld := ⟨30, 21⟩
def SEQ_STATUS_LAST_FAULT : Fld := ⟨20, 13⟩
def SEQ_STATUS_STATE : Fld := ⟨12, 10⟩
def SEQ_STATUS_PC : Fld := ⟨9, 0⟩
def ENTRY_VALID : Fld := ⟨31, 31⟩
def ENTRY_PC : Fld := ⟨9, 0⟩
def WAIT_LIMIT_LIMIT : Fld := ⟨31, 0⟩
def CR_BASE_ENTRIES : Fld := ⟨31, 24⟩
def CR_BASE_BASE : Fld := ⟨16, 0⟩
def CR_SEQ_COUNT : Fld := ⟨63, 0⟩
def SAT_TOTAL_COUNT : Fld := ⟨63, 0⟩
def FLUSH_TOTAL_COUNT : Fld := ⟨63, 0⟩
def RETIRED_COUNT : Fld := ⟨63, 0⟩
def WAIT_CYCLES_COUNT : Fld := ⟨63, 0⟩
def SYN_OBJ_WORD : Fld := ⟨63, 0⟩
def SYN_XLAT_VALID : Fld := ⟨63, 63⟩
def SYN_XLAT_SCOPE : Fld := ⟨62, 61⟩
def SYN_XLAT_TAG : Fld := ⟨60, 57⟩
def SYN_XLAT_MODULE : Fld := ⟨56, 45⟩
def SYN_XLAT_DIE : Fld := ⟨44, 39⟩
def SYN_XLAT_REGION : Fld := ⟨38, 32⟩
def SYN_XLAT_OBJECT : Fld := ⟨11, 0⟩
def SYN_TRACK_MEMBER_MASK : Fld := ⟨63, 0⟩
def SYN_TRACK_CUR_MASK : Fld := ⟨63, 0⟩
def SYN_TRACK_NEXT_MASK : Fld := ⟨63, 0⟩
def SYN_CTXMAP_VALID : Fld := ⟨63, 63⟩
def SYN_CTXMAP_VBASE : Fld := ⟨43, 28⟩
def SYN_CTXMAP_COUNT : Fld := ⟨27, 16⟩
def SYN_CTXMAP_TBASE : Fld := ⟨10, 0⟩
def SYN_REBASE_BARRIER : Fld := ⟨47, 36⟩
def SYN_REBASE_BASE : Fld := ⟨23, 0⟩
def SYN_SAVE_LOC_LOCATOR : Fld := ⟨63, 0⟩
def SYN_SAVE_CTL_BUSY : Fld := ⟨31, 31⟩
def SYN_SAVE_CTL_STATUS : Fld := ⟨23, 16⟩
def SYN_SAVE_CTL_OP : Fld := ⟨9, 8⟩
def SYN_SAVE_CTL_FREE : Fld := ⟨7, 7⟩
def SYN_SAVE_CTL_CONTEXT : Fld := ⟨5, 0⟩
def SYN_STATUS_LOST_SEEN : Fld := ⟨2, 2⟩
def SYN_STATUS_STALE_SEEN : Fld := ⟨1, 1⟩
def SYN_STATUS_ERR_SEEN : Fld := ⟨0, 0⟩
def SYN_ERR_EVENTS_COUNT : Fld := ⟨31, 0⟩
def SYN_STALE_COUNT : Fld := ⟨31, 0⟩
def SYN_LOST_COUNT : Fld := ⟨31, 0⟩
def SYN_OUTQ_DEPTH : Fld := ⟨6, 0⟩
def ALM_NOW_COUNT : Fld := ⟨63, 0⟩
def ALM_CTL_ROOT : Fld := ⟨31, 31⟩
def ALM_CTL_RELOCK : Fld := ⟨30, 30⟩
def ALM_CTL_K : Fld := ⟨29, 25⟩
def ALM_CTL_BACKUP_VALID : Fld := ⟨24, 24⟩
def ALM_CTL_BACKUP_PORT : Fld := ⟨23, 14⟩
def ALM_CTL_PARENT_PORT : Fld := ⟨13, 4⟩
def ALM_CTL_PARENT_VALID : Fld := ⟨3, 3⟩
def ALM_STATUS_DEPTH : Fld := ⟨15, 8⟩
def ALM_STATUS_OVERRUN_SEEN : Fld := ⟨6, 6⟩
def ALM_STATUS_NEIGHBOUR_DISAGREE : Fld := ⟨5, 5⟩
def ALM_STATUS_OUT_OF_STEP : Fld := ⟨4, 4⟩
def ALM_STATUS_ON_BACKUP : Fld := ⟨3, 3⟩
def ALM_STATUS_STATE : Fld := ⟨2, 0⟩
def ALM_SET_COUNT : Fld := ⟨63, 0⟩
def ALM_TRIM_PPB : Fld := ⟨31, 0⟩
def ALM_OFFSET_PS : Fld := ⟨31, 0⟩
def ALM_OOS_EVENTS_COUNT : Fld := ⟨31, 0⟩
def ALM_DISAGREE_EVENTS_COUNT : Fld := ⟨31, 0⟩
def ALM_EPOCH_EPOCH : Fld := ⟨63, 0⟩
def ALM_JOB_JOB_ID : Fld := ⟨63, 32⟩
def ALM_JOB_HS_FLUE : Fld := ⟨11, 0⟩
def ALM_DIGEST_DIGEST : Fld := ⟨63, 0⟩
def ALM_JOB_CTL_ABORT : Fld := ⟨1, 1⟩
def ALM_JOB_CTL_ARM : Fld := ⟨0, 0⟩
def ALM_JOB_STATUS_STATUS : Fld := ⟨15, 8⟩
def ALM_JOB_STATUS_PHASE : Fld := ⟨2, 0⟩
def ALM_CAL_CTL_OVR_ACT : Fld := ⟨1, 0⟩
def ALM_OVR_COUNT_COUNT : Fld := ⟨31, 0⟩
def ALM_OVR_LAST_DIE : Fld := ⟨63, 58⟩
def ALM_OVR_LAST_ENTRY : Fld := ⟨57, 38⟩
def ALM_OVR_LAST_REASON : Fld := ⟨37, 36⟩
def ALM_OVR_LAST_QID : Fld := ⟨35, 27⟩
def ALM_OVR_LAST_REGION : Fld := ⟨26, 20⟩
def ALM_CAL_LOC_LOCATOR : Fld := ⟨63, 0⟩
def ALM_CAL_LEN_ENTRIES : Fld := ⟨20, 0⟩
def ALM_CAL_POS_TICK : Fld := ⟨63, 32⟩
def ALM_CAL_POS_NEXT : Fld := ⟨20, 0⟩
def RED_LANE_STATE_FMT : Fld := ⟨12, 8⟩
def RED_LANE_STATE_KIND : Fld := ⟨7, 5⟩
def RED_LANE_STATE_GANG : Fld := ⟨4, 3⟩
def RED_STATUS_RESIDUE_FAIL_SEEN : Fld := ⟨1, 1⟩
def RED_STATUS_RESIDUE_SEEN : Fld := ⟨0, 0⟩
def RED_RESIDUE_EVENTS_COUNT : Fld := ⟨31, 0⟩
def RED_REPLAYS_COUNT : Fld := ⟨31, 0⟩
def RED_RESIDUE_FAILS_COUNT : Fld := ⟨31, 0⟩
def RED_INJECT_ARM : Fld := ⟨31, 31⟩
def RED_INJECT_STAGE : Fld := ⟨15, 14⟩
def RED_INJECT_SLICE : Fld := ⟨13, 8⟩
def RED_INJECT_BIT : Fld := ⟨6, 0⟩
def TEN_TILE_STATE_PENDING3 : Fld := ⟨15, 15⟩
def TEN_TILE_STATE_KIND3 : Fld := ⟨14, 12⟩
def TEN_TILE_STATE_PENDING2 : Fld := ⟨11, 11⟩
def TEN_TILE_STATE_KIND2 : Fld := ⟨10, 8⟩
def TEN_TILE_STATE_PENDING1 : Fld := ⟨7, 7⟩
def TEN_TILE_STATE_KIND1 : Fld := ⟨6, 4⟩
def TEN_TILE_STATE_PENDING0 : Fld := ⟨3, 3⟩
def TEN_TILE_STATE_KIND0 : Fld := ⟨2, 0⟩
def TEN_STATUS_RESIDUE_FAIL_SEEN : Fld := ⟨2, 2⟩
def TEN_STATUS_RESIDUE_SEEN : Fld := ⟨1, 1⟩
def TEN_STATUS_HAZARD_SEEN : Fld := ⟨0, 0⟩
def TEN_HAZARD_EVENTS_COUNT : Fld := ⟨31, 0⟩
def TEN_HAZARD_LAST_TILE : Fld := ⟨31, 30⟩
def TEN_HAZARD_LAST_SHORT : Fld := ⟨15, 0⟩
def TEN_RESIDUE_EVENTS_COUNT : Fld := ⟨31, 0⟩
def TEN_REPLAYS_COUNT : Fld := ⟨31, 0⟩
def TEN_RESIDUE_FAILS_COUNT : Fld := ⟨31, 0⟩
def TEN_INJECT_ARM : Fld := ⟨31, 31⟩
def TEN_INJECT_ROW : Fld := ⟨15, 12⟩
def TEN_INJECT_COL : Fld := ⟨11, 6⟩
def TEN_INJECT_BIT : Fld := ⟨5, 0⟩
def TEN_MACS_COUNT : Fld := ⟨63, 0⟩
def TEN_ARRAY_BUSY_COUNT : Fld := ⟨63, 0⟩
def UNIT_STATUS_LOST_SEEN : Fld := ⟨3, 3⟩
def UNIT_STATUS_SKIP_SEEN : Fld := ⟨2, 2⟩
def UNIT_STATUS_CHECK_FAIL_SEEN : Fld := ⟨1, 1⟩
def UNIT_STATUS_CHECK_SEEN : Fld := ⟨0, 0⟩
def UNIT_CHECK_EVENTS_COUNT : Fld := ⟨31, 0⟩
def UNIT_REPLAYS_COUNT : Fld := ⟨31, 0⟩
def UNIT_CHECK_FAILS_COUNT : Fld := ⟨31, 0⟩
def UNIT_INJECT_ARM : Fld := ⟨31, 31⟩
def UNIT_INJECT_UNIT : Fld := ⟨13, 8⟩
def UNIT_INJECT_BIT : Fld := ⟨5, 0⟩
def SHP_SKIPPED_COUNT : Fld := ⟨31, 0⟩
def SHP_LOST_COUNT : Fld := ⟨31, 0⟩
def MOV_TIMEOUT_NS : Fld := ⟨31, 0⟩
def MOV_HOLD_NS : Fld := ⟨31, 0⟩
def MOV_STATUS_RXDROP_SEEN : Fld := ⟨2, 2⟩
def MOV_STATUS_TIMEOUT_SEEN : Fld := ⟨1, 1⟩
def MOV_STATUS_CORRECTED_SEEN : Fld := ⟨0, 0⟩
def MOV_TIMEOUTS_COUNT : Fld := ⟨31, 0⟩
def MOV_RXDROP_COUNT : Fld := ⟨31, 0⟩
def MOV_CORRECTED_COUNT : Fld := ⟨31, 0⟩
def MOV_BYTES_IN_COUNT : Fld := ⟨63, 0⟩
def MOV_BYTES_OUT_COUNT : Fld := ⟨63, 0⟩
def MOV_QCFG_ENABLE : Fld := ⟨63, 63⟩
def MOV_QCFG_VC : Fld := ⟨62, 61⟩
def MOV_QCFG_DEPTH : Fld := ⟨60, 54⟩
def MOV_QCFG_ARRIVE_EN : Fld := ⟨53, 53⟩
def MOV_QCFG_ARRIVE : Fld := ⟨52, 37⟩
def MOV_QSTAT_COUNT : Fld := ⟨6, 0⟩
def HTH_HEARTH_ECC_UNCORR : Fld := ⟨63, 32⟩
def HTH_HEARTH_ECC_CORR : Fld := ⟨31, 0⟩
def HTH_BANK_CONFLICTS_COUNT : Fld := ⟨63, 0⟩
def MEM_DS_PART_SCRATCH : Fld := ⟨3, 0⟩
def MEM_DS_ECC_UNCORR : Fld := ⟨63, 32⟩
def MEM_DS_ECC_CORR : Fld := ⟨31, 0⟩
def MEM_DS_HITS_COUNT : Fld := ⟨63, 0⟩
def MEM_DS_MISSES_COUNT : Fld := ⟨63, 0⟩
def MEM_CWIN_BASE_BASE : Fld := ⟨40, 0⟩
def MEM_CWIN_CTL_ENABLE : Fld := ⟨63, 63⟩
def MEM_CWIN_CTL_BUSY : Fld := ⟨62, 62⟩
def MEM_CWIN_CTL_SIZE : Fld := ⟨31, 0⟩
def MEM_STACK_STATUS_SPARES_USED : Fld := ⟨15, 8⟩
def MEM_STACK_STATUS_STATE : Fld := ⟨1, 0⟩
def MEM_LINK_CTL_RETRAIN : Fld := ⟨0, 0⟩
def MEM_SCRUB_HOURS : Fld := ⟨7, 0⟩
def MEM_RETRAINS_COUNT : Fld := ⟨31, 0⟩
def MEM_ATOMIC_STATUS_PARTIAL_SEEN : Fld := ⟨2, 2⟩
def MEM_ATOMIC_STATUS_RESIDUE_FAIL_SEEN : Fld := ⟨1, 1⟩
def MEM_ATOMIC_STATUS_RESIDUE_SEEN : Fld := ⟨0, 0⟩
def MEM_ATOMIC_EVENTS_COUNT : Fld := ⟨31, 0⟩
def MEM_ATOMIC_FAILS_COUNT : Fld := ⟨31, 0⟩
def MEM_PARTIAL_COUNT : Fld := ⟨31, 0⟩
def MEM_AWIN_SUM_XOR : Fld := ⟨63, 0⟩
def MEM_AWIN_BASE_BASE : Fld := ⟨40, 0⟩
def MEM_AWIN_CTL_ENABLE : Fld := ⟨63, 63⟩
def MEM_AWIN_CTL_READCLR : Fld := ⟨62, 62⟩
def MEM_AWIN_CTL_OP : Fld := ⟨61, 59⟩
def MEM_AWIN_CTL_FMT : Fld := ⟨58, 56⟩
def MEM_AWIN_CTL_SIZE : Fld := ⟨31, 0⟩
def MEM_CH_ECC_UNCORR : Fld := ⟨63, 32⟩
def MEM_CH_ECC_CORR : Fld := ⟨31, 0⟩
def MEM_CH_SLOTS_COUNT : Fld := ⟨63, 0⟩
def GRT_RPOOL_CFG_ENABLE : Fld := ⟨63, 63⟩
def GRT_RPOOL_CFG_COUNT : Fld := ⟨43, 32⟩
def GRT_RPOOL_CFG_BASE : Fld := ⟨26, 0⟩
def GRT_RCTL_BUSY : Fld := ⟨31, 31⟩
def GRT_RCTL_RECLAIM : Fld := ⟨13, 13⟩
def GRT_RCTL_OWNER : Fld := ⟨12, 0⟩
def GRT_RPOOL_STAT_LOST : Fld := ⟨27, 16⟩
def GRT_RPOOL_STAT_FREE : Fld := ⟨11, 0⟩
def GRT_STATUS_BAD_FREE_SEEN : Fld := ⟨2, 2⟩
def GRT_STATUS_REFUSED_SEEN : Fld := ⟨1, 1⟩
def GRT_STATUS_OVERFLOW_SEEN : Fld := ⟨0, 0⟩
def GRT_RPOOL_OVERFLOWS_COUNT : Fld := ⟨31, 0⟩
def GRT_REFUSALS_COUNT : Fld := ⟨31, 0⟩
def GRT_DEFERRALS_COUNT : Fld := ⟨31, 0⟩
def GRT_BAD_FREES_COUNT : Fld := ⟨31, 0⟩
def GRT_WAIT_LIMIT_NS : Fld := ⟨31, 0⟩
def GRT_WAITQ_DEPTH : Fld := ⟨6, 0⟩
def GRT_QUERY_LOC_LOCATOR : Fld := ⟨63, 0⟩
def GRT_QUERY_OWN_VALID : Fld := ⟨63, 63⟩
def GRT_QUERY_OWN_INUSE : Fld := ⟨62, 62⟩
def GRT_QUERY_OWN_SLOTV : Fld := ⟨55, 52⟩
def GRT_QUERY_OWN_OWNERS : Fld := ⟨51, 0⟩
def GRT_QUERY_CHG_VALID : Fld := ⟨63, 63⟩
def GRT_QUERY_CHG_CHARGED : Fld := ⟨12, 0⟩
def GRT_RPOOL_OWNER_VALID : Fld := ⟨63, 63⟩
def GRT_RPOOL_OWNER_OWNER : Fld := ⟨62, 50⟩
def GRT_RPOOL_OWNER_MAX : Fld := ⟨45, 23⟩
def GRT_RPOOL_OWNER_MIN : Fld := ⟨22, 0⟩
def GRT_RPOOL_INUSE_COUNT : Fld := ⟨22, 0⟩
def GRT_CPOOL_CFG_ENABLE : Fld := ⟨63, 63⟩
def GRT_CPOOL_CFG_COUNT : Fld := ⟨28, 24⟩
def GRT_CPOOL_CFG_BASE : Fld := ⟨16, 0⟩
def GRT_CPOOL_STAT_LOST : Fld := ⟨21, 16⟩
def GRT_CPOOL_STAT_BAD_FREE_SEEN : Fld := ⟨9, 9⟩
def GRT_CPOOL_STAT_OVERFLOW_SEEN : Fld := ⟨8, 8⟩
def GRT_CPOOL_STAT_FREE : Fld := ⟨4, 0⟩
def GRT_CPOOL_OWNER_VALID : Fld := ⟨63, 63⟩
def GRT_CPOOL_OWNER_OWNER : Fld := ⟨62, 50⟩
def GRT_CPOOL_OWNER_MAX : Fld := ⟨45, 23⟩
def GRT_CPOOL_OWNER_MIN : Fld := ⟨22, 0⟩
def GRT_CPOOL_INUSE_COUNT3 : Fld := ⟨31, 24⟩
def GRT_CPOOL_INUSE_COUNT2 : Fld := ⟨23, 16⟩
def GRT_CPOOL_INUSE_COUNT1 : Fld := ⟨15, 8⟩
def GRT_CPOOL_INUSE_COUNT0 : Fld := ⟨7, 0⟩
def GRT_CPOOL_OVERFLOWS_COUNT : Fld := ⟨31, 0⟩
def GRT_FPOOL_CFG_ENABLE : Fld := ⟨63, 63⟩
def GRT_FPOOL_CFG_COUNT : Fld := ⟨50, 28⟩
def GRT_FPOOL_CFG_BASE_G : Fld := ⟨27, 0⟩
def GRT_FCTL_BUSY : Fld := ⟨31, 31⟩
def GRT_FCTL_RECLAIM : Fld := ⟨13, 13⟩
def GRT_FCTL_OWNER : Fld := ⟨12, 0⟩
def GRT_FPOOL_STAT_FREE : Fld := ⟨22, 0⟩
def GRT_FPOOL_STATUS_LOST : Fld := ⟨23, 2⟩
def GRT_FPOOL_STATUS_BAD_FREE_SEEN : Fld := ⟨1, 1⟩
def GRT_FPOOL_STATUS_OVERFLOW_SEEN : Fld := ⟨0, 0⟩
def GRT_FPOOL_OVERFLOWS_COUNT : Fld := ⟨31, 0⟩
def GRT_FPOOL_BAD_FREES_COUNT : Fld := ⟨31, 0⟩
def GRT_FQUERY_LOC_LOCATOR : Fld := ⟨63, 0⟩
def GRT_FQUERY_OWN_VALID : Fld := ⟨63, 63⟩
def GRT_FQUERY_OWN_INUSE : Fld := ⟨62, 62⟩
def GRT_FQUERY_OWN_SLOTV : Fld := ⟨55, 52⟩
def GRT_FQUERY_OWN_OWNERS : Fld := ⟨51, 0⟩
def GRT_FQUERY_CHG_VALID : Fld := ⟨63, 63⟩
def GRT_FQUERY_CHG_CHARGED : Fld := ⟨12, 0⟩
def GRT_FPOOL_OWNER_VALID : Fld := ⟨63, 63⟩
def GRT_FPOOL_OWNER_OWNER : Fld := ⟨62, 50⟩
def GRT_FPOOL_OWNER_MAX : Fld := ⟨45, 23⟩
def GRT_FPOOL_OWNER_MIN : Fld := ⟨22, 0⟩
def GRT_FPOOL_INUSE_COUNT : Fld := ⟨22, 0⟩
def LNK_IOD_STATUS_ETH_PORTS : Fld := ⟨15, 8⟩
def LNK_IOD_STATUS_PORTS_UP : Fld := ⟨7, 0⟩
def LNK_HOP_LIMIT_LIMIT : Fld := ⟨5, 0⟩
def LNK_ETH_NOMATCH_COUNT : Fld := ⟨31, 0⟩
def LNK_ETH_FIB_W0_VALID : Fld := ⟨63, 63⟩
def LNK_ETH_FIB_W0_VLAN_ANY : Fld := ⟨62, 62⟩
def LNK_ETH_FIB_W0_VID : Fld := ⟨59, 48⟩
def LNK_ETH_FIB_W0_DMAC : Fld := ⟨47, 0⟩
def LNK_ETH_FIB_W1_ACTION : Fld := ⟨63, 62⟩
def LNK_ETH_FIB_W1_MODULE : Fld := ⟨57, 46⟩
def LNK_ETH_FIB_W1_PORT : Fld := ⟨45, 36⟩
def LNK_ETH_FIB_W1_HITS : Fld := ⟨31, 0⟩
def LNK_LANE_STATUS_SIGNAL : Fld := ⟨31, 31⟩
def LNK_LANE_STATUS_LOCK : Fld := ⟨30, 30⟩
def LNK_LANE_STATUS_RATE : Fld := ⟨29, 28⟩
def LNK_LANE_STATUS_PASS : Fld := ⟨27, 27⟩
def LNK_LANE_FEC_SYMBOLS : Fld := ⟨63, 0⟩
def LNK_LANE_OPT_RXPWR : Fld := ⟨31, 16⟩
def LNK_LANE_OPT_TXBIAS : Fld := ⟨15, 0⟩
def LNK_PORT_CFG_ENABLE : Fld := ⟨63, 63⟩
def LNK_PORT_CFG_WIDTH : Fld := ⟨62, 60⟩
def LNK_PORT_CFG_PERS : Fld := ⟨59, 58⟩
def LNK_PORT_CFG_MAXVER : Fld := ⟨57, 56⟩
def LNK_PORT_CFG_RATES : Fld := ⟨55, 53⟩
def LNK_PORT_CFG_DEGRADE : Fld := ⟨52, 52⟩
def LNK_PORT_CFG_AUTO_RETRAIN : Fld := ⟨51, 51⟩
def LNK_PORT_CFG_MEM_EN : Fld := ⟨50, 50⟩
def LNK_PORT_CTL_RETRAIN : Fld := ⟨0, 0⟩
def LNK_PORT_STATUS_STATE : Fld := ⟨63, 61⟩
def LNK_PORT_STATUS_VERSION : Fld := ⟨60, 59⟩
def LNK_PORT_STATUS_RATE : Fld := ⟨58, 57⟩
def LNK_PORT_STATUS_TWIDTH : Fld := ⟨56, 54⟩
def LNK_PORT_STATUS_TOFFSET : Fld := ⟨53, 51⟩
def LNK_PORT_STATUS_UNACKED : Fld := ⟨50, 39⟩
def LNK_PORT_STATUS_DOWN_REASON : Fld := ⟨38, 35⟩
def LNK_PEER_VALID : Fld := ⟨63, 63⟩
def LNK_PEER_KIND : Fld := ⟨62, 62⟩
def LNK_PEER_MAXVER : Fld := ⟨61, 60⟩
def LNK_PEER_RATES : Fld := ⟨59, 57⟩
def LNK_PEER_WIDTH : Fld := ⟨56, 54⟩
def LNK_PEER_PORT : Fld := ⟨53, 44⟩
def LNK_PEER_ID : Fld := ⟨43, 28⟩
def LNK_ASYM_PS : Fld := ⟨31, 0⟩
def LNK_ASYM_TRIM_PS : Fld := ⟨31, 0⟩
def LNK_PORT_FLAGS_BADHDR_SEEN : Fld := ⟨1, 1⟩
def LNK_PORT_FLAGS_DOWN_SEEN : Fld := ⟨0, 0⟩
def LNK_CRC_ERRS_COUNT : Fld := ⟨31, 0⟩
def LNK_FEC_UNCORR_COUNT : Fld := ⟨31, 0⟩
def LNK_REPLAYS_COUNT : Fld := ⟨31, 0⟩
def LNK_DOWNS_COUNT : Fld := ⟨31, 0⟩
def LNK_BADHDR_COUNT : Fld := ⟨31, 0⟩
def LNK_DISCARDS_COUNT : Fld := ⟨31, 0⟩
def LNK_ETH_DROPS_COUNT : Fld := ⟨31, 0⟩
def LNK_TX_BYTES_COUNT : Fld := ⟨63, 0⟩
def LNK_RX_BYTES_COUNT : Fld := ⟨63, 0⟩
def RTE_MODE_STRICT_N : Fld := ⟨5, 4⟩
def RTE_MODE_SCHED : Fld := ⟨3, 2⟩
def RTE_MODE_SPLIT : Fld := ⟨0, 0⟩
def RTE_EPOCH_FLIPS : Fld := ⟨31, 16⟩
def RTE_EPOCH_DRAINING : Fld := ⟨3, 3⟩
def RTE_EPOCH_ARMED : Fld := ⟨2, 2⟩
def RTE_EPOCH_ARM : Fld := ⟨1, 1⟩
def RTE_EPOCH_CUR : Fld := ⟨0, 0⟩
def RTE_FLIP_AT_COUNT : Fld := ⟨63, 0⟩
def RTE_DRAIN_NS : Fld := ⟨31, 0⟩
def RTE_ESC_DELAY_NS : Fld := ⟨31, 0⟩
def RTE_STATUS_ESCVIOL_SEEN : Fld := ⟨1, 1⟩
def RTE_STATUS_NOROUTE_SEEN : Fld := ⟨0, 0⟩
def RTE_NOROUTE_COUNT : Fld := ⟨31, 0⟩
def RTE_ESCVIOL_COUNT : Fld := ⟨31, 0⟩
def RTE_CMAP_LOC_LOCATOR : Fld := ⟨63, 0⟩
def RTE_CMAP_CTL_EN : Fld := ⟨31, 31⟩
def RTE_CMAP_CTL_ENTRIES : Fld := ⟨23, 16⟩
def RTE_CMAP_CTL_K : Fld := ⟨4, 0⟩
def RTE_CMAP_SEQ_SEQ : Fld := ⟨31, 0⟩
def RTE_ESC_PKTS_COUNT : Fld := ⟨63, 0⟩
def RTE_EP_SEL_INC : Fld := ⟨31, 31⟩
def RTE_EP_SEL_INDEX : Fld := ⟨15, 0⟩
def RTE_EP_DATA_ENTRY : Fld := ⟨63, 0⟩
def RTE_POOLS0_RSP : Fld := ⟨59, 48⟩
def RTE_POOLS0_REQ : Fld := ⟨47, 36⟩
def RTE_POOLS0_QACK : Fld := ⟨35, 24⟩
def RTE_POOLS0_QUICK : Fld := ⟨23, 12⟩
def RTE_POOLS0_MGMT : Fld := ⟨11, 0⟩
def RTE_POOLS1_ESC : Fld := ⟨59, 48⟩
def RTE_POOLS1_ESC_REQ : Fld := ⟨47, 36⟩
def RTE_POOLS1_COLL_DOWN : Fld := ⟨35, 24⟩
def RTE_POOLS1_COLL_UP : Fld := ⟨23, 12⟩
def RTE_POOLS1_FWD : Fld := ⟨11, 0⟩
def RTE_PORT_UPWARD : Fld := ⟨63, 63⟩
def RTE_PORT_GATE_EN : Fld := ⟨62, 62⟩
def RTE_PORT_GATE : Fld := ⟨61, 56⟩
def RTE_PORT_W : Fld := ⟨55, 0⟩
def RTE_IOD_ESC_PKTS_COUNT : Fld := ⟨63, 0⟩
def RTE_IOD_HOLD_DROPS_COUNT : Fld := ⟨31, 0⟩
def RTE_RP_TX_BYTES_COUNT : Fld := ⟨63, 0⟩
def RTE_RP_RX_BYTES_COUNT : Fld := ⟨63, 0⟩
def RTE_MESH_BYTES_COUNT : Fld := ⟨63, 0⟩
def DMP_STATUS_GATE_OVERRUN_SEEN : Fld := ⟨1, 1⟩
def DMP_STATUS_REFUSED_SEEN : Fld := ⟨0, 0⟩
def DMP_ADMIT_WAIT_NS : Fld := ⟨31, 0⟩
def DMP_DEFERRALS_COUNT : Fld := ⟨31, 0⟩
def DMP_THROTTLES_COUNT : Fld := ⟨31, 0⟩
def DMP_REFUSALS_COUNT : Fld := ⟨31, 0⟩
def DMP_GATE_OVERRUNS_COUNT : Fld := ⟨31, 0⟩
def DMP_ADMIT_VALID : Fld := ⟨63, 63⟩
def DMP_ADMIT_OWNER : Fld := ⟨62, 50⟩
def DMP_ADMIT_DEN : Fld := ⟨49, 49⟩
def DMP_ADMIT_DAMPER : Fld := ⟨48, 39⟩
def DMP_ADMIT_MAXQ : Fld := ⟨23, 0⟩
def DMP_ADMIT_Q_CELLS : Fld := ⟨31, 0⟩
def DMP_L1_CFG_EN : Fld := ⟨63, 63⟩
def DMP_L1_CFG_FILL : Fld := ⟨62, 62⟩
def DMP_L1_CFG_BURST : Fld := ⟨55, 32⟩
def DMP_L1_CFG_PSHIFT : Fld := ⟨20, 16⟩
def DMP_L1_CFG_RATE : Fld := ⟨15, 0⟩
def DMP_L1_TOK_TOKENS : Fld := ⟨23, 0⟩
def DMP_L0_CFG_EN : Fld := ⟨63, 63⟩
def DMP_L0_CFG_EGRESS : Fld := ⟨62, 62⟩
def DMP_L0_CFG_PORT : Fld := ⟨61, 52⟩
def DMP_L0_CFG_VCMASK : Fld := ⟨51, 44⟩
def DMP_L0_CFG_PEN : Fld := ⟨43, 43⟩
def DMP_L0_CFG_PARENT : Fld := ⟨42, 36⟩
def DMP_L0_CFG_PSHIFT : Fld := ⟨20, 16⟩
def DMP_L0_CFG_RATE : Fld := ⟨15, 0⟩
def DMP_L0_TOK_BURST : Fld := ⟨47, 24⟩
def DMP_L0_TOK_TOKENS : Fld := ⟨23, 0⟩
def DMP_GATE_CFG_EN : Fld := ⟨63, 63⟩
def DMP_GATE_CFG_K : Fld := ⟨62, 58⟩
def DMP_GATE_WIN_VALID : Fld := ⟨63, 63⟩
def DMP_GATE_WIN_VCMASK : Fld := ⟨62, 55⟩
def DMP_GATE_WIN_OPEN : Fld := ⟨49, 25⟩
def DMP_GATE_WIN_CLOSE : Fld := ⟨24, 0⟩
def FLU_CMD_BUSY : Fld := ⟨31, 31⟩
def FLU_CMD_STATUS : Fld := ⟨23, 16⟩
def FLU_CMD_OP : Fld := ⟨15, 14⟩
def FLU_CMD_FLUE : Fld := ⟨11, 0⟩
def FLU_CMD_LOC_LOCATOR : Fld := ⟨63, 0⟩
def FLU_STATUS_REFUSED_SEEN : Fld := ⟨4, 4⟩
def FLU_STATUS_ABORT_SEEN : Fld := ⟨3, 3⟩
def FLU_STATUS_RESEND_SEEN : Fld := ⟨2, 2⟩
def FLU_STATUS_TIMEOUT_SEEN : Fld := ⟨1, 1⟩
def FLU_STATUS_MISMATCH_SEEN : Fld := ⟨0, 0⟩
def FLU_TIMEOUT_NS : Fld := ⟨31, 0⟩
def FLU_RESEND_NS : Fld := ⟨31, 0⟩
def FLU_QRESEND_NS : Fld := ⟨31, 0⟩
def FLU_WAIT_NS : Fld := ⟨31, 0⟩
def FLU_MISMATCHES_COUNT : Fld := ⟨31, 0⟩
def FLU_TIMEOUTS_COUNT : Fld := ⟨31, 0⟩
def FLU_RESENDS_COUNT : Fld := ⟨31, 0⟩
def FLU_ABORTS_COUNT : Fld := ⟨31, 0⟩
def FLU_REFUSALS_COUNT : Fld := ⟨31, 0⟩
def FLU_LAST_EARLY_COUNT : Fld := ⟨63, 0⟩
def FLU_BYTES_IN_COUNT : Fld := ⟨63, 0⟩
def FLU_BYTES_OUT_COUNT : Fld := ⟨63, 0⟩
def FLU_ENTRY_STATE : Fld := ⟨63, 61⟩
def FLU_ENTRY_KIND : Fld := ⟨60, 57⟩
def FLU_ENTRY_INSTANCE : Fld := ⟨56, 41⟩
def FLU_ENTRY_LAST_STATUS : Fld := ⟨40, 33⟩
def FLU_ENTRY_CAUSE : Fld := ⟨32, 25⟩
def FLU_ENTRY_BUFFERS : Fld := ⟨22, 0⟩
def HTH_SPARE_CMD_BUSY : Fld := ⟨31, 31⟩
def HTH_SPARE_CMD_STATUS : Fld := ⟨23, 16⟩
def HTH_SPARE_CMD_NOCOPY : Fld := ⟨14, 14⟩
def HTH_SPARE_CMD_GO : Fld := ⟨13, 13⟩
def HTH_SPARE_CMD_REGION : Fld := ⟨12, 6⟩
def HTH_SPARE_CMD_CORE : Fld := ⟨5, 0⟩
def HTH_SPARE_CTL_AUTO : Fld := ⟨0, 0⟩
def HTH_SUBSTITUTIONS_COUNT : Fld := ⟨31, 0⟩
def HTH_SPARE_MAP_CORE1 : Fld := ⟨15, 10⟩
def HTH_SPARE_MAP_STATE1 : Fld := ⟨9, 8⟩
def HTH_SPARE_MAP_CORE0 : Fld := ⟨7, 2⟩
def HTH_SPARE_MAP_STATE0 : Fld := ⟨1, 0⟩
def HTH_SPARE_MARK_MARK : Fld := ⟨63, 0⟩
def RTE_MESH_LINK_SPARES_USED : Fld := ⟨15, 8⟩
def RTE_MESH_LINK_STATE : Fld := ⟨1, 0⟩
def RTE_MESH_RETRAINS_COUNT : Fld := ⟨31, 0⟩
def RTE_IOD_ATTACH_SPARES_USED : Fld := ⟨15, 8⟩
def RTE_IOD_ATTACH_STATE : Fld := ⟨1, 0⟩
def RTE_IOD_RETRAINS_COUNT : Fld := ⟨31, 0⟩
def VIG_REL_STATUS_REC_FROZEN_SEEN : Fld := ⟨7, 7⟩
def VIG_REL_STATUS_REC_GAP_SEEN : Fld := ⟨6, 6⟩
def VIG_REL_STATUS_ASH_LOST_SEEN : Fld := ⟨5, 5⟩
def VIG_REL_STATUS_SHADOW_FAIL_SEEN : Fld := ⟨4, 4⟩
def VIG_REL_STATUS_LATE_SEEN : Fld := ⟨3, 3⟩
def VIG_REL_STATUS_HEALTH_SUSPECT_SEEN : Fld := ⟨2, 2⟩
def VIG_REL_STATUS_HEALTH_WARN_SEEN : Fld := ⟨1, 1⟩
def VIG_REL_STATUS_STALL_SEEN : Fld := ⟨0, 0⟩
def VIG_REL_EVENTS_COUNT : Fld := ⟨31, 0⟩
def VIG_ASH_SEL_INDEX : Fld := ⟨11, 0⟩
def VIG_ASH_WORD_WORD : Fld := ⟨63, 0⟩
def VIG_ASH_HEAD_SEQ : Fld := ⟨63, 0⟩
def VIG_ASH_ACK_SEQ : Fld := ⟨63, 0⟩
def VIG_ASH_LOST_COUNT : Fld := ⟨31, 0⟩
def VIG_HEALTH_CTL_DECAY : Fld := ⟨13, 10⟩
def VIG_HEALTH_CTL_HK : Fld := ⟨9, 4⟩
def VIG_HEALTH_CTL_MODE : Fld := ⟨1, 0⟩
def VIG_HEALTH_W_W : Fld := ⟨63, 0⟩
def VIG_HEALTH_THR_SUSPECT : Fld := ⟨63, 32⟩
def VIG_HEALTH_THR_WARN : Fld := ⟨31, 0⟩
def VIG_HEALTH_SCORE : Fld := ⟨63, 32⟩
def VIG_HEALTH_LEVEL : Fld := ⟨1, 0⟩
def VIG_LATE_CFG_LATE_THR : Fld := ⟨63, 32⟩
def VIG_LATE_CFG_LATE_NS : Fld := ⟨31, 0⟩
def VIG_LATE_SEL_MODULE : Fld := ⟨11, 0⟩
def VIG_LATE_DATA_L : Fld := ⟨31, 0⟩
def VIG_SHD_CTL_PORT : Fld := ⟨11, 2⟩
def VIG_SHD_CTL_MODE : Fld := ⟨1, 0⟩
def VIG_SHD_TAKE_VALID : Fld := ⟨63, 63⟩
def VIG_SHD_TAKE_TICK : Fld := ⟨31, 0⟩
def VIG_SHD_STATUS_STATE : Fld := ⟨63, 61⟩
def VIG_SHD_STATUS_CODE : Fld := ⟨60, 53⟩
def VIG_SHD_STATUS_MATCHED : Fld := ⟨31, 0⟩
def VIG_SHD_LAST_LAST_TICK : Fld := ⟨63, 32⟩
def VIG_SHD_LAST_FAIL_TICK : Fld := ⟨31, 0⟩
def VIG_SHD_HOLD_NS : Fld := ⟨31, 0⟩
def VIG_QNONCE_NONCE : Fld := ⟨63, 0⟩
def VIG_QKEYS_K : Fld := ⟨7, 4⟩
def VIG_QKEYS_N : Fld := ⟨3, 0⟩
def VIG_QREJECTS_COUNT : Fld := ⟨31, 0⟩
def VIG_REC_LOC_LOCATOR : Fld := ⟨63, 0⟩
def VIG_REC_SIZE_GRANULES : Fld := ⟨31, 0⟩
def VIG_REC_CTL_EN : Fld := ⟨31, 31⟩
def VIG_REC_CTL_FREEZE : Fld := ⟨30, 30⟩
def VIG_REC_CTL_FROZEN : Fld := ⟨29, 29⟩
def VIG_REC_CTL_PMASK : Fld := ⟨15, 0⟩
def VIG_REC_MARK_ID : Fld := ⟨63, 0⟩
def VIG_REC_SEQ_COUNT : Fld := ⟨63, 0⟩
def VIG_REC_HEAD_OFFSET : Fld := ⟨63, 0⟩
def VIG_REC_GAPS_COUNT : Fld := ⟨31, 0⟩
def VIG_RPL_LOC_LOCATOR : Fld := ⟨63, 0⟩
def VIG_RPL_SIZE_GRANULES : Fld := ⟨31, 0⟩
def VIG_RPL_START_SEQ : Fld := ⟨63, 0⟩
def VIG_RPL_END_SEQ : Fld := ⟨63, 0⟩
def VIG_RPL_CTL_EN : Fld := ⟨0, 0⟩
def VIG_RPL_STATUS_CODE : Fld := ⟨63, 56⟩
def VIG_RPL_STATUS_DONE : Fld := ⟨55, 55⟩
def VIG_RPL_STATUS_MISMATCH_TICK : Fld := ⟨31, 0⟩
def VIG_IDENT_PART : Fld := ⟨63, 48⟩
def VIG_IDENT_STEPPING : Fld := ⟨47, 40⟩
def VIG_IDENT_GRADE : Fld := ⟨39, 32⟩
def VIG_IDENT_LEAD : Fld := ⟨31, 28⟩
def VIG_IDENT_OWNER : Fld := ⟨27, 27⟩
def VIG_IDENT_DEBUG : Fld := ⟨26, 26⟩
def VIG_SERIAL_SERIAL : Fld := ⟨63, 0⟩
def VIG_STATE_STATE : Fld := ⟨31, 29⟩
def VIG_STATE_FENCE_PIN : Fld := ⟨28, 28⟩
def VIG_STATE_PWROFF_PIN : Fld := ⟨27, 27⟩
def VIG_STATE_FENCE_CMD : Fld := ⟨26, 26⟩
def VIG_MODULE_ID_VALID : Fld := ⟨31, 31⟩
def VIG_MODULE_ID_ID : Fld := ⟨11, 0⟩
def VIG_BOOT_STATUS_FAILED : Fld := ⟨63, 63⟩
def VIG_BOOT_STATUS_STAGE : Fld := ⟨62, 60⟩
def VIG_BOOT_STATUS_CODE : Fld := ⟨59, 52⟩
def VIG_BOOT_STATUS_FALLBACK : Fld := ⟨51, 48⟩
def VIG_BOOT_STATUS_SLOT : Fld := ⟨47, 44⟩
def VIG_BOOT_STATUS_MS : Fld := ⟨31, 0⟩
def VIG_INBAND_CTL_READ : Fld := ⟨1, 1⟩
def VIG_INBAND_CTL_EN : Fld := ⟨0, 0⟩
def VIG_CMD_REJECTS_COUNT : Fld := ⟨31, 0⟩
def VIG_MGMT_DROPS_COUNT : Fld := ⟨31, 0⟩
def VIG_REPRO_ID_LAYOUT : Fld := ⟨63, 56⟩
def VIG_REPRO_ID_ARITH_REV : Fld := ⟨55, 48⟩
def VIG_REPRO_ID_TRANS_REV : Fld := ⟨47, 40⟩
def VIG_REPRO_ID_ORDER_REV : Fld := ⟨39, 32⟩
def VIG_REPRO_ID_INJECT : Fld := ⟨9, 9⟩
def VIG_REPRO_ID_TSUB : Fld := ⟨8, 8⟩
def VIG_SECVER_MIN : Fld := ⟨63, 0⟩
def VIG_ROLE_ROLE : Fld := ⟨1, 0⟩
def VIG_IHL_STATUS_STATE : Fld := ⟨31, 29⟩
def VIG_IHL_STATUS_RATE : Fld := ⟨28, 27⟩
def VIG_IHL_CMDS_COUNT : Fld := ⟨63, 0⟩
def VIG_FAILOVERS_COUNT : Fld := ⟨31, 0⟩
def PWR_STATUS_LIFE_END_SEEN : Fld := ⟨5, 5⟩
def PWR_STATUS_COOLANT_WARN_SEEN : Fld := ⟨4, 4⟩
def PWR_STATUS_THROTTLE_SEEN : Fld := ⟨3, 3⟩
def PWR_STATUS_THERM_WARN_SEEN : Fld := ⟨2, 2⟩
def PWR_STATUS_PAIR_LOSS_SEEN : Fld := ⟨1, 1⟩
def PWR_STATUS_SUPPLY_WARN_SEEN : Fld := ⟨0, 0⟩
def PWR_THERM_CTL_THROTTLE_EN : Fld := ⟨0, 0⟩
def PWR_INPUT_VOLTS : Fld := ⟨63, 48⟩
def PWR_INPUT_AMPS : Fld := ⟨47, 32⟩
def PWR_INPUT_WATTS : Fld := ⟨31, 0⟩
def PWR_PEAK_W10US : Fld := ⟨63, 32⟩
def PWR_PEAK_W1MS : Fld := ⟨31, 0⟩
def PWR_COOLANT_INLET : Fld := ⟨63, 48⟩
def PWR_COOLANT_OUTLET : Fld := ⟨47, 32⟩
def PWR_COOLANT_FLOW : Fld := ⟨31, 16⟩
def PWR_LAST_FAULT_CAUSE : Fld := ⟨63, 56⟩
def PWR_LAST_FAULT_SITE : Fld := ⟨55, 48⟩
def PWR_LAST_FAULT_PAIR : Fld := ⟨47, 46⟩
def PWR_THROTTLE_CYCLES_COUNT : Fld := ⟨63, 0⟩
def PWR_EVENTS_COUNT : Fld := ⟨31, 0⟩
def PWR_PAIR_VOLTS : Fld := ⟨31, 16⟩
def PWR_PAIR_AMPS : Fld := ⟨15, 0⟩
def PWR_DIE_TEMP : Fld := ⟨31, 16⟩
def PWR_DIE_HOLD : Fld := ⟨3, 0⟩
def PWR_STACK_TEMP : Fld := ⟨31, 16⟩
def PWR_IOD_TEMP : Fld := ⟨31, 16⟩
def LNK_OE_STATUS_TEMP : Fld := ⟨31, 24⟩
def LNK_OE_STATUS_LASER_OK : Fld := ⟨0, 0⟩
def RTE_MTAB0_VALID : Fld := ⟨63, 63⟩
def RTE_MTAB0_ESC_PORT : Fld := ⟨61, 52⟩
def RTE_MTAB0_CMASK : Fld := ⟨51, 48⟩
def RTE_MTAB0_CAND3 : Fld := ⟨47, 38⟩
def RTE_MTAB0_CAND2 : Fld := ⟨37, 28⟩
def RTE_MTAB0_CAND1 : Fld := ⟨27, 18⟩
def RTE_MTAB0_CAND0 : Fld := ⟨17, 8⟩
def RTE_MTAB1_VALID : Fld := ⟨63, 63⟩
def RTE_MTAB1_ESC_PORT : Fld := ⟨61, 52⟩
def RTE_MTAB1_CMASK : Fld := ⟨51, 48⟩
def RTE_MTAB1_CAND3 : Fld := ⟨47, 38⟩
def RTE_MTAB1_CAND2 : Fld := ⟨37, 28⟩
def RTE_MTAB1_CAND1 : Fld := ⟨27, 18⟩
def RTE_MTAB1_CAND0 : Fld := ⟨17, 8⟩
def SYN_OBJ_FLAG_KIND : Fld := ⟨63, 62⟩
def SYN_OBJ_FLAG_TAG : Fld := ⟨61, 58⟩
def SYN_OBJ_FLAG_ERR : Fld := ⟨57, 57⟩
def SYN_OBJ_FLAG_SETS : Fld := ⟨32, 1⟩
def SYN_OBJ_FLAG_VALUE : Fld := ⟨0, 0⟩
def SYN_OBJ_COUNTER_KIND : Fld := ⟨63, 62⟩
def SYN_OBJ_COUNTER_TAG : Fld := ⟨61, 58⟩
def SYN_OBJ_COUNTER_ERR : Fld := ⟨57, 57⟩
def SYN_OBJ_COUNTER_GROUP : Fld := ⟨56, 51⟩
def SYN_OBJ_COUNTER_VALUE : Fld := ⟨23, 0⟩
def SYN_OBJ_BARRIER_KIND : Fld := ⟨63, 62⟩
def SYN_OBJ_BARRIER_TAG : Fld := ⟨61, 58⟩
def SYN_OBJ_BARRIER_ERR : Fld := ⟨57, 57⟩
def SYN_OBJ_BARRIER_TRACK : Fld := ⟨56, 56⟩
def SYN_OBJ_BARRIER_TIDX : Fld := ⟨55, 50⟩
def SYN_OBJ_BARRIER_EXPECT : Fld := ⟨49, 38⟩
def SYN_OBJ_BARRIER_ARR_CUR : Fld := ⟨37, 26⟩
def SYN_OBJ_BARRIER_ARR_NEXT : Fld := ⟨25, 14⟩
def SYN_OBJ_BARRIER_GEN : Fld := ⟨13, 0⟩

end F

end Sys2Proof.Machine
end

