-- ==== Sys2Proof/Machine/Bits.lean ====
section
/-! DEFINITION. Bit fields, byte order (R7), two's complement and the sparse map operations. -/
namespace Sys2Proof.Machine

/-- Bits [hi:lo] of a number. -/
def bits (x hi lo : Nat) : Nat := x / 2 ^ lo % 2 ^ (hi + 1 - lo)

/-- Bit i of a number. -/
def bitAt (x i : Nat) : Bool := x.testBit i

/-- `x` with bits [hi:lo] replaced by the low bits of `v`. -/
def setBits (x hi lo v : Nat) : Nat :=
  x - bits x hi lo * 2 ^ lo + v % 2 ^ (hi + 1 - lo) * 2 ^ lo

/-- A field of a register word. -/
def Fld.get (f : Fld) (w : Word) : Nat := bits w.toNat f.hi f.lo

/-- A register word with one field replaced. -/
def Fld.put (f : Fld) (w : Word) (v : Nat) : Word := BitVec.ofNat 64 (setBits w.toNat f.hi f.lo v)

/-- A field is one bit and set. -/
def Fld.on (f : Fld) (w : Word) : Bool := f.get w != 0

/-- The word with only this field set to `v`. -/
def Fld.only (f : Fld) (v : Nat) : Word := f.put 0 v

/-- Two's-complement reading of an `n`-bit number. -/
def toSigned (n x : Nat) : Int :=
  if x % 2 ^ n < 2 ^ (n - 1) then (x % 2 ^ n : Nat) else (x % 2 ^ n : Nat) - (2 ^ n : Nat)

/-- The `n`-bit two's-complement pattern of an integer. -/
def ofSigned (n : Nat) (x : Int) : Nat := (x % (2 ^ n : Nat)).toNat

/-- The little-endian number that bytes spell (R7). -/
def leNat : List Byte → Nat
  | [] => 0
  | b :: bs => b.toNat + 256 * leNat bs

/-- The `n` little-endian bytes of a number (R7). -/
def leBytes : Nat → Nat → List Byte
  | 0, _ => []
  | n + 1, x => BitVec.ofNat 8 x :: leBytes n (x / 256)

/-- Bytes [lo, lo + n) of a byte string, 0 past its end. -/
def slice (bs : List Byte) (lo n : Nat) : List Byte :=
  let part := (bs.drop lo).take n
  part ++ List.replicate (n - part.length) 0

/-- The little-endian number at bytes [lo, lo + n) of a byte string. -/
def leAt (bs : List Byte) (lo n : Nat) : Nat := leNat (slice bs lo n)

/-- The byte string with bytes [lo, lo + new.length) replaced. -/
def splice (bs : List Byte) (lo : Nat) (new : List Byte) : List Byte :=
  slice bs 0 lo ++ new ++ bs.drop (lo + new.length)

/-- ⌈a / b⌉. -/
def ceilDiv (a b : Nat) : Nat := (a + b - 1) / b

/-- ⌊log2 n⌋ (0 for 0). -/
def log2 (n : Nat) : Nat := n.log2

/-- Bitwise complement of a 64-bit number. -/
def not64 (x : Nat) : Nat := 2 ^ 64 - 1 - x % 2 ^ 64

/-- A counter that stops at its all-ones value (R12, R17). -/
def satAdd (width a b : Nat) : Nat := Nat.min (a + b) (2 ^ width - 1)

/-- Exclusive or of a list of words. -/
def xorAll : List Word → Word
  | [] => 0
  | w :: ws => w ^^^ xorAll ws

/-- The value a sparse map gives a key. -/
def AMap.get {β : Type} (m : AMap β) (d : β) (k : Nat) : β :=
  match m with
  | [] => d
  | (k', v) :: rest => if k = k' then v else AMap.get rest d k

/-- A sparse map without a key. -/
def AMap.erase {β : Type} (m : AMap β) (k : Nat) : AMap β :=
  match m with
  | [] => []
  | (k', v) :: rest => if k = k' then AMap.erase rest k else (k', v) :: AMap.erase rest k

/-- A sparse map with a key placed in order. -/
def AMap.insert {β : Type} (m : AMap β) (k : Nat) (v : β) : AMap β :=
  match m with
  | [] => [(k, v)]
  | (k', v') :: rest =>
    if k < k' then (k, v) :: (k', v') :: rest
    else if k = k' then (k, v) :: rest
    else (k', v') :: AMap.insert rest k v

/-- A sparse map with a key set: a key set to the default is not listed. -/
def AMap.set {β : Type} [DecidableEq β] (m : AMap β) (d : β) (k : Nat) (v : β) : AMap β :=
  if v = d then AMap.erase m k else AMap.insert m k v

/-- The canonical form of a sparse map: keys strictly rising and no entry equal to the default. -/
def AMap.wf {β : Type} [DecidableEq β] (m : AMap β) (d : β) : Bool :=
  match m with
  | [] => true
  | [(_, v)] => v != d
  | (k, v) :: (k', v') :: rest => v != d && decide (k < k') && AMap.wf ((k', v') :: rest) d

/-- The first element that satisfies a test, and the list without it. -/
def takeFirst {α : Type} (p : α → Bool) : List α → Option (α × List α)
  | [] => none
  | a :: as =>
    if p a then some (a, as)
    else match takeFirst p as with
      | some (b, bs) => some (b, a :: bs)
      | none => none

/-- The list without the first element equal to `a`. -/
def removeOne {α : Type} [DecidableEq α] (a : α) : List α → List α
  | [] => []
  | b :: bs => if a = b then bs else b :: removeOne a bs

/-- The list with its first element that satisfies a test replaced. -/
def updateFirst {α : Type} (p : α → Bool) (f : α → α) : List α → List α
  | [] => []
  | a :: as => if p a then f a :: as else a :: updateFirst p f as

/-- The first error of a list of checks, in order (R599). -/
def firstCode : List (Bool × Nat) → Option Nat
  | [] => none
  | (bad, code) :: rest => if bad then some code else firstCode rest

/-- Sum of a list of numbers. -/
def sumNat : List Nat → Nat
  | [] => 0
  | x :: xs => x + sumNat xs

end Sys2Proof.Machine
end

