-- ==== Sys2Proof/Machine/Numerics.lean ====
section
/-! DEFINITION. Number formats, exact values, rounding, overflow, saturated and flushed elements, the FP32x2 pair
and shared scales (chapter 05). -/
namespace Sys2Proof.Machine

/-- An exact value: a NaN, an infinity, or ± num / den (a zero keeps its sign). -/
inductive Val where
  | nan
  | inf (neg : Bool)
  | fin (neg : Bool) (num den : Nat)
deriving DecidableEq, Repr

/-- The integer `x` as an exact value. -/
def Val.ofInt (x : Int) : Val := .fin (decide (x < 0)) x.natAbs 1

/-- ± m × 2^e. -/
def Val.dyadic (neg : Bool) (m : Nat) (e : Int) : Val := .fin neg (m * 2 ^ e.toNat) (2 ^ (-e).toNat)

def Val.isNan : Val → Bool | .nan => true | _ => false
def Val.isInf : Val → Bool | .inf _ => true | _ => false
def Val.isZero : Val → Bool | .fin _ 0 _ => true | _ => false
def Val.isNeg : Val → Bool | .inf n | .fin n _ _ => n | .nan => false

/-- The value with its sign changed. -/
def Val.negate : Val → Val
  | .nan => .nan
  | .inf n => .inf (!n)
  | .fin n a b => .fin (!n) a b

/-- Signed numerator of a finite value. -/
def Val.signed : Val → Int
  | .fin neg n _ => if neg then -(n : Int) else n
  | _ => 0

/-- The sum of two exact values; an exact zero sum of a nonzero and its opposite is +0, and infinities of
opposite sign give NaN. -/
def Val.add : Val → Val → Val
  | .nan, _ => .nan
  | _, .nan => .nan
  | .inf a, .inf b => if a = b then .inf a else .nan
  | .inf a, _ => .inf a
  | _, .inf b => .inf b
  | .fin n a d, .fin m b e =>
    let (p, q, den) := if d % e = 0 then (1, d / e, d) else if e % d = 0 then (e / d, 1, e) else (e, d, d * e)
    let x : Int := (if n then -(a : Int) else a) * (p : Nat) + (if m then -(b : Int) else b) * (q : Nat)
    if x = 0 then .fin (n && m && a = 0 && b = 0) 0 1 else .fin (decide (x < 0)) x.natAbs den

/-- The product of two exact values; a zero times an infinity gives NaN. -/
def Val.mul : Val → Val → Val
  | .nan, _ => .nan
  | _, .nan => .nan
  | .inf a, .inf b => .inf (a != b)
  | .inf a, .fin n x _ => if x = 0 then .nan else .inf (a != n)
  | .fin n x _, .inf b => if x = 0 then .nan else .inf (n != b)
  | .fin n a d, .fin m b e => .fin (n != m) (a * b) (d * e)

/-- Finite values compared: −1, 0 or 1. -/
def Val.cmpFin (x y : Val) : Int :=
  match x, y with
  | .fin _ _ d, .fin _ _ e => Int.sign (x.signed * e - y.signed * d)
  | _, _ => 0

/-- ⌊log2 (num / den)⌋ for a positive ratio. -/
def floorLog2 (num den : Nat) : Int :=
  let a : Int := (num.log2 : Int) - den.log2
  if den * 2 ^ a.toNat ≤ num * 2 ^ (-a).toNat then a else a - 1

/-! ## Formats (R73, R181) -/

/-- How a float format treats infinities, NaNs and overflow (R181, R191). -/
inductive Special where
  | ieee | e4m3 | narrow
deriving DecidableEq, Repr

/-- A float format: exponent and mantissa widths, bias, and its special values. -/
structure FloatFmt where
  eb : Nat
  mb : Nat
  bias : Nat
  special : Special
deriving DecidableEq, Repr

/-- The kinds of element format. -/
inductive Fmt where
  | float (f : FloatFmt)
  | pair
  | int (bits : Nat)
  | e8m0
deriving DecidableEq, Repr

/-- FP32. -/
def fp32 : FloatFmt := ⟨8, 23, 127, .ieee⟩

/-- The format of an FMT code (R73). -/
def fmtOf : Nat → Option Fmt
  | 0x00 => some (.float fp32)
  | 0x01 => some (.float ⟨8, 7, 127, .ieee⟩)
  | 0x02 => some (.float ⟨5, 10, 15, .ieee⟩)
  | 0x03 => some .pair
  | 0x04 => some (.int 32)
  | 0x05 => some (.int 64)
  | 0x06 => some (.int 8)
  | 0x07 => some (.int 4)
  | 0x08 => some (.float ⟨4, 3, 7, .e4m3⟩)
  | 0x09 => some (.float ⟨5, 2, 15, .ieee⟩)
  | 0x0A => some (.float ⟨3, 2, 3, .narrow⟩)
  | 0x0B => some (.float ⟨2, 3, 1, .narrow⟩)
  | 0x0C => some (.float ⟨2, 1, 1, .narrow⟩)
  | 0x0D => some .e8m0
  | _ => none

/-- Bits per element of an FMT code (R73); 8 for a reserved code. -/
def fmtBits (c : Nat) : Nat :=
  match c with
  | 0x00 | 0x04 => 32
  | 0x01 | 0x02 => 16
  | 0x03 | 0x05 => 64
  | 0x07 | 0x0C => 4
  | 0x0A | 0x0B => 6
  | _ => 8

/-- Alignment in bytes of BASE and strides of an FMT code (R73). -/
def fmtAlign (c : Nat) : Nat := Nat.max 1 (fmtBits c / 8)

/-- A shared scale is permitted with an FMT code (R73). -/
def fmtScalable (c : Nat) : Bool := 0x06 ≤ c && c ≤ 0x0C

/-- The largest finite magnitude of a float format, as m × 2^e (R181). -/
def FloatFmt.largest (f : FloatFmt) : Nat × Int :=
  match f.special with
  | .ieee => (2 ^ (f.mb + 1) - 1, (2 ^ f.eb - 2 : Nat) - (f.bias : Int) - f.mb)
  | .e4m3 => (2 ^ (f.mb + 1) - 2, (2 ^ f.eb - 1 : Nat) - (f.bias : Int) - f.mb)
  | .narrow => (2 ^ (f.mb + 1) - 1, (2 ^ f.eb - 1 : Nat) - (f.bias : Int) - f.mb)

/-- The value of a float code (R181). -/
def FloatFmt.decode (f : FloatFmt) (c : Nat) : Val :=
  let neg := bitAt c (f.eb + f.mb)
  let e := bits c (f.eb + f.mb - 1) f.mb
  let m := bits c (f.mb - 1) 0
  let top := 2 ^ f.eb - 1
  let normal := Val.dyadic neg (2 ^ f.mb + m) ((e : Int) - f.bias - f.mb)
  if e = 0 then Val.dyadic neg m (1 - (f.bias : Int) - f.mb)
  else if e = top then
    match f.special with
    | .ieee => if m = 0 then .inf neg else .nan
    | .e4m3 => if m = 2 ^ f.mb - 1 then .nan else normal
    | .narrow => normal
  else normal

/-- The exact value of an FP32x2 pair (R205). -/
def decodePair (c : Nat) : Val :=
  let hi := fp32.decode (bits c 31 0)
  let lo := fp32.decode (bits c 63 32)
  if hi.isZero && lo.isZero then .fin hi.isNeg 0 1
  else
    match Val.add hi lo with
    | .fin _ 0 d => .fin false 0 d
    | v => v

/-- The value of an E8M0 byte (R186). -/
def decodeE8M0 (s : Nat) : Val := if s = 0xFF then .nan else .dyadic false 1 ((s : Int) - 127)

/-- The value of an element code of an FMT without a scale (R184, R187, R189). -/
def decodeElem (fmt c : Nat) : Val :=
  match fmtOf fmt with
  | some (.float f) => f.decode c
  | some .pair => decodePair c
  | some (.int n) => Val.ofInt (toSigned n c)
  | some .e8m0 => decodeE8M0 c
  | none => .nan

/-- The value of an element under its block's scale byte (R187). -/
def decodeScaled (fmt c s : Nat) : Val :=
  match decodeE8M0 s, decodeElem fmt c with
  | .nan, _ => .nan
  | _, .nan => .nan
  | _, .inf n => .inf n
  | .fin _ a b, .fin n x d => .fin n (x * a) (d * b)
  | _, v => v

/-! ## Rounding (R190 to R196) -/

/-- Round num / den to an integer by a mode of R190: 0 nearest even, 1 toward zero, 2 up, 3 down. -/
def roundInt (neg : Bool) (num den mode : Nat) : Nat :=
  let q := num / den
  let r := num % den
  let up :=
    match mode with
    | 0 => den < 2 * r || (2 * r = den && q % 2 = 1)
    | 1 => false
    | 2 => !neg && r ≠ 0
    | _ => neg && r ≠ 0
  if up then q + 1 else q

/-- An element code with its counts: saturated (R195), flushed (R196). -/
structure Rounded where
  code : Nat
  sat : Bool
  flush : Bool
deriving DecidableEq, Repr

/-- The canonical NaN of a float format (R183). -/
def FloatFmt.nanCode (f : FloatFmt) : Nat :=
  match f.special with
  | .ieee => (2 ^ f.eb - 1) * 2 ^ f.mb + 2 ^ (f.mb - 1)
  | .e4m3 => 2 ^ (f.eb + f.mb) - 1
  | .narrow => 0

/-- The code of ± infinity. -/
def FloatFmt.infCode (f : FloatFmt) (neg : Bool) : Nat :=
  (if neg then 2 ^ (f.eb + f.mb) else 0) + (2 ^ f.eb - 1) * 2 ^ f.mb

/-- The code of ± the largest finite value. -/
def FloatFmt.maxCode (f : FloatFmt) (neg : Bool) : Nat :=
  (if neg then 2 ^ (f.eb + f.mb) else 0) +
  (match f.special with
   | .ieee => (2 ^ f.eb - 1) * 2 ^ f.mb - 1
   | .e4m3 => 2 ^ (f.eb + f.mb) - 2
   | .narrow => 2 ^ (f.eb + f.mb) - 1)

/-- A nonzero magnitude rounded with unbounded exponent range above the subnormals: units and their exponent. -/
def FloatFmt.units (f : FloatFmt) (neg : Bool) (num den mode : Nat) : Nat × Int :=
  let emin : Int := 1 - (f.bias : Int)
  let e := floorLog2 num den
  let q := (if e < emin then emin else e) - f.mb
  (roundInt neg (num * 2 ^ (-q).toNat) (den * 2 ^ q.toNat) mode, q)

/-- A finite value rounded to a float format (R190 to R192). -/
def FloatFmt.roundFin (f : FloatFmt) (neg : Bool) (num den mode : Nat) (sat : Bool) : Rounded :=
  let sign := if neg then 2 ^ (f.eb + f.mb) else 0
  if num = 0 then ⟨sign, false, false⟩
  else
    let (k, q) := f.units neg num den mode
    let (m, e) := f.largest
    let exceeds := m * 2 ^ (e - q).toNat < k * 2 ^ (q - e).toNat
    if exceeds then
      let toMax :=
        sat || f.special = .narrow || (f.special = .ieee && (mode = 1 || (mode = 2 && neg) || (mode = 3 && !neg)))
      let code :=
        if toMax then f.maxCode neg
        else match f.special with
          | .e4m3 => f.nanCode
          | _ => f.infCode neg
      ⟨code, true, false⟩
    else if k = 0 then ⟨sign, false, true⟩
    else if k < 2 ^ f.mb then ⟨sign + k, false, false⟩
    else
      let (k, q) := if k = 2 ^ (f.mb + 1) then (2 ^ f.mb, q + 1) else (k, q)
      ⟨sign + (q + f.mb + f.bias).toNat * 2 ^ f.mb + (k - 2 ^ f.mb), false, false⟩

/-- Any value rounded to a float format (R191). -/
def FloatFmt.round (f : FloatFmt) (v : Val) (mode : Nat) (sat : Bool) : Rounded :=
  match v with
  | .nan =>
    match f.special with
    | .narrow => ⟨0, true, false⟩
    | _ => ⟨f.nanCode, false, false⟩
  | .inf neg =>
    match f.special with
    | .ieee => ⟨f.infCode neg, false, false⟩
    | .e4m3 => if sat then ⟨f.maxCode neg, true, false⟩ else ⟨f.nanCode, false, false⟩
    | .narrow => ⟨f.maxCode neg, true, false⟩
  | .fin neg num den => f.roundFin neg num den mode sat

/-- A value rounded to an `n`-bit integer format (R191, R193). -/
def roundToInt (n : Nat) (v : Val) (mode : Nat) : Rounded :=
  let hi : Nat := 2 ^ (n - 1) - 1
  let low : Nat := 2 ^ (n - 1)
  match v with
  | .nan => ⟨0, true, false⟩
  | .inf neg => ⟨if neg then low else hi, true, false⟩
  | .fin neg num den =>
    let k := roundInt neg num den mode
    if neg then
      if low < k then ⟨low, true, false⟩ else ⟨ofSigned n (-(k : Int)), false, num ≠ 0 && k = 0⟩
    else if hi < k then ⟨hi, true, false⟩
    else ⟨k, false, num ≠ 0 && k = 0⟩

/-- The FP32 code of an exact value under a mode. -/
def toFp32 (v : Val) (mode : Nat) : Rounded := fp32.round v mode false

/-- A value rounded to a canonical FP32x2 pair (R183, R204, R614): `sat` is the SAT bit for an overflow of the high
part. -/
def roundPair (v : Val) (mode : Nat) (sat : Bool) : Rounded :=
  let hi := fp32.round v 0 sat
  match v, fp32.decode hi.code with
  | .fin neg num den, .fin hn hx hd =>
    if hi.sat then hi
    else if hx = 0 then
      if num = 0 then hi else fp32.roundFin neg num den mode sat
    else
      let rest := Val.add (.fin neg num den) (Val.negate (.fin hn hx hd))
      if rest.isZero then ⟨hi.code, false, false⟩
      else ⟨hi.code + (fp32.round rest mode false).code * 2 ^ 32, false, false⟩
  | _, _ => hi

/-- A value rounded to the format of an FMT code by a mode and a SAT bit. -/
def roundTo (fmt : Nat) (v : Val) (mode : Nat) (sat : Bool) : Rounded :=
  match fmtOf fmt with
  | some (.float f) => f.round v mode sat
  | some .pair => roundPair v mode sat
  | some (.int n) => roundToInt n v mode
  | _ => ⟨0, false, false⟩

/-! ## Packing (R185) -/

/-- The element codes of a row: element i in bits [b·i + b − 1 : b·i] of the row read little-endian (R7, R185). -/
def unpackRow (b : Nat) (row : List Byte) (n : Nat) : List Nat :=
  let v := leNat row
  (List.range n).map fun i => v / 2 ^ (b * i) % 2 ^ b

/-- The number whose base-2^b digits are the codes. -/
def packNat (b : Nat) : List Nat → Nat
  | [] => 0
  | c :: cs => c % 2 ^ b + 2 ^ b * packNat b cs

/-- The bytes of a row of element codes. -/
def packRow (b : Nat) (codes : List Nat) : List Byte :=
  leBytes ((codes.length * b + 7) / 8) (packNat b codes)

/-! ## Quantizing (R198 to R202) -/

/-- emax of R199. -/
def quantEmax : Nat → Int
  | 0x08 => 8
  | 0x09 => 15
  | 0x0A => 4
  | 0x06 => 6
  | _ => 2

/-- The larger of two finite magnitudes, as a ratio. -/
def maxMag (a b : Nat × Nat) : Nat × Nat := if a.1 * b.2 < b.1 * a.2 then b else a

/-- The magnitude that a source value gives amax: an infinity counts as the largest finite FP32 (R198). -/
def quantMag : Val → Nat × Nat
  | .fin _ n d => (n, d)
  | .inf _ => ((2 ^ 24 - 1) * 2 ^ 104, 1)
  | .nan => (0, 1)

/-- The scale byte of a block of source values (R198, R199). -/
def quantScale (fmt : Nat) (vs : List Val) : Nat :=
  if vs.any Val.isNan then 0xFF
  else
    let amax :=
      if vs.any Val.isInf then quantMag (.inf false)
      else vs.foldl (fun m v => maxMag m (quantMag v)) (0, 1)
    if amax.1 = 0 then 0
    else
      let e := floorLog2 amax.1 amax.2 - quantEmax fmt + 127
      if e < 0 then 0 else Nat.min e.toNat 254

/-- One element of a quantized block (R200 to R202). -/
def quantElem (fmt s : Nat) (v : Val) (mode : Nat) : Rounded :=
  if s = 0xFF then ⟨0, !v.isNan, false⟩
  else
    match v with
    | .fin neg n d =>
      let e : Int := 127 - (s : Int)
      roundTo fmt (.fin neg (n * 2 ^ e.toNat) (d * 2 ^ (-e).toNat)) mode true
    | .inf neg => roundTo fmt (.fin neg (2 ^ 300) 1) mode true
    | .nan => ⟨0, false, false⟩

/-- Sums of the saturated and flushed counts of rounded elements (R197). -/
def countSat (rs : List Rounded) : Nat := rs.countP (·.sat)
/-- Flushed elements. -/
def countFlush (rs : List Rounded) : Nat := rs.countP (·.flush)

end Sys2Proof.Machine
end

