-- ==== Sys2Proof/Config.lean ====
section
/-! DEFINITION. What a module fixes and the manual leaves open: part constants and free values. Every
constant here is opaque, so that nothing can be proved from its value. -/
namespace Sys2Proof.Config

/-- A byte the manual leaves unspecified, numbered by the state's free-value counter. -/
opaque freeByte : Nat → BitVec 8

/-- A 64-bit value the manual leaves unspecified, numbered by the state's free-value counter. -/
opaque freeWord : Nat → BitVec 64

/-- The module carries stepping B1 (false: B0) (R1, R2). -/
opaque steppingB1 : Bool

/-- The module is grade E (false: grade P) (R1, R2). -/
opaque gradeE : Bool

/-- The module's serial number (R559). -/
opaque serial : BitVec 64

/-- The bytes the module's certificates and device keys hold, by item and offset (R558). -/
opaque certByte : Nat → Nat → BitVec 8

/-- The length in bytes of certificate item `i` (R558). -/
opaque certLen : Nat → Nat

/-- The signature a device key gives a digest, by byte (R560). -/
opaque signByte : Nat → List (BitVec 8) → Nat → BitVec 8

/-- The public device key of Vigil 0 or 8, x then y, by byte (R558). -/
opaque deviceKey : Nat → Nat → BitVec 8

/-- The SHA-256 digests of the four Ahnairy keys that the Vigil ROM holds, by key and byte (R557). -/
opaque romDigest : Nat → Nat → BitVec 8

/-- The bytes of an image slot that has not been written since manufacture, by 2 × (type − 1) + slot and offset (R554). -/
opaque imageByte : Nat → Nat → BitVec 8

end Sys2Proof.Config
end

