-- ==== Sys2Proof/Machine/RegTable.lean ====
section
/-! DEFINITION. The register tables of the manual: for every register its offsets, width, and each field's
access code and reset value (R9, R10). A value the manual does not give at reset is the one its log entry
names. Bits no field names are reserved: they read as 0 and ignore writes. -/
namespace Sys2Proof.Machine

/-- The access codes of R9. -/
inductive Acc where
  | ro | rw | wo | w1c | w1s | rc
deriving DecidableEq, Repr

/-- One field of a register row. -/
structure RField where
  fld : Fld
  acc : Acc
  reset : Nat
deriving DecidableEq, Repr

/-- One row of a register table: the first offset, the (stride, count) of each index, the width in bits and
the fields. -/
structure Row where
  name : String
  base : Nat
  dims : List (Nat × Nat)
  width : Nat
  fields : List RField
deriving DecidableEq, Repr

/-- Registers of chapter 02. -/
def rows_coreHth : List Row :=
  [⟨"HTH_BANK_CTL", 0x100, [], 32,
    [⟨F.HTH_BANK_CTL_SWAPS, .ro, 0⟩, ⟨F.HTH_BANK_CTL_DISARM, .wo, 0⟩, ⟨F.HTH_BANK_CTL_ARMED, .w1s, 0⟩, ⟨F.HTH_BANK_CTL_ACTIVE, .ro, 0⟩]⟩,
   ⟨"HTH_DESC_TABLE", 0x108, [], 32,
    [⟨F.HTH_DESC_TABLE_COUNT, .rw, 0⟩, ⟨F.HTH_DESC_TABLE_BASE, .rw, 0⟩]⟩,
   ⟨"HTH_CTX", 0x110, [], 32,
    [⟨F.HTH_CTX_CONTEXT, .rw, 0⟩]⟩,
   ⟨"HTH_ISTORE_ECC", 0x118, [], 64,
    [⟨F.HTH_ISTORE_ECC_UNCORR, .rc, 0⟩, ⟨F.HTH_ISTORE_ECC_CORR, .rc, 0⟩]⟩,
   ⟨"HTH_HEARTH_ECC", 0x120, [], 64,
    [⟨F.HTH_HEARTH_ECC_UNCORR, .rc, 0⟩, ⟨F.HTH_HEARTH_ECC_CORR, .rc, 0⟩]⟩,
   ⟨"HTH_BANK_CONFLICTS", 0x128, [], 64,
    [⟨F.HTH_BANK_CONFLICTS_COUNT, .ro, 0⟩]⟩]

/-- Registers of chapter 02. -/
def rows_seq : List Row :=
  [⟨"SEQ_CTL", 0x0, [], 32,
    [⟨F.SEQ_CTL_RETRY, .wo, 0⟩, ⟨F.SEQ_CTL_CLEAR_FAULT, .wo, 0⟩, ⟨F.SEQ_CTL_STOP, .wo, 0⟩, ⟨F.SEQ_CTL_START, .wo, 0⟩]⟩,
   ⟨"SEQ_STATUS", 0x8, [], 64,
    [⟨F.SEQ_STATUS_QDEPTH, .ro, 0⟩, ⟨F.SEQ_STATUS_FAULT_PC, .ro, 0⟩, ⟨F.SEQ_STATUS_LAST_FAULT, .ro, 0⟩, ⟨F.SEQ_STATUS_STATE, .ro, 0⟩, ⟨F.SEQ_STATUS_PC, .ro, 0⟩]⟩,
   ⟨"ENTRY", 0x10, [], 32,
    [⟨F.ENTRY_VALID, .rw, 0⟩, ⟨F.ENTRY_PC, .rw, 0⟩]⟩,
   ⟨"WAIT_LIMIT", 0x18, [], 32,
    [⟨F.WAIT_LIMIT_LIMIT, .rw, 0⟩]⟩,
   ⟨"CR_BASE", 0x20, [], 32,
    [⟨F.CR_BASE_ENTRIES, .rw, 0⟩, ⟨F.CR_BASE_BASE, .rw, 0⟩]⟩,
   ⟨"CR_SEQ", 0x28, [], 64,
    [⟨F.CR_SEQ_COUNT, .ro, 0⟩]⟩,
   ⟨"SAT_TOTAL", 0x30, [], 64,
    [⟨F.SAT_TOTAL_COUNT, .rc, 0⟩]⟩,
   ⟨"FLUSH_TOTAL", 0x38, [], 64,
    [⟨F.FLUSH_TOTAL_COUNT, .rc, 0⟩]⟩,
   ⟨"RETIRED", 0x40, [], 64,
    [⟨F.RETIRED_COUNT, .ro, 0⟩]⟩,
   ⟨"WAIT_CYCLES", 0x48, [], 64,
    [⟨F.WAIT_CYCLES_COUNT, .ro, 0⟩]⟩]

/-- Registers of chapter 06. -/
def rows_red : List Row :=
  [⟨"RED_LANE_STATE", 0x100, [], 32,
    [⟨F.RED_LANE_STATE_FMT, .ro, 0⟩, ⟨F.RED_LANE_STATE_KIND, .ro, 7⟩, ⟨F.RED_LANE_STATE_GANG, .ro, 0⟩]⟩,
   ⟨"RED_STATUS", 0x108, [], 32,
    [⟨F.RED_STATUS_RESIDUE_FAIL_SEEN, .w1c, 0⟩, ⟨F.RED_STATUS_RESIDUE_SEEN, .w1c, 0⟩]⟩,
   ⟨"RED_RESIDUE_EVENTS", 0x110, [], 32,
    [⟨F.RED_RESIDUE_EVENTS_COUNT, .rc, 0⟩]⟩,
   ⟨"RED_REPLAYS", 0x118, [], 32,
    [⟨F.RED_REPLAYS_COUNT, .rc, 0⟩]⟩,
   ⟨"RED_RESIDUE_FAILS", 0x120, [], 32,
    [⟨F.RED_RESIDUE_FAILS_COUNT, .rc, 0⟩]⟩,
   ⟨"RED_INJECT", 0x128, [], 32,
    [⟨F.RED_INJECT_ARM, .w1s, 0⟩, ⟨F.RED_INJECT_STAGE, .rw, 0⟩, ⟨F.RED_INJECT_SLICE, .rw, 0⟩, ⟨F.RED_INJECT_BIT, .rw, 0⟩]⟩]

/-- Registers of chapter 07. -/
def rows_ten : List Row :=
  [⟨"TEN_TILE_STATE", 0x100, [], 32,
    [⟨F.TEN_TILE_STATE_PENDING3, .ro, 0⟩, ⟨F.TEN_TILE_STATE_KIND3, .ro, 7⟩, ⟨F.TEN_TILE_STATE_PENDING2, .ro, 0⟩, ⟨F.TEN_TILE_STATE_KIND2, .ro, 7⟩, ⟨F.TEN_TILE_STATE_PENDING1, .ro, 0⟩, ⟨F.TEN_TILE_STATE_KIND1, .ro, 7⟩, ⟨F.TEN_TILE_STATE_PENDING0, .ro, 0⟩, ⟨F.TEN_TILE_STATE_KIND0, .ro, 7⟩]⟩,
   ⟨"TEN_STATUS", 0x108, [], 32,
    [⟨F.TEN_STATUS_RESIDUE_FAIL_SEEN, .w1c, 0⟩, ⟨F.TEN_STATUS_RESIDUE_SEEN, .w1c, 0⟩, ⟨F.TEN_STATUS_HAZARD_SEEN, .w1c, 0⟩]⟩,
   ⟨"TEN_HAZARD_EVENTS", 0x110, [], 32,
    [⟨F.TEN_HAZARD_EVENTS_COUNT, .rc, 0⟩]⟩,
   ⟨"TEN_HAZARD_LAST", 0x118, [], 32,
    [⟨F.TEN_HAZARD_LAST_TILE, .ro, 0⟩, ⟨F.TEN_HAZARD_LAST_SHORT, .ro, 0⟩]⟩,
   ⟨"TEN_RESIDUE_EVENTS", 0x120, [], 32,
    [⟨F.TEN_RESIDUE_EVENTS_COUNT, .rc, 0⟩]⟩,
   ⟨"TEN_REPLAYS", 0x128, [], 32,
    [⟨F.TEN_REPLAYS_COUNT, .rc, 0⟩]⟩,
   ⟨"TEN_RESIDUE_FAILS", 0x130, [], 32,
    [⟨F.TEN_RESIDUE_FAILS_COUNT, .rc, 0⟩]⟩,
   ⟨"TEN_INJECT", 0x138, [], 32,
    [⟨F.TEN_INJECT_ARM, .w1s, 0⟩, ⟨F.TEN_INJECT_ROW, .rw, 0⟩, ⟨F.TEN_INJECT_COL, .rw, 0⟩, ⟨F.TEN_INJECT_BIT, .rw, 0⟩]⟩,
   ⟨"TEN_MACS", 0x140, [], 64,
    [⟨F.TEN_MACS_COUNT, .ro, 0⟩]⟩,
   ⟨"TEN_ARRAY_BUSY", 0x148, [], 64,
    [⟨F.TEN_ARRAY_BUSY_COUNT, .ro, 0⟩]⟩]

/-- Registers of chapter 08. -/
def rows_sss : List Row :=
  [⟨"UNIT_STATUS", 0x100, [], 32,
    [⟨F.UNIT_STATUS_LOST_SEEN, .w1c, 0⟩, ⟨F.UNIT_STATUS_SKIP_SEEN, .w1c, 0⟩, ⟨F.UNIT_STATUS_CHECK_FAIL_SEEN, .w1c, 0⟩, ⟨F.UNIT_STATUS_CHECK_SEEN, .w1c, 0⟩]⟩,
   ⟨"UNIT_CHECK_EVENTS", 0x108, [], 32,
    [⟨F.UNIT_CHECK_EVENTS_COUNT, .rc, 0⟩]⟩,
   ⟨"UNIT_REPLAYS", 0x110, [], 32,
    [⟨F.UNIT_REPLAYS_COUNT, .rc, 0⟩]⟩,
   ⟨"UNIT_CHECK_FAILS", 0x118, [], 32,
    [⟨F.UNIT_CHECK_FAILS_COUNT, .rc, 0⟩]⟩,
   ⟨"UNIT_INJECT", 0x120, [], 32,
    [⟨F.UNIT_INJECT_ARM, .w1s, 0⟩, ⟨F.UNIT_INJECT_UNIT, .rw, 0⟩, ⟨F.UNIT_INJECT_BIT, .rw, 0⟩]⟩]

/-- Registers of chapter 08. -/
def rows_shp : List Row :=
  [⟨"SHP_SKIPPED", 0x128, [], 32,
    [⟨F.SHP_SKIPPED_COUNT, .rc, 0⟩]⟩,
   ⟨"SHP_LOST", 0x130, [], 32,
    [⟨F.SHP_LOST_COUNT, .rc, 0⟩]⟩]

/-- Registers of chapter 08. -/
def rows_mov : List Row :=
  [⟨"MOV_TIMEOUT", 0x100, [], 32,
    [⟨F.MOV_TIMEOUT_NS, .rw, 0x4e20⟩]⟩,
   ⟨"MOV_HOLD", 0x108, [], 32,
    [⟨F.MOV_HOLD_NS, .rw, 0x2710⟩]⟩,
   ⟨"MOV_STATUS", 0x110, [], 32,
    [⟨F.MOV_STATUS_RXDROP_SEEN, .w1c, 0⟩, ⟨F.MOV_STATUS_TIMEOUT_SEEN, .w1c, 0⟩, ⟨F.MOV_STATUS_CORRECTED_SEEN, .w1c, 0⟩]⟩,
   ⟨"MOV_TIMEOUTS", 0x118, [], 32,
    [⟨F.MOV_TIMEOUTS_COUNT, .rc, 0⟩]⟩,
   ⟨"MOV_RXDROP", 0x120, [], 32,
    [⟨F.MOV_RXDROP_COUNT, .rc, 0⟩]⟩,
   ⟨"MOV_CORRECTED", 0x128, [], 32,
    [⟨F.MOV_CORRECTED_COUNT, .rc, 0⟩]⟩,
   ⟨"MOV_BYTES_IN", 0x130, [], 64,
    [⟨F.MOV_BYTES_IN_COUNT, .ro, 0⟩]⟩,
   ⟨"MOV_BYTES_OUT", 0x138, [], 64,
    [⟨F.MOV_BYTES_OUT_COUNT, .ro, 0⟩]⟩,
   ⟨"MOV_QCFG", 0x180, [(8, 16)], 64,
    [⟨F.MOV_QCFG_ENABLE, .rw, 0⟩, ⟨F.MOV_QCFG_VC, .rw, 0⟩, ⟨F.MOV_QCFG_DEPTH, .rw, 0⟩, ⟨F.MOV_QCFG_ARRIVE_EN, .rw, 0⟩, ⟨F.MOV_QCFG_ARRIVE, .rw, 0⟩]⟩,
   ⟨"MOV_QSTAT", 0x200, [(8, 16)], 32,
    [⟨F.MOV_QSTAT_COUNT, .ro, 0⟩]⟩]

/-- Registers of chapter 03. -/
def rows_syn_0 : List Row :=
  [⟨"SYN_OBJ", 0x0, [(8, 4096)], 64,
    [⟨F.SYN_OBJ_WORD, .rw, 0⟩]⟩,
   ⟨"SYN_XLAT", 0x8000, [(8, 2048)], 64,
    [⟨F.SYN_XLAT_VALID, .rw, 0⟩, ⟨F.SYN_XLAT_SCOPE, .rw, 0⟩, ⟨F.SYN_XLAT_TAG, .rw, 0⟩, ⟨F.SYN_XLAT_MODULE, .rw, 0⟩, ⟨F.SYN_XLAT_DIE, .rw, 0⟩, ⟨F.SYN_XLAT_REGION, .rw, 0⟩, ⟨F.SYN_XLAT_OBJECT, .rw, 0⟩]⟩,
   ⟨"SYN_TRACK_MEMBER", 0xC000, [(192, 64), (8, 8)], 64,
    [⟨F.SYN_TRACK_MEMBER_MASK, .rw, 0⟩]⟩,
   ⟨"SYN_TRACK_CUR", 0xC040, [(192, 64), (8, 8)], 64,
    [⟨F.SYN_TRACK_CUR_MASK, .ro, 0⟩]⟩,
   ⟨"SYN_TRACK_NEXT", 0xC080, [(192, 64), (8, 8)], 64,
    [⟨F.SYN_TRACK_NEXT_MASK, .ro, 0⟩]⟩,
   ⟨"SYN_CTXMAP", 0xF000, [(8, 64)], 64,
    [⟨F.SYN_CTXMAP_VALID, .rw, 0⟩, ⟨F.SYN_CTXMAP_VBASE, .rw, 0⟩, ⟨F.SYN_CTXMAP_COUNT, .rw, 0⟩, ⟨F.SYN_CTXMAP_TBASE, .rw, 0⟩]⟩,
   ⟨"SYN_REBASE", 0xF208, [(8, 63)], 64,
    [⟨F.SYN_REBASE_BARRIER, .rw, 0⟩, ⟨F.SYN_REBASE_BASE, .rw, 0⟩]⟩,
   ⟨"SYN_SAVE_LOC", 0xF400, [], 64,
    [⟨F.SYN_SAVE_LOC_LOCATOR, .rw, 0⟩]⟩,
   ⟨"SYN_SAVE_CTL", 0xF408, [], 32,
    [⟨F.SYN_SAVE_CTL_BUSY, .ro, 0⟩, ⟨F.SYN_SAVE_CTL_STATUS, .ro, 0⟩, ⟨F.SYN_SAVE_CTL_OP, .wo, 0⟩, ⟨F.SYN_SAVE_CTL_FREE, .wo, 0⟩, ⟨F.SYN_SAVE_CTL_CONTEXT, .wo, 0⟩]⟩,
   ⟨"SYN_STATUS", 0xF410, [], 32,
    [⟨F.SYN_STATUS_LOST_SEEN, .w1c, 0⟩, ⟨F.SYN_STATUS_STALE_SEEN, .w1c, 0⟩, ⟨F.SYN_STATUS_ERR_SEEN, .w1c, 0⟩]⟩,
   ⟨"SYN_ERR_EVENTS", 0xF418, [], 32,
    [⟨F.SYN_ERR_EVENTS_COUNT, .rc, 0⟩]⟩,
   ⟨"SYN_STALE", 0xF420, [], 32,
    [⟨F.SYN_STALE_COUNT, .rc, 0⟩]⟩]

/-- Registers of chapter 03. -/
def rows_syn_1 : List Row :=
  [⟨"SYN_LOST", 0xF428, [], 32,
    [⟨F.SYN_LOST_COUNT, .rc, 0⟩]⟩,
   ⟨"SYN_OUTQ", 0xF430, [], 32,
    [⟨F.SYN_OUTQ_DEPTH, .ro, 0⟩]⟩]

/-- All of them. -/
def rows_syn : List Row := rows_syn_0 ++ rows_syn_1

/-- Registers of chapter 12. -/
def rows_rrp : List Row :=
  [⟨"RTE_RP_TX_BYTES", 0x0, [], 64,
    [⟨F.RTE_RP_TX_BYTES_COUNT, .ro, 0⟩]⟩,
   ⟨"RTE_RP_RX_BYTES", 0x8, [], 64,
    [⟨F.RTE_RP_RX_BYTES_COUNT, .ro, 0⟩]⟩]

/-- Registers of chapter 10. -/
def rows_grtR_0 : List Row :=
  [⟨"GRT_RPOOL_CFG", 0x0, [], 64,
    [⟨F.GRT_RPOOL_CFG_ENABLE, .rw, 0⟩, ⟨F.GRT_RPOOL_CFG_COUNT, .rw, 0⟩, ⟨F.GRT_RPOOL_CFG_BASE, .rw, 0⟩]⟩,
   ⟨"GRT_RCTL", 0x8, [], 32,
    [⟨F.GRT_RCTL_BUSY, .ro, 0⟩, ⟨F.GRT_RCTL_RECLAIM, .wo, 0⟩, ⟨F.GRT_RCTL_OWNER, .wo, 0⟩]⟩,
   ⟨"GRT_RPOOL_STAT", 0x10, [], 32,
    [⟨F.GRT_RPOOL_STAT_LOST, .ro, 0⟩, ⟨F.GRT_RPOOL_STAT_FREE, .ro, 0⟩]⟩,
   ⟨"GRT_STATUS", 0x18, [], 32,
    [⟨F.GRT_STATUS_BAD_FREE_SEEN, .w1c, 0⟩, ⟨F.GRT_STATUS_REFUSED_SEEN, .w1c, 0⟩, ⟨F.GRT_STATUS_OVERFLOW_SEEN, .w1c, 0⟩]⟩,
   ⟨"GRT_RPOOL_OVERFLOWS", 0x20, [], 32,
    [⟨F.GRT_RPOOL_OVERFLOWS_COUNT, .rc, 0⟩]⟩,
   ⟨"GRT_REFUSALS", 0x28, [], 32,
    [⟨F.GRT_REFUSALS_COUNT, .rc, 0⟩]⟩,
   ⟨"GRT_DEFERRALS", 0x30, [], 32,
    [⟨F.GRT_DEFERRALS_COUNT, .rc, 0⟩]⟩,
   ⟨"GRT_BAD_FREES", 0x38, [], 32,
    [⟨F.GRT_BAD_FREES_COUNT, .rc, 0⟩]⟩,
   ⟨"GRT_WAIT_LIMIT", 0x40, [], 32,
    [⟨F.GRT_WAIT_LIMIT_NS, .rw, 0x186a0⟩]⟩,
   ⟨"GRT_WAITQ", 0x48, [], 32,
    [⟨F.GRT_WAITQ_DEPTH, .ro, 0⟩]⟩,
   ⟨"GRT_QUERY_LOC", 0x50, [], 64,
    [⟨F.GRT_QUERY_LOC_LOCATOR, .rw, 0⟩]⟩,
   ⟨"GRT_QUERY_OWN", 0x58, [], 64,
    [⟨F.GRT_QUERY_OWN_VALID, .ro, 0⟩, ⟨F.GRT_QUERY_OWN_INUSE, .ro, 0⟩, ⟨F.GRT_QUERY_OWN_SLOTV, .ro, 0⟩, ⟨F.GRT_QUERY_OWN_OWNERS, .ro, 0⟩]⟩]

/-- Registers of chapter 10. -/
def rows_grtR_1 : List Row :=
  [⟨"GRT_QUERY_CHG", 0x60, [], 64,
    [⟨F.GRT_QUERY_CHG_VALID, .ro, 0⟩, ⟨F.GRT_QUERY_CHG_CHARGED, .ro, 0⟩]⟩,
   ⟨"GRT_RPOOL_OWNER", 0x100, [(8, 32)], 64,
    [⟨F.GRT_RPOOL_OWNER_VALID, .rw, 0⟩, ⟨F.GRT_RPOOL_OWNER_OWNER, .rw, 0⟩, ⟨F.GRT_RPOOL_OWNER_MAX, .rw, 0⟩, ⟨F.GRT_RPOOL_OWNER_MIN, .rw, 0⟩]⟩,
   ⟨"GRT_RPOOL_INUSE", 0x800, [(8, 32)], 32,
    [⟨F.GRT_RPOOL_INUSE_COUNT, .ro, 0⟩]⟩,
   ⟨"GRT_CPOOL_CFG", 0x1000, [(64, 64)], 64,
    [⟨F.GRT_CPOOL_CFG_ENABLE, .rw, 0⟩, ⟨F.GRT_CPOOL_CFG_COUNT, .rw, 0⟩, ⟨F.GRT_CPOOL_CFG_BASE, .rw, 0⟩]⟩,
   ⟨"GRT_CPOOL_STAT", 0x1008, [(64, 64)], 32,
    [⟨F.GRT_CPOOL_STAT_LOST, .ro, 0⟩, ⟨F.GRT_CPOOL_STAT_BAD_FREE_SEEN, .w1c, 0⟩, ⟨F.GRT_CPOOL_STAT_OVERFLOW_SEEN, .w1c, 0⟩, ⟨F.GRT_CPOOL_STAT_FREE, .ro, 0⟩]⟩,
   ⟨"GRT_CPOOL_OWNER", 0x1010, [(64, 64), (8, 4)], 64,
    [⟨F.GRT_CPOOL_OWNER_VALID, .rw, 0⟩, ⟨F.GRT_CPOOL_OWNER_OWNER, .rw, 0⟩, ⟨F.GRT_CPOOL_OWNER_MAX, .rw, 0⟩, ⟨F.GRT_CPOOL_OWNER_MIN, .rw, 0⟩]⟩,
   ⟨"GRT_CPOOL_INUSE", 0x1030, [(64, 64)], 32,
    [⟨F.GRT_CPOOL_INUSE_COUNT3, .ro, 0⟩, ⟨F.GRT_CPOOL_INUSE_COUNT2, .ro, 0⟩, ⟨F.GRT_CPOOL_INUSE_COUNT1, .ro, 0⟩, ⟨F.GRT_CPOOL_INUSE_COUNT0, .ro, 0⟩]⟩,
   ⟨"GRT_CPOOL_OVERFLOWS", 0x1038, [(64, 64)], 32,
    [⟨F.GRT_CPOOL_OVERFLOWS_COUNT, .rc, 0⟩]⟩]

/-- All of them. -/
def rows_grtR : List Row := rows_grtR_0 ++ rows_grtR_1

/-- Registers of chapter 09. -/
def rows_ds : List Row :=
  [⟨"MEM_DS_PART", 0x0, [], 32,
    [⟨F.MEM_DS_PART_SCRATCH, .rw, 4⟩]⟩,
   ⟨"MEM_DS_ECC", 0x8, [], 64,
    [⟨F.MEM_DS_ECC_UNCORR, .rc, 0⟩, ⟨F.MEM_DS_ECC_CORR, .rc, 0⟩]⟩,
   ⟨"MEM_DS_HITS", 0x10, [], 64,
    [⟨F.MEM_DS_HITS_COUNT, .ro, 0⟩]⟩,
   ⟨"MEM_DS_MISSES", 0x18, [], 64,
    [⟨F.MEM_DS_MISSES_COUNT, .ro, 0⟩]⟩,
   ⟨"MEM_CWIN_BASE", 0x100, [(16, 8)], 64,
    [⟨F.MEM_CWIN_BASE_BASE, .rw, 0⟩]⟩,
   ⟨"MEM_CWIN_CTL", 0x108, [(16, 8)], 64,
    [⟨F.MEM_CWIN_CTL_ENABLE, .rw, 0⟩, ⟨F.MEM_CWIN_CTL_BUSY, .ro, 0⟩, ⟨F.MEM_CWIN_CTL_SIZE, .rw, 0⟩]⟩]

/-- Registers of chapter 12. -/
def rows_meshR : List Row :=
  [⟨"RTE_MESH_BYTES", 0x0, [(8, 4)], 64,
    [⟨F.RTE_MESH_BYTES_COUNT, .ro, 0⟩]⟩,
   ⟨"RTE_MESH_LINK", 0x100, [(8, 4)], 32,
    [⟨F.RTE_MESH_LINK_SPARES_USED, .ro, 0⟩, ⟨F.RTE_MESH_LINK_STATE, .ro, 1⟩]⟩,
   ⟨"RTE_MESH_RETRAINS", 0x120, [(8, 4)], 32,
    [⟨F.RTE_MESH_RETRAINS_COUNT, .rc, 0⟩]⟩]

/-- Registers of chapter 14. -/
def rows_spare : List Row :=
  [⟨"HTH_SPARE_CMD", 0x100, [], 32,
    [⟨F.HTH_SPARE_CMD_BUSY, .ro, 0⟩, ⟨F.HTH_SPARE_CMD_STATUS, .ro, 0⟩, ⟨F.HTH_SPARE_CMD_NOCOPY, .wo, 0⟩, ⟨F.HTH_SPARE_CMD_GO, .wo, 0⟩, ⟨F.HTH_SPARE_CMD_REGION, .wo, 0⟩, ⟨F.HTH_SPARE_CMD_CORE, .wo, 0⟩]⟩,
   ⟨"HTH_SPARE_CTL", 0x108, [], 32,
    [⟨F.HTH_SPARE_CTL_AUTO, .rw, 0⟩]⟩,
   ⟨"HTH_SUBSTITUTIONS", 0x110, [], 32,
    [⟨F.HTH_SUBSTITUTIONS_COUNT, .rc, 0⟩]⟩,
   ⟨"HTH_SPARE_MAP", 0x1000, [(8, 80)], 64,
    [⟨F.HTH_SPARE_MAP_CORE1, .ro, 0⟩, ⟨F.HTH_SPARE_MAP_STATE1, .ro, 0⟩, ⟨F.HTH_SPARE_MAP_CORE0, .ro, 0⟩, ⟨F.HTH_SPARE_MAP_STATE0, .ro, 0⟩]⟩,
   ⟨"HTH_SPARE_MARK", 0x1400, [(8, 80)], 64,
    [⟨F.HTH_SPARE_MARK_MARK, .w1c, 0⟩]⟩]

/-- Registers of chapter 09. -/
def rows_stack : List Row :=
  [⟨"MEM_STACK_STATUS", 0x0, [], 32,
    [⟨F.MEM_STACK_STATUS_SPARES_USED, .ro, 0⟩, ⟨F.MEM_STACK_STATUS_STATE, .ro, 1⟩]⟩,
   ⟨"MEM_LINK_CTL", 0x8, [], 32,
    [⟨F.MEM_LINK_CTL_RETRAIN, .wo, 0⟩]⟩,
   ⟨"MEM_SCRUB", 0x10, [], 32,
    [⟨F.MEM_SCRUB_HOURS, .rw, 0x18⟩]⟩,
   ⟨"MEM_RETRAINS", 0x18, [], 32,
    [⟨F.MEM_RETRAINS_COUNT, .rc, 0⟩]⟩,
   ⟨"MEM_ATOMIC_STATUS", 0x20, [], 32,
    [⟨F.MEM_ATOMIC_STATUS_PARTIAL_SEEN, .w1c, 0⟩, ⟨F.MEM_ATOMIC_STATUS_RESIDUE_FAIL_SEEN, .w1c, 0⟩, ⟨F.MEM_ATOMIC_STATUS_RESIDUE_SEEN, .w1c, 0⟩]⟩,
   ⟨"MEM_ATOMIC_EVENTS", 0x28, [], 32,
    [⟨F.MEM_ATOMIC_EVENTS_COUNT, .rc, 0⟩]⟩,
   ⟨"MEM_ATOMIC_FAILS", 0x30, [], 32,
    [⟨F.MEM_ATOMIC_FAILS_COUNT, .rc, 0⟩]⟩,
   ⟨"MEM_PARTIAL", 0x38, [], 32,
    [⟨F.MEM_PARTIAL_COUNT, .rc, 0⟩]⟩,
   ⟨"MEM_AWIN_SUM", 0x40, [], 64,
    [⟨F.MEM_AWIN_SUM_XOR, .ro, 0⟩]⟩,
   ⟨"MEM_AWIN_BASE", 0x100, [(16, 16)], 64,
    [⟨F.MEM_AWIN_BASE_BASE, .rw, 0⟩]⟩,
   ⟨"MEM_AWIN_CTL", 0x108, [(16, 16)], 64,
    [⟨F.MEM_AWIN_CTL_ENABLE, .rw, 0⟩, ⟨F.MEM_AWIN_CTL_READCLR, .rw, 0⟩, ⟨F.MEM_AWIN_CTL_OP, .rw, 0⟩, ⟨F.MEM_AWIN_CTL_FMT, .rw, 0⟩, ⟨F.MEM_AWIN_CTL_SIZE, .rw, 0⟩]⟩]

/-- Registers of chapter 09. -/
def rows_chan : List Row :=
  [⟨"MEM_CH_ECC", 0x0, [], 64,
    [⟨F.MEM_CH_ECC_UNCORR, .rc, 0⟩, ⟨F.MEM_CH_ECC_CORR, .rc, 0⟩]⟩,
   ⟨"MEM_CH_SLOTS", 0x8, [], 64,
    [⟨F.MEM_CH_SLOTS_COUNT, .ro, 0⟩]⟩]

/-- Registers of chapter 11. -/
def rows_iod : List Row :=
  [⟨"LNK_IOD_STATUS", 0x0, [], 32,
    [⟨F.LNK_IOD_STATUS_ETH_PORTS, .ro, 0⟩, ⟨F.LNK_IOD_STATUS_PORTS_UP, .ro, 0⟩]⟩,
   ⟨"LNK_HOP_LIMIT", 0x8, [], 32,
    [⟨F.LNK_HOP_LIMIT_LIMIT, .rw, 0x20⟩]⟩,
   ⟨"LNK_ETH_NOMATCH", 0x10, [], 32,
    [⟨F.LNK_ETH_NOMATCH_COUNT, .rc, 0⟩]⟩,
   ⟨"LNK_ETH_FIB_W0", 0x8000, [(16, 1024)], 64,
    [⟨F.LNK_ETH_FIB_W0_VALID, .rw, 0⟩, ⟨F.LNK_ETH_FIB_W0_VLAN_ANY, .rw, 0⟩, ⟨F.LNK_ETH_FIB_W0_VID, .rw, 0⟩, ⟨F.LNK_ETH_FIB_W0_DMAC, .rw, 0⟩]⟩,
   ⟨"LNK_ETH_FIB_W1", 0x8008, [(16, 1024)], 64,
    [⟨F.LNK_ETH_FIB_W1_ACTION, .rw, 0⟩, ⟨F.LNK_ETH_FIB_W1_MODULE, .rw, 0⟩, ⟨F.LNK_ETH_FIB_W1_PORT, .rw, 0⟩, ⟨F.LNK_ETH_FIB_W1_HITS, .ro, 0⟩]⟩]

/-- Registers of chapter 12. -/
def rows_iodR : List Row :=
  [⟨"RTE_IOD_ESC_PKTS", 0x0, [], 64,
    [⟨F.RTE_IOD_ESC_PKTS_COUNT, .ro, 0⟩]⟩,
   ⟨"RTE_IOD_HOLD_DROPS", 0x8, [], 32,
    [⟨F.RTE_IOD_HOLD_DROPS_COUNT, .rc, 0⟩]⟩,
   ⟨"RTE_IOD_ATTACH", 0x100, [(8, 2)], 32,
    [⟨F.RTE_IOD_ATTACH_SPARES_USED, .ro, 0⟩, ⟨F.RTE_IOD_ATTACH_STATE, .ro, 1⟩]⟩,
   ⟨"RTE_IOD_RETRAINS", 0x120, [(8, 2)], 32,
    [⟨F.RTE_IOD_RETRAINS_COUNT, .rc, 0⟩]⟩]

/-- Registers of chapter 15. -/
def rows_vigOwn : List Row :=
  [⟨"VIG_ROLE", 0x0, [], 32,
    [⟨F.VIG_ROLE_ROLE, .ro, 0⟩]⟩,
   ⟨"VIG_IHL_STATUS", 0x8, [], 32,
    [⟨F.VIG_IHL_STATUS_STATE, .ro, 0⟩, ⟨F.VIG_IHL_STATUS_RATE, .ro, 0⟩]⟩,
   ⟨"VIG_IHL_CMDS", 0x10, [], 64,
    [⟨F.VIG_IHL_CMDS_COUNT, .ro, 0⟩]⟩,
   ⟨"VIG_FAILOVERS", 0x18, [], 32,
    [⟨F.VIG_FAILOVERS_COUNT, .rc, 0⟩]⟩]

/-- Registers of chapter 11. -/
def rows_lane_0 : List Row :=
  [⟨"LNK_LANE_STATUS", 0x0, [], 32,
    [⟨F.LNK_LANE_STATUS_SIGNAL, .ro, 0⟩, ⟨F.LNK_LANE_STATUS_LOCK, .ro, 0⟩, ⟨F.LNK_LANE_STATUS_RATE, .ro, 0⟩, ⟨F.LNK_LANE_STATUS_PASS, .ro, 0⟩]⟩,
   ⟨"LNK_LANE_FEC", 0x8, [], 64,
    [⟨F.LNK_LANE_FEC_SYMBOLS, .ro, 0⟩]⟩,
   ⟨"LNK_LANE_OPT", 0x10, [], 32,
    [⟨F.LNK_LANE_OPT_RXPWR, .ro, 0⟩, ⟨F.LNK_LANE_OPT_TXBIAS, .ro, 0⟩]⟩,
   ⟨"LNK_PORT_CFG", 0x100, [], 64,
    [⟨F.LNK_PORT_CFG_ENABLE, .rw, 0⟩, ⟨F.LNK_PORT_CFG_WIDTH, .rw, 0⟩, ⟨F.LNK_PORT_CFG_PERS, .rw, 0⟩, ⟨F.LNK_PORT_CFG_MAXVER, .rw, 2⟩, ⟨F.LNK_PORT_CFG_RATES, .rw, 7⟩, ⟨F.LNK_PORT_CFG_DEGRADE, .rw, 0⟩, ⟨F.LNK_PORT_CFG_AUTO_RETRAIN, .rw, 1⟩, ⟨F.LNK_PORT_CFG_MEM_EN, .rw, 0⟩]⟩,
   ⟨"LNK_PORT_CTL", 0x108, [], 32,
    [⟨F.LNK_PORT_CTL_RETRAIN, .wo, 0⟩]⟩,
   ⟨"LNK_PORT_STATUS", 0x110, [], 64,
    [⟨F.LNK_PORT_STATUS_STATE, .ro, 0⟩, ⟨F.LNK_PORT_STATUS_VERSION, .ro, 0⟩, ⟨F.LNK_PORT_STATUS_RATE, .ro, 0⟩, ⟨F.LNK_PORT_STATUS_TWIDTH, .ro, 0⟩, ⟨F.LNK_PORT_STATUS_TOFFSET, .ro, 0⟩, ⟨F.LNK_PORT_STATUS_UNACKED, .ro, 0⟩, ⟨F.LNK_PORT_STATUS_DOWN_REASON, .ro, 0⟩]⟩,
   ⟨"LNK_PEER", 0x118, [], 64,
    [⟨F.LNK_PEER_VALID, .ro, 0⟩, ⟨F.LNK_PEER_KIND, .ro, 0⟩, ⟨F.LNK_PEER_MAXVER, .ro, 0⟩, ⟨F.LNK_PEER_RATES, .ro, 0⟩, ⟨F.LNK_PEER_WIDTH, .ro, 0⟩, ⟨F.LNK_PEER_PORT, .ro, 0⟩, ⟨F.LNK_PEER_ID, .ro, 0⟩]⟩,
   ⟨"LNK_ASYM", 0x120, [], 32,
    [⟨F.LNK_ASYM_PS, .ro, 0⟩]⟩,
   ⟨"LNK_ASYM_TRIM", 0x128, [], 32,
    [⟨F.LNK_ASYM_TRIM_PS, .rw, 0⟩]⟩,
   ⟨"LNK_PORT_FLAGS", 0x130, [], 32,
    [⟨F.LNK_PORT_FLAGS_BADHDR_SEEN, .w1c, 0⟩, ⟨F.LNK_PORT_FLAGS_DOWN_SEEN, .w1c, 0⟩]⟩,
   ⟨"LNK_CRC_ERRS", 0x138, [], 32,
    [⟨F.LNK_CRC_ERRS_COUNT, .rc, 0⟩]⟩,
   ⟨"LNK_FEC_UNCORR", 0x140, [], 32,
    [⟨F.LNK_FEC_UNCORR_COUNT, .rc, 0⟩]⟩]

/-- Registers of chapter 11. -/
def rows_lane_1 : List Row :=
  [⟨"LNK_REPLAYS", 0x148, [], 32,
    [⟨F.LNK_REPLAYS_COUNT, .rc, 0⟩]⟩,
   ⟨"LNK_DOWNS", 0x150, [], 32,
    [⟨F.LNK_DOWNS_COUNT, .rc, 0⟩]⟩,
   ⟨"LNK_BADHDR", 0x158, [], 32,
    [⟨F.LNK_BADHDR_COUNT, .rc, 0⟩]⟩,
   ⟨"LNK_DISCARDS", 0x160, [], 32,
    [⟨F.LNK_DISCARDS_COUNT, .rc, 0⟩]⟩,
   ⟨"LNK_ETH_DROPS", 0x168, [], 32,
    [⟨F.LNK_ETH_DROPS_COUNT, .rc, 0⟩]⟩,
   ⟨"LNK_TX_BYTES", 0x170, [], 64,
    [⟨F.LNK_TX_BYTES_COUNT, .ro, 0⟩]⟩,
   ⟨"LNK_RX_BYTES", 0x178, [], 64,
    [⟨F.LNK_RX_BYTES_COUNT, .ro, 0⟩]⟩]

/-- All of them. -/
def rows_lane : List Row := rows_lane_0 ++ rows_lane_1

/-- Registers of chapter 11. -/
def rows_oe : List Row :=
  [⟨"LNK_OE_STATUS", 0x0, [], 32,
    [⟨F.LNK_OE_STATUS_TEMP, .ro, 0⟩, ⟨F.LNK_OE_STATUS_LASER_OK, .ro, 0⟩]⟩]

/-- Registers of chapter 14. -/
def rows_vigRel_0 : List Row :=
  [⟨"VIG_REL_STATUS", 0x1000, [], 32,
    [⟨F.VIG_REL_STATUS_REC_FROZEN_SEEN, .w1c, 0⟩, ⟨F.VIG_REL_STATUS_REC_GAP_SEEN, .w1c, 0⟩, ⟨F.VIG_REL_STATUS_ASH_LOST_SEEN, .w1c, 0⟩, ⟨F.VIG_REL_STATUS_SHADOW_FAIL_SEEN, .w1c, 0⟩, ⟨F.VIG_REL_STATUS_LATE_SEEN, .w1c, 0⟩, ⟨F.VIG_REL_STATUS_HEALTH_SUSPECT_SEEN, .w1c, 0⟩, ⟨F.VIG_REL_STATUS_HEALTH_WARN_SEEN, .w1c, 0⟩, ⟨F.VIG_REL_STATUS_STALL_SEEN, .w1c, 0⟩]⟩,
   ⟨"VIG_REL_EVENTS", 0x1008, [(8, 8)], 32,
    [⟨F.VIG_REL_EVENTS_COUNT, .rc, 0⟩]⟩,
   ⟨"VIG_ASH_SEL", 0x1048, [], 32,
    [⟨F.VIG_ASH_SEL_INDEX, .rw, 0⟩]⟩,
   ⟨"VIG_ASH_WORD", 0x1050, [(8, 8)], 64,
    [⟨F.VIG_ASH_WORD_WORD, .ro, 0⟩]⟩,
   ⟨"VIG_ASH_HEAD", 0x1090, [], 64,
    [⟨F.VIG_ASH_HEAD_SEQ, .ro, 1⟩]⟩,
   ⟨"VIG_ASH_ACK", 0x1098, [], 64,
    [⟨F.VIG_ASH_ACK_SEQ, .rw, 0⟩]⟩,
   ⟨"VIG_ASH_LOST", 0x10A0, [], 32,
    [⟨F.VIG_ASH_LOST_COUNT, .rc, 0⟩]⟩,
   ⟨"VIG_HEALTH_CTL", 0x1100, [], 32,
    [⟨F.VIG_HEALTH_CTL_DECAY, .rw, 4⟩, ⟨F.VIG_HEALTH_CTL_HK, .rw, 0x1a⟩, ⟨F.VIG_HEALTH_CTL_MODE, .rw, 3⟩]⟩,
   ⟨"VIG_HEALTH_W", 0x1108, [], 64,
    [⟨F.VIG_HEALTH_W_W, .rw, 0x8040204004020101⟩]⟩,
   ⟨"VIG_HEALTH_THR", 0x1110, [], 64,
    [⟨F.VIG_HEALTH_THR_SUSPECT, .rw, 0xfa0⟩, ⟨F.VIG_HEALTH_THR_WARN, .rw, 0x3e8⟩]⟩,
   ⟨"VIG_HEALTH", 0x1118, [], 64,
    [⟨F.VIG_HEALTH_SCORE, .ro, 0⟩, ⟨F.VIG_HEALTH_LEVEL, .ro, 0⟩]⟩,
   ⟨"VIG_LATE_CFG", 0x1120, [], 64,
    [⟨F.VIG_LATE_CFG_LATE_THR, .rw, 0x1000⟩, ⟨F.VIG_LATE_CFG_LATE_NS, .rw, 0x7d0⟩]⟩]

/-- Registers of chapter 14. -/
def rows_vigRel_1 : List Row :=
  [⟨"VIG_LATE_SEL", 0x1128, [], 32,
    [⟨F.VIG_LATE_SEL_MODULE, .rw, 0⟩]⟩,
   ⟨"VIG_LATE_DATA", 0x1130, [], 32,
    [⟨F.VIG_LATE_DATA_L, .ro, 0⟩]⟩,
   ⟨"VIG_SHD_CTL", 0x1200, [], 32,
    [⟨F.VIG_SHD_CTL_PORT, .rw, 0⟩, ⟨F.VIG_SHD_CTL_MODE, .rw, 0⟩]⟩,
   ⟨"VIG_SHD_TAKE", 0x1208, [], 64,
    [⟨F.VIG_SHD_TAKE_VALID, .rw, 0⟩, ⟨F.VIG_SHD_TAKE_TICK, .rw, 0⟩]⟩,
   ⟨"VIG_SHD_STATUS", 0x1210, [], 64,
    [⟨F.VIG_SHD_STATUS_STATE, .ro, 0⟩, ⟨F.VIG_SHD_STATUS_CODE, .ro, 0⟩, ⟨F.VIG_SHD_STATUS_MATCHED, .ro, 0⟩]⟩,
   ⟨"VIG_SHD_LAST", 0x1218, [], 64,
    [⟨F.VIG_SHD_LAST_LAST_TICK, .ro, 0⟩, ⟨F.VIG_SHD_LAST_FAIL_TICK, .ro, 0⟩]⟩,
   ⟨"VIG_SHD_HOLD", 0x1220, [], 32,
    [⟨F.VIG_SHD_HOLD_NS, .rw, 0x2710⟩]⟩,
   ⟨"VIG_QNONCE", 0x1300, [], 64,
    [⟨F.VIG_QNONCE_NONCE, .ro, 0⟩]⟩,
   ⟨"VIG_QKEYS", 0x1308, [], 32,
    [⟨F.VIG_QKEYS_K, .ro, 0⟩, ⟨F.VIG_QKEYS_N, .ro, 0⟩]⟩,
   ⟨"VIG_QREJECTS", 0x1310, [], 32,
    [⟨F.VIG_QREJECTS_COUNT, .rc, 0⟩]⟩,
   ⟨"VIG_REC_LOC", 0x1400, [], 64,
    [⟨F.VIG_REC_LOC_LOCATOR, .rw, 0⟩]⟩,
   ⟨"VIG_REC_SIZE", 0x1408, [], 32,
    [⟨F.VIG_REC_SIZE_GRANULES, .rw, 0⟩]⟩]

/-- Registers of chapter 14. -/
def rows_vigRel_2 : List Row :=
  [⟨"VIG_REC_CTL", 0x1410, [], 32,
    [⟨F.VIG_REC_CTL_EN, .rw, 0⟩, ⟨F.VIG_REC_CTL_FREEZE, .rw, 1⟩, ⟨F.VIG_REC_CTL_FROZEN, .ro, 0⟩, ⟨F.VIG_REC_CTL_PMASK, .rw, 0x1ff⟩]⟩,
   ⟨"VIG_REC_MARK", 0x1418, [], 64,
    [⟨F.VIG_REC_MARK_ID, .wo, 0⟩]⟩,
   ⟨"VIG_REC_SEQ", 0x1420, [], 64,
    [⟨F.VIG_REC_SEQ_COUNT, .ro, 0⟩]⟩,
   ⟨"VIG_REC_HEAD", 0x1428, [], 64,
    [⟨F.VIG_REC_HEAD_OFFSET, .ro, 0⟩]⟩,
   ⟨"VIG_REC_GAPS", 0x1430, [], 32,
    [⟨F.VIG_REC_GAPS_COUNT, .rc, 0⟩]⟩,
   ⟨"VIG_RPL_LOC", 0x1500, [], 64,
    [⟨F.VIG_RPL_LOC_LOCATOR, .rw, 0⟩]⟩,
   ⟨"VIG_RPL_SIZE", 0x1508, [], 32,
    [⟨F.VIG_RPL_SIZE_GRANULES, .rw, 0⟩]⟩,
   ⟨"VIG_RPL_START", 0x1510, [], 64,
    [⟨F.VIG_RPL_START_SEQ, .rw, 0⟩]⟩,
   ⟨"VIG_RPL_END", 0x1518, [], 64,
    [⟨F.VIG_RPL_END_SEQ, .rw, 0⟩]⟩,
   ⟨"VIG_RPL_CTL", 0x1520, [], 32,
    [⟨F.VIG_RPL_CTL_EN, .rw, 0⟩]⟩,
   ⟨"VIG_RPL_STATUS", 0x1528, [], 64,
    [⟨F.VIG_RPL_STATUS_CODE, .ro, 0⟩, ⟨F.VIG_RPL_STATUS_DONE, .ro, 0⟩, ⟨F.VIG_RPL_STATUS_MISMATCH_TICK, .ro, 0⟩]⟩]

/-- All of them. -/
def rows_vigRel : List Row := rows_vigRel_0 ++ rows_vigRel_1 ++ rows_vigRel_2

/-- Registers of chapter 15. -/
def rows_vigId : List Row :=
  [⟨"VIG_IDENT", 0x0, [], 64,
    [⟨F.VIG_IDENT_PART, .ro, 0x4b01⟩, ⟨F.VIG_IDENT_STEPPING, .ro, 0⟩, ⟨F.VIG_IDENT_GRADE, .ro, 0⟩, ⟨F.VIG_IDENT_LEAD, .ro, 0⟩, ⟨F.VIG_IDENT_OWNER, .ro, 0⟩, ⟨F.VIG_IDENT_DEBUG, .ro, 0⟩]⟩,
   ⟨"VIG_SERIAL", 0x8, [], 64,
    [⟨F.VIG_SERIAL_SERIAL, .ro, 0⟩]⟩,
   ⟨"VIG_STATE", 0x10, [], 32,
    [⟨F.VIG_STATE_STATE, .ro, 2⟩, ⟨F.VIG_STATE_FENCE_PIN, .ro, 0⟩, ⟨F.VIG_STATE_PWROFF_PIN, .ro, 0⟩, ⟨F.VIG_STATE_FENCE_CMD, .ro, 0⟩]⟩,
   ⟨"VIG_MODULE_ID", 0x18, [], 32,
    [⟨F.VIG_MODULE_ID_VALID, .rw, 0⟩, ⟨F.VIG_MODULE_ID_ID, .rw, 0⟩]⟩,
   ⟨"VIG_BOOT_STATUS", 0x20, [], 64,
    [⟨F.VIG_BOOT_STATUS_FAILED, .ro, 0⟩, ⟨F.VIG_BOOT_STATUS_STAGE, .ro, 6⟩, ⟨F.VIG_BOOT_STATUS_CODE, .ro, 0⟩, ⟨F.VIG_BOOT_STATUS_FALLBACK, .ro, 0⟩, ⟨F.VIG_BOOT_STATUS_SLOT, .ro, 0⟩, ⟨F.VIG_BOOT_STATUS_MS, .ro, 0⟩]⟩,
   ⟨"VIG_INBAND_CTL", 0x28, [], 32,
    [⟨F.VIG_INBAND_CTL_READ, .rw, 0⟩, ⟨F.VIG_INBAND_CTL_EN, .rw, 0⟩]⟩,
   ⟨"VIG_CMD_REJECTS", 0x30, [], 32,
    [⟨F.VIG_CMD_REJECTS_COUNT, .rc, 0⟩]⟩,
   ⟨"VIG_MGMT_DROPS", 0x38, [], 32,
    [⟨F.VIG_MGMT_DROPS_COUNT, .rc, 0⟩]⟩,
   ⟨"VIG_REPRO_ID", 0x40, [], 64,
    [⟨F.VIG_REPRO_ID_LAYOUT, .ro, 1⟩, ⟨F.VIG_REPRO_ID_ARITH_REV, .ro, 1⟩, ⟨F.VIG_REPRO_ID_TRANS_REV, .ro, 1⟩, ⟨F.VIG_REPRO_ID_ORDER_REV, .ro, 1⟩, ⟨F.VIG_REPRO_ID_INJECT, .ro, 0⟩, ⟨F.VIG_REPRO_ID_TSUB, .ro, 0⟩]⟩,
   ⟨"VIG_SECVER", 0x48, [], 64,
    [⟨F.VIG_SECVER_MIN, .ro, 0⟩]⟩]

/-- Registers of chapter 04. -/
def rows_alm_0 : List Row :=
  [⟨"ALM_NOW", 0x0, [], 64,
    [⟨F.ALM_NOW_COUNT, .ro, 0⟩]⟩,
   ⟨"ALM_CTL", 0x8, [], 32,
    [⟨F.ALM_CTL_ROOT, .rw, 0⟩, ⟨F.ALM_CTL_RELOCK, .wo, 0⟩, ⟨F.ALM_CTL_K, .rw, 0xc⟩, ⟨F.ALM_CTL_BACKUP_VALID, .rw, 0⟩, ⟨F.ALM_CTL_BACKUP_PORT, .rw, 0⟩, ⟨F.ALM_CTL_PARENT_PORT, .rw, 0⟩, ⟨F.ALM_CTL_PARENT_VALID, .rw, 0⟩]⟩,
   ⟨"ALM_STATUS", 0x10, [], 32,
    [⟨F.ALM_STATUS_DEPTH, .ro, 0⟩, ⟨F.ALM_STATUS_OVERRUN_SEEN, .w1c, 0⟩, ⟨F.ALM_STATUS_NEIGHBOUR_DISAGREE, .w1c, 0⟩, ⟨F.ALM_STATUS_OUT_OF_STEP, .w1c, 0⟩, ⟨F.ALM_STATUS_ON_BACKUP, .ro, 0⟩, ⟨F.ALM_STATUS_STATE, .ro, 0⟩]⟩,
   ⟨"ALM_SET", 0x18, [], 64,
    [⟨F.ALM_SET_COUNT, .wo, 0⟩]⟩,
   ⟨"ALM_TRIM", 0x20, [], 32,
    [⟨F.ALM_TRIM_PPB, .rw, 0⟩]⟩,
   ⟨"ALM_OFFSET", 0x28, [], 32,
    [⟨F.ALM_OFFSET_PS, .ro, 0⟩]⟩,
   ⟨"ALM_OOS_EVENTS", 0x30, [], 32,
    [⟨F.ALM_OOS_EVENTS_COUNT, .rc, 0⟩]⟩,
   ⟨"ALM_DISAGREE_EVENTS", 0x38, [], 32,
    [⟨F.ALM_DISAGREE_EVENTS_COUNT, .rc, 0⟩]⟩,
   ⟨"ALM_EPOCH", 0x40, [], 64,
    [⟨F.ALM_EPOCH_EPOCH, .rw, 0⟩]⟩,
   ⟨"ALM_JOB", 0x48, [], 64,
    [⟨F.ALM_JOB_JOB_ID, .rw, 0⟩, ⟨F.ALM_JOB_HS_FLUE, .rw, 0⟩]⟩,
   ⟨"ALM_DIGEST", 0x50, [], 64,
    [⟨F.ALM_DIGEST_DIGEST, .rw, 0⟩]⟩,
   ⟨"ALM_JOB_CTL", 0x58, [], 32,
    [⟨F.ALM_JOB_CTL_ABORT, .wo, 0⟩, ⟨F.ALM_JOB_CTL_ARM, .wo, 0⟩]⟩]

/-- Registers of chapter 04. -/
def rows_alm_1 : List Row :=
  [⟨"ALM_JOB_STATUS", 0x60, [], 32,
    [⟨F.ALM_JOB_STATUS_STATUS, .ro, 0⟩, ⟨F.ALM_JOB_STATUS_PHASE, .ro, 0⟩]⟩,
   ⟨"ALM_CAL_CTL", 0x68, [], 32,
    [⟨F.ALM_CAL_CTL_OVR_ACT, .rw, 0⟩]⟩,
   ⟨"ALM_OVR_COUNT", 0x70, [], 32,
    [⟨F.ALM_OVR_COUNT_COUNT, .rc, 0⟩]⟩,
   ⟨"ALM_OVR_LAST", 0x78, [], 64,
    [⟨F.ALM_OVR_LAST_DIE, .ro, 0⟩, ⟨F.ALM_OVR_LAST_ENTRY, .ro, 0⟩, ⟨F.ALM_OVR_LAST_REASON, .ro, 0⟩, ⟨F.ALM_OVR_LAST_QID, .ro, 0⟩, ⟨F.ALM_OVR_LAST_REGION, .ro, 0⟩]⟩,
   ⟨"ALM_CAL_LOC", 0x100, [(8, 64)], 64,
    [⟨F.ALM_CAL_LOC_LOCATOR, .rw, 0⟩]⟩,
   ⟨"ALM_CAL_LEN", 0x300, [(8, 64)], 32,
    [⟨F.ALM_CAL_LEN_ENTRIES, .rw, 0⟩]⟩,
   ⟨"ALM_CAL_POS", 0x500, [(8, 64)], 64,
    [⟨F.ALM_CAL_POS_TICK, .ro, 0⟩, ⟨F.ALM_CAL_POS_NEXT, .ro, 0⟩]⟩]

/-- All of them. -/
def rows_alm : List Row := rows_alm_0 ++ rows_alm_1

/-- Registers of chapter 12. -/
def rows_rte_0 : List Row :=
  [⟨"RTE_MODE", 0x0, [], 32,
    [⟨F.RTE_MODE_STRICT_N, .rw, 3⟩, ⟨F.RTE_MODE_SCHED, .rw, 0⟩, ⟨F.RTE_MODE_SPLIT, .rw, 0⟩]⟩,
   ⟨"RTE_EPOCH", 0x8, [], 32,
    [⟨F.RTE_EPOCH_FLIPS, .ro, 0⟩, ⟨F.RTE_EPOCH_DRAINING, .ro, 0⟩, ⟨F.RTE_EPOCH_ARMED, .ro, 0⟩, ⟨F.RTE_EPOCH_ARM, .wo, 0⟩, ⟨F.RTE_EPOCH_CUR, .ro, 0⟩]⟩,
   ⟨"RTE_FLIP_AT", 0x10, [], 64,
    [⟨F.RTE_FLIP_AT_COUNT, .rw, 0⟩]⟩,
   ⟨"RTE_DRAIN", 0x18, [], 32,
    [⟨F.RTE_DRAIN_NS, .rw, 0x186a0⟩]⟩,
   ⟨"RTE_ESC_DELAY", 0x20, [], 32,
    [⟨F.RTE_ESC_DELAY_NS, .rw, 0x100⟩]⟩,
   ⟨"RTE_STATUS", 0x28, [], 32,
    [⟨F.RTE_STATUS_ESCVIOL_SEEN, .w1c, 0⟩, ⟨F.RTE_STATUS_NOROUTE_SEEN, .w1c, 0⟩]⟩,
   ⟨"RTE_NOROUTE", 0x30, [], 32,
    [⟨F.RTE_NOROUTE_COUNT, .rc, 0⟩]⟩,
   ⟨"RTE_ESCVIOL", 0x38, [], 32,
    [⟨F.RTE_ESCVIOL_COUNT, .rc, 0⟩]⟩,
   ⟨"RTE_CMAP_LOC", 0x40, [], 64,
    [⟨F.RTE_CMAP_LOC_LOCATOR, .rw, 0⟩]⟩,
   ⟨"RTE_CMAP_CTL", 0x48, [], 32,
    [⟨F.RTE_CMAP_CTL_EN, .rw, 0⟩, ⟨F.RTE_CMAP_CTL_ENTRIES, .rw, 0⟩, ⟨F.RTE_CMAP_CTL_K, .rw, 0x10⟩]⟩,
   ⟨"RTE_CMAP_SEQ", 0x50, [], 32,
    [⟨F.RTE_CMAP_SEQ_SEQ, .ro, 0⟩]⟩,
   ⟨"RTE_ESC_PKTS", 0x58, [], 64,
    [⟨F.RTE_ESC_PKTS_COUNT, .ro, 0⟩]⟩]

/-- Registers of chapter 12. -/
def rows_rte_1 : List Row :=
  [⟨"RTE_EP_SEL", 0x60, [], 32,
    [⟨F.RTE_EP_SEL_INC, .rw, 0⟩, ⟨F.RTE_EP_SEL_INDEX, .rw, 0⟩]⟩,
   ⟨"RTE_EP_DATA", 0x68, [], 64,
    [⟨F.RTE_EP_DATA_ENTRY, .rw, 0⟩]⟩,
   ⟨"RTE_POOLS0", 0x70, [], 64,
    [⟨F.RTE_POOLS0_RSP, .rw, 0x300⟩, ⟨F.RTE_POOLS0_REQ, .rw, 0x200⟩, ⟨F.RTE_POOLS0_QACK, .rw, 0x20⟩, ⟨F.RTE_POOLS0_QUICK, .rw, 0x40⟩, ⟨F.RTE_POOLS0_MGMT, .rw, 0x81⟩]⟩,
   ⟨"RTE_POOLS1", 0x78, [], 64,
    [⟨F.RTE_POOLS1_ESC, .rw, 0x100⟩, ⟨F.RTE_POOLS1_ESC_REQ, .rw, 0x81⟩, ⟨F.RTE_POOLS1_COLL_DOWN, .rw, 0x300⟩, ⟨F.RTE_POOLS1_COLL_UP, .rw, 0x300⟩, ⟨F.RTE_POOLS1_FWD, .rw, 0x200⟩]⟩,
   ⟨"RTE_PORT", 0xA000, [(8, 1024)], 64,
    [⟨F.RTE_PORT_UPWARD, .rw, 0⟩, ⟨F.RTE_PORT_GATE_EN, .rw, 0⟩, ⟨F.RTE_PORT_GATE, .rw, 0⟩, ⟨F.RTE_PORT_W, .rw, 0x20408102040810⟩]⟩,
   ⟨"RTE_MTAB0", 0x2000, [(8, 2048)], 64,
    [⟨F.RTE_MTAB0_VALID, .rw, 0⟩, ⟨F.RTE_MTAB0_ESC_PORT, .rw, 0⟩, ⟨F.RTE_MTAB0_CMASK, .rw, 0⟩, ⟨F.RTE_MTAB0_CAND3, .rw, 0⟩, ⟨F.RTE_MTAB0_CAND2, .rw, 0⟩, ⟨F.RTE_MTAB0_CAND1, .rw, 0⟩, ⟨F.RTE_MTAB0_CAND0, .rw, 0⟩]⟩,
   ⟨"RTE_MTAB1", 0x6000, [(8, 2048)], 64,
    [⟨F.RTE_MTAB1_VALID, .rw, 0⟩, ⟨F.RTE_MTAB1_ESC_PORT, .rw, 0⟩, ⟨F.RTE_MTAB1_CMASK, .rw, 0⟩, ⟨F.RTE_MTAB1_CAND3, .rw, 0⟩, ⟨F.RTE_MTAB1_CAND2, .rw, 0⟩, ⟨F.RTE_MTAB1_CAND1, .rw, 0⟩, ⟨F.RTE_MTAB1_CAND0, .rw, 0⟩]⟩]

/-- All of them. -/
def rows_rte : List Row := rows_rte_0 ++ rows_rte_1

/-- Registers of chapter 13. -/
def rows_flu_0 : List Row :=
  [⟨"FLU_CMD", 0x0, [], 32,
    [⟨F.FLU_CMD_BUSY, .ro, 0⟩, ⟨F.FLU_CMD_STATUS, .ro, 0⟩, ⟨F.FLU_CMD_OP, .wo, 0⟩, ⟨F.FLU_CMD_FLUE, .wo, 0⟩]⟩,
   ⟨"FLU_CMD_LOC", 0x8, [], 64,
    [⟨F.FLU_CMD_LOC_LOCATOR, .rw, 0⟩]⟩,
   ⟨"FLU_STATUS", 0x10, [], 32,
    [⟨F.FLU_STATUS_REFUSED_SEEN, .w1c, 0⟩, ⟨F.FLU_STATUS_ABORT_SEEN, .w1c, 0⟩, ⟨F.FLU_STATUS_RESEND_SEEN, .w1c, 0⟩, ⟨F.FLU_STATUS_TIMEOUT_SEEN, .w1c, 0⟩, ⟨F.FLU_STATUS_MISMATCH_SEEN, .w1c, 0⟩]⟩,
   ⟨"FLU_TIMEOUT", 0x18, [], 32,
    [⟨F.FLU_TIMEOUT_NS, .rw, 0x186a0⟩]⟩,
   ⟨"FLU_RESEND", 0x20, [], 32,
    [⟨F.FLU_RESEND_NS, .rw, 0x4e20⟩]⟩,
   ⟨"FLU_QRESEND", 0x28, [], 32,
    [⟨F.FLU_QRESEND_NS, .rw, 0x7d0⟩]⟩,
   ⟨"FLU_WAIT", 0x30, [], 32,
    [⟨F.FLU_WAIT_NS, .rw, 0x186a0⟩]⟩,
   ⟨"FLU_MISMATCHES", 0x38, [], 32,
    [⟨F.FLU_MISMATCHES_COUNT, .rc, 0⟩]⟩,
   ⟨"FLU_TIMEOUTS", 0x40, [], 32,
    [⟨F.FLU_TIMEOUTS_COUNT, .rc, 0⟩]⟩,
   ⟨"FLU_RESENDS", 0x48, [], 32,
    [⟨F.FLU_RESENDS_COUNT, .rc, 0⟩]⟩,
   ⟨"FLU_ABORTS", 0x50, [], 32,
    [⟨F.FLU_ABORTS_COUNT, .rc, 0⟩]⟩,
   ⟨"FLU_REFUSALS", 0x58, [], 32,
    [⟨F.FLU_REFUSALS_COUNT, .rc, 0⟩]⟩]

/-- Registers of chapter 13. -/
def rows_flu_1 : List Row :=
  [⟨"FLU_LAST_EARLY", 0x60, [], 64,
    [⟨F.FLU_LAST_EARLY_COUNT, .ro, 0⟩]⟩,
   ⟨"FLU_BYTES_IN", 0x68, [], 64,
    [⟨F.FLU_BYTES_IN_COUNT, .ro, 0⟩]⟩,
   ⟨"FLU_BYTES_OUT", 0x70, [], 64,
    [⟨F.FLU_BYTES_OUT_COUNT, .ro, 0⟩]⟩,
   ⟨"FLU_ENTRY", 0x1000, [(8, 4096)], 64,
    [⟨F.FLU_ENTRY_STATE, .ro, 0⟩, ⟨F.FLU_ENTRY_KIND, .ro, 0⟩, ⟨F.FLU_ENTRY_INSTANCE, .ro, 0⟩, ⟨F.FLU_ENTRY_LAST_STATUS, .ro, 0⟩, ⟨F.FLU_ENTRY_CAUSE, .ro, 0⟩, ⟨F.FLU_ENTRY_BUFFERS, .ro, 0⟩]⟩]

/-- All of them. -/
def rows_flu : List Row := rows_flu_0 ++ rows_flu_1

/-- Registers of chapter 10. -/
def rows_grtF : List Row :=
  [⟨"GRT_FPOOL_CFG", 0x0, [], 64,
    [⟨F.GRT_FPOOL_CFG_ENABLE, .rw, 0⟩, ⟨F.GRT_FPOOL_CFG_COUNT, .rw, 0⟩, ⟨F.GRT_FPOOL_CFG_BASE_G, .rw, 0⟩]⟩,
   ⟨"GRT_FCTL", 0x8, [], 32,
    [⟨F.GRT_FCTL_BUSY, .ro, 0⟩, ⟨F.GRT_FCTL_RECLAIM, .wo, 0⟩, ⟨F.GRT_FCTL_OWNER, .wo, 0⟩]⟩,
   ⟨"GRT_FPOOL_STAT", 0x10, [], 32,
    [⟨F.GRT_FPOOL_STAT_FREE, .ro, 0⟩]⟩,
   ⟨"GRT_FPOOL_STATUS", 0x18, [], 32,
    [⟨F.GRT_FPOOL_STATUS_LOST, .ro, 0⟩, ⟨F.GRT_FPOOL_STATUS_BAD_FREE_SEEN, .w1c, 0⟩, ⟨F.GRT_FPOOL_STATUS_OVERFLOW_SEEN, .w1c, 0⟩]⟩,
   ⟨"GRT_FPOOL_OVERFLOWS", 0x20, [], 32,
    [⟨F.GRT_FPOOL_OVERFLOWS_COUNT, .rc, 0⟩]⟩,
   ⟨"GRT_FPOOL_BAD_FREES", 0x28, [], 32,
    [⟨F.GRT_FPOOL_BAD_FREES_COUNT, .rc, 0⟩]⟩,
   ⟨"GRT_FQUERY_LOC", 0x30, [], 64,
    [⟨F.GRT_FQUERY_LOC_LOCATOR, .rw, 0⟩]⟩,
   ⟨"GRT_FQUERY_OWN", 0x38, [], 64,
    [⟨F.GRT_FQUERY_OWN_VALID, .ro, 0⟩, ⟨F.GRT_FQUERY_OWN_INUSE, .ro, 0⟩, ⟨F.GRT_FQUERY_OWN_SLOTV, .ro, 0⟩, ⟨F.GRT_FQUERY_OWN_OWNERS, .ro, 0⟩]⟩,
   ⟨"GRT_FQUERY_CHG", 0x40, [], 64,
    [⟨F.GRT_FQUERY_CHG_VALID, .ro, 0⟩, ⟨F.GRT_FQUERY_CHG_CHARGED, .ro, 0⟩]⟩,
   ⟨"GRT_FPOOL_OWNER", 0x1000, [(8, 256)], 64,
    [⟨F.GRT_FPOOL_OWNER_VALID, .rw, 0⟩, ⟨F.GRT_FPOOL_OWNER_OWNER, .rw, 0⟩, ⟨F.GRT_FPOOL_OWNER_MAX, .rw, 0⟩, ⟨F.GRT_FPOOL_OWNER_MIN, .rw, 0⟩]⟩,
   ⟨"GRT_FPOOL_INUSE", 0x1800, [(8, 256)], 32,
    [⟨F.GRT_FPOOL_INUSE_COUNT, .ro, 0⟩]⟩]

/-- Registers of chapter 12. -/
def rows_dmp_0 : List Row :=
  [⟨"DMP_STATUS", 0x0, [], 32,
    [⟨F.DMP_STATUS_GATE_OVERRUN_SEEN, .w1c, 0⟩, ⟨F.DMP_STATUS_REFUSED_SEEN, .w1c, 0⟩]⟩,
   ⟨"DMP_ADMIT_WAIT", 0x8, [], 32,
    [⟨F.DMP_ADMIT_WAIT_NS, .rw, 0x186a0⟩]⟩,
   ⟨"DMP_DEFERRALS", 0x10, [], 32,
    [⟨F.DMP_DEFERRALS_COUNT, .rc, 0⟩]⟩,
   ⟨"DMP_THROTTLES", 0x18, [], 32,
    [⟨F.DMP_THROTTLES_COUNT, .rc, 0⟩]⟩,
   ⟨"DMP_REFUSALS", 0x20, [], 32,
    [⟨F.DMP_REFUSALS_COUNT, .rc, 0⟩]⟩,
   ⟨"DMP_GATE_OVERRUNS", 0x28, [], 32,
    [⟨F.DMP_GATE_OVERRUNS_COUNT, .rc, 0⟩]⟩,
   ⟨"DMP_ADMIT", 0x1000, [(8, 256)], 64,
    [⟨F.DMP_ADMIT_VALID, .rw, 0⟩, ⟨F.DMP_ADMIT_OWNER, .rw, 0⟩, ⟨F.DMP_ADMIT_DEN, .rw, 0⟩, ⟨F.DMP_ADMIT_DAMPER, .rw, 0⟩, ⟨F.DMP_ADMIT_MAXQ, .rw, 0⟩]⟩,
   ⟨"DMP_ADMIT_Q", 0x1800, [(8, 256)], 32,
    [⟨F.DMP_ADMIT_Q_CELLS, .ro, 0⟩]⟩,
   ⟨"DMP_L1_CFG", 0x2000, [(16, 128)], 64,
    [⟨F.DMP_L1_CFG_EN, .rw, 0⟩, ⟨F.DMP_L1_CFG_FILL, .wo, 0⟩, ⟨F.DMP_L1_CFG_BURST, .rw, 0x81⟩, ⟨F.DMP_L1_CFG_PSHIFT, .rw, 8⟩, ⟨F.DMP_L1_CFG_RATE, .rw, 0⟩]⟩,
   ⟨"DMP_L1_TOK", 0x2008, [(16, 128)], 32,
    [⟨F.DMP_L1_TOK_TOKENS, .ro, 0⟩]⟩,
   ⟨"DMP_L0_CFG", 0x4000, [(16, 1024)], 64,
    [⟨F.DMP_L0_CFG_EN, .rw, 0⟩, ⟨F.DMP_L0_CFG_EGRESS, .rw, 0⟩, ⟨F.DMP_L0_CFG_PORT, .rw, 0⟩, ⟨F.DMP_L0_CFG_VCMASK, .rw, 0⟩, ⟨F.DMP_L0_CFG_PEN, .rw, 0⟩, ⟨F.DMP_L0_CFG_PARENT, .rw, 0⟩, ⟨F.DMP_L0_CFG_PSHIFT, .rw, 8⟩, ⟨F.DMP_L0_CFG_RATE, .rw, 0⟩]⟩,
   ⟨"DMP_L0_TOK", 0x4008, [(16, 1024)], 64,
    [⟨F.DMP_L0_TOK_BURST, .rw, 0x81⟩, ⟨F.DMP_L0_TOK_TOKENS, .ro, 0⟩]⟩]

/-- Registers of chapter 12. -/
def rows_dmp_1 : List Row :=
  [⟨"DMP_GATE_CFG", 0x8000, [(128, 64)], 64,
    [⟨F.DMP_GATE_CFG_EN, .rw, 0⟩, ⟨F.DMP_GATE_CFG_K, .rw, 0xc⟩]⟩,
   ⟨"DMP_GATE_WIN", 0x8008, [(128, 64), (8, 8)], 64,
    [⟨F.DMP_GATE_WIN_VALID, .rw, 0⟩, ⟨F.DMP_GATE_WIN_VCMASK, .rw, 0⟩, ⟨F.DMP_GATE_WIN_OPEN, .rw, 0⟩, ⟨F.DMP_GATE_WIN_CLOSE, .rw, 0⟩]⟩]

/-- All of them. -/
def rows_dmp : List Row := rows_dmp_0 ++ rows_dmp_1

/-- Registers of chapter 16. -/
def rows_pwr : List Row :=
  [⟨"PWR_STATUS", 0x0, [], 32,
    [⟨F.PWR_STATUS_LIFE_END_SEEN, .w1c, 0⟩, ⟨F.PWR_STATUS_COOLANT_WARN_SEEN, .w1c, 0⟩, ⟨F.PWR_STATUS_THROTTLE_SEEN, .w1c, 0⟩, ⟨F.PWR_STATUS_THERM_WARN_SEEN, .w1c, 0⟩, ⟨F.PWR_STATUS_PAIR_LOSS_SEEN, .w1c, 0⟩, ⟨F.PWR_STATUS_SUPPLY_WARN_SEEN, .w1c, 0⟩]⟩,
   ⟨"PWR_THERM_CTL", 0x8, [], 32,
    [⟨F.PWR_THERM_CTL_THROTTLE_EN, .rw, 1⟩]⟩,
   ⟨"PWR_INPUT", 0x10, [], 64,
    [⟨F.PWR_INPUT_VOLTS, .ro, 0⟩, ⟨F.PWR_INPUT_AMPS, .ro, 0⟩, ⟨F.PWR_INPUT_WATTS, .ro, 0⟩]⟩,
   ⟨"PWR_PEAK", 0x18, [], 64,
    [⟨F.PWR_PEAK_W10US, .rc, 0⟩, ⟨F.PWR_PEAK_W1MS, .rc, 0⟩]⟩,
   ⟨"PWR_COOLANT", 0x20, [], 64,
    [⟨F.PWR_COOLANT_INLET, .ro, 0⟩, ⟨F.PWR_COOLANT_OUTLET, .ro, 0⟩, ⟨F.PWR_COOLANT_FLOW, .ro, 0⟩]⟩,
   ⟨"PWR_LAST_FAULT", 0x28, [], 64,
    [⟨F.PWR_LAST_FAULT_CAUSE, .ro, 0⟩, ⟨F.PWR_LAST_FAULT_SITE, .ro, 0⟩, ⟨F.PWR_LAST_FAULT_PAIR, .ro, 0⟩]⟩,
   ⟨"PWR_THROTTLE_CYCLES", 0x30, [], 64,
    [⟨F.PWR_THROTTLE_CYCLES_COUNT, .ro, 0⟩]⟩,
   ⟨"PWR_EVENTS", 0x40, [(8, 6)], 32,
    [⟨F.PWR_EVENTS_COUNT, .rc, 0⟩]⟩,
   ⟨"PWR_PAIR", 0x100, [(8, 4)], 32,
    [⟨F.PWR_PAIR_VOLTS, .ro, 0⟩, ⟨F.PWR_PAIR_AMPS, .ro, 0⟩]⟩,
   ⟨"PWR_DIE", 0x200, [(8, 64)], 32,
    [⟨F.PWR_DIE_TEMP, .ro, 0⟩, ⟨F.PWR_DIE_HOLD, .ro, 0⟩]⟩,
   ⟨"PWR_STACK", 0x400, [(8, 64)], 32,
    [⟨F.PWR_STACK_TEMP, .ro, 0⟩]⟩,
   ⟨"PWR_IOD", 0x600, [(8, 16)], 32,
    [⟨F.PWR_IOD_TEMP, .ro, 0⟩]⟩]

end Sys2Proof.Machine
end

