-- ==== Sys2Proof/Machine/RegMap.lean ====
section
/-! DEFINITION. From a management address to its register: the sites, blocks, units and windows of R30 to
R37, and the reset word of every register. -/
namespace Sys2Proof.Machine

/-- The fields of a management address (R30). -/
def siteOf (a : Nat) : Nat := bits a 39 32
/-- BLOCK of a management address (R30). -/
def blockOf (a : Nat) : Nat := bits a 31 24
/-- UNIT of a management address (R30). -/
def unitOf (a : Nat) : Nat := bits a 23 16
/-- OFFSET of a management address (R30). -/
def offsetOf (a : Nat) : Nat := bits a 15 0

/-- The T-cores of a region (R20). -/
def isTcore (core : Nat) : Bool := core = 0 || core = 16 || core = 32 || core = 48

/-- The index values of an offset above a row's base, outermost index first. -/
def dimIndex : List (Nat × Nat) → Nat → Option (List Nat)
  | [], 0 => some []
  | [], _ => none
  | (stride, count) :: ds, d =>
    if d / stride < count then (dimIndex ds (d % stride)).map (d / stride :: ·) else none

/-- The index values by which a row is hit at an offset. -/
def Row.hit (r : Row) (off : Nat) : Option (List Nat) :=
  if off < r.base then none else dimIndex r.dims (off - r.base)

/-- The register row and index values at an offset of a table. -/
def findRow : List Row → Nat → Option (Row × List Nat)
  | [], _ => none
  | r :: rs, off =>
    match r.hit off with
    | some ix => some (r, ix)
    | none => findRow rs off

/-- The engine tables of a core's windows 0x1000 to 0x7FFF (R33, R105). -/
def windowRows : Nat → List Row
  | 1 => rows_seq ++ rows_red
  | 2 => rows_seq ++ rows_ten
  | 3 => rows_seq ++ rows_sss ++ rows_shp
  | 4 => rows_seq ++ rows_sss
  | 5 => rows_seq ++ rows_sss
  | 6 => rows_seq ++ rows_mov
  | 7 => rows_seq
  | _ => []

/-- The register table that an address falls into and the offset within it (R31 to R36). The Tensor window
of a core that is no T-core has no registers (R33); that of a spare slot is judged where it is accessed. -/
def tableAt (a : Nat) : List Row × Nat :=
  let site := siteOf a
  let block := blockOf a
  let unit := unitOf a
  let off := offsetOf a
  if site < 0x40 then
    if block < 80 then
      if unit < 0x42 then
        if off < 0x1000 then (rows_coreHth, off)
        else if off / 0x1000 = 2 && unit < 0x40 && !isTcore unit then ([], 0)
        else (windowRows (off / 0x1000), off % 0x1000)
      else if unit = 0xE0 then (rows_syn, off)
      else if unit = 0xE1 then (rows_rrp, off)
      else if unit = 0xE2 then (rows_grtR, off)
      else ([], 0)
    else if unit = 0 then
      if block = 0xF0 then (rows_ds, off)
      else if block = 0xF1 then (rows_meshR, off)
      else if block = 0xFF then (rows_spare, off)
      else ([], 0)
    else ([], 0)
  else if 0x40 ≤ site && site < 0x50 then
    if block = 0 && unit = 0 then (rows_iod, off)
    else if block = 1 || block = 2 then
      if unit < 0x20 then (rows_lane, off)
      else if unit = 0xFF then (rows_oe, off)
      else ([], 0)
    else if block = 0x10 && unit = 0 then (rows_iodR, off)
    else if block = 0x20 && unit = 0 then
      if site = 0x40 || site = 0x48 then (rows_vigOwn ++ rows_vigRel, off) else (rows_vigOwn, off)
    else ([], 0)
  else if 0x80 ≤ site && site < 0xC0 then
    if block = 0 then
      if unit < 0x20 then (rows_chan, off)
      else if unit = 0xFF then (rows_stack, off)
      else ([], 0)
    else ([], 0)
  else if site = 0xF0 && unit = 0 then
    if block = 0 then (rows_vigId, off)
    else if block = 1 then (rows_alm, off)
    else if block = 2 then (rows_rte, off)
    else if block = 3 then (rows_flu, off)
    else if block = 4 then (rows_grtF, off)
    else if block = 5 then (rows_dmp, off)
    else if block = 6 then (rows_pwr, off)
    else ([], 0)
  else ([], 0)

/-- The register at an address. -/
def regRow (a : Nat) : Option (Row × List Nat) :=
  let t := tableAt a
  findRow t.1 t.2

/-- The word that a list of fields spells at reset. -/
def fieldsReset : List RField → Word
  | [] => 0
  | f :: fs => f.fld.only f.reset ||| fieldsReset fs

/-- The value of a register at reset, by address; 0 where no register is. -/
def regReset (a : Nat) : Word :=
  match regRow a with
  | some (r, _) => fieldsReset r.fields
  | none => 0

end Sys2Proof.Machine
end

