-- ==== Sys2Proof/Machine/State.lean ====
section
/-! DEFINITION. The state of the K1 block as plain data, the reasons a step can stop, and the state after
reset: a module that Kindling has just left BANKED (the Reset column of every register table, R9, R553). -/
namespace Sys2Proof.Machine

/-- Why a step faults. -/
inductive Fault where
  /-- Raised by a memory-stack command whose address lies at or above 2^41, which names no byte (R41). Safe. -/
  | noSuchAddress (addr : Nat)
deriving DecidableEq, Repr

/-- Why a command is refused. -/
inductive Refusal where
  /-- Raised by an arm of `exec` that has no meaning yet. Safe. -/
  | notModelled (mnemonic : String)
  /-- Raised by a command one of whose operands names a unit the module does not have (R19 to R26). Safe. -/
  | noSuchUnit
deriving DecidableEq, Repr

/-! ## Sequencers and engines (chapter 02) -/

/-- The engine states of R56. -/
inductive EngSt where
  | halted | running | waiting | parked | faulted
deriving DecidableEq, Repr

/-- What an engine that has issued HALT or BANK becomes once its earlier instructions are done (R87). -/
inductive Ending where
  | none | halt | bank
deriving DecidableEq, Repr

/-- An active LOOP: first body instruction, body length and iterations left, the current one included (R107). -/
structure LoopFrame where
  first : Nat
  len : Nat
  remaining : Nat
deriving DecidableEq, Repr

/-- A signal whose translation is settled: scope and place of the object, the entry's tag, the action, the
amount and the queue that issued it (R63, R66, R115, R135). -/
structure Sig where
  scope : Nat
  module : Nat
  die : Nat
  region : Nat
  obj : Nat
  tag : Nat
  act : Nat
  amt : Nat
  qid : Nat
deriving DecidableEq, Repr

/-- What an issued instruction still waits for before it can complete: its time alone, Grate buffers (R367),
admission (R447), or the acknowledgements of its Move requests (R301). -/
inductive Awaits where
  | time | grate | admission | requests
deriving DecidableEq, Repr

/-- An instruction that has issued and not completed (R64): its program counter and word, the issue and completion
cycles, what it awaits, the code and counts it will complete with, its signal, the signal that would undo the take it
passed (R123), the hearth ranges it writes (R96), the unit and hearth address its log entry names (R610), the checked
stages it has steps in, as a bit mask, and the mismatches they have met (R237, R240), and for an MMA its
multiply-accumulates and the cycles it holds the array (R257, R265), and for a Move transfer whose requests are not
acknowledged its locator and remote stride. -/
structure Inflight where
  pc : Nat
  word : Nat
  issued : Nat
  doneAt : Nat
  awaits : Awaits
  code : Nat
  sat : Nat
  flush : Nat
  sig : Option Sig
  take : Option Sig
  dst : List (Nat × Nat)
  unit : Nat
  haddr : Nat
  stages : Nat
  mismatches : Nat
  macs : Nat
  busy : Nat
  remote : Option (Nat × Nat)
deriving DecidableEq, Repr

/-- One engine's sequencer: state, program counter of the head, queued words (R49), the next program counter to
fetch and the loops that fetch is in (R51), the last fault (R95), active loops innermost first, first cycle it may issue in (R51, R102, R106), first
cycle of the failing wait (R67), a HALT or BANK under way, issued instructions oldest first, and a signal held
for want of a place in the remote queue (R137). -/
structure Engine where
  st : EngSt
  pc : Nat
  queued : Nat
  fetchPc : Option Nat
  fetchLoops : List LoopFrame
  lastFault : Nat
  faultPc : Nat
  loops : List LoopFrame
  issueAt : Nat
  waitFrom : Option Nat
  ending : Ending
  inflight : List Inflight
  held : Option Sig
deriving DecidableEq, Repr

/-- An engine at reset. -/
def Engine.idle : Engine :=
  { st := .halted, pc := 0, queued := 0, fetchPc := none, fetchLoops := [], lastFault := 0, faultPc := 0, loops := [],
    issueAt := 0, waitFrom := none, ending := .none, inflight := [], held := none }

/-- A locator register of the Move engine (R79). -/
structure Locator where
  loc : Word
  rstride : Nat
deriving DecidableEq, Repr

/-- A long accumulator of the Reduce engine (R212): VALUE modulo 2^width, TERMS and the five flags. -/
structure Accum where
  value : Nat
  terms : Nat
  nan : Bool
  pinf : Bool
  ninf : Bool
  notNeg0 : Bool
  notPos0 : Bool
deriving DecidableEq, Repr

/-- A held lane of the Reduce engine: the accumulator of a SUM or IADD lane, or the element code a compare or
bitwise lane holds (R223). -/
structure Lane where
  acc : Accum
  code : Option Nat
deriving DecidableEq, Repr

/-- The held lanes of a Reduce engine: KIND, FMT and the lanes themselves (R223); none at KIND 7. -/
structure Lanes where
  kind : Nat
  fmt : Nat
  lanes : List Lane
deriving DecidableEq, Repr

/-- The lanes at reset (R223). -/
def Lanes.none : Lanes := { kind := 7, fmt := 0, lanes := [] }

/-- The lanes with no held state; FMT stays that of the last CLR (R221, R223, R241). -/
def Lanes.cleared (l : Lanes) : Lanes := { l with kind := 7, lanes := [] }

/-- An accumulator tile: KIND, element codes row by row, and its ready cycle (R243, R244, R258). -/
structure Tile where
  kind : Nat
  elems : List Nat
  ready : Nat
deriving DecidableEq, Repr

/-- A tile at reset (R244). -/
def Tile.none : Tile := { kind := 7, elems := [], ready := 0 }

/-- A packet in a receive queue: its header words, its payload's length and the locator of its Grate buffer (R304,
R306). -/
structure RxPacket where
  w0 : Word
  w1 : Word
  len : Nat
  buf : Nat
deriving DecidableEq, Repr

/-- A core: its engines by class code, locator registers (R79), Tally counters and comparators (R83), Reduce lanes,
Tensor tiles and the cycle its array is free (R256), the cycle since which the bank swap condition holds (R102), the
class the fetch unit served last and the cycle up to which it has been accounted for (R50), the times and classes of FAIL_RESIDUE completions and the instruction store addresses
with uncorrectable errors (R500), and the receive queues, oldest packet first (R302). -/
structure Core where
  engs : AMap Engine
  locs : AMap Locator
  ctrs : AMap (BitVec 48)
  cmps : AMap Bool
  lanes : Lanes
  tiles : AMap Tile
  arrayFree : Nat
  swapFrom : Option Nat
  fetchLast : Nat
  fetchedTo : Nat
  residueFails : List (Nat × Nat)
  badFetches : List Nat
  recv : AMap (List RxPacket)
deriving DecidableEq, Repr

/-- A core at reset. -/
def Core.idle : Core :=
  { engs := [], locs := [], ctrs := [], cmps := [], lanes := Lanes.none, tiles := [], arrayFree := 0,
    swapFrom := none, fetchLast := 6, fetchedTo := 0, residueFails := [], badFetches := [], recv := [] }

/-! ## Sync files (chapter 03) -/

/-- A remote signal that has left and is not acknowledged: its token, the signal, the cycle it left and the
routing epoch it was stamped with (R137, R139, R433). -/
structure OutSig where
  token : Nat
  sig : Sig
  left : Nat
  epoch : Nat
deriving DecidableEq, Repr

/-- A save or restore under way (R141): operation, context, FREE, locator and end cycle. -/
structure SaveJob where
  op : Nat
  ctx : Nat
  free : Bool
  loc : Word
  endAt : Nat
  code : Nat
deriving DecidableEq, Repr

/-- An ALLOC in its region's wait queue (R367): its engine's core, its program counter, when it joined, its count,
levels and list address. -/
structure AllocWait where
  core : Nat
  pc : Nat
  joined : Nat
  n : Nat
  first : Nat
  last : Nat
  list : Nat
deriving DecidableEq, Repr

/-- The sync file of a region beyond its registers: unacknowledged remote signals, the next token, barriers that
complete again in the next cycle (object and that cycle, R130), and the save or restore under way; and the region's
Grate wait queue, oldest first (R367). -/
structure Region where
  out : List OutSig
  nextToken : Nat
  carry : List (Nat × Nat)
  save : Option SaveJob
  waitq : List AllocWait
deriving DecidableEq, Repr

/-- A region at reset. -/
def Region.idle : Region := { out := [], nextToken := 0, carry := [], save := none, waitq := [] }

/-- What phase B of the current cycle has done (R118): the cycle, and for each object taken from, its word at
phase A and the last queue judged. -/
structure PhaseB where
  cycle : Nat
  any : Bool
  taken : AMap (Nat × Nat)
deriving DecidableEq, Repr

/-- What phase C of a cycle has done (R120): the cycle and the flags that a set has reached in it. -/
structure PhaseC where
  cycle : Nat
  sets : List Nat
deriving DecidableEq, Repr

/-- A packet inside the module: the region that sent it, if one did, the port it entered at, if it came from a link,
the owner its cells count against (R448), the Grate buffer freed once it has left, with the owner that leaves it
(R365), the send queue it waits in (core key × 8 + queue), the cycle it was sent or reached the head of its queue,
and the cycle since which it waits at a region router port (R307). -/
structure Flying where
  pkt : Packet
  src : Option RegionId
  port : Option Nat
  adm : Option Nat
  buf : Option (Nat × Nat)
  sendq : Option Nat
  since : Nat
  held : Option Nat
deriving DecidableEq, Repr

/-- A packet that only has a source. -/
def Flying.of (p : Packet) (src : Option RegionId) (port : Option Nat) (since : Nat) : Flying :=
  { pkt := p, src := src, port := port, adm := none, buf := none, sendq := none, since := since, held := none }

/-- An injecting instruction or Flue send that waits for admission (R447): the owner, the core and program counter of
an instruction, when it issued, whether the Damper has delayed it, whether it took its buffers itself (R303), and its packets. -/
structure AdmitWait where
  owner : Nat
  core : Option CoreId
  pc : Nat
  issued : Nat
  damped : Bool
  took : Bool
  pkts : List Flying
deriving DecidableEq, Repr

/-! ## Ports (chapters 11 and 12) -/

/-- A frame in a port's replay buffer: its FSEQ, FIRST and FILL, its body, how often it has been sent as REPLAY
(R387), and how many packets end in it. -/
structure TxFrame where
  seq : Nat
  first : Nat
  fill : Nat
  body : List Byte
  replays : Nat
  ends : Nat
deriving DecidableEq, Repr

/-- A training attempt (R389): when it began, its step, consecutive good TRAIN frames per lane, the rate code under
test and since when, the lanes that pass at each rate by this end's and by the peer's report, the result and offset chosen, this
end's delays (R392), whether this end has sent them in step 5, and the peer's as received in a step-5 frame. -/
structure Train where
  start : Nat
  step : Nat
  good : AMap Nat
  rate : Nat
  rateAt : Nat
  own : AMap Nat
  peer : AMap Nat
  result : Nat
  offset : Nat
  txd : Nat
  rxd : Nat
  told : Bool
  heard : Option (Nat × Nat)
deriving DecidableEq, Repr

/-- A port beyond its registers. Sender: the next FSEQ, the replay buffer oldest first, how many frames at its end are
still to be sent again, the last NAKID acted on, CTRL bodies to send, packets started with the bytes they have left,
the queues of assigned packets by VC with the tags of R437, SENT and LIMIT + 1 by pool (R416), the scheduling mode in force (R438), and the last frame sent.
Receiver: the expected FSEQ, the discard episode, the packet received in part, whole packets not yet checked, the input
queues by pool, and the cells freed by pool since UP. Times: the last good frame, the last ACK progress, a failed
training attempt and the last going down. Ethernet: the transmit queue with arrival times, pauses by priority, and the last frame sent. For
congestion maps: frame slots, frames with DATA or REPLAY, packets to VC7, packets that waited for a window and cells
sent in the period (R450). -/
structure Port where
  txSeq : Nat
  replay : List TxFrame
  toReplay : Nat
  acted : Nat
  ctrl : List (List Byte)
  stream : List (Flying × List Byte)
  outq : AMap (List Flying)
  tags : AMap Nat
  vtime : Nat
  fprev : AMap Nat
  sent : AMap Nat
  limit : AMap Nat
  lastTx : Option Frame
  expect : Nat
  nakOpen : Bool
  nakId : Nat
  part : List Byte
  arrived : List Packet
  inq : AMap (List Flying)
  freed : AMap Nat
  pair : Nat
  mode : Nat
  lastGood : Nat
  ackAt : Nat
  train : Option Train
  failedAt : Option Nat
  downAt : Option Nat
  ethTx : List (Nat × List Byte)
  paused : AMap Nat
  lastEth : Option (List Byte)
  slots : Nat
  busy : Nat
  escs : Nat
  gated : Nat
  cells : Nat
deriving DecidableEq, Repr

/-- A port at reset. -/
def Port.idle : Port :=
  { txSeq := 0, replay := [], toReplay := 0, acted := 0, ctrl := [], stream := [], outq := [], tags := [], vtime := 0,
    fprev := [], sent := [], limit := [], lastTx := none, expect := 0, nakOpen := false, nakId := 0, part := [],
    arrived := [], inq := [], freed := [], pair := 0, mode := 0, lastGood := 0, ackAt := 0, train := none, failedAt := none,
    downAt := none, ethTx := [], paused := [], lastEth := none, slots := 0, busy := 0, escs := 0, gated := 0, cells := 0 }

/-! ## The Almanac and Calendars (chapter 04) -/

/-- Time messages of a port (R151, R152): the next SEQ, those sent with the Almanac count and their TX bytes, newest
first, the last received with SEQ, TX and receive time bytes, the count of the last sending plus 1, and the messages in
a row that disagree (R157). -/
structure PortTime where
  seq : Nat
  sent : List (Nat × Nat × List Byte)
  seen : List Byte
  last : Nat
  bad : Nat
deriving DecidableEq, Repr

/-- A port that has exchanged nothing. -/
def PortTime.none : PortTime := { seq := 0, sent := [], seen := [], last := 0, bad := 0 }

/-- The servo's memory: one step is allowed (R155), messages in a row within ±1.0 ns (R154) and beyond ±1.5 ns (R156),
and the core cycle HOLDOVER began in. -/
structure Lock where
  step : Bool
  good : Nat
  bad : Nat
  holdAt : Option Nat
deriving DecidableEq, Repr

/-- A launched Calendar check (R166): entry index, DEADLINE, region, object, condition, value, and QID. -/
structure CalCheck where
  entry : Nat
  deadline : Nat
  region : Nat
  obj : Nat
  cond : Nat
  val : Nat
  qid : Nat
deriving DecidableEq, Repr

/-- A job beyond its registers: the cycle validation began in, the dies whose Calendars have stopped, the pending
checks by die, and the handshake's result with the Almanac count of its receipt (R170). -/
structure Job where
  armedAt : Nat
  stopped : List Nat
  checks : AMap (List CalCheck)
  result : Option (Nat × List Nat)
deriving DecidableEq, Repr

/-! ## Flues (chapter 13) -/

/-- What a Flue keeps of one peer in one stage and phase (R476, R477): as receiver the chunk limit granted, chunks
accepted and pieces complete in an unbroken run, with the limit and count last sent; as sender the limit received, chunks
sent and pieces the peer reports complete. -/
structure FChan where
  stage : Nat
  down : Bool
  pos : Nat
  limit : Nat
  taken : Nat
  runs : Nat
  said : Option (Nat × Nat)
  got : Nat
  sent : Nat
  acked : Nat
deriving DecidableEq, Repr

/-- A piece under way from a peer (R470, R478): accepted chunks with their bytes, when it was opened or last asked for
again, and the RESENDs sent for it. -/
structure FPiece where
  stage : Nat
  down : Bool
  pos : Nat
  seg : Nat
  got : List (Nat × Nat)
  since : Nat
  resends : Nat
deriving DecidableEq, Repr

/-- A chunk in one of the Flue's Grate buffers: a received contribution, or a sent chunk kept for a RESEND (R471, R477). -/
structure FChunk where
  stage : Nat
  down : Bool
  pos : Nat
  seg : Nat
  idx : Nat
  buf : Nat
  len : Nat
deriving DecidableEq, Repr

/-- A result a Flue holds: the hub step that gave it (or the result mark), segment, chunk and bytes. -/
structure FVal where
  step : Nat
  seg : Nat
  idx : Nat
  data : List Byte
deriving DecidableEq, Repr

/-- A task a hub has been given and whose slot is not yet free (R471, R473). -/
structure FTask where
  hub : Nat
  slot : Nat
  step : Nat
  seg : Nat
  idx : Nat
  upd : Bool
deriving DecidableEq, Repr

/-- An open Flue instance: launch tick and Almanac, core cycle of the launch, of the last chunk or message and of the last
GRANTs, whether its launch request or a draw waits for buffers and whether one has waited, whether a RESEND or corrected
read occurred, buffers held and those of them that are free, the peers, pieces, received contributions, kept sent chunks,
results, tasks given, tasks out at hubs, the next task number of each hub, and the counts of a dispatch by sender rank. For
a quick instance: whether it is the handshake's, its value, the stage whose value it has last sent, when, how often
again, and the highest stage whose arrivals it has judged (R508). -/
structure FlueRun where
  tick : Nat
  alm : Nat
  opened : Nat
  heard : Nat
  grantAt : Nat
  waiting : Bool
  drawing : Bool
  waited : Bool
  mended : Bool
  held : List Nat
  free : List Nat
  chans : List FChan
  pieces : List FPiece
  ins : List FChunk
  outs : List FChunk
  vals : List FVal
  given : List (Nat × Nat × Nat)
  tasks : List FTask
  seqs : AMap Nat
  counts : AMap (List Nat)
  handshake : Bool
  own : List Nat
  stage : Nat
  sentAt : Nat
  again : Nat
  judged : Nat
deriving DecidableEq, Repr

/-- A value a quick root has received: generation, stage, position and slots, and the cycle it arrived in (R482, R484,
R508). -/
structure QVal where
  gen : Nat
  stage : Nat
  pos : Nat
  vals : List Nat
  heard : Nat
deriving DecidableEq, Repr

/-- A Flue beyond its register: its image, the open instance, messages held for an instance not launched (R467), quick
values held, and the last generation finished with its down value (R485). -/
structure FlueRec where
  image : List Byte
  run : Option FlueRun
  early : List Packet
  ups : List QVal
  last : Option (Nat × List Nat)
deriving DecidableEq, Repr

/-- A Flue that is EMPTY. -/
def FlueRec.empty : FlueRec := { image := [], run := none, early := [], ups := [], last := none }

/-- A LOAD or UNLOAD that runs: the Flue, whether it is a LOAD, the image locator, and fabric memory there as it was when
the command was accepted (R612). -/
structure FlueCmd where
  flue : Nat
  isLoad : Bool
  loc : Nat
  seen : List Host.Cell
deriving DecidableEq, Repr

/-! ## Shadowing, the recorder and spares (chapter 14) -/

/-- The digest of a tick (R512): its tick, the sum so far, instances launched, those still open, whether one completed in
family 0x3_, and the core cycle in which it became final. -/
structure TickDig where
  tick : Nat
  sum : Nat
  launched : Nat
  live : Nat
  bad : Bool
  finalAt : Option Nat
deriving DecidableEq, Repr

/-- A DIGEST received and not yet compared (R513): tick, digest, count, and the core cycle of its arrival. -/
structure PeerDig where
  tick : Nat
  sum : Nat
  count : Nat
  heard : Nat
deriving DecidableEq, Repr

/-- Shadowing beyond its registers: the primary's copies and relayed packets that wait for credit at the mirror port,
oldest first; the takeover judged last, with its cycle, tick and both verdicts (R514); whether a shadow returns packets
(R515); and the Almanac count at which a relay ends. -/
structure Shadow where
  copies : List Flying
  judged : Option (Nat × Nat)
  own : Option Bool
  peer : Option (Nat × Bool)
  returning : Bool
  relayEnd : Option Nat
deriving DecidableEq, Repr

/-- Shadowing at rest. -/
def Shadow.none : Shadow :=
  { copies := [], judged := Option.none, own := Option.none, peer := Option.none, returning := false,
    relayEnd := Option.none }

/-- A recorder record in transit: the I/O die that holds it, Almanac, port, kind, word 3 and content (R521). -/
structure RecEntry where
  iod : Nat
  alm : Nat
  port : Nat
  kind : Nat
  word3 : Nat
  content : List Byte
deriving DecidableEq, Repr

/-- A replay that runs (R523): its records up to END that are not yet injected, the recorded EPOCH, the mark tick, the
recorded digests not yet compared, and the first tick that differed. -/
structure Replay where
  recs : List RecEntry
  epoch : Nat
  mark : Nat
  digs : List (Nat × Nat)
  differs : Option Nat
deriving DecidableEq, Repr

/-- A substitution under way on a die (R501, R502). -/
structure SubJob where
  region : Nat
  core : Nat
  slot : Nat
  nocopy : Bool
  since : Nat
deriving DecidableEq, Repr

/-! ## The Vigil (chapter 15) -/

/-- A response kept for a path (R533, R534): the command's path, TAG, SMOD and SRC, and the response's OPC, STATUS and
payload. -/
structure Kept where
  path : Path
  tag : Nat
  smod : Bool
  src : Nat
  opc : Nat
  status : Nat
  payload : List Byte
deriving DecidableEq, Repr

/-- An image received in part (R555): its type, total length and bytes. -/
structure Staging where
  type : Nat
  total : Nat
  bytes : List Byte
deriving DecidableEq, Repr

/-- The Vigils beyond their registers: kept responses, newest first; in-band packets that wait; the rest of an I3C response
being read, the target's dynamic address, whether in-band interrupts are enabled, the responses that are ready for the
controller, oldest first, and the bytes its last private read returned; image
slots written since manufacture, by 2 × (type − 1) + slot; the types, as bits, whose inactive slot becomes active at the next
Kindling; the image being staged; configuration records by RTYPE; keys
revoked; domain resets with the commands that wait for their release; ports fenced by FENCE_PORT; whether both VIGIL
slots have failed on both Vigils; whether a Vigil is lost; and the core cycle in which Kindling last began a stage. -/
structure Vigil where
  kept : List Kept
  mgmtQ : List Packet
  i3cOut : List Byte
  i3cAddr : Option Nat
  i3cIbi : Bool
  i3cReady : List Kept
  i3cReport : List Byte
  images : AMap (List Byte)
  staged : Nat
  staging : Option Staging
  records : AMap (List Byte)
  revoked : Nat
  resets : List (Nat × Req × Nat)
  fencedPorts : List Nat
  romOnly : Bool
  spareLost : Bool
  stageAt : Nat
deriving DecidableEq, Repr

/-- The Vigils at reset: as shipped, with nothing stored. -/
def Vigil.fresh : Vigil :=
  { kept := [], mgmtQ := [], i3cOut := [], i3cAddr := none, i3cIbi := false, i3cReady := [], i3cReport := [], images := [],
    staged := 0, staging := none, records := [], revoked := 0, resets := [], fencedPorts := [], romOnly := false, spareLost := false,
    stageAt := 0 }

/-! ## Power and service life (chapter 16) -/

/-- The power unit beyond its registers: since when each condition of R574, R581 and R582 has held, plus 1, by condition
number; sensors that have logged WARN and not yet cooled (R582); supply samples, newest first, at most 1,000; input energy
not yet a whole kJ, in nJ; seconds of the lifetime record counted up to this cycle, and those with throttling; the triggers
of the last power-down as a bit mask (R578); whether 48 V is applied; and whether the Almanac has been written or stepped
since Kindling (R588). -/
structure Power where
  holds : AMap Nat
  warm : List Nat
  samples : List (List Nat × List Nat)
  energy : Nat
  countedTo : Nat
  hotSecond : Bool
  triggers : Nat
  applied : Bool
  almMoved : Bool
deriving DecidableEq, Repr

/-- The power unit at reset: 48 V is applied, and nothing has been sampled. -/
def Power.fresh : Power :=
  { holds := [], warm := [], samples := [], energy := 0, countedTo := 0, hotSecond := false, triggers := 0,
    applied := true, almMoved := false }

/-- How the last management access completed: its status code and the value read (R13, R37). -/
structure Access where
  code : Nat
  value : Word
deriving DecidableEq, Repr

/-- The owner record of a Grate buffer in use: its four slots, the owner it is charged to, and whether it is withdrawn
(R352, R362, R364); at rest it is free. -/
structure BufRec where
  slots : List (Option Nat)
  charged : Nat
  inUse : Bool
  withdrawn : Bool
deriving DecidableEq, Repr

/-- A free buffer. -/
def BufRec.free : BufRec := { slots := [], charged := 0, inUse := false, withdrawn := false }

/-- How a memory request completed: its status code and the bytes it returned. -/
structure Answer where
  code : Nat
  data : List Byte
deriving DecidableEq, Repr

/-! ## The Ashpit (chapter 14) -/

/-- An entry of the Ashpit (R497). -/
structure AshEntry where
  first : Nat
  last : Nat
  code : Nat
  cls : Nat
  site : Nat
  block : Nat
  unit : Nat
  repeats : Nat
  seq : Nat
  details : List Word
deriving DecidableEq, Repr

/-- The machine. -/
structure State where
  /-- commands that wait, first in, first out -/
  pending : List Instr
  /-- the core cycle, in ns (R8) -/
  now : Nat
  /-- the module reference Almanac, in ns (R148); every die's copy reads the same -/
  alm : Nat
  /-- numbers the free values used so far; the model's own -/
  freeCtr : Nat
  /-- completion of the last management access; the model's own -/
  access : Access
  /-- every register that differs from its reset value, by management address -/
  regs : AMap Word
  /-- hearth bytes (R39), by core key × 2^17 + address -/
  hearth : List Host.Cell
  /-- instruction store bytes (R58), by core key × 2^15 + bank × 0x3000 + offset -/
  istore : List Host.Cell
  /-- scratchpad bytes of the die stores (R40), by die × 2^27 + address -/
  scratch : List Host.Cell
  /-- fabric memory bytes (R41) -/
  fabric : List Host.Cell
  /-- stored words whose check bits show an error: 1 correctable, 2 uncorrectable (R97, R315, R323, R336) -/
  marks : AMap Nat
  cores : AMap Core
  regions : AMap Region
  phaseB : PhaseB
  phaseC : PhaseC
  /-- packets on their way to units of this module, oldest first -/
  flight : List Flying
  /-- packets this module has originated that no output port has taken, oldest first (R398) -/
  origin : List Flying
  /-- instructions and Flue sends that wait for admission, oldest first (R447) -/
  admitQ : List AdmitWait
  /-- what admission has told each Flue: bit 0 DEFERRED, bit 1 THROTTLED, bit 2 REFUSED_ADMISSION (R480) -/
  flueNotes : AMap Nat
  /-- level-0 Dampers with a write not yet in force, by number: the PSHIFT in force plus 1 (R441) -/
  damperOld : AMap Nat
  /-- the Almanac count after the last refill, by level × 1,024 + number -/
  damperNext : AMap Nat
  /-- the ports, by port identifier -/
  ports : AMap Port
  /-- time messages by port -/
  times : AMap PortTime
  lock : Lock
  job : Job
  /-- the Almanac unit of I/O die 8 is the module reference (R149) -/
  refBackup : Bool
  /-- the endpoint table (R422) -/
  endpoints : AMap Word
  /-- the Almanac count at which a drain ends (R432) -/
  drainEnd : Nat
  /-- the Almanac count after the last congestion map (R449) -/
  cmapNext : Nat
  /-- sites whose domain is held in reset (R551) -/
  inReset : List Nat
  /-- traffic has crossed the mesh (R452) -/
  meshUsed : Bool
  /-- the Flues, by number (R454) -/
  flues : AMap FlueRec
  /-- the LOAD or UNLOAD under way (R612) -/
  flueCmd : Option FlueCmd
  /-- the Ashpit's stored entries, newest first, at most 4,096 (R497) -/
  ash : List AshEntry
  /-- reports that wait for the I3C controller's read, oldest first (R541, R566) -/
  reports : List AshEntry
  /-- the last report sent on the Ihlyel ports (R541) -/
  reported : Option AshEntry
  /-- copies of fabric memory granules that each die's cache may hold, by die × 2^32 + granule (R319) -/
  cache : AMap (List Byte)
  /-- owner records of Grate buffers in use, by pool key × 2^22 + buffer -/
  buffers : AMap BufRec
  /-- completion of the last request a command made of a memory stack; the model's own -/
  answer : Answer
  /-- the lifetime record's counters (R590): header word w at w, stack s word i at 64 + 4 s + i -/
  life : AMap Nat
  /-- events of each health input since the last update (R506) -/
  health : AMap Nat
  /-- the Almanac count after the last health update (R506) -/
  healthNext : Nat
  /-- the late table by module identifier: L, and whether it has been logged and not yet fallen below half (R508) -/
  late : AMap (Nat × Bool)
  /-- the core cycle of each site's last heartbeat (R496) -/
  beats : AMap Nat
  /-- the units that each site's last heartbeat named as STUCK (R496) -/
  stuck : AMap (List Nat)
  /-- a substitution under way, by die (R501) -/
  subst : AMap (Option SubJob)
  /-- tick digests not yet reported or compared (R512) -/
  digs : List TickDig
  /-- digests received and not yet compared (R513) -/
  peerDigs : List PeerDig
  shadow : Shadow
  /-- recorder records in transit, oldest first (R520) -/
  transit : List RecEntry
  /-- records not written since the last GAP (R522) -/
  recLost : Nat
  replay : Option Replay
  vigil : Vigil
  power : Power
  /-- the committed copies of the lifetime record, newest first (R589) -/
  lifeKept : List (AMap Nat)
  /-- the lifetime record as the backup Vigil mirrors it (R587) -/
  lifeMirror : AMap Nat
deriving DecidableEq, Repr

/-- The machine right after reset. -/
def State.reset : State :=
  { pending := [], now := 0, alm := 0, freeCtr := 0, access := ⟨0, 0⟩, regs := [], hearth := [], istore := [],
    scratch := [], fabric := [], marks := [], cores := [], regions := [], phaseB := ⟨0, false, []⟩,
    phaseC := ⟨0, []⟩, flight := [], origin := [], admitQ := [], flueNotes := [], damperOld := [], damperNext := [], ports := [], times := [], lock := ⟨false, 0, 0, none⟩,
    job := ⟨0, [], [], none⟩, refBackup := false, endpoints := [], drainEnd := 0, cmapNext := 0,
    inReset := [], meshUsed := false, flues := [], flueCmd := none, ash := [], reports := [], reported := none, cache := [],
    buffers := [], answer := ⟨0, []⟩, life := [], health := [], healthNext := 0, late := [], beats := [], stuck := [], subst := [],
    digs := [], peerDigs := [], shadow := Shadow.none, transit := [], recLost := 0, replay := none, vigil := Vigil.fresh,
    power := Power.fresh, lifeKept := [], lifeMirror := [] }

end Sys2Proof.Machine
end

