-- ==== Sys2Proof/WellFormed.lean ====
section
/-! DEFINITION. Which commands name units and addresses the module has (R19 to R26, R39 to R44). A meaning
refuses an operand that names no unit; `Instr.wf` gathers the same checks. -/
namespace Sys2Proof

/-- A core that exists (R19, R44). -/
def CoreId.ok (c : CoreId) : Bool := c.die < 64 && c.region < 80 && c.core < 64

/-- A core that exists and has an engine of the class: only cores 0, 16, 32 and 48 have a Tensor engine (R20). -/
def CoreId.has (c : CoreId) (e : Cls) : Bool := c.ok && (e != .tensor || c.core % 16 = 0)

/-- A region that exists (R19). -/
def RegionId.ok (r : RegionId) : Bool := r.die < 64 && r.region < 80

/-- An on-module link that exists (R21, R23). -/
def OnLink.ok : OnLink → Bool
  | .mesh die side =>
    die < 64 && (match side with
      | 0 => decide (8 ≤ die) | 1 => die % 8 != 7 | 2 => decide (die < 56) | 3 => die % 8 != 0 | _ => false)
  | .attach iod a => iod < 16 && a < 2

/-- A site that holds a unit (R31). -/
def siteOk (site : Nat) : Bool :=
  site < 0x50 || (0x80 ≤ site && site < 0xC0)

/-- A payload a packet can carry (R397). -/
def Packet.ok (p : Packet) : Bool := p.payload.length ≤ 8192

/-- A sensor that exists (R582): four per die of either kind, one per stack. -/
def TempReading.ok (r : TempReading) : Bool :=
  (r.site < 0x50 && r.unit < 4) || (0x80 ≤ r.site && r.site < 0xC0 && r.unit = 0)

/-- Every unit and address a command names exists. What a packet's header names is checked by the meaning that takes it. -/
def Instr.wf : Instr → Bool
  | .registerWrite addr width _ => addr < 2 ^ 40 && (width = 32 || width = 64)
  | .instructionBankWrite c b _ width _ => c.ok && b < 2 && (width = 32 || width = 64)
  | .bankArm c | .bankDisarm c | .bankSwap c => c.ok
  | .start c e | .stop c e | .clearFault c e | .retry c e | .instructionComplete c e | .waitTimeout c e
  | .fetchPastEnd c e => c.has e
  | .seti c | .addi c | .add c | .sub c | .ld c | .st c | .stf c | .cmp c | .cmpi c | .skipk c | .djnz c => c.ok
  | .nop c e | .halt c e | .bank c e | .jump c e | .loop c e | .skip c e | .dadv c e => c.has e
  | .get c | .put c | .setloc c | .alloc c | .free c | .share c | .give c | .qsend c | .qrecv c | .qdrop c
  | .moveRequestTimeout c => c.ok
  | .clr c | .sum c | .iadd c | .max c | .min c | .argmax c | .argmin c | .and c | .or c | .xor c | .out c
  | .spill c | .fill c | .gather c | .scatter c | .compact c | .filter c | .hist c | .count c | .sort c
  | .sortkv c | .topk c | .merge c | .quant c | .dequant c | .cvt c | .div c | .sqrt c | .exp c | .log c
  | .rsqrt c => c.ok
  | .zero c | .mma c | .rd c => c.has .tensor
  | .redInject c _ => c.ok
  | .tenInject c _ => c.has .tensor
  | .inject c e _ => c.ok && (e = .shape || e = .sort || e = .scale)
  | .packetArrival p => p.ok
  | .rxHoldDrop c => c.ok
  | .remoteSignal p | .sigack p => p.ok
  | .remoteSignalLost r _ => r.ok
  | .barrierCarry r obj => r.ok && obj < 4096
  | .syncSave r _ | .syncRestore r _ | .syncSaveFinish r => r.ok
  | .timeMessageSend port | .time port _ => port < 1024
  | .holdoverTimeout | .relock | .almSet _ | .arm | .armValidationDone | .handshakeOpen | .handshakeResult
  | .handshakeTimeout | .jobStart | .jobAbort | .jobEnd => true
  | .calendarLaunch die | .calendarLateLaunch die | .calendarCheck die | .dsPartWrite die _ => die < 64
  | .cacheWindowWrite die w _ _ | .cacheInvalidateDone die w => die < 64 && w < 8
  | .stackReadRequest addr len => addr + len ≤ 2 ^ 41
  | .stackWriteRequest addr data => addr + data.length ≤ 2 ^ 41
  | .scrub stack | .stackRetrain stack _ | .stackRetrainDone stack _ => stack < 64
  | .onmodLinkRetrain l _ => l.ok
  | .allocWaitGrant r | .allocWaitTimeout r => r.ok
  | .reclaim sp _ | .reclaimDone sp => match sp with | .region r => r.ok | .fabric => true
  | .frameSend port | .dataFrame port _ | .replayFrame port _ | .idleFrame port _ | .badFrame port _ _
  | .trainTimeout port | .trainRetry port | .down port _ | .silentTimeout port | .stallTimeout port
  | .portEnable port | .portDisable port | .portRetrain port | .packetAccept port | .portPacketStart port
  | .memrd port _ | .memwr port _ | .ethFrame port _ | .ethHoldDrop port => port < 1024
  | .trainFrame port lane _ | .laneSignalLoss port lane => port < 1024 && lane < 8
  | .packetRoute src | .escapeRoute src =>
    match src with | .port p pool => p < 1024 && pool < 10 | .origin => true
  | .flipArm | .equinoxFlip | .drainEnd | .congestionMap => true
  | .epDataAccess _ _ => true
  | .damperRefill level d => (level = 0 && d < 1024) || (level = 1 && d < 128)
  | .damperConfigWrite addr width _ => addr < 2 ^ 40 && (width = 32 || width = 64)
  | .admissionGrant owner | .admissionTimeout owner => owner < 8192
  | .load f | .unload f | .flueAbortCmd f | .clear f | .flueLaunch f | .quickLaunch f | .flueBufferGrant f
  | .flueBufferTimeout f | .grantRepeat f | .flueTimeout f | .flueUnlaunchedMismatch f | .flueComplete f
  | .quickResend f => f < 4096
  | .flueLoadDone => true
  | .grant p | .resend p | .abort p | .flueChunk p | .countMessage p | .quickValue p | .quickDown p => p.ok
  | .pieceResendTimeout f _ _ _ => f < 4096
  | .hubTask f hub => f < 4096 && hub < 4096
  | .taskTakeback f hub _ => f < 4096 && hub < 4096
  | .heartbeat site _ | .heartbeatTimeout site => siteOk site
  | .spareSubstitute die _ | .substitutionDone die => die < 64
  | .autoSubstitute c => c.ok
  | .healthUpdate => true
  | .mirrorPacket p => p.ok
  | .mirrorHoldTimeout => true
  | .mirrorStop port _ | .digest port _ | .verdict port _ => port < 1024
  | .digestTimeout _ | .takeoverJudge | .verdictTimeout | .relayEnd | .recMark _ | .recGap | .replayInject
  | .replayEnd | .vigilFailover => true
  | .idRead _ | .statusRead _ | .almRead _ | .lifeRead _ | .fencePort _ | .fenceModule _ | .releasePort _
  | .releaseModule _ | .domainReset _ => true
  | .domainRelease site => siteOk site
  | .powerDown _ | .powerOn _ | .damp _ | .bankModule _ | .resetModule _ | .regRead _ | .regWrite _ | .memRead _
  | .memWrite _ | .attest _ | .certRead _ | .cfgInstall _ | .cfgRead _ | .imgStage _ => true
  | .i3cResponseRead _ | .fenceN _ | .pwrOffN _ | .powerApply | .kindlingDone _ => true
  | .kindlingStageTimeout stage => 1 ≤ stage && stage ≤ 5
  | .supplySample volts amps => volts.length = 4 && amps.length = 4
  | .thermalSample readings => readings.all TempReading.ok
  | .coolantSample _ _ _ | .throttleUpdate | .lifeCommit | .lifeMirror
  | .referenceTakeover => true
  | .codewordLock port | .rateMeasurementEnd port | .ethAlignmentLock port => port < 1024
  | .kindlingImageFailure type => 1 ≤ type && type ≤ 4
  | .backupVigilLost | .supplyRecovery | .i3cCcc _ => true

end Sys2Proof
end

