-- ==== Sys2Proof/Machine/Ops.lean ====
section
/-! DEFINITION. The named operations over the state: registers, byte memories, the clock, free values, cores,
engines and regions, and the Ashpit. -/
namespace Sys2Proof.Machine

/-! ## Status codes (R595) -/
namespace Code
def done : Nat := 0x00
def corrected : Nat := 0x01
def deferred : Nat := 0x02
def throttled : Nat := 0x03
def refusedPool : Nat := 0x10
def refusedAdmission : Nat := 0x11
def refusedCalendar : Nat := 0x12
def rejState : Nat := 0x20
def rejPriv : Nat := 0x21
def rejRange : Nat := 0x22
def rejFormat : Nat := 0x23
def rejSignature : Nat := 0x24
def failTimeout : Nat := 0x30
def failOverrun : Nat := 0x31
def failResidue : Nat := 0x32
def failMemory : Nat := 0x33
def failLink : Nat := 0x34
def failMismatch : Nat := 0x35
def failHazard : Nat := 0x36
def failStateLost : Nat := 0x37
def failAborted : Nat := 0x3F
/-- The family of a code (R15). -/
def family (c : Nat) : Nat := c / 16
end Code

/-- The first of THROTTLED, DEFERRED, DONE_CORRECTED and DONE that two successes give (R598). -/
def mergeSuccess (a b : Nat) : Nat := Nat.max a b

/-! ## Fault classes (R604) -/
namespace AClass
def info : Nat := 0x00
def memory : Nat := 0x01
def arith : Nat := 0x02
def link : Nat := 0x03
def onmod : Nat := 0x04
def route : Nat := 0x05
def sync : Nat := 0x06
def time : Nat := 0x07
def schedule : Nat := 0x08
def collective : Nat := 0x09
def engine : Nat := 0x0A
def grate : Nat := 0x0B
def stall : Nat := 0x0C
def shadow : Nat := 0x0D
def health : Nat := 0x0E
def supply : Nat := 0x0F
def control : Nat := 0x10
def recorder : Nat := 0x11
end AClass

/-! ## Keys -/

/-- The key of a core or spare slot (64, 65) in the state's maps. -/
def coreKey (c : CoreId) : Nat := (c.die * 128 + c.region) * 128 + c.core

/-- The region a core lies in. -/
def regionOf (c : CoreId) : RegionId := ⟨c.die, c.region⟩

/-- The key of a region in the state's maps. -/
def regionKey (r : RegionId) : Nat := r.die * 128 + r.region

/-- The queue identifier of an engine in its region (R55). -/
def qidOf (c : CoreId) (e : Cls) : Nat := c.core * 8 + clsCode e

/-! ## Registers -/

/-- The word of a register. -/
def State.reg (s : State) (a : Nat) : Word := AMap.get s.regs (regReset a) a

/-- The state with a register set. -/
def State.setReg (s : State) (a : Nat) (w : Word) : State :=
  { s with regs := AMap.set s.regs (regReset a) a w }

/-- The value of a register's field. -/
def State.fld (s : State) (a : Nat) (f : Fld) : Nat := f.get (s.reg a)

/-- The state with one field of a register set. -/
def State.setFld (s : State) (a : Nat) (f : Fld) (v : Nat) : State := s.setReg a (f.put (s.reg a) v)

/-- A register's field is nonzero. -/
def State.isOn (s : State) (a : Nat) (f : Fld) : Bool := s.fld a f != 0

/-- An RC counter counts `n` events: it stops at its all-ones value (R12). -/
def State.count (s : State) (a : Nat) (f : Fld) (n : Nat) : State :=
  s.setFld a f (satAdd (f.hi + 1 - f.lo) (s.fld a f) n)

/-- A free-running RO counter counts `n` events, modulo its width. -/
def State.bump (s : State) (a : Nat) (f : Fld) (n : Nat) : State := s.setFld a f (s.fld a f + n)

/-- A status flag is set (R11). -/
def State.flag (s : State) (a : Nat) (f : Fld) : State := s.setFld a f 1

/-! ## Check-bit errors -/

/-- The stored words that can show an error: hearth and die store 8-byte words, instruction words, fabric
granules, sync words and Grate owner records. -/
inductive MarkSpace where
  | hearth | istore | scratch | fabric | sync | owner
deriving DecidableEq, Repr

/-- The key of a word in `State.marks`. -/
def markKey (m : MarkSpace) (word : Nat) : Nat :=
  let n := match m with | .hearth => 0 | .istore => 1 | .scratch => 2 | .fabric => 3 | .sync => 4 | .owner => 5
  n * 2 ^ 48 + word

/-- The error a word shows: 0 none, 1 correctable, 2 uncorrectable. -/
def State.mark (s : State) (m : MarkSpace) (word : Nat) : Nat := AMap.get s.marks 0 (markKey m word)

/-- The state with a word's error set (a write of the word clears it). -/
def State.setMark (s : State) (m : MarkSpace) (word v : Nat) : State :=
  { s with marks := AMap.set s.marks 0 (markKey m word) v }

/-- The first of `n` words from `word` on that shows error `v`. -/
def State.findMark (s : State) (m : MarkSpace) (word v : Nat) : Nat → Option Nat
  | 0 => none
  | n + 1 => if s.mark m word = v then some word else s.findMark m (word + 1) v n

/-- The marks of the words [lo, hi) are dropped: the words have been written whole (R315, R336). -/
def State.unmark (s : State) (m : MarkSpace) (lo hi : Nat) : State :=
  { s with marks := s.marks.filter fun p => p.1 < markKey m lo || markKey m hi ≤ p.1 }

/-! ## Byte memories -/

/-- The byte at an address: 0 where none is listed. -/
def Mem.get (m : List Host.Cell) (a : Nat) : Byte := AMap.get m 0 a

/-- The bytes [a, a + n). -/
def Mem.read (m : List Host.Cell) (a : Nat) : Nat → List Byte
  | 0 => []
  | n + 1 => Mem.get m a :: Mem.read m (a + 1) n

/-- The listed cells of bytes from `a` on: zero bytes are not listed. -/
def Mem.cells (a : Nat) : List Byte → List Host.Cell
  | [] => []
  | b :: bs => if b = 0 then Mem.cells (a + 1) bs else (a, b) :: Mem.cells (a + 1) bs

/-- The memory with bytes stored from `a` on. -/
def Mem.write (m : List Host.Cell) (a : Nat) (bs : List Byte) : List Host.Cell :=
  m.filter (fun c => c.1 < a) ++ Mem.cells a bs ++ m.filter (fun c => a + bs.length ≤ c.1)

/-- The canonical form of a memory. -/
abbrev Memory.wf (m : List Host.Cell) : Prop := AMap.wf m 0 = true

/-- The place of a hearth byte in `State.hearth`. -/
def hearthAt (c : CoreId) (a : Nat) : Nat := coreKey c * 0x20000 + a

/-- Hearth bytes of a core. -/
def State.hread (s : State) (c : CoreId) (a n : Nat) : List Byte := Mem.read s.hearth (hearthAt c a) n

/-- The little-endian number in hearth bytes [a, a + n). -/
def State.hnat (s : State) (c : CoreId) (a n : Nat) : Nat := leNat (s.hread c a n)

/-- Hearth bytes of a core stored. -/
def State.hwrite (s : State) (c : CoreId) (a : Nat) (bs : List Byte) : State :=
  { s with hearth := Mem.write s.hearth (hearthAt c a) bs }.unmark .hearth (ceilDiv (hearthAt c a) 8)
    ((hearthAt c a + bs.length) / 8)

/-- The place of an instruction store byte in `State.istore`. -/
def istoreAt (c : CoreId) (bank off : Nat) : Nat := coreKey c * 0x8000 + bank * 0x3000 + off

/-- Scratchpad bytes of a die. -/
def State.sread (s : State) (die a n : Nat) : List Byte := Mem.read s.scratch (die * 0x8000000 + a) n

/-- Scratchpad bytes of a die stored. -/
def State.swrite (s : State) (die a : Nat) (bs : List Byte) : State :=
  { s with scratch := Mem.write s.scratch (die * 0x8000000 + a) bs }.unmark .scratch
    (ceilDiv (die * 0x8000000 + a) 8) ((die * 0x8000000 + a + bs.length) / 8)

/-- Fabric memory bytes (R41). -/
def State.fread (s : State) (a n : Nat) : List Byte := Mem.read s.fabric a n

/-- Fabric memory bytes stored. -/
def State.fwrite (s : State) (a : Nat) (bs : List Byte) : State :=
  { s with fabric := Mem.write s.fabric a bs }.unmark .fabric (ceilDiv a 64) ((a + bs.length) / 64)

/-- An instruction store byte string of a core. -/
def State.iread (s : State) (c : CoreId) (bank off n : Nat) : List Byte := Mem.read s.istore (istoreAt c bank off) n

/-- Instruction store bytes of a core stored. -/
def State.iwrite (s : State) (c : CoreId) (bank off : Nat) (bs : List Byte) : State :=
  { s with istore := Mem.write s.istore (istoreAt c bank off) bs }

/-! ## Lifetime counters and health inputs (R506, R587) -/

/-- A lifetime counter counts `n` events; it saturates at all ones (R587). -/
def State.lifeAdd (s : State) (w n : Nat) : State :=
  { s with life := AMap.set s.life 0 w (satAdd 64 (AMap.get s.life 0 w) n) }

/-- The lifetime counter of stack `k`, word `w` of its record (R590). -/
def lifeStack (k w : Nat) : Nat := 64 + 4 * k + w

/-- `n` events of health input `i` (R506). -/
def State.healthAdd (s : State) (i n : Nat) : State :=
  { s with health := AMap.set s.health 0 i (AMap.get s.health 0 i + n) }

/-! ## The module state (R543, R568) -/
namespace MState
def cold : Nat := 0
def kindling : Nat := 1
def banked : Nat := 2
def shadow : Nat := 3
def lit : Nat := 4
def damped : Nat := 5
def fenced : Nat := 6
end MState

/-- The module state that VIG_STATE shows. -/
def State.mstate (s : State) : Nat := s.fld Reg.VIG_STATE F.VIG_STATE_STATE

/-- The module state set. -/
def State.setMState (s : State) (m : Nat) : State := s.setFld Reg.VIG_STATE F.VIG_STATE_STATE m

/-! ## The clock -/

/-- Core cycle `t` is reached: the clock never goes back, and every Almanac copy counts one per cycle (R148). -/
def State.at (s : State) (t : Nat) : State :=
  if s.now < t then { s with now := t, alm := s.alm + (t - s.now) } else s

/-- The Almanac in core cycle `t`, now or earlier (R601). -/
def State.almAt (s : State) (t : Nat) : Nat := s.alm + t - s.now

/-- The first cycle whose phase C can still take a change due in cycle `due` (R118): the cycle before `now`
unless phase B of `now` has judged a wait already. -/
def State.landing (s : State) (due : Nat) : Nat :=
  if s.phaseB.any && s.phaseB.cycle = s.now then Nat.max due s.now else Nat.max due (s.now - 1)

/-! ## Free values -/

/-- The next free word, and the state that has used it. -/
def State.freeWord (s : State) : Word × State :=
  (Config.freeWord s.freeCtr, { s with freeCtr := s.freeCtr + 1 })

/-- `n` free bytes numbered from `k`. -/
def freeBytesFrom (k : Nat) : Nat → List Byte
  | 0 => []
  | n + 1 => Config.freeByte k :: freeBytesFrom (k + 1) n

/-- `n` free bytes, and the state that has used them. -/
def State.freeBytes (s : State) (n : Nat) : List Byte × State :=
  (freeBytesFrom s.freeCtr n, { s with freeCtr := s.freeCtr + n })

/-! ## Cores, engines and regions -/

/-- A core's state. -/
def State.core (s : State) (c : CoreId) : Core := AMap.get s.cores Core.idle (coreKey c)

/-- The state with a core set. -/
def State.setCore (s : State) (c : CoreId) (x : Core) : State :=
  { s with cores := AMap.set s.cores Core.idle (coreKey c) x }

/-- An engine of a core. -/
def Core.eng (x : Core) (e : Cls) : Engine := AMap.get x.engs Engine.idle (clsCode e)

/-- A core with an engine set. -/
def Core.setEng (x : Core) (e : Cls) (g : Engine) : Core :=
  { x with engs := AMap.set x.engs Engine.idle (clsCode e) g }

/-- An engine. -/
def State.eng (s : State) (c : CoreId) (e : Cls) : Engine := (s.core c).eng e

/-- The state with an engine set. -/
def State.setEng (s : State) (c : CoreId) (e : Cls) (g : Engine) : State :=
  s.setCore c ((s.core c).setEng e g)

/-- A region's sync file. -/
def State.region (s : State) (r : RegionId) : Region := AMap.get s.regions Region.idle (regionKey r)

/-- The state with a region set. -/
def State.setRegion (s : State) (r : RegionId) (x : Region) : State :=
  { s with regions := AMap.set s.regions Region.idle (regionKey r) x }

/-- Every engine class (R48). -/
def allCls : List Cls := [.tally, .move, .reduce, .shape, .sort, .scale, .tensor]

/-- The engines a core has: the Tensor engine only in T-cores and spare slots (R20, R48). -/
def engineOf (c : CoreId) (e : Cls) : Bool := e != .tensor || isTcore c.core || c.core ≥ 64

/-- The substitution under way on a die (R501). -/
def State.subJob (s : State) (die : Nat) : Option SubJob := AMap.get s.subst none die

/-- A logical core is being substituted: packets for it are held (R502). -/
def State.substituting (s : State) (c : CoreId) : Bool :=
  match s.subJob c.die with
  | some j => j.region = c.region && j.core = c.core
  | none => false

/-- The site of the leading Vigil (R527, R568). -/
def State.leadSite (s : State) : Nat := if s.fld Reg.VIG_IDENT F.VIG_IDENT_LEAD = 8 then 0x48 else 0x40

/-! ## The Ashpit (R494 to R499) -/

/-- A VIG_REL_STATUS flag is set, and its settings are counted (R11, R527). -/
def State.relFlag (s : State) (f : Fld) : State :=
  (s.flag Reg.VIG_REL_STATUS f).count (Reg.VIG_REL_EVENTS f.lo) F.VIG_REL_EVENTS_COUNT 1

/-- What a detection reports (R497). -/
structure Detection where
  cls : Nat
  code : Nat
  site : Nat
  block : Nat
  unit : Nat
  details : List Word
deriving DecidableEq, Repr

/-- A report leaves: on the Ihlyel ports at once, and for the I3C controller to read (R541, R566). A report of an
entry that still waits there is read as the entry stands. -/
def State.report (s : State) (e : AshEntry) : State :=
  { s with
    reports :=
      if e.seq ≠ 0 && s.reports.any (fun r => r.seq = e.seq) then
        s.reports.map (fun r => if r.seq = e.seq then e else r)
      else s.reports ++ [e],
    reported := some e }

/-- The newest stored entry of a unit. -/
def newestOf (site block unit : Nat) : List AshEntry → Option AshEntry
  | [] => none
  | e :: es => if e.site = site && e.block = block && e.unit = unit then some e else newestOf site block unit es

/-- A detection is logged: merged into the unit's newest entry, stored as a new entry, or only reported when every
entry is unacknowledged (R498, R499). -/
def State.log (s : State) (d : Detection) : State :=
  let ack := s.fld Reg.VIG_ASH_ACK F.VIG_ASH_ACK_SEQ
  let head := s.fld Reg.VIG_ASH_HEAD F.VIG_ASH_HEAD_SEQ
  let fresh : AshEntry :=
    { first := s.alm, last := s.alm, code := d.code, cls := d.cls, site := d.site, block := d.block,
      unit := d.unit, repeats := 1, seq := head, details := d.details }
  let merged : Option AshEntry :=
    match newestOf d.site d.block d.unit s.ash with
    | some e =>
      if e.code = d.code && e.cls = d.cls && s.alm ≤ e.first + 1000000 && e.first ≤ s.alm + 1000000 && e.seq > ack then
        some { e with repeats := satAdd 16 e.repeats 1, last := s.alm }
      else none
    | none => none
  match merged with
  | some e => { s with ash := s.ash.map (fun x : AshEntry => if x.seq = e.seq then e else x) }.report e
  | none =>
    if head ≥ ack + 4097 then
      ((s.count Reg.VIG_ASH_LOST F.VIG_ASH_LOST_COUNT 1).relFlag F.VIG_REL_STATUS_ASH_LOST_SEEN).report
        { fresh with seq := 0 }
    else
      ({ s with ash := (fresh :: s.ash).take 4096 }.setFld Reg.VIG_ASH_HEAD F.VIG_ASH_HEAD_SEQ (head + 1)).report
        fresh

/-- A detection with no detail words beyond those given. -/
def State.logAt (s : State) (cls code site block unit : Nat) (details : List Nat) : State :=
  s.log { cls := cls, code := code, site := site, block := block, unit := unit,
          details := details.map (BitVec.ofNat 64) }

/-- A management access completed. -/
def State.completed (s : State) (code : Nat) (value : Word) : State := { s with access := ⟨code, value⟩ }

/-- The next state, if the operands name units the module has. -/
def onUnit (ok : Bool) (s : State) : Host.Outcome State Fault Refusal :=
  if ok then .next s else .refused .noSuchUnit

end Sys2Proof.Machine
end

