-- ==== Sys2Proof/Machine/Operands.lean ====
section
/-! DEFINITION. Operand forms: the instruction word (R57), descriptors and their checks (R70 to R77), data
locators (R42), and the elements a descriptor names. -/
namespace Sys2Proof.Machine

/-- What an operation asks of an operand position. -/
inductive Need where
  | required | optional | unused
deriving DecidableEq, Repr

/-- The four handles of a compute instruction, with what is asked of each (R69). -/
def handleNeeds (w : Nat) (d a b c : Need) : List (Need × Nat) :=
  [(d, bits w 7 0), (a, bits w 15 8), (b, bits w 23 16), (c, bits w 31 24)]

/-! ## The instruction word (R57) -/

namespace I
def cls (w : Nat) : Nat := bits w 127 124
def op (w : Nat) : Nat := bits w 123 118
def mod (w : Nat) : Nat := bits w 117 114
def cr (w : Nat) : Bool := bitAt w 113
def rsv (w : Nat) : Nat := bits w 112 112
def wid (w : Nat) : Nat := bits w 111 96
def wcond (w : Nat) : Nat := bits w 95 93
def wval (w : Nat) : Nat := bits w 92 80
def sid (w : Nat) : Nat := bits w 79 64
def sact (w : Nat) : Nat := bits w 63 61
def sval (w : Nat) : Nat := bits w 60 56
def imm (w : Nat) : Nat := bits w 55 32
def c (w : Nat) : Nat := bits w 31 24
def b (w : Nat) : Nat := bits w 23 16
def a (w : Nat) : Nat := bits w 15 8
def d (w : Nat) : Nat := bits w 7 0
end I

/-- The wait and signal fields that R59, R60 and R63 refuse in any instruction. -/
def badFields (w : Nat) : Bool :=
  I.rsv w ≠ 0 ||
  (I.wcond w = 0 && (I.wid w ≠ 0 || I.wval w ≠ 0)) ||
  (I.wcond w = 7 && 1 < I.wval w) ||
  (I.wcond w = 5 && I.wval w = 0) ||
  5 ≤ I.sact w ||
  (I.sact w = 0 && (I.sid w ≠ 0 || I.sval w ≠ 0)) ||
  (I.sact w = 4 && I.sval w ≠ 0)

/-! ## Descriptors (R72) -/

/-- A descriptor as read from the hearth: its four words' fields. -/
structure Desc where
  typ : Nat
  rank : Nat
  fmt : Nat
  blk : Nat
  sdir : Nat
  base : Nat
  scaleBase : Nat
  d0 : Nat
  d1 : Nat
  d2 : Nat
  d3 : Nat
  s1 : Nat
  s2 : Nat
  s3 : Nat
  param : Nat
  reserved : Bool
deriving DecidableEq, Repr

/-- A descriptor from its four words (R72). -/
def descOf (w0 w1 w2 w3 : Nat) : Desc :=
  { typ := bits w0 1 0, rank := bits w0 3 2 + 1, fmt := bits w0 8 4, blk := bits w0 11 9,
    sdir := bits w0 12 12, base := bits w0 32 16, scaleBase := bits w0 63 47,
    d0 := bits w1 15 0, d1 := bits w1 31 16, d2 := bits w1 47 32, d3 := bits w1 63 48,
    s1 := bits w2 17 0, s2 := bits w2 35 18, s3 := bits w2 53 36, param := w3,
    reserved := bits w0 46 33 ≠ 0 || bits w0 15 13 ≠ 0 || bits w2 63 54 ≠ 0 }

/-- The hearth address of a descriptor (R70). -/
def descAddr (s : State) (c : CoreId) (h : Nat) : Nat :=
  s.fld (Reg.HTH_DESC_TABLE c) F.HTH_DESC_TABLE_BASE + 32 * h

/-- A descriptor of the core's table, as it stands in the hearth (R71). -/
def readDesc (s : State) (c : CoreId) (h : Nat) : Desc :=
  let a := descAddr s c h
  descOf (s.hnat c a 8) (s.hnat c (a + 8) 8) (s.hnat c (a + 16) 8) (s.hnat c (a + 24) 8)

/-- A handle's check (R70): `need` says the operation requires the operand. -/
def handleCheck (s : State) (c : CoreId) (need : Bool) (h : Nat) : Option Nat :=
  if need then
    if h = 0xFF then some Code.rejFormat
    else if s.fld (Reg.HTH_DESC_TABLE c) F.HTH_DESC_TABLE_COUNT ≤ h then some Code.rejRange
    else none
  else if h = 0xFF then none
  else some Code.rejFormat

/-- The handle checks of R70 over an instruction's positions, in the order D, A, B, C. -/
def handlesCheck (s : State) (c : CoreId) : List (Need × Nat) → Option Nat
  | [] => none
  | (n, h) :: rest =>
    match (if n = .optional && h = 0xFF then none else handleCheck s c (n != .unused) h) with
    | some code => some code
    | none => handlesCheck s c rest

/-- The descriptor a handle names, if it names one. -/
def operand (s : State) (c : CoreId) (h : Nat) : Option Desc := if h = 0xFF then none else some (readDesc s c h)

/-- A block's element count (R72); 0 without a shared scale. -/
def Desc.block (d : Desc) : Nat := if d.blk = 0 then 0 else 4 * 2 ^ d.blk

/-- The operand is empty (R75). -/
def Desc.empty (d : Desc) : Bool := d.d0 = 0 || d.d1 = 0 || d.d2 = 0 || d.d3 = 0

/-- Rows of dimension 0. -/
def Desc.rows (d : Desc) : Nat := d.d1 * d.d2 * d.d3

/-- Elements of the operand. -/
def Desc.count (d : Desc) : Nat := d.d0 * d.rows

/-- Bytes of one row. -/
def Desc.rowBytes (d : Desc) : Nat := d.d0 * fmtBits d.fmt / 8

/-- The hearth address of row `r`, dimension 1 varying fastest. -/
def Desc.rowAddr (d : Desc) (r : Nat) : Nat :=
  d.base + r % d.d1 * d.s1 + r / d.d1 % d.d2 * d.s2 + r / d.d1 / d.d2 * d.s3

/-- Scale blocks of the operand. -/
def Desc.blocks (d : Desc) : Nat := if d.blk = 0 then 0 else d.count / d.block

/-- The block that element `i` of row `r` lies in (R77). -/
def Desc.blockOf (d : Desc) (i r : Nat) : Nat :=
  if d.sdir = 0 then i / d.block + d.d0 / d.block * r
  else i + d.d0 * (r % d.d1 / d.block + d.d1 / d.block * (r / d.d1))

/-- Some difference `j · st + k`, |j| < n, lies within `len` bytes of 0; `other` says that the other indices
already differ. -/
def closeRow (st n len : Nat) (k : Int) (other : Bool) : Bool :=
  if n = 0 || len = 0 then false
  else if st = 0 then decide (k.natAbs < len) && (other || 1 < n)
  else
    let lo : Int := -((len - 1 + k) / st)
    let hi : Int := ((len : Int) - 1 - k) / st
    let lo := max lo (-((n : Int) - 1))
    let hi := min hi ((n : Int) - 1)
    if other then decide (lo ≤ hi) else decide (lo ≤ hi) && (decide (lo < 0) || decide (0 < hi))

/-- Two different rows of `len` bytes share a byte (R74). -/
def Desc.overlapsItself (d : Desc) (len : Nat) : Bool :=
  if d.empty then false
  else
    (List.range d.d3).any fun j3 =>
      (List.range (2 * d.d2 - 1)).any fun k2 =>
        let j2 : Int := (k2 : Int) - (d.d2 - 1)
        closeRow d.s1 d.d1 len (j3 * d.s3 + j2 * d.s2) (j3 ≠ 0 || j2 ≠ 0)

/-- Rows whose strides nest never share a byte; checked first because it is quick. -/
def Desc.nested (d : Desc) (len : Nat) : Bool :=
  (d.d1 ≤ 1 || len ≤ d.s1) &&
  (d.d2 ≤ 1 || (d.d1 - 1) * d.s1 + len ≤ d.s2) &&
  (d.d3 ≤ 1 || (d.d2 - 1) * d.s2 + (d.d1 - 1) * d.s1 + len ≤ d.s3)

/-- Address of the last byte of the elements. -/
def Desc.lastByte (d : Desc) (len : Nat) : Nat :=
  d.base + (d.d1 - 1) * d.s1 + (d.d2 - 1) * d.s2 + (d.d3 - 1) * d.s3 + len - 1

/-- The checks of R74 in their order; `dest` says the descriptor is a destination; `img` is the size of a long
image where the operand holds images (R219), else 0. -/
def descCheck (d : Desc) (dest : Bool) (img : Nat) : Option Nat :=
  let len := if img = 0 then d.rowBytes else d.d0 * img
  let align := if img = 0 then fmtAlign d.fmt else 8
  firstCode [
    (d.typ ≠ 1 || (fmtOf d.fmt).isNone || d.blk = 7 || (d.blk ≠ 0 && (!fmtScalable d.fmt || img ≠ 0)) ||
      d.reserved || (d.blk = 0 && d.scaleBase ≠ 0), Code.rejFormat),
    ((d.rank ≤ 1 && (d.d1 ≠ 1 || d.s1 ≠ 0)) || (d.rank ≤ 2 && (d.d2 ≠ 1 || d.s2 ≠ 0)) ||
      (d.rank ≤ 3 && (d.d3 ≠ 1 || d.s3 ≠ 0)), Code.rejFormat),
    (img = 0 && d.d0 * fmtBits d.fmt % 8 ≠ 0, Code.rejFormat),
    (d.base % align ≠ 0 || d.s1 % align ≠ 0 || d.s2 % align ≠ 0 || d.s3 % align ≠ 0, Code.rejRange),
    (dest && !d.nested len && d.overlapsItself len, Code.rejFormat),
    (d.blk ≠ 0 && ((d.sdir = 1 && d.rank = 1) ||
      (if d.sdir = 0 then d.d0 else d.d1) % d.block ≠ 0), Code.rejFormat),
    (!d.empty && (decide (0x1FFFF < d.lastByte len) ||
      (d.blk ≠ 0 && decide (0x1FFFF < d.scaleBase + d.blocks - 1))), Code.rejRange)]

/-- The byte ranges of the rows (start, length), the scale array last. -/
def Desc.ranges (d : Desc) (len : Nat) : List (Nat × Nat) :=
  if d.empty then []
  else (List.range d.rows).map (fun r => (d.rowAddr r, len)) ++
    (if d.blk = 0 then [] else [(d.scaleBase, d.blocks)])

/-- Two operands have equal extents. -/
def sameDims (x y : Desc) : Bool := x.d0 = y.d0 && x.d1 = y.d1 && x.d2 = y.d2 && x.d3 = y.d3

/-- Two lists of byte ranges share a byte. -/
def rangesMeet (xs ys : List (Nat × Nat)) : Bool :=
  xs.any fun x => ys.any fun y => decide (x.1 < y.1 + y.2) && decide (y.1 < x.1 + x.2)

/-- The check of a descriptor whose ENGINE_PARAM must be 0. -/
def plainCheck (d : Desc) (dest : Bool) : Option Nat :=
  if d.param ≠ 0 then some Code.rejFormat else descCheck d dest 0

/-- The checks of plain operands in order, each with whether it is a destination. -/
def plainChecks : List (Option Desc × Bool) → Option Nat
  | [] => none
  | (none, _) :: rest => plainChecks rest
  | (some d, dest) :: rest =>
    match plainCheck d dest with
    | some code => some code
    | none => plainChecks rest

/-- The byte ranges of a plain operand's rows and scales. -/
def Desc.spans (d : Desc) : List (Nat × Nat) := d.ranges d.rowBytes

/-- Two plain operands share a byte. -/
def descsMeet (x y : Desc) : Bool := rangesMeet x.spans y.spans

/-- Two operands have the same place: BASE, extents and strides (R220, R269). -/
def samePlace (x y : Desc) : Bool :=
  x.base = y.base && x.d0 = y.d0 && x.d1 = y.d1 && x.d2 = y.d2 && x.d3 = y.d3 &&
  x.s1 = y.s1 && x.s2 = y.s2 && x.s3 = y.s3

/-- A destination overlaps a source only by taking exactly its place at the same element width, and no other
destination (R269). -/
def destOk (d : Desc) (inPlace : Bool) (sources others : List Desc) : Bool :=
  sources.all (fun o => (inPlace && samePlace d o && fmtBits d.fmt = fmtBits o.fmt) || !descsMeet d o) &&
  others.all fun o => !descsMeet d o

/-! ## Elements -/

/-- The element codes of row `r`. -/
def rowCodes (s : State) (c : CoreId) (d : Desc) (r : Nat) : List Nat :=
  unpackRow (fmtBits d.fmt) (s.hread c (d.rowAddr r) d.rowBytes) d.d0

/-- The element codes of every row. -/
def allCodes (s : State) (c : CoreId) (d : Desc) : List (List Nat) :=
  if d.empty then [] else (List.range d.rows).map (rowCodes s c d)

/-- The scale byte of a block. -/
def scaleByte (s : State) (c : CoreId) (d : Desc) (b : Nat) : Nat := s.hnat c (d.scaleBase + b) 1

/-- The value of element `i` of row `r`, whose code is `code` (R187). -/
def elemVal (s : State) (c : CoreId) (d : Desc) (r i code : Nat) : Val :=
  if d.blk = 0 then decodeElem d.fmt code else decodeScaled d.fmt code (scaleByte s c d (d.blockOf i r))

/-- The values of row `r`. -/
def rowVals (s : State) (c : CoreId) (d : Desc) (r : Nat) : List Val :=
  (rowCodes s c d r).zipIdx.map fun (code, i) => elemVal s c d r i code

/-- The values of every row. -/
def allVals (s : State) (c : CoreId) (d : Desc) : List (List Val) :=
  if d.empty then [] else (List.range d.rows).map (rowVals s c d)

/-- The rows of an operand as numbers of `b` bits each. -/
def rowsAs (s : State) (c : CoreId) (d : Desc) (b : Nat) : List (List Nat) :=
  if d.empty then []
  else (List.range d.rows).map fun r => unpackRow b (s.hread c (d.rowAddr r) (d.d0 * b / 8)) d.d0

/-- Rows of numbers of `b` bits each stored through a descriptor. -/
def writeRowsAs (s : State) (c : CoreId) (d : Desc) (b : Nat) (rows : List (List Nat)) : State :=
  rows.zipIdx.foldl (fun s (row, r) => s.hwrite c (d.rowAddr r) (packRow b row)) s

/-- Rows of element codes stored through a descriptor. -/
def writeCodes (s : State) (c : CoreId) (d : Desc) (rows : List (List Nat)) : State :=
  rows.zipIdx.foldl (fun s (row, r) => s.hwrite c (d.rowAddr r) (packRow (fmtBits d.fmt) row)) s

/-- The first hearth word of the ranges that shows an uncorrectable error, as a hearth address (R315). -/
def badWord (s : State) (c : CoreId) : List (Nat × Nat) → Option Nat
  | [] => none
  | (a, n) :: rest =>
    if n = 0 then badWord s c rest
    else
      match s.findMark .hearth (hearthAt c a / 8) 2 ((a + n - 1) / 8 - a / 8 + 1) with
      | some w => some (w * 8 - hearthAt c 0)
      | none => badWord s c rest

/-- Correctable words of the ranges are corrected in place and counted (R315). -/
def correctWords (s : State) (c : CoreId) : List (Nat × Nat) → State
  | [] => s
  | (a, n) :: rest =>
    let lo := hearthAt c a / 8
    let hi := if n = 0 then lo else (hearthAt c a + n - 1) / 8 + 1
    let weak := s.marks.filter fun p => p.2 = 1 && markKey .hearth lo ≤ p.1 && p.1 < markKey .hearth hi
    let s := { s with marks := s.marks.filter fun p => !(weak.contains p) }
    let s := if weak.isEmpty then s else
      (s.count (Reg.HTH_HEARTH_ECC c) F.HTH_HEARTH_ECC_CORR weak.length).healthAdd 0 weak.length
    correctWords s c rest

/-- Hearth words are read under their check bits: the first uncorrectable word, or none, and the state with
corrections and counts made (R315). -/
def readHearth (s : State) (c : CoreId) (rs : List (Nat × Nat)) : Option Nat × State :=
  if s.marks.isEmpty then (none, s)
  else
    match badWord s c rs with
    | some a => (some a, s.count (Reg.HTH_HEARTH_ECC c) F.HTH_HEARTH_ECC_UNCORR 1)
    | none => (none, correctWords s c rs)

/-! ## Data locators (R42) -/

/-- The place a locator names. -/
inductive Place where
  | hearth (c : CoreId) (a : Nat)
  | scratch (die a : Nat)
  | fabric (a : Nat)
  | queue (loc : Nat)
deriving DecidableEq, Repr

/-- The scratchpad size of a die in bytes (R40, R317). -/
def scratchSize (s : State) (die : Nat) : Nat := s.fld (Reg.MEM_DS_PART die) F.MEM_DS_PART_SCRATCH * 0x1000000

/-- The place a locator names, or REJ_RANGE (R42). -/
def placeOf (s : State) (self : CoreId) (l : Nat) : Except Nat Place :=
  match bits l 63 60 with
  | 0 => if bits l 59 17 ≠ 0 then .error Code.rejRange else .ok (.hearth self (bits l 16 0))
  | 1 =>
    if bits l 59 40 ≠ 0 || bits l 20 17 ≠ 0 || 79 < bits l 33 27 then .error Code.rejRange
    else .ok (.hearth ⟨bits l 39 34, bits l 33 27, bits l 26 21⟩ (bits l 16 0))
  | 2 =>
    if bits l 59 40 ≠ 0 || bits l 33 27 ≠ 0 || scratchSize s (bits l 39 34) ≤ bits l 26 0 then
      .error Code.rejRange
    else .ok (.scratch (bits l 39 34) (bits l 26 0))
  | 3 => if bits l 59 41 ≠ 0 then .error Code.rejRange else .ok (.fabric (bits l 40 0))
  | 4 => .ok (.queue l)
  | _ => .error Code.rejRange

end Sys2Proof.Machine
end

