-- ==== Sys2Proof/Machine/Packets.lean ====
section
/-! DEFINITION. Packet headers: the fields of R397 and R400, and packets the module builds. -/
namespace Sys2Proof.Machine

namespace P
def ptype : Fld := ⟨63, 60⟩
def vc : Fld := ⟨59, 57⟩
def epoch : Fld := ⟨56, 56⟩
def dmod : Fld := ⟨55, 55⟩
def smod : Fld := ⟨54, 54⟩
def dest : Fld := ⟨53, 38⟩
def src : Fld := ⟨37, 22⟩
def hops : Fld := ⟨21, 16⟩
def rsv : Fld := ⟨15, 14⟩
def length : Fld := ⟨13, 0⟩
/-- DIE and REGION stand alike in DATA, SIGNAL and SIGACK. -/
def die : Fld := ⟨63, 58⟩
def region : Fld := ⟨57, 51⟩
def core : Fld := ⟨50, 45⟩
def queue : Fld := ⟨44, 42⟩
def object : Fld := ⟨50, 39⟩
def tag : Fld := ⟨38, 35⟩
def sact : Fld := ⟨34, 32⟩
def sval : Fld := ⟨31, 27⟩
def qid : Fld := ⟨26, 18⟩
def token : Fld := ⟨17, 0⟩
def flue : Fld := ⟨63, 52⟩
def seg : Fld := ⟨51, 36⟩
def last : Fld := ⟨35, 35⟩
def offset : Fld := ⟨34, 21⟩
def segLen : Fld := ⟨20, 0⟩
def gen : Fld := ⟨51, 38⟩
def stage : Fld := ⟨37, 36⟩
def down : Fld := ⟨35, 35⟩
def status : Fld := ⟨63, 56⟩
def wr : Fld := ⟨55, 55⟩
def mtoken : Fld := ⟨54, 43⟩
def rdlen : Fld := ⟨42, 35⟩
def maddr : Fld := ⟨34, 0⟩
def ethPort : Fld := ⟨9, 0⟩
end P

/-- A header field of word 0. -/
def h0 (p : Packet) (f : Fld) : Nat := f.get p.w0
/-- A header field of word 1. -/
def h1 (p : Packet) (f : Fld) : Nat := f.get p.w1

/-- A word built from fields. -/
def wordOf : List (Fld × Nat) → Word
  | [] => 0
  | (f, v) :: rest => f.only v ||| wordOf rest

/-- This module's identifier, if one is assigned (R43, R401). -/
def State.moduleId (s : State) : Option Nat :=
  if s.isOn Reg.VIG_MODULE_ID F.VIG_MODULE_ID_VALID then some (s.fld Reg.VIG_MODULE_ID F.VIG_MODULE_ID_ID)
  else none

/-- The routing epoch that originated packets carry (R432). -/
def State.epoch (s : State) : Nat := s.fld Reg.RTE_EPOCH F.RTE_EPOCH_CUR

/-- Word 0 of a packet this module originates (R397, R398). -/
def State.originWord (s : State) (ptype vc dmod dest length : Nat) : Word :=
  wordOf [(P.ptype, ptype), (P.vc, vc), (P.epoch, s.epoch), (P.dmod, dmod), (P.smod, 1), (P.dest, dest),
    (P.src, s.moduleId.getD 0), (P.length, length)]

/-- The cells a packet occupies (R414). -/
def cellsOf (p : Packet) : Nat := ceilDiv (16 + h0 p P.length) 64

/-- The credit pool of a packet type on a virtual channel (R411). -/
def poolOf (vc ptype : Nat) : Nat :=
  match vc with
  | 0 => 0
  | 1 => if ptype = 2 then 2 else 1
  | 2 => 3
  | 3 => 4
  | 4 => 5
  | 5 => 6
  | 6 => 7
  | _ => if ptype = 6 || ptype = 7 then 8 else 9

/-- The credit pool a packet occupies as its header stands. -/
def packetPool (p : Packet) : Nat := poolOf (h0 p P.vc) (h0 p P.ptype)

/-- A port. -/
def State.port (s : State) (p : Nat) : Port := AMap.get s.ports Port.idle p

/-- A port set. -/
def State.setPort (s : State) (p : Nat) (x : Port) : State := { s with ports := AMap.set s.ports Port.idle p x }

/-- The packet bytes of a region router port are counted: leaving or entering the region (R452). -/
def State.countRouter (s : State) (r : Option RegionId) (out : Bool) (p : Packet) : State :=
  match r with
  | some r =>
    if out then s.bump (Reg.RTE_RP_TX_BYTES r) F.RTE_RP_TX_BYTES_COUNT (16 + h0 p P.length)
    else s.bump (Reg.RTE_RP_RX_BYTES r) F.RTE_RP_RX_BYTES_COUNT (16 + h0 p P.length)
  | none => s

/-! ## The job's phase, the recorder's freeze and the end of shadowing (R170, R513, R516, R522) -/

/-- With FREEZE set, a detection stops the recorder (R522). -/
def State.freezeRec (s : State) : State :=
  let c := s.reg Reg.VIG_REC_CTL
  if F.VIG_REC_CTL_EN.on c && F.VIG_REC_CTL_FREEZE.on c && !F.VIG_REC_CTL_FROZEN.on c then
    ((s.setFld Reg.VIG_REC_CTL F.VIG_REC_CTL_FROZEN 1).relFlag F.VIG_REL_STATUS_REC_FROZEN_SEEN).logAt AClass.recorder 0
      s.leadSite 0x20 0 []
  else s

/-- PHASE and STATUS of the job. -/
def State.setPhase (s : State) (phase code : Nat) : State :=
  let s := (s.setFld Reg.ALM_JOB_STATUS F.ALM_JOB_STATUS_PHASE phase).setFld Reg.ALM_JOB_STATUS F.ALM_JOB_STATUS_STATUS code
  if phase = 7 then s.freezeRec else s

/-- Every Calendar of the module stops (R173, R174). -/
def State.stopAll (s : State) : State := { s with job := { s.job with stopped := List.range 64, checks := [] } }

/-- VIG_SHD_CTL.MODE. -/
def State.shdMode (s : State) : Nat := s.fld Reg.VIG_SHD_CTL F.VIG_SHD_CTL_MODE

/-- VIG_SHD_STATUS.STATE. -/
def State.shdState (s : State) : Nat := s.fld Reg.VIG_SHD_STATUS F.VIG_SHD_STATUS_STATE

namespace Shd
def idle : Nat := 0
def mirroring : Nat := 1
def deciding : Nat := 2
def taken : Nat := 3
def relaying : Nat := 4
def ended : Nat := 5
end Shd

/-- VIG_SHD_STATUS.STATE set. -/
def State.setShd (s : State) (st : Nat) : State := s.setFld Reg.VIG_SHD_STATUS F.VIG_SHD_STATUS_STATE st

/-- The module is a shadow that has not ended. -/
def State.shadowing (s : State) : Bool :=
  s.mstate = MState.shadow && s.shdMode = 2 && (s.shdState = Shd.mirroring || s.shdState = Shd.deciding)

/-- Shadowing ends on S with a code, at a tick (R513, R516). -/
def State.endShadow (s : State) (code tick : Nat) : State :=
  if !s.shadowing then s
  else
    let s := (s.setShd Shd.ended).setFld Reg.VIG_SHD_STATUS F.VIG_SHD_STATUS_CODE code
    let s := s.setFld Reg.VIG_SHD_LAST F.VIG_SHD_LAST_FAIL_TICK tick
    let s := ((s.stopAll).setPhase 7 code).relFlag F.VIG_REL_STATUS_SHADOW_FAIL_SEEN
    let details := if code = Code.failStateLost then
        [s.moduleId.getD 0, s.fld Reg.VIG_SHD_LAST F.VIG_SHD_LAST_LAST_TICK] else []
    s.logAt AClass.shadow code s.leadSite 0x20 0 details

/-- The module sends nothing of its own: a shadow, or a primary that relays (R511, R515). -/
def State.silenced (s : State) : Bool :=
  (s.mstate = MState.shadow && s.shdState ≠ Shd.deciding) || (s.shdMode = 1 && s.shdState = Shd.relaying)

/-- Cells admitted for an owner have left the module, or their sink has taken them (R448). -/
def State.unadmit (s : State) (f : Flying) : State :=
  match f.adm with
  | none => s
  | some owner =>
    (List.range 256).foldl (fun s a =>
      let e := s.reg (Reg.DMP_ADMIT a)
      if F.DMP_ADMIT_VALID.on e && F.DMP_ADMIT_OWNER.get e = owner then
        let q := Reg.DMP_ADMIT_Q a
        s.setFld q F.DMP_ADMIT_Q_CELLS (s.fld q F.DMP_ADMIT_Q_CELLS - cellsOf f.pkt)
      else s) s

/-- A packet this module has sent waits for an output port; one of a module that sends nothing is dropped (R511). -/
def State.originate (s : State) (f : Flying) : State :=
  if s.silenced then (s.countRouter f.src true f.pkt).unadmit f
  else { s with origin := s.origin ++ [{ f with since := s.now }] }.countRouter f.src true f.pkt

/-- A packet starts on its way to a unit of this module. -/
def State.fly (s : State) (f : Flying) : State :=
  { s with flight := s.flight ++ [f], meshUsed := true }.countRouter f.src true f.pkt

/-- A packet is for this module (R423). -/
def State.isMine (s : State) (p : Packet) : Bool := h0 p P.dmod = 1 && s.moduleId = some (h0 p P.dest % 4096)

/-- A packet this module has sent is under way: inside where it is for this module. -/
def State.sendOut (s : State) (f : Flying) : State := if s.isMine f.pkt then s.fly f else s.originate f

/-- Cells of an input pool are freed (R416, R417). -/
def State.freeCells (s : State) (f : Flying) : State :=
  match f.port with
  | some p =>
    let x := s.port p
    s.setPort p { x with freed := AMap.set x.freed 0 (packetPool f.pkt) (AMap.get x.freed 0 (packetPool f.pkt) + cellsOf f.pkt) }
  | none => s

/-- The first packet in flight equal to `p`, if there is one: a command that carries a packet is its arrival. -/
def State.inFlight (s : State) (p : Packet) : Option Flying := s.flight.find? (fun f => f.pkt = p)

/-- A packet in flight, if it is one, reaches its sink: it leaves its input pool and its admission entry (R417, R448).
The packet as it stood in flight, and the state without it. -/
def State.land (s : State) (p : Packet) : Option Flying × State :=
  match takeFirst (fun f : Flying => f.pkt = p) s.flight with
  | some (f, rest) => (some f, ({ s with flight := rest }.freeCells f).unadmit f)
  | none => (none, s)

end Sys2Proof.Machine
end

