-- ==== Sys2Proof/Machine/Sync.lean ====
section
/-! DEFINITION. Sync objects, translation, waits, signals, barriers, remote signals, and context save and
restore (chapter 03). -/
namespace Sys2Proof.Machine

/-! ## Object words (R109 to R113) -/

/-- KIND of an object word: 0 free, 1 flag, 2 counter, 3 barrier counter. -/
def kindOf (w : Word) : Nat := F.SYN_OBJ_FLAG_KIND.get w

/-- TAG of an object word. -/
def tagOf (w : Word) : Nat := F.SYN_OBJ_FLAG_TAG.get w

/-- The object kind a wait condition needs (R60). -/
def waitKind : Nat → Nat
  | 1 | 2 | 6 => 1
  | 3 | 4 | 5 => 2
  | 7 => 3
  | _ => 0

/-- The object kind a signal action needs (R63); 8 is the undo of a takef (R123). -/
def sigKind : Nat → Nat
  | 1 | 2 | 8 => 1
  | 3 => 2
  | 4 => 3
  | _ => 0

/-- A wait condition holds of an object word (R60). -/
def waitHolds (wcond wval : Nat) (w : Word) : Bool :=
  match wcond with
  | 0 => true
  | 1 | 6 => F.SYN_OBJ_FLAG_VALUE.get w = 1
  | 2 => F.SYN_OBJ_FLAG_VALUE.get w = 0
  | 3 | 5 => wval ≤ F.SYN_OBJ_COUNTER_VALUE.get w
  | 4 => F.SYN_OBJ_COUNTER_VALUE.get w = wval
  | 7 => F.SYN_OBJ_BARRIER_GEN.get w % 2 = wval % 2
  | _ => false

/-- What a passing take or takef leaves in the object word (R60). -/
def takeFrom (wcond wval : Nat) (w : Word) : Word :=
  match wcond with
  | 5 => F.SYN_OBJ_COUNTER_VALUE.put w (F.SYN_OBJ_COUNTER_VALUE.get w - wval)
  | 6 => F.SYN_OBJ_FLAG_VALUE.put w 0
  | _ => w

/-- An object word as a management write leaves it: reserved bits of its kind read as 0 (R10, R609). -/
def cleanObj (w : Word) : Word :=
  match kindOf w with
  | 0 => BitVec.ofNat 64 (bits w.toNat 63 57 * 2 ^ 57)
  | 1 => BitVec.ofNat 64 (bits w.toNat 63 57 * 2 ^ 57 + bits w.toNat 32 0)
  | 2 => BitVec.ofNat 64 (bits w.toNat 63 51 * 2 ^ 51 + bits w.toNat 23 0)
  | _ => w

/-- The region sync file's log place (R113, R608). -/
def State.logSync (s : State) (r : RegionId) (code : Nat) (details : List Nat) : State :=
  s.logAt AClass.sync code r.die r.region 0xE0 details

/-- An object's ERR is set (R113). -/
def State.setErr (s : State) (r : RegionId) (obj : Nat) : State :=
  ((((s.setFld (Reg.SYN_OBJ r obj) F.SYN_OBJ_FLAG_ERR 1).flag (Reg.SYN_STATUS r)
    F.SYN_STATUS_ERR_SEEN).count (Reg.SYN_ERR_EVENTS r) F.SYN_ERR_EVENTS_COUNT 1).logSync r 0 [r.region, obj])

/-! ## Translation (R114 to R116) -/

/-- The object a virtual identifier names. -/
structure Target where
  scope : Nat
  module : Nat
  die : Nat
  region : Nat
  obj : Nat
  tag : Nat
deriving DecidableEq, Repr

/-- The word of a translation entry as a target. -/
def targetOf (r : RegionId) (x : Word) : Target :=
  let scope := F.SYN_XLAT_SCOPE.get x
  { scope := scope, module := F.SYN_XLAT_MODULE.get x,
    die := if scope = 0 then r.die else F.SYN_XLAT_DIE.get x,
    region := if scope = 0 then r.region else F.SYN_XLAT_REGION.get x,
    obj := F.SYN_XLAT_OBJECT.get x, tag := F.SYN_XLAT_TAG.get x }

/-- Translation of an identifier in a context of a region: the target, or the code of the first failed check of
R116. A wait, a Calendar entry and a Flue hub admit only scope 0; `kind` is the object kind asked for. -/
def translate (s : State) (r : RegionId) (ctx vid : Nat) (localOnly : Bool) (kind : Nat) : Except Nat Target :=
  let m := s.reg (Reg.SYN_CTXMAP r ctx)
  let vbase := F.SYN_CTXMAP_VBASE.get m
  let x := s.reg (Reg.SYN_XLAT r (F.SYN_CTXMAP_TBASE.get m + vid - vbase))
  let t := targetOf r x
  let w := s.reg (Reg.SYN_OBJ r t.obj)
  match firstCode [
    (!F.SYN_CTXMAP_VALID.on m, Code.rejState),
    (decide (vid < vbase) || decide (vbase + F.SYN_CTXMAP_COUNT.get m ≤ vid), Code.rejRange),
    (!F.SYN_XLAT_VALID.on x, Code.rejRange),
    (t.scope = 3 || (t.scope = 1 && t.die = r.die && t.region = r.region) ||
      (t.scope = 2 && s.moduleId = some t.module) || (localOnly && t.scope ≠ 0), Code.rejFormat),
    (t.scope ≠ 0 && (decide (63 < t.die) || decide (79 < t.region)), Code.rejRange),
    (t.scope = 0 && tagOf w ≠ t.tag, Code.rejFormat),
    (t.scope = 0 && kindOf w ≠ kind, Code.rejFormat)] with
  | some code => .error code
  | none => .ok t

/-! ## Phase C: changes that land (R118, R120, R124 to R134) -/

/-- The flags that a set has already reached in cycle `L`. -/
def State.setsIn (s : State) (L : Nat) : List Nat := if s.phaseC.cycle = L then s.phaseC.sets else []

/-- A tracking mask bit. -/
def State.maskBit (s : State) (a : Nat → Nat) (q : Nat) : Bool := bitAt (s.reg (a (q / 64))).toNat (q % 64)

/-- A tracking mask with a bit set. -/
def State.setMaskBit (s : State) (a : Nat → Nat) (q : Nat) : State :=
  s.setReg (a (q / 64)) (s.reg (a (q / 64)) ||| BitVec.ofNat 64 (2 ^ (q % 64)))

/-- A rebase of one counter: its VALUE falls by BASE, or to 0 with ERR set (R133, R134). -/
def State.rebaseOne (s : State) (r : RegionId) (base obj : Nat) : State :=
  let a := Reg.SYN_OBJ r obj
  let v := s.fld a F.SYN_OBJ_COUNTER_VALUE
  if base ≤ v then s.setFld a F.SYN_OBJ_COUNTER_VALUE (v - base)
  else (s.setFld a F.SYN_OBJ_COUNTER_VALUE 0).setErr r obj

/-- The counters of a region that belong to a rebase group, among the objects below `n`. -/
def State.groupOf (s : State) (r : RegionId) (g : Nat) : List Nat :=
  let base := Reg.SYN_OBJ r 0
  s.regs.filterMap fun (a, w) =>
    if base ≤ a && a < base + 0x8000 && kindOf w = 2 && F.SYN_OBJ_COUNTER_GROUP.get w = g
    then some ((a - base) / 8) else none

/-- A completed barrier rebases every group it leads (R132, R133). -/
def State.rebase (s : State) (r : RegionId) (obj : Nat) : Nat → State
  | 0 => s
  | g + 1 =>
    let s := s.rebase r obj g
    let x := s.reg (Reg.SYN_REBASE r (g + 1))
    let base := F.SYN_REBASE_BASE.get x
    if g < 63 && base ≠ 0 && F.SYN_REBASE_BARRIER.get x = obj then
      (s.groupOf r (g + 1)).foldl (fun s o => s.rebaseOne r base o) s
    else s

/-- The CUR mask takes the NEXT mask, and NEXT is cleared (R125). -/
def State.shiftMasks (s : State) (r : RegionId) (t : Nat) : Nat → State
  | 0 => s
  | w + 1 =>
    let s := s.shiftMasks r t w
    (s.setReg (Reg.SYN_TRACK_CUR r t w) (s.reg (Reg.SYN_TRACK_NEXT r t w))).setReg (Reg.SYN_TRACK_NEXT r t w) 0

/-- A barrier completes its open generation in phase C of cycle `L` (R125, R130, R133). -/
def State.barrierDone (s : State) (r : RegionId) (obj L : Nat) : State :=
  let a := Reg.SYN_OBJ r obj
  let w := s.reg a
  let next := F.SYN_OBJ_BARRIER_ARR_NEXT.get w
  let w := F.SYN_OBJ_BARRIER_GEN.put w (F.SYN_OBJ_BARRIER_GEN.get w + 1)
  let w := F.SYN_OBJ_BARRIER_ARR_NEXT.put (F.SYN_OBJ_BARRIER_ARR_CUR.put w next) 0
  let s := s.setReg a w
  let s := if F.SYN_OBJ_BARRIER_TRACK.on w then s.shiftMasks r (F.SYN_OBJ_BARRIER_TIDX.get w) 8 else s
  let s := s.rebase r obj 63
  if next = F.SYN_OBJ_BARRIER_EXPECT.get w && next ≠ 0 then
    let g := s.region r
    s.setRegion r { g with carry := g.carry ++ [(obj, L + 1)] }
  else s

/-- A carried completion that is due in cycle `L` or earlier lands first (R130). -/
def State.settle (s : State) (r : RegionId) (obj L : Nat) : State :=
  let g := s.region r
  match takeFirst (fun c : Nat × Nat => c.1 = obj && decide (c.2 ≤ L)) g.carry with
  | some (c, rest) => (s.setRegion r { g with carry := rest }).barrierDone r obj c.2
  | none => s

/-- One more arrival counts for the open generation (R125). -/
def State.arriveCur (s : State) (r : RegionId) (obj L : Nat) : State :=
  let a := Reg.SYN_OBJ r obj
  let cur := s.fld a F.SYN_OBJ_BARRIER_ARR_CUR + 1
  let s := s.setFld a F.SYN_OBJ_BARRIER_ARR_CUR cur
  if cur = s.fld a F.SYN_OBJ_BARRIER_EXPECT then s.barrierDone r obj L else s

/-- An arrival at a barrier; `q` is the queue of a local arrival (R124, R127, R128). -/
def State.arrive (s : State) (r : RegionId) (obj L : Nat) (q : Option Nat) : State :=
  let w := s.reg (Reg.SYN_OBJ r obj)
  let t := F.SYN_OBJ_BARRIER_TIDX.get w
  if F.SYN_OBJ_BARRIER_EXPECT.get w = 0 then s.setErr r obj
  else
    match q with
    | some q =>
      if F.SYN_OBJ_BARRIER_TRACK.on w then
        if !s.maskBit (Reg.SYN_TRACK_MEMBER r t) q then s.setErr r obj
        else if !s.maskBit (Reg.SYN_TRACK_CUR r t) q then
          (s.setMaskBit (Reg.SYN_TRACK_CUR r t) q).arriveCur r obj L
        else if !s.maskBit (Reg.SYN_TRACK_NEXT r t) q then
          (s.setMaskBit (Reg.SYN_TRACK_NEXT r t) q).setFld (Reg.SYN_OBJ r obj) F.SYN_OBJ_BARRIER_ARR_NEXT
            (F.SYN_OBJ_BARRIER_ARR_NEXT.get w + 1)
        else s.setErr r obj
      else s.arriveCur r obj L
    | none => s.arriveCur r obj L

/-- A signal whose checks have passed changes its object in phase C of cycle `L` (R63, R112, R120, R123). -/
def State.applySig (s : State) (r : RegionId) (obj L act amt : Nat) (q : Option Nat) : State :=
  let a := Reg.SYN_OBJ r obj
  let w := s.reg a
  let sets := s.setsIn L
  match act with
  | 1 =>
    let w := F.SYN_OBJ_FLAG_SETS.put (F.SYN_OBJ_FLAG_VALUE.put w 1) (F.SYN_OBJ_FLAG_SETS.get w + 1)
    { s.setReg a w with phaseC := ⟨L, a :: sets⟩ }
  | 8 => { s.setReg a (F.SYN_OBJ_FLAG_VALUE.put w 1) with phaseC := ⟨L, a :: sets⟩ }
  | 2 => if sets.contains a then s else s.setReg a (F.SYN_OBJ_FLAG_VALUE.put w 0)
  | 3 =>
    let v := F.SYN_OBJ_COUNTER_VALUE.get w + amt
    if v < 2 ^ 24 then s.setReg a (F.SYN_OBJ_COUNTER_VALUE.put w v)
    else (s.setReg a (F.SYN_OBJ_COUNTER_VALUE.put w (2 ^ 24 - 1))).setErr r obj
  | 4 => s.arrive r obj L q
  | _ => s

/-- A dropped signal (R138, R608): counted, flagged and logged with the object and its source. -/
def State.stale (s : State) (r : RegionId) (obj source : Nat) : State :=
  ((s.flag (Reg.SYN_STATUS r) F.SYN_STATUS_STALE_SEEN).count (Reg.SYN_STALE r) F.SYN_STALE_COUNT 1).logSync r 0
    [obj, source]

/-- A signal lands in phase C of cycle `L`: it is checked against the word as earlier changes have left it, and
applied or dropped (R118, R138, R608); waits see it from cycle `L + 1`. -/
def State.landSig (s : State) (r : RegionId) (obj tag act amt : Nat) (q : Option Nat) (source L : Nat) : State :=
  let s := (s.at L).settle r obj L
  let w := s.reg (Reg.SYN_OBJ r obj)
  let s :=
    if s.mark .sync (regionKey r * 4096 + obj) = 2 then s.logSync r Code.failMemory [obj, source]
    else if tagOf w ≠ tag || kindOf w ≠ sigKind act then s.stale r obj source
    else s.applySig r obj L act amt q
  s.at (L + 1)

/-- A management write of an object word lands before the signals of its cycle; one that finds signals landed in
that cycle lands in the next (R118, R609). -/
def State.writeObj (s : State) (r : RegionId) (obj : Nat) (w : Word) : State :=
  let due := s.landing 0
  let L := if s.phaseC.cycle = due && !s.phaseC.sets.isEmpty then due + 1 else due
  let s := s.settle r obj L
  ((s.setReg (Reg.SYN_OBJ r obj) (cleanObj w)).setMark .sync (regionKey r * 4096 + obj) 0).at (L + 1)

/-! ## Phase B: waits (R60, R61, R118, R119) -/

/-- The word a wait other than a take is judged against: V0 of the cycle (R118). -/
def State.v0 (s : State) (a : Nat) : Word :=
  if s.phaseB.cycle = s.now then
    match takeFirst (fun p : Nat × (Nat × Nat) => p.1 = a) s.phaseB.taken with
    | some (p, _) => BitVec.ofNat 64 p.2.1
    | none => s.reg a
  else s.reg a

/-- The object is ready for a take of queue `q`: carried completions have landed, and where the cycle has already
judged this queue or a later one, the next cycle has begun (R118, R130). -/
def State.beforeWait (s : State) (r : RegionId) (obj wcond q : Nat) : State :=
  let s := if s.now = 0 then s else s.settle r obj (s.now - 1)
  if (wcond = 5 || wcond = 6) && s.phaseB.cycle = s.now then
    match takeFirst (fun p : Nat × (Nat × Nat) => p.1 = Reg.SYN_OBJ r obj) s.phaseB.taken with
    | some (p, _) => if q ≤ p.2.2 then s.at (s.now + 1) else s
    | none => s
  else s

/-- A wait is judged in phase B of the current cycle; a passing take changes the running value (R118). -/
def State.judge (s : State) (r : RegionId) (obj wcond wval q : Nat) : Bool × State :=
  let a := Reg.SYN_OBJ r obj
  let v0 := s.v0 a
  let taken := if s.phaseB.cycle = s.now then s.phaseB.taken else []
  if wcond = 5 || wcond = 6 then
    let ok := waitHolds wcond wval (s.reg a)
    let w := s.reg a
    let s := { s with phaseB := ⟨s.now, true, AMap.insert taken a (v0.toNat, q)⟩ }
    (ok, if ok then s.setReg a (takeFrom wcond wval w) else s)
  else (waitHolds wcond wval v0, { s with phaseB := ⟨s.now, true, taken⟩ })

/-! ## Remote signals (R135 to R140, R433) -/

/-- A SIGNAL packet (R400). -/
def State.sigPacket (s : State) (g : Sig) (token : Nat) : Packet :=
  { w0 := s.originWord 1 1 1 (if g.scope = 2 then g.module else s.moduleId.getD 0) 0,
    w1 := wordOf [(P.die, g.die), (P.region, g.region), (P.object, g.obj), (P.tag, g.tag), (P.sact, g.act),
      (P.sval, g.amt - 1), (P.qid, g.qid), (P.token, token)],
    payload := [] }

/-- A region can release one more remote signal (R137), and none of an older epoch is unacknowledged (R433). -/
def State.canSend (s : State) (r : RegionId) : Bool :=
  let g := s.region r
  decide (g.out.length < 64) && g.out.all (fun o => o.epoch = s.epoch)

/-- A remote signal leaves through the region router port (R135); a shadow's to another module counts as acknowledged at
once (R511). -/
def State.release (s : State) (r : RegionId) (g : Sig) : State :=
  let x := s.region r
  let p := s.sigPacket g x.nextToken
  let kept := if g.scope = 2 && s.mstate = MState.shadow then x.out else x.out ++ [⟨x.nextToken, g, s.now, s.epoch⟩]
  let s := s.setRegion r { x with out := kept,
                                  nextToken := (x.nextToken + 1) % 2 ^ 18 }
  if g.scope = 2 then s.originate (.of p (some r) none s.now) else s.fly (.of p (some r) none s.now)

/-- REMOTE_SIGNAL: a remote signal reaches its sync file, is applied or dropped, and is acknowledged (R135, R136,
R138). A signal that an earlier one of the same source and destination region has not overtaken waits. -/
def execRemoteSignal (p : Packet) (s : State) : Host.Outcome State Fault Refusal :=
  let r : RegionId := ⟨h1 p P.die, h1 p P.region⟩
  let sameWay (f : Flying) (src : Option RegionId) : Bool :=
    f.src = src && h0 f.pkt P.ptype = 1 && h1 f.pkt P.die = r.die && h1 f.pkt P.region = r.region
  let (f, s1) := s.land p
  let src := (f.map Flying.src).getD none
  let first := s.flight.find? (fun x => sameWay x src)
  let overtakes := f.isSome && first != f
  if h0 p P.ptype ≠ 1 || !r.ok || overtakes then .next s
  else
    let s2 := s1.landSig r (h1 p P.object) (h1 p P.tag) (h1 p P.sact) (h1 p P.sval + 1) none (h1 p P.qid)
      (s1.landing (s1.now - 1))
    match src with
    | some from_ =>
      let ack : Packet :=
        { w0 := s2.originWord 2 1 1 (s2.moduleId.getD 0) 0,
          w1 := wordOf [(P.die, from_.die), (P.region, from_.region), (P.token, h1 p P.token)], payload := [] }
      .next ((s2.countRouter (some r) false p).fly (.of ack (some r) none s2.now))
    | none =>
      let (place, s3) := s2.freeWord
      let ack : Packet :=
        { w0 := s3.originWord 2 1 (h0 p P.smod) (h0 p P.src) 0,
          w1 := wordOf [(P.die, P.die.get place), (P.region, P.region.get place), (P.token, h1 p P.token)],
          payload := [] }
      .next ((s3.countRouter (some r) false p).originate (.of ack (some r) none s3.now))

/-- BARRIER_CARRY: a generation already full after a completion completes in the next cycle (R130). -/
def execBarrierCarry (r : RegionId) (obj : Nat) (s : State) : Host.Outcome State Fault Refusal :=
  onUnit (r.ok && obj < 4096) <|
    match (s.region r).carry.find? (fun c => c.1 = obj) with
    | some c => (s.settle r obj c.2).at (c.2 + 1)
    | none => s

end Sys2Proof.Machine
end

