-- ==== Sys2Proof/Machine/Sequencer.lean ====
section
/-! DEFINITION. Engine sequencers: fetch, waits, issue, completion, faults, loops, the common operations, bank
swaps and the sequencer commands (chapter 02). -/
namespace Sys2Proof.Machine

/-! ## The fetch unit (R49 to R51, R91) -/

/-- The instruction word at a program counter of the active bank (R49, R58). -/
def State.instrWord (s : State) (c : CoreId) (pc : Nat) : Nat :=
  leNat (Mem.read s.istore
    (istoreAt c (s.fld (Reg.HTH_BANK_CTL c) F.HTH_BANK_CTL_ACTIVE) (16 * pc)) 16)

/-- At a body's end the next iteration begins or the loop is left (R89, R107). -/
def loopNext : List LoopFrame → Nat → Nat × List LoopFrame
  | [], next => (next, [])
  | l :: ls, next =>
    if next = l.first + l.len then
      if 1 < l.remaining then (l.first, { l with remaining := l.remaining - 1 } :: ls)
      else loopNext ls next
    else (next, l :: ls)

/-- The engine can take one more instruction from the fetch unit (R49, R51, R91). -/
def Engine.wants (g : Engine) : Bool :=
  (g.st = .running || g.st = .waiting) && g.queued < 64 && g.ending = .none &&
  match g.fetchPc with
  | some p => p < 768
  | none => false

/-- An instruction word at a program counter is fetched: fetch follows JUMP and LOOP and stops after HALT or BANK (R51). -/
def Engine.fetched (g : Engine) (p w : Nat) : Engine :=
  let op := I.op w
  if op = 0x3B then { g with queued := g.queued + 1, fetchPc := some (bits w 9 0) }
  else if op = 0x39 || op = 0x3A then { g with queued := g.queued + 1, fetchPc := none }
  else if op = 0x3C && bits w 15 0 ≠ 0 then
    { g with queued := g.queued + 1, fetchPc := some (p + 1), fetchLoops := ⟨p + 1, bits w 25 16, bits w 15 0⟩ :: g.fetchLoops }
  else
    let n := loopNext g.fetchLoops (p + 1)
    { g with queued := g.queued + 1, fetchPc := some n.1, fetchLoops := n.2 }

/-- The next class in rotating class-code order after the one served last that wants an instruction (R50). -/
def Core.nextToFetch (x : Core) : Option Cls :=
  let order := (allCls ++ allCls).drop (x.fetchLast + 1)
  (order.take 7).find? (fun e => (x.eng e).wants)

/-- Up to `n` instructions, read by `word`, are delivered to a core's queues in one cycle (R50). -/
def Core.fetchCycle (word : Nat → Nat) (x : Core) : Nat → Core
  | 0 => x
  | n + 1 =>
    match x.nextToFetch with
    | none => x
    | some e =>
      let g := x.eng e
      let p := g.fetchPc.getD 0
      Core.fetchCycle word { x.setEng e (g.fetched p (word p)) with fetchLast := clsCode e } n

/-- `n` cycles of a core's fetch unit, or fewer where the queues fill before (R50). -/
def Core.fetchCycles (word : Nat → Nat) (x : Core) : Nat → Core
  | 0 => x
  | n + 1 => if x.nextToFetch.isNone then x else Core.fetchCycles word (x.fetchCycle word 4) n

/-- A core's fetch unit is accounted for up to the current cycle; 128 cycles fill seven queues of 64 (R50). -/
def State.catchUp (s : State) (c : CoreId) : State :=
  let x := s.core c
  if s.now ≤ x.fetchedTo then s
  else s.setCore c { x.fetchCycles (s.instrWord c) (Nat.min (s.now - x.fetchedTo) 128) with fetchedTo := s.now }

/-! ## Records, faults and the swap condition -/

/-- The number that shows an engine state (R56). -/
def EngSt.code : EngSt → Nat
  | .halted => 0 | .running => 1 | .waiting => 2 | .parked => 3 | .faulted => 4

/-- Every engine of a core is HALTED or PARKED (R101). -/
def Core.quiet (x : Core) : Bool := x.engs.all fun (_, g) => g.st = .halted || g.st = .parked

/-- Every engine of a core is HALTED. -/
def Core.halted (x : Core) : Bool := x.engs.all fun (_, g) => g.st = .halted

/-- The bank swap condition of R101. -/
def State.swapReady (s : State) (c : CoreId) : Bool :=
  s.isOn (Reg.HTH_BANK_CTL c) F.HTH_BANK_CTL_ARMED && (s.core c).quiet

/-- Note since when the swap condition holds (R102). -/
def State.watchSwap (s : State) (c : CoreId) : State :=
  let x := s.core c
  let since := if s.swapReady c then some (x.swapFrom.getD s.now) else none
  s.setCore c { x with swapFrom := since }

/-- Word 0 of a completion record (R600). -/
def recordWord0 (status source pc ident : Nat) : Nat :=
  status + source * 2 ^ 8 + pc * 2 ^ 16 + ident % 2 ^ 32 * 2 ^ 32

/-- The 32 bytes of an instruction's completion record (R600). -/
def recordBytes (status e pc n time sat flush op mod qid : Nat) : List Byte :=
  leBytes 8 (recordWord0 status e pc n) ++ leBytes 8 time ++
  leBytes 8 (sat + flush * 2 ^ 32) ++ leBytes 8 (op + mod * 2 ^ 6 + qid * 2 ^ 10)

/-- A completion record goes to the engine's ring; with ENTRIES 0 none is written (R98). -/
def State.writeRecord (s : State) (c : CoreId) (e : Cls) (word pc status time sat flush : Nat) : State :=
  let entries := s.fld (Reg.CR_BASE c e) F.CR_BASE_ENTRIES
  let base := s.fld (Reg.CR_BASE c e) F.CR_BASE_BASE
  let n := s.fld (Reg.CR_SEQ c e) F.CR_SEQ_COUNT
  if entries = 0 then s
  else
    (s.hwrite c (base + 32 * (n % entries))
      (recordBytes status (clsCode e) pc n time sat flush (I.op word) (I.mod word) (qidOf c e))).bump
      (Reg.CR_SEQ c e) F.CR_SEQ_COUNT 1

/-- The fault class of an engine completion (R605). -/
def engineClass (code : Nat) : Nat :=
  if code = Code.failMemory then AClass.memory
  else if code = Code.failResidue then AClass.arith
  else AClass.engine

/-- An engine or core event is logged (R610). -/
def State.logEngine (s : State) (c : CoreId) (e : Cls) (cls code unit pc haddr : Nat) : State :=
  s.logAt cls code c.die c.region c.core [qidOf c e + unit * 2 ^ 16, pc, haddr, 0]

/-- A logical core is marked for substitution; a hardware mark counts in VIG_REL_EVENTS[0] (R500, R525). -/
def State.markCore (s : State) (c : CoreId) : State :=
  let a := Reg.HTH_SPARE_MARK c.die c.region
  (s.setReg a (s.reg a ||| BitVec.ofNat 64 (2 ^ c.core))).count (Reg.VIG_REL_EVENTS 0) F.VIG_REL_EVENTS_COUNT 1

/-- A FAIL_RESIDUE completion of an engine: its second within 1 s marks the core (R500). -/
def State.noteResidueFail (s : State) (c : CoreId) (e : Cls) : State :=
  let x := s.core c
  let recent := x.residueFails.filter (fun t => s.now ≤ t.1 + 1000000000)
  let s := s.setCore c { x with residueFails := (s.now, clsCode e) :: recent.filter fun t => t.2 ≠ clsCode e }
  if recent.any fun t => t.2 = clsCode e then s.markCore c else s

/-- Loops kept when an engine faults (R107): those whose body holds the faulting instruction, in family 0x1_. -/
def keptLoops (code pc : Nat) (loops : List LoopFrame) : List LoopFrame :=
  if Code.family code = 1 then loops.filter fun l => decide (l.first ≤ pc) && decide (pc < l.first + l.len)
  else []

/-- An engine that has stopped has no head instruction: SEQ_STATUS.PC reads a free value. -/
def State.loosePc (s : State) (c : CoreId) (e : Cls) : State :=
  let f := (s.catchUp c).freeWord
  f.2.setEng c e { f.2.eng c e with pc := f.1.toNat % 1024 }

/-- An engine completes an instruction outside family 0x0_: it records code and program counter, discards its
queue, enters FAULTED, writes a record and logs the event (R95, R602). -/
def State.engineFault (s : State) (c : CoreId) (e : Cls) (word pc code time unit haddr : Nat) : State :=
  let s := s.loosePc c e
  let g := s.eng c e
  let s := s.setEng c e
    { g with st := .faulted, lastFault := code, faultPc := pc, queued := 0, fetchPc := none, fetchLoops := [], waitFrom := none,
             ending := .none, loops := keptLoops code pc g.loops }
  let s := s.writeRecord c e word pc code time 0 0
  let s := s.logEngine c e (engineClass code) code unit pc haddr
  let s := if code = Code.failResidue then s.noteResidueFail c e else s
  s.watchSwap c

/-- An engine that has issued HALT or BANK and has nothing left to complete or signal stops (R87). -/
def Engine.settle (g : Engine) : Engine :=
  if g.inflight.isEmpty && g.held.isNone then
    match g.ending with
    | .halt => { g with st := .halted, ending := .none, queued := 0, fetchPc := none, loops := [] }
    | .bank => { g with st := .parked, ending := .none, queued := 0, fetchPc := none, loops := [] }
    | .none => g
  else g

/-- An engine is settled and the swap condition judged afresh. -/
def State.settleEng (s : State) (c : CoreId) (e : Cls) : State :=
  let g := (s.eng c e).settle
  (if g.st = (s.eng c e).st then s.setEng c e g else ((s.catchUp c).setEng c e g).loosePc c e).watchSwap c

/-! ## Held remote signals (R137) -/

/-- A core's identifier from its key. -/
def coreOfKey (k : Nat) : CoreId := ⟨k / 128 / 128, k / 128 % 128, k % 128⟩

/-- Held signals of a region leave while there is room, lowest queue identifier first (R137). -/
def State.releaseHeld (s : State) (r : RegionId) : State :=
  let cores := (s.cores.map Prod.fst).filter (fun k => k / 128 = regionKey r)
  cores.foldl (fun s k =>
    allCls.foldl (fun s e =>
      let c := coreOfKey k
      let g := s.eng c e
      match g.held with
      | some sig =>
        if s.canSend r then ((s.release r sig).setEng c e { g with held := none }).settleEng c e else s
      | none => s) s) s

/-- SIGACK: the acknowledged remote signal's entry is freed, and held signals may leave (R135, R137). -/
def execSigack (p : Packet) (s : State) : Host.Outcome State Fault Refusal :=
  let r : RegionId := ⟨h1 p P.die, h1 p P.region⟩
  if h0 p P.ptype ≠ 2 || !r.ok then .next s
  else
    let s := ((s.land p).2).countRouter (some r) false p
    let g := s.region r
    .next ((s.setRegion r { g with out := g.out.filter (fun o => o.token ≠ h1 p P.token) }).releaseHeld r)

/-- REMOTE_SIGNAL_LOST: a remote signal unacknowledged for 20 µs is declared lost, and held signals may leave (R137,
R139). -/
def execRemoteSignalLost (r : RegionId) (token : Nat) (s : State) : Host.Outcome State Fault Refusal :=
  let g := s.region r
  onUnit r.ok <|
    match takeFirst (fun o : OutSig => o.token = token) g.out with
    | some (o, rest) =>
      let s := (s.at (o.left + 20000)).setRegion r { g with out := rest }
      (((s.flag (Reg.SYN_STATUS r) F.SYN_STATUS_LOST_SEEN).count (Reg.SYN_LOST r) F.SYN_LOST_COUNT 1).logSync r 0
        []).releaseHeld r
    | none => s

/-! ## Completion (R64, R66, R99, R601) -/

/-- An instruction's signal is applied: in this region in phase C of cycle `L`, elsewhere as a remote signal, or
it is held for want of room (R66, R121, R135, R137). -/
def State.sendSig (s : State) (c : CoreId) (e : Cls) (g : Sig) (L : Nat) : State :=
  if g.scope = 0 then s.landSig (regionOf c) g.obj g.tag g.act g.amt (some g.qid) g.qid L
  else
    let s := s.at L
    if s.canSend (regionOf c) then s.release (regionOf c) g
    else
      let x := s.eng c e
      s.setEng c e { x with held := some g }

/-- The destination ranges of a failed instruction take free values (R96). -/
def State.scramble (s : State) (c : CoreId) (ranges : List (Nat × Nat)) : State :=
  ranges.foldl (fun s r =>
    let f := s.freeBytes r.2
    f.2.hwrite c r.1 f.1) s

/-- The take that an instruction passed is undone in phase C of the cycle of the decision (R95, R123). -/
def State.undoTake (s : State) (c : CoreId) (take : Option Sig) : State :=
  match take with
  | some g => s.landSig (regionOf c) g.obj g.tag g.act g.amt (some g.qid) g.qid (s.landing s.now)
  | none => s

/-- The oldest issued instruction of an engine completes in cycle `tc`: record, counts and signal in phase C of the
next cycle, or a fault (R64, R95, R99, R603). -/
def State.complete (s : State) (c : CoreId) (e : Cls) (i : Inflight) (rest : List Inflight) (tc : Nat) : State :=
  let g := s.eng c e
  let s := (s.at tc).setEng c e { g with inflight := rest }
  if Code.family i.code = 0 then
    let s := if I.cr i.word then s.writeRecord c e i.word i.pc i.code (s.almAt tc) i.sat i.flush else s
    let s := s.bump (Reg.RETIRED c e) F.RETIRED_COUNT 1
    let s := if e = .move && i.code = Code.corrected then
        (s.flag (Reg.MOV_STATUS c) F.MOV_STATUS_CORRECTED_SEEN).count (Reg.MOV_CORRECTED c) F.MOV_CORRECTED_COUNT 1
      else s
    let s := if i.macs = 0 then s else s.bump (Reg.TEN_MACS c) F.TEN_MACS_COUNT i.macs
    let s := s.count (Reg.SAT_TOTAL c e) F.SAT_TOTAL_COUNT i.sat
    let s := s.count (Reg.FLUSH_TOTAL c e) F.FLUSH_TOTAL_COUNT i.flush
    let s := match i.sig with
      | some sig => s.sendSig c e sig (tc + 1)
      | none => s
    s.settleEng c e
  else
    let time := if Code.family i.code = 3 then s.almAt tc else s.almAt i.issued
    let s := s.setEng c e { s.eng c e with inflight := rest.map (fun j : Inflight => { j with sig := none }) }
    let s := if Code.family i.code = 3 then s else s.undoTake c i.take
    (s.scramble c (if Code.family i.code = 3 then i.dst else [])).engineFault c e i.word i.pc i.code time i.unit
      i.haddr

/-! ## Starting and stopping (R102, R106 to R108, R223, R244) -/

/-- Sequencer state that every start clears: Tally counters and comparators, locator registers, Reduce lanes and
Tensor tiles (R108, R223, R244). -/
def Core.fresh (x : Core) : Cls → Core
  | .tally => { x with ctrs := [], cmps := [] }
  | .move => { x with locs := [] }
  | .reduce => { x with lanes := x.lanes.cleared }
  | .tensor => { x with tiles := [] }
  | _ => x

/-- An engine starts fetching at ENTRY.PC; its first instruction issues four cycles later (R102, R106, R108). -/
def State.startEngine (s : State) (c : CoreId) (e : Cls) : State :=
  let pc := s.fld (Reg.ENTRY c e) F.ENTRY_PC
  let s := (s.catchUp c).setFld (Reg.ENTRY c e) F.ENTRY_VALID 0
  let x := (s.core c).fresh e
  let g := x.eng e
  s.setCore c (x.setEng e
    { g with st := .running, pc := pc, queued := 0, fetchPc := some pc, fetchLoops := [], loops := [], issueAt := s.now + 4,
             waitFrom := none, ending := .none })

/-! ## Issue (R51, R52, R59 to R62, R67, R87 to R92, R116) -/

/-- The place of an instruction in the check-bit marks. -/
def State.instrPlace (s : State) (c : CoreId) (pc : Nat) : Nat :=
  istoreAt c (s.fld (Reg.HTH_BANK_CTL c) F.HTH_BANK_CTL_ACTIVE) (16 * pc)

/-- OP is assigned for the class (R83, R86, R87, R305, R359). -/
def assigned (e : Cls) (op : Nat) : Bool :=
  (0x38 ≤ op && op ≤ 0x3E) ||
  match e with
  | .tally => op ≤ 0x0A
  | .move => op ≤ 0x02 || (0x10 ≤ op && op ≤ 0x13) || (0x20 ≤ op && op ≤ 0x22)
  | .reduce => op ≤ 0x0C
  | .shape => op ≤ 0x05
  | .sort => op ≤ 0x03
  | .scale => op ≤ 0x07
  | .tensor => op ≤ 0x02

/-- Where execution goes after an instruction. -/
inductive Flow where
  /-- to the next instruction -/
  | seq
  /-- to a target that fetch has followed (R51) -/
  | jump (pc : Nat)
  /-- past or away from removed instructions (R51) -/
  | removed (pc : Nat)
  /-- into a loop body -/
  | enter (l : LoopFrame)
  /-- nowhere: HALT or BANK -/
  | stop (k : Ending)
deriving DecidableEq, Repr

/-- What an issued instruction has done: the state with its effects, where execution goes, and how it completes. -/
structure Out where
  st : State
  flow : Flow
  doneAt : Nat
  awaits : Awaits
  code : Nat
  sat : Nat
  flush : Nat
  dst : List (Nat × Nat)
  unit : Nat
  haddr : Nat
  stages : Nat
  macs : Nat
  busy : Nat
  remote : Option (Nat × Nat)

/-- The verdict at issue: a refusal or rejection with no effect, one that a register notes, a failure that changes nothing
(R96), or an issue. -/
inductive Res where
  | reject (code : Nat)
  | refuse (code : Nat) (st : State)
  | fail (code : Nat) (st : State)
  | ok (o : Out)

/-- An instruction that completes with DONE in cycle `t` and goes on. -/
def Out.at (st : State) (t : Nat) : Out :=
  { st := st, flow := .seq, doneAt := t, awaits := .time, code := Code.done, sat := 0, flush := 0, dst := [],
    unit := 0, haddr := 0, stages := 0, macs := 0, busy := 0, remote := none }

/-- An effect that reads hearth words: an uncorrectable word fails the instruction with its address (R315). -/
def withReads (c : CoreId) (t : Nat) (rs dst : List (Nat × Nat)) (s : State) (k : State → Res) : Res :=
  match readHearth s c rs with
  | (some a, s) => .ok { Out.at s t with code := Code.failMemory, haddr := a, dst := dst }
  | (none, s) => k s

/-- The core, engine, word, program counter and issue cycle of an instruction. -/
structure Ctx where
  c : CoreId
  e : Cls
  w : Nat
  pc : Nat
  t : Nat
deriving DecidableEq, Repr

/-- A common or engine operation: its OP, the reserved operand bits and fields it refuses (R59), the MOD values it
takes, the cycle before which it cannot issue, and its effect. -/
structure OpSpec where
  op : Nat
  bad : Nat → Bool
  modOk : Nat → Bool
  notBefore : State → Nat
  body : Ctx → State → Res

/-- SKIP and SKIPK are judged at issue from n alone (R89, R91). -/
def skipRange (g : Engine) (pc n : Nat) : Bool :=
  (match g.loops with | l :: _ => decide (l.first + l.len ≤ pc + n) | [] => false) || decide (767 < pc + n)

/-- The sequencer after an instruction issued in cycle `t` at its program counter (R51, R89). -/
def Engine.advance (g : Engine) (pc t : Nat) (f : Flow) : Engine :=
  let go (loops : List LoopFrame) (next : Nat) (gap removed : Nat) : Engine :=
    let n := loopNext loops next
    let left := g.queued - 1 - removed
    { g with pc := n.1, loops := n.2, issueAt := t + gap, queued := left,
             fetchPc := if left = 0 then some n.1 else g.fetchPc,
             fetchLoops := if left = 0 then n.2 else g.fetchLoops, waitFrom := none, st := .running }
  match f with
  | .seq => go g.loops (pc + 1) 1 0
  | .jump p => go g.loops p 1 0
  | .removed p => go g.loops p 4 (if pc < p then p - (pc + 1) else g.queued)
  | .enter l => go (l :: g.loops) (pc + 1) 1 0
  | .stop k => { g with issueAt := t + 1, queued := 0, fetchPc := none, waitFrom := none, st := .running,
                        ending := k }

/-- The resolved signal of an instruction (R66). -/
def sigOf (t : Target) (act amt qid : Nat) : Sig :=
  { scope := t.scope, module := t.module, die := t.die, region := t.region, obj := t.obj, tag := t.tag,
    act := act, amt := amt, qid := qid }

/-- The signal that undoes a passing take or takef: an add of WVAL, or a set that SETS does not count (R123). -/
def undoOf (t : Target) (wcond wval qid : Nat) : Option Sig :=
  if wcond = 5 then some (sigOf t 3 wval qid) else if wcond = 6 then some (sigOf t 8 0 qid) else none

/-- The head instruction's WID and SID as translated (R116). -/
structure Heads where
  wait : Option Target
  sig : Option Target
deriving DecidableEq, Repr

/-- The translation checks of R116: every check of the WID before any of the SID. -/
def translateHead (s : State) (c : CoreId) (w : Nat) : Except Nat Heads :=
  let ctx := s.fld (Reg.HTH_CTX c) F.HTH_CTX_CONTEXT
  let wait : Except Nat (Option Target) :=
    if I.wcond w = 0 then .ok none
    else (translate s (regionOf c) ctx (I.wid w) true (waitKind (I.wcond w))).map some
  match wait with
  | .error code => .error code
  | .ok wt =>
    if I.sact w = 0 then .ok ⟨wt, none⟩
    else
      match translate s (regionOf c) ctx (I.sid w) false (sigKind (I.sact w)) with
      | .error code => .error code
      | .ok st => .ok ⟨wt, some st⟩

/-- The cycles an engine has spent in its failing wait are counted when the wait ends (R105). -/
def State.endWait (s : State) (c : CoreId) (e : Cls) : State :=
  match (s.eng c e).waitFrom with
  | some t => s.bump (Reg.WAIT_CYCLES c e) F.WAIT_CYCLES_COUNT (s.now - t)
  | none => s

/-- An instruction ends at its issue with a refusal or rejection: no effect, its take undone, a fault (R18, R95). -/
def State.rejectAt (s : State) (c : CoreId) (e : Cls) (w pc code : Nat) (take : Option Sig) : State :=
  let time := s.alm
  (s.undoTake c take).engineFault c e w pc code time 0 0

/-- An instruction has issued in cycle `s.now` with an outcome: it joins those that have not completed, and the sequencer
goes on (R51, R64, R66). -/
def State.issued (s : State) (c : CoreId) (e : Cls) (w : Nat) (h : Heads) (take : Option Sig) (o : Out) : State :=
  let x := o.st.eng c e
  let pc := (s.eng c e).pc
  let i : Inflight :=
    { pc := pc, word := w, issued := s.now, doneAt := o.doneAt, awaits := o.awaits, code := o.code,
      sat := o.sat, flush := o.flush, sig := h.sig.map (fun t => sigOf t (I.sact w) (I.sval w + 1) (qidOf c e)),
      take := take, dst := o.dst, unit := o.unit, haddr := o.haddr, stages := o.stages, mismatches := 0,
      macs := o.macs, busy := o.busy, remote := o.remote }
  o.st.setEng c e { x.advance pc s.now o.flow with inflight := x.inflight ++ [i] }

/-- The head instruction issues in the current cycle: its MOD is checked and its effect takes place (R59). -/
def State.issueNow (s : State) (c : CoreId) (e : Cls) (w : Nat) (sp : OpSpec) (h : Heads)
    (take : Option Sig) : State :=
  let s := (s.endWait c e).catchUp c
  let pc := (s.eng c e).pc
  if !sp.modOk (I.mod w) then s.rejectAt c e w pc Code.rejFormat take
  else
    match sp.body ⟨c, e, w, pc, s.now⟩ s with
    | .reject code => s.rejectAt c e w pc code take
    | .refuse code st => st.rejectAt c e w pc code (if Code.family code = 3 then none else take)
    | .fail code st => st.engineFault c e w pc code st.alm 0 0
    | .ok o => s.issued c e w h take o

/-- What the wait of a head instruction comes to: it passes, with the signal that would undo its take; it faults; or it
fails for now. -/
inductive WaitEnd where
  | passes (take : Option Sig)
  | faults (code : Nat)
  | fails
deriving DecidableEq, Repr

/-- An instruction whose checks have passed faces its wait in phase B of the current cycle (R61, R113, R118); a
SKIP evaluates its condition without stalling (R88). -/
def State.judgeWait (s : State) (c : CoreId) (e : Cls) (w : Nat) (sp : OpSpec) (h : Heads) : WaitEnd × State :=
  match h.wait with
  | none => (.passes none, { s with phaseB := ⟨s.now, true, if s.phaseB.cycle = s.now then s.phaseB.taken else []⟩ })
  | some t =>
    let r := regionOf c
    let q := qidOf c e
    let s := s.beforeWait r t.obj (I.wcond w) q
    if s.mark .sync (regionKey r * 4096 + t.obj) = 2 then (.faults Code.failMemory, s)
    else if F.SYN_OBJ_FLAG_ERR.on (s.reg (Reg.SYN_OBJ r t.obj)) then (.faults Code.failMismatch, s)
    else if sp.op = 0x3D then (.passes none, s)
    else
      let j := s.judge r t.obj (I.wcond w) (I.wval w) q
      (if j.1 then .passes (undoOf t (I.wcond w) (I.wval w) q) else .fails, j.2)

/-- The head instruction issues, faults, or waits another cycle, as its wait says (R61, R67). -/
def State.faceWait (s : State) (c : CoreId) (e : Cls) (w : Nat) (sp : OpSpec) (h : Heads) : State :=
  match s.judgeWait c e w sp h with
  | (.passes take, s) => s.issueNow c e w sp h take
  | (.faults code, s) => (s.endWait c e).engineFault c e w (s.eng c e).pc code s.alm 0 0
  | (.fails, s) =>
    let g := s.eng c e
    (s.setEng c e { g with st := .waiting, waitFrom := some (g.waitFrom.getD s.now) }).at (s.now + 1)

/-- The hold count of a core's die where the engine is a Tensor engine (R583). -/
def holdOf (s : State) (c : CoreId) (e : Cls) : Nat :=
  if e = .tensor then s.fld (Reg.PWR_DIE c.die) F.PWR_DIE_HOLD else 0

/-- The cycle by which `n` engine cycles have passed from cycle `t` on, with the first `h` cycles of each aligned run of 16
held (R583). -/
def afterCycles (h t n : Nat) : Nat :=
  let total := t % 16 - h + n
  if n = 0 then t else t / 16 * 16 + (total - 1) / (16 - h) * 16 + h + (total - 1) % (16 - h) + 1

/-- The first cycle from `t` on that is not held (R583). -/
def notHeld (h t : Nat) : Nat := if t % 16 < h then t - t % 16 + h else t

/-- Engine cycles before cycle `t`, with the first `h` cycles of each aligned run of 16 held. -/
def cyclesBefore (h t : Nat) : Nat := t / 16 * (16 - h) + (t % 16 - h)

/-- A cycle that lies ahead of now by so many engine cycles under one hold count, as it lies under another. -/
def reheld (now h h' t : Nat) : Nat :=
  if t ≤ now then t else afterCycles h' now (cyclesBefore h t - cyclesBefore h now)

/-- The Tensor engines of a core whose hold count changes: their ready cycles, the array, and their MMAs (R583). -/
def Core.rehold (x : Core) (now h h' : Nat) : Core :=
  let g := x.eng .tensor
  let move := reheld now h h'
  { x with tiles := x.tiles.map (fun t : Nat × Tile => (t.1, { t.2 with ready := move t.2.ready })),
           arrayFree := move x.arrayFree }.setEng .tensor
    { g with inflight := g.inflight.map (fun i : Inflight => if i.busy = 0 then i else { i with doneAt := move i.doneAt }) }

/-- A die's hold count is set: what its Tensor engines still have to do moves with it (R583). -/
def State.setHold (s : State) (d h' : Nat) : State :=
  let h := s.fld (Reg.PWR_DIE d) F.PWR_DIE_HOLD
  let s := s.setFld (Reg.PWR_DIE d) F.PWR_DIE_HOLD h'
  { s with cores := s.cores.map fun x : Nat × Core =>
      if (coreOfKey x.1).die = d then (x.1, x.2.rehold s.now h h') else x }

/-- The first cycle from now in which the head instruction can be judged is reached; a correctable error of its word is
corrected and counted (R97). -/
def State.toHead (s : State) (c : CoreId) (e : Cls) : State :=
  let g := s.eng c e
  let place := s.instrPlace c g.pc
  let s := s.at (Nat.max s.now g.issueAt)
  if s.mark .istore place = 1 then
    (s.count (Reg.HTH_ISTORE_ECC c) F.HTH_ISTORE_ECC_CORR 1).healthAdd 0 1 else s

/-- The cycle in which an instruction with no fault of form can issue is reached (R258, R583). -/
def State.toIssue (s : State) (c : CoreId) (e : Cls) (sp : OpSpec) : State :=
  s.at (notHeld (holdOf s c e) (Nat.max s.now (sp.notBefore s)))

/-- A fetched word that cannot be corrected ends its instruction; the second at one place marks the core (R97, R500). -/
def State.fetchFails (s : State) (c : CoreId) (e : Cls) (w pc : Nat) : State :=
  let place := s.instrPlace c pc
  let x := s.core c
  let s := s.setCore c { x with badFetches := if x.badFetches.contains place then x.badFetches
                                             else place :: x.badFetches }
  let s := if x.badFetches.contains place then s.markCore c else s
  ((s.count (Reg.HTH_ISTORE_ECC c) F.HTH_ISTORE_ECC_UNCORR 1).endWait c e).engineFault c e w pc
    Code.failMemory s.alm 0 0

/-- A word has a fault of form: another class, an OP the class does not have, or reserved bits and fields (R59). -/
def illFormed (e : Cls) (sp : OpSpec) (w : Nat) : Bool :=
  I.cls w ≠ clsCode e || !assigned e (I.op w) || badFields w || sp.bad w

/-- The head instruction is judged in the first cycle from now in which it could issue (R59, R61, R97, R116). -/
def State.tryIssue (s : State) (c : CoreId) (e : Cls) (sp : OpSpec) : State :=
  let pc := (s.eng c e).pc
  let w := s.instrWord c pc
  let s := s.toHead c e
  if s.mark .istore (s.instrPlace c pc) = 2 then s.fetchFails c e w pc
  else if illFormed e sp w then (s.endWait c e).rejectAt c e w pc Code.rejFormat none
  else
    let s := s.toIssue c e sp
    match translateHead s c w with
    | .error code => (s.endWait c e).rejectAt c e w pc code none
    | .ok h => s.faceWait c e w sp h

/-- The engine can judge a head instruction: it runs or waits, has not issued HALT or BANK, holds no signal back,
and has an instruction to fetch (R52, R87, R91, R137). -/
def Engine.live (g : Engine) : Bool :=
  (g.st = .running || g.st = .waiting) && g.ending = .none && g.held.isNone && g.pc < 768

/-- The head word is the operation `op` of the class, or a word that spells no operation, which any command of the
engine judges (R59). -/
def headIs (e : Cls) (op w : Nat) : Bool :=
  I.cls w ≠ clsCode e || !assigned e (I.op w) || I.op w = op

/-- An engine command: the engine judges, and where its wait passes issues, the head instruction if it is this
operation; else nothing happens. -/
def runOp (c : CoreId) (e : Cls) (sp : OpSpec) (s : State) : Host.Outcome State Fault Refusal :=
  onUnit (c.has e) <|
    if (s.eng c e).live && headIs e sp.op (s.instrWord c (s.eng c e).pc) then s.tryIssue c e sp else s

/-! ## The common operations (R87 to R92) -/

/-- Operand bits outside a mask of used bits are nonzero (R59). -/
def strayBits (used : List (Nat × Nat)) (w : Nat) : Bool :=
  used.foldl (fun w f => setBits w f.1 f.2 0) (bits w 55 0) ≠ 0

/-- A common operation: MOD must be 0 (R87). -/
def common (op : Nat) (used : List (Nat × Nat)) (body : Ctx → State → Res) : OpSpec :=
  { op := op, bad := fun w => strayBits used w || I.mod w ≠ 0, modOk := fun m => m = 0, notBefore := fun _ => 0,
    body := body }

/-- HALT, BANK, JUMP and DJNZ may not issue inside a loop body (R89). -/
def State.inLoop (s : State) (x : Ctx) : Bool := !(s.eng x.c x.e).loops.isEmpty

def nopSpec : OpSpec := common 0x38 [] fun x s => .ok (Out.at s x.t)

def haltSpec : OpSpec := common 0x39 [] fun x s =>
  if s.inLoop x then .reject Code.rejFormat else .ok { Out.at s x.t with flow := .stop .halt }

def bankSpec : OpSpec := common 0x3A [] fun x s =>
  if s.inLoop x then .reject Code.rejFormat else .ok { Out.at s x.t with flow := .stop .bank }

def jumpSpec : OpSpec := common 0x3B [(9, 0)] fun x s =>
  if s.inLoop x then .reject Code.rejFormat
  else if 767 < bits x.w 9 0 then .reject Code.rejRange
  else .ok { Out.at s x.t with flow := .jump (bits x.w 9 0) }

def loopSpec : OpSpec := common 0x3C [(15, 0), (25, 16)] fun x s =>
  let n := bits x.w 15 0
  let len := bits x.w 25 16
  let loops := (s.eng x.c x.e).loops
  match firstCode [
    (len = 0 || 64 < len, Code.rejRange),
    (767 < x.pc + len, Code.rejRange),
    ((match loops with | l :: _ => decide (l.first + l.len < x.pc + 1 + len) | [] => false), Code.rejRange),
    (2 ≤ loops.length, Code.rejFormat)] with
  | some code => .reject code
  | none =>
    .ok { Out.at s x.t with
          flow := if n = 0 then .removed (x.pc + 1 + len) else .enter ⟨x.pc + 1, len, n⟩ }

/-- SKIP n: the condition is judged once against V0 and the engine never stalls (R88, R118). -/
def skipSpec : OpSpec :=
  { common 0x3D [(5, 0)] (fun x s =>
      let n := bits x.w 5 0
      if skipRange (s.eng x.c x.e) x.pc n then .reject Code.rejRange
      else
        match translate s (regionOf x.c) (s.fld (Reg.HTH_CTX x.c) F.HTH_CTX_CONTEXT) (I.wid x.w) true
            (waitKind (I.wcond x.w)) with
        | .error code => .reject code
        | .ok t =>
          let holds := waitHolds (I.wcond x.w) (I.wval x.w) (s.v0 (Reg.SYN_OBJ (regionOf x.c) t.obj))
          .ok { Out.at s x.t with flow := if holds && n ≠ 0 then .removed (x.pc + 1 + n) else .seq }) with
    bad := fun w => strayBits [(5, 0)] w || I.mod w ≠ 0 || I.wcond w = 0 || I.wcond w = 5 || I.wcond w = 6 }

/-- DADV d, f, delta rewrites BASE or SCALE_BASE of a descriptor in the hearth (R87, R92). -/
def dadvSpec (e : Cls) : OpSpec :=
  { common 0x3E [(7, 0), (8, 8), (55, 32)] (fun x s =>
      let h := bits x.w 7 0
      match handleCheck s x.c true h with
      | some code => .reject code
      | none =>
        let a := descAddr s x.c h
        let w0 := s.hnat x.c a 8
        let (hi, lo) := if bitAt x.w 8 then (63, 47) else (32, 16)
        let v : Int := (bits w0 hi lo : Int) + toSigned 24 (bits x.w 55 32)
        if v < 0 || 0x1FFFF < v then .reject Code.rejRange
        else .ok (Out.at (s.hwrite x.c a (leBytes 8 (setBits w0 hi lo v.toNat))) x.t)) with
    bad := fun w => strayBits [(7, 0), (8, 8), (55, 32)] w || I.mod w ≠ 0 || e = .tally || e = .move }

/-- NOP: nothing beyond its wait and signal (R87). -/
def execNop (c : CoreId) (e : Cls) (s : State) : Host.Outcome State Fault Refusal := runOp c e nopSpec s
/-- HALT: the engine enters HALTED once its earlier instructions are done (R87). -/
def execHalt (c : CoreId) (e : Cls) (s : State) : Host.Outcome State Fault Refusal := runOp c e haltSpec s
/-- BANK: the engine enters PARKED once its earlier instructions are done (R87). -/
def execBank (c : CoreId) (e : Cls) (s : State) : Host.Outcome State Fault Refusal := runOp c e bankSpec s
/-- JUMP: execution continues at a program counter (R87, R90). -/
def execJump (c : CoreId) (e : Cls) (s : State) : Host.Outcome State Fault Refusal := runOp c e jumpSpec s
/-- LOOP: the body runs n times (R87, R89). -/
def execLoop (c : CoreId) (e : Cls) (s : State) : Host.Outcome State Fault Refusal := runOp c e loopSpec s
/-- SKIP: the next n instructions are skipped if the condition holds (R87, R88). -/
def execSkip (c : CoreId) (e : Cls) (s : State) : Host.Outcome State Fault Refusal := runOp c e skipSpec s
/-- DADV: a signed delta is added to a descriptor's BASE or SCALE_BASE (R87, R92). -/
def execDadv (c : CoreId) (e : Cls) (s : State) : Host.Outcome State Fault Refusal := runOp c e (dadvSpec e) s

/-! ## Completion, timeouts and running past the end -/

/-- The INJECT register of a checked engine and the field that names a stage, if one does (R241, R265, R308). -/
def injectOf (c : CoreId) : Cls → Option Nat
  | .reduce => some (Reg.RED_INJECT c)
  | .tensor => some (Reg.TEN_INJECT c)
  | .shape => some (Reg.UNIT_INJECT c .shape)
  | .sort => some (Reg.UNIT_INJECT c .sort)
  | .scale => some (Reg.UNIT_INJECT c .scale)
  | _ => none

/-- The stage an armed injection names, as a bit of `Inflight.stages`; a Tensor injection names a cell, and its
stages are its cells. -/
def injectStage (e : Cls) (w : Word) : Nat :=
  match e with
  | .reduce => F.RED_INJECT_STAGE.get w
  | .tensor => F.TEN_INJECT_ROW.get w * 64 + F.TEN_INJECT_COL.get w
  | _ => F.UNIT_INJECT_UNIT.get w

/-- The unit within the engine that the log names (R610). -/
def injectUnit (e : Cls) (w : Word) : Nat :=
  match e with
  | .reduce => F.RED_INJECT_SLICE.get w
  | .tensor => F.TEN_INJECT_ROW.get w * 64 + F.TEN_INJECT_COL.get w
  | _ => F.UNIT_INJECT_UNIT.get w

/-- The event counter and flag of a mismatch, the counter of replays, and the counter and flag of a failure, by
engine (R238 to R240, R263, R264, R271). -/
def State.noteMismatch (s : State) (c : CoreId) : Cls → State
  | .reduce => (s.count (Reg.RED_RESIDUE_EVENTS c) F.RED_RESIDUE_EVENTS_COUNT 1).flag (Reg.RED_STATUS c)
      F.RED_STATUS_RESIDUE_SEEN
  | .tensor => (s.count (Reg.TEN_RESIDUE_EVENTS c) F.TEN_RESIDUE_EVENTS_COUNT 1).flag (Reg.TEN_STATUS c)
      F.TEN_STATUS_RESIDUE_SEEN
  | e => (s.count (Reg.UNIT_CHECK_EVENTS c e) F.UNIT_CHECK_EVENTS_COUNT 1).flag (Reg.UNIT_STATUS c e)
      F.UNIT_STATUS_CHECK_SEEN

/-- An instruction completed DONE_CORRECTED after replay. -/
def State.noteReplay (s : State) (c : CoreId) : Cls → State
  | .reduce => s.count (Reg.RED_REPLAYS c) F.RED_REPLAYS_COUNT 1
  | .tensor => s.count (Reg.TEN_REPLAYS c) F.TEN_REPLAYS_COUNT 1
  | e => s.count (Reg.UNIT_REPLAYS c e) F.UNIT_REPLAYS_COUNT 1

/-- An instruction completed FAIL_RESIDUE. -/
def State.noteCheckFail (s : State) (c : CoreId) : Cls → State
  | .reduce => (s.count (Reg.RED_RESIDUE_FAILS c) F.RED_RESIDUE_FAILS_COUNT 1).flag (Reg.RED_STATUS c)
      F.RED_STATUS_RESIDUE_FAIL_SEEN
  | .tensor => (s.count (Reg.TEN_RESIDUE_FAILS c) F.TEN_RESIDUE_FAILS_COUNT 1).flag (Reg.TEN_STATUS c)
      F.TEN_STATUS_RESIDUE_FAIL_SEEN
  | e => (s.count (Reg.UNIT_CHECK_FAILS c e) F.UNIT_CHECK_FAILS_COUNT 1).flag (Reg.UNIT_STATUS c e)
      F.UNIT_STATUS_CHECK_FAIL_SEEN

/-- State a failed check destroys: the lanes return to NONE, the tile the instruction names too (R240, R244). -/
def Core.afterCheckFail (x : Core) (e : Cls) (w : Nat) : Core :=
  match e with
  | .reduce => { x with lanes := x.lanes.cleared }
  | .tensor => { x with tiles := AMap.erase x.tiles (bits w 33 32) }
  | _ => x

/-- How long a replay delays its instruction: 4 cycles in the stream engines and the Reduce engine (R238), the
instruction's own time in the Tensor engine (R263). -/
def replayTime (e : Cls) (i : Inflight) : Nat :=
  match e with
  | .tensor => i.doneAt - i.issued
  | _ => 4

/-- A replay holds the Tensor engine's issue, and no ready cycle counts the held cycles (R263). -/
def Core.holdFor (x : Core) (e : Cls) (now k : Nat) : Core :=
  match e with
  | .tensor =>
    let g := x.eng e
    { x with tiles := x.tiles.map (fun t : Nat × Tile => (t.1, if now < t.2.ready then { t.2 with ready := t.2.ready + k } else t.2)),
             arrayFree := if now < x.arrayFree then x.arrayFree + k else x.arrayFree }.setEng e
      { g with issueAt := Nat.max g.issueAt (now + k),
               inflight := g.inflight.map fun j : Inflight => if now < j.doneAt then { j with doneAt := j.doneAt + k } else j }
  | _ => x

/-- A checked step of an issued instruction meets an armed injection: the flipped bit is detected, logged and
replayed, or fails the instruction the third time (R236 to R240, R263, R264, R271). -/
def State.meetInject (s : State) (c : CoreId) (e : Cls) (i : Inflight) : Option (Inflight × State) :=
  match injectOf c e with
  | none => none
  | some a =>
    let w := s.reg a
    if bitAt w.toNat 31 && bitAt i.stages (injectStage e w) then
      let s := s.setReg a (BitVec.ofNat 64 (setBits w.toNat 31 31 0))
      let s := ((s.noteMismatch c e).healthAdd 1 1).logEngine c e AClass.arith 0 (injectUnit e w) i.pc 0
      let k := replayTime e i
      if 3 ≤ i.mismatches + 1 then
        let s := s.noteCheckFail c e
        some ({ i with mismatches := 3, code := Code.failResidue, unit := injectUnit e w },
          s.setCore c ((s.core c).afterCheckFail e i.word))
      else
        some ({ i with mismatches := i.mismatches + 1, code := Nat.max i.code Code.corrected, doneAt := i.doneAt + k },
          (if i.busy = 0 then s else s.bump (Reg.TEN_ARRAY_BUSY c) F.TEN_ARRAY_BUSY_COUNT i.busy).setCore c
            ((s.core c).holdFor e s.now k))
    else none

/-- WAIT_TIMEOUT: a wait that has failed for more than WAIT_LIMIT cycles ends its instruction (R67). -/
def execWaitTimeout (c : CoreId) (e : Cls) (s : State) : Host.Outcome State Fault Refusal :=
  onUnit (c.has e) <|
    let g := s.eng c e
    let limit := s.fld (Reg.WAIT_LIMIT c e) F.WAIT_LIMIT_LIMIT
    let w := s.instrWord c g.pc
    match g.st, g.waitFrom with
    | .waiting, some from_ =>
      match translateHead s c w with
      | .ok ⟨some t, _⟩ =>
        let fails := !waitHolds (I.wcond w) (I.wval w) (s.reg (Reg.SYN_OBJ (regionOf c) t.obj))
        if limit ≠ 0 && fails then
          let s := s.at (from_ + limit)
          (s.endWait c e).engineFault c e w g.pc Code.failTimeout s.alm 0 0
        else s
      | _ => s
    | _, _ => s

/-- FETCH_PAST_END: an engine whose sequential fetch passed instruction 767 and whose queue is empty faults without
a record (R91). -/
def execFetchPastEnd (c : CoreId) (e : Cls) (s : State) : Host.Outcome State Fault Refusal :=
  onUnit (c.has e) <|
    let g := s.eng c e
    if (g.st = .running || g.st = .waiting) && g.ending = .none && 768 ≤ g.pc && g.inflight.isEmpty &&
        g.held.isNone then
      (((s.setEng c e { g with st := .faulted, lastFault := Code.rejRange, faultPc := 767, queued := 0,
                               fetchPc := none, loops := [] }).loosePc c e).logEngine c e AClass.engine Code.rejRange 0 767
        0).watchSwap c
    else s

/-- BANK_SWAP: two cycles after the swap condition first holds, ACTIVE changes and the engines whose ENTRY is valid
start in the new bank (R102). -/
def execBankSwap (c : CoreId) (s : State) : Host.Outcome State Fault Refusal :=
  onUnit c.ok <|
    match s.swapReady c, (s.core c).swapFrom with
    | true, some from_ =>
      let s := s.at (from_ + 2)
      let a := Reg.HTH_BANK_CTL c
      let s := s.setFld a F.HTH_BANK_CTL_ACTIVE (1 - s.fld a F.HTH_BANK_CTL_ACTIVE)
      let s := s.setFld a F.HTH_BANK_CTL_ARMED 0
      let s := s.bump a F.HTH_BANK_CTL_SWAPS 1
      let s := allCls.foldl (fun s e =>
        if !c.has e then s
        else if s.isOn (Reg.ENTRY c e) F.ENTRY_VALID then s.startEngine c e
        else
          let g := s.eng c e
          s.setEng c e { g with st := .halted, queued := 0, fetchPc := none, loops := [] }) s
      s.watchSwap c
    | _, _ => s

/-! ## Sequencer control writes (R106, R107) -/

/-- STOP: issued instructions complete, the queue is discarded and the engine halts (R51, R105). -/
def State.stopEngine (s : State) (c : CoreId) (e : Cls) : State :=
  let s := (s.endWait c e).catchUp c
  ((s.setEng c e { s.eng c e with st := .halted, queued := 0, fetchPc := none, waitFrom := none, loops := [],
                                  ending := .none }).loosePc c e).watchSwap c

/-- One action of a SEQ_CTL write: none if its condition fails (R106). -/
def seqAction (c : CoreId) (e : Cls) (a : Fld) (s : State) : Option State :=
  let g := s.eng c e
  if a = F.SEQ_CTL_CLEAR_FAULT then
    if g.st = .faulted then some (s.setEng c e { g with st := .halted, loops := [] }) else none
  else if a = F.SEQ_CTL_RETRY then
    if g.st = .faulted && Code.family g.lastFault = 1 then
      some ((s.catchUp c).setEng c e
        { g with st := .running, pc := g.faultPc, queued := 0, fetchPc := some g.faultPc, fetchLoops := g.loops,
                 issueAt := s.now + 4, waitFrom := none })
    else none
  else if g.st = .halted && s.isOn (Reg.ENTRY c e) F.ENTRY_VALID then some (s.startEngine c e)
  else none

/-- A write of SEQ_CTL: its completion code and the state after it (R106). -/
def seqCtlWrite (c : CoreId) (e : Cls) (w : Word) (s : State) : Nat × State :=
  let acts := [F.SEQ_CTL_CLEAR_FAULT, F.SEQ_CTL_RETRY, F.SEQ_CTL_START].filter (fun f => f.on w)
  if F.SEQ_CTL_STOP.on w then
    if acts.isEmpty then (Code.done, s.stopEngine c e) else (Code.rejFormat, s)
  else
    match acts.foldl (fun s f => s.bind (seqAction c e f)) (some s) with
    | some s' => (Code.done, s'.watchSwap c)
    | none => (Code.rejState, s)

end Sys2Proof.Machine
end

