-- ==== Sys2Proof/Machine/Reduce.lean ====
section
/-! DEFINITION. The Reduce engine: lanes, exact sums, comparisons, bitwise reductions, long images and their timing
(chapter 06). -/
namespace Sys2Proof.Machine

/-! ## Lane classes and accumulators (R210, R212, R213, R615) -/

/-- A lane class: slices per lane, lane width in bits, and −log2 of the weight of bit 0. -/
structure LaneClass where
  slices : Nat
  width : Nat
  frac : Nat
deriving DecidableEq, Repr

/-- The class that SUM or IADD gives a source format (R210). -/
def laneClass : Nat → Option LaneClass
  | 0x00 | 0x01 | 0x03 => some ⟨4, 320, 149⟩
  | 0x02 => some ⟨2, 160, 24⟩
  | 0x08 | 0x09 | 0x0A | 0x0B | 0x0C => some ⟨1, 80, 16⟩
  | 0x04 | 0x06 | 0x07 => some ⟨1, 80, 0⟩
  | 0x05 => some ⟨2, 160, 0⟩
  | _ => none

/-- A format a SUM may add (R223). -/
def sumFmt (f : Nat) : Bool := f ≤ 0x03 || (0x08 ≤ f && f ≤ 0x0C)

/-- A format an IADD may add (R223, R227). -/
def intFmt (f : Nat) : Bool := 0x04 ≤ f && f ≤ 0x07

/-- The bytes of a long image (R225). -/
def imageSize (k : LaneClass) : Nat := match k.slices with | 4 => 48 | 2 => 32 | _ => 24

/-- The empty accumulator (R223). -/
def Accum.empty : Accum :=
  { value := 0, terms := 0, nan := false, pinf := false, ninf := false, notNeg0 := false, notPos0 := false }

/-- The sum of two accumulators of a class: VALUE modulo 2^width, TERMS saturating, flags ORed, and NAN where
TERMS exceeds 2^42 (R212, R213). -/
def Accum.plus (k : LaneClass) (x y : Accum) : Accum :=
  let terms := satAdd 43 x.terms y.terms
  { value := (x.value + y.value) % 2 ^ k.width, terms := terms,
    nan := x.nan || y.nan || decide (2 ^ 42 < terms), pinf := x.pinf || y.pinf, ninf := x.ninf || y.ninf,
    notNeg0 := x.notNeg0 || y.notNeg0, notPos0 := x.notPos0 || y.notPos0 }

/-- The accumulator that one element code is as a term (R212, R615): an FP32x2 element that is no NaN counts two. -/
def termOf (k : LaneClass) (fmt code : Nat) : Accum :=
  let v := decodeElem fmt code
  let two := if fmt = 0x03 then 2 else 1
  match v with
  | .nan => { Accum.empty with terms := 1, nan := true, notNeg0 := true, notPos0 := true }
  | .inf neg => { Accum.empty with terms := two, pinf := !neg, ninf := neg, notNeg0 := true, notPos0 := true }
  | .fin neg num den =>
    let units : Int := (if neg then -1 else 1) * (num * 2 ^ k.frac / den : Nat)
    { Accum.empty with value := ofSigned k.width units, terms := two, notNeg0 := !(num = 0 && neg),
                       notPos0 := !(num = 0 && !neg) }

/-- A long image as the number its bytes spell (R225). -/
def Accum.image (k : LaneClass) (fmt : Nat) (x : Accum) : Nat :=
  let b (p : Bool) (i : Nat) : Nat := if p then 2 ^ i else 0
  let side := x.terms + b x.nan 48 + b x.pinf 49 + b x.ninf 50 + b x.notNeg0 51 + b x.notPos0 52 + fmt * 2 ^ 56
  x.value + side * 2 ^ (8 * (imageSize k - 8))

/-- The accumulator a long image holds; padding, reserved bits and the FMT field are ignored (R225). -/
def Accum.ofImage (k : LaneClass) (n : Nat) : Accum :=
  let side := n / 2 ^ (8 * (imageSize k - 8))
  { value := n % 2 ^ k.width, terms := bits side 42 0,
    nan := bitAt side 48 || decide (2 ^ 42 < bits side 42 0), pinf := bitAt side 49,
    ninf := bitAt side 50, notNeg0 := bitAt side 51, notPos0 := bitAt side 52 }

/-- A term of a source: an element code, or an image of a LONG source (R212). -/
def addTerm (k : LaneClass) (fmt : Nat) (long : Bool) (x : Accum) (t : Nat) : Accum :=
  x.plus k (if long then Accum.ofImage k t else termOf k fmt t)

/-- The exact value that a float result is rounded from (R215). -/
def Accum.exact (k : LaneClass) (x : Accum) (mode : Nat) : Val :=
  if x.nan || (x.pinf && x.ninf) then .nan
  else if x.pinf then .inf false
  else if x.ninf then .inf true
  else
    let v := toSigned k.width x.value
    if v ≠ 0 then .fin (decide (v < 0)) v.natAbs (2 ^ k.frac)
    else if x.terms = 0 then .fin false 0 1
    else if mode = 3 then .fin x.notPos0 0 1
    else .fin (!x.notNeg0) 0 1

/-- One element from a SUM lane, rounded once (R215, R217). -/
def Accum.rounded (k : LaneClass) (x : Accum) (fmt mode : Nat) (sat : Bool) : Rounded :=
  let r := roundTo fmt (x.exact k mode) mode sat
  if 2 ^ 42 < x.terms then { r with sat := true, flush := false } else r

/-- One element from an IADD lane (R216, R217). -/
def Accum.integer (k : LaneClass) (x : Accum) (fmt : Nat) : Rounded :=
  if x.nan then ⟨0, true, false⟩ else roundTo fmt (Val.ofInt (toSigned k.width x.value)) 0 false

/-! ## Comparison and bitwise rules (R229, R230, R232, R233) -/

/-- The order of R229 among values that are no NaN: −0 lies below +0. -/
def Val.below (x y : Val) : Bool :=
  match x, y with
  | .nan, _ | _, .nan => false
  | .inf a, .inf b => a && !b
  | .inf a, _ => a
  | _, .inf b => !b
  | .fin n p d, .fin m q e =>
    let c := Val.cmpFin (.fin n p d) (.fin m q e)
    c < 0 || (p = 0 && q = 0 && n && !m)

/-- An element code is a NaN. -/
def codeNan (fmt code : Nat) : Bool := (decodeElem fmt code).isNan

/-- A new code takes the place of the winner so far: a NaN always wins, equal ranks keep the earlier (R229, R230). -/
def beats (isMax : Bool) (fmt : Nat) (best : Option Nat) (new : Nat) : Bool :=
  match best with
  | none => true
  | some b =>
    if codeNan fmt b then false
    else if codeNan fmt new then true
    else if isMax then (decodeElem fmt b).below (decodeElem fmt new)
    else (decodeElem fmt new).below (decodeElem fmt b)

/-- The canonical NaN code of a format (R183, R229). -/
def nanCodeOf (fmt : Nat) : Nat :=
  match fmtOf fmt with
  | some (.float f) => f.nanCode
  | some .pair => fp32.nanCode
  | some .e8m0 => 0xFF
  | _ => 0

/-- What an empty MAX or MIN lane writes (R233). -/
def emptyCode (isMax : Bool) (fmt : Nat) : Nat :=
  match fmtOf fmt with
  | some (.float f) => if f.special = .ieee then f.infCode isMax else f.maxCode isMax
  | some .pair => fp32.infCode isMax
  | some (.int n) => if isMax then 2 ^ (n - 1) else 2 ^ (n - 1) - 1
  | _ => if isMax then 0x00 else 0xFE

/-- The code that a compare lane writes. -/
def winnerCode (isMax : Bool) (fmt : Nat) : Option Nat → Nat
  | none => emptyCode isMax fmt
  | some w => if codeNan fmt w then nanCodeOf fmt else w

namespace Kind
/-- The kinds of R223. -/
def sum : Nat := 0
def iadd : Nat := 1
def max : Nat := 2
def min : Nat := 3
def and : Nat := 4
def or : Nat := 5
def xor : Nat := 6
def none : Nat := 7
end Kind

/-- The bitwise operation of a KIND (R232). -/
def bitOp (kind x y : Nat) : Nat := if kind = 4 then x &&& y else if kind = 5 then x ||| y else x ^^^ y

/-- The empty lane of a KIND and format (R223). -/
def Lane.empty (kind fmt : Nat) : Lane :=
  { acc := Accum.empty,
    code := if kind = 4 then some (2 ^ fmtBits fmt - 1) else if kind = 5 || kind = 6 then some 0 else none }

/-- One term combined into a lane by the lane's rule (R212, R229, R232). -/
def Lane.take (l : Lane) (kind fmt : Nat) (long : Bool) (t : Nat) : Lane :=
  if kind ≤ 1 then
    match laneClass fmt with
    | some k => { l with acc := addTerm k fmt long l.acc t }
    | none => l
  else if kind ≤ 3 then if beats (kind = 2) fmt l.code t then { l with code := some t } else l
  else { l with code := some (bitOp kind (l.code.getD 0) t) }

/-- The element a lane writes in a destination format, with its counts (R215, R216, R230, R233). -/
def Lane.emit (l : Lane) (kind fmt dfmt mode : Nat) (sat : Bool) : Rounded :=
  if kind ≤ 1 then
    match laneClass fmt with
    | some k => if kind = 0 then l.acc.rounded k dfmt mode sat else l.acc.integer k dfmt
    | none => ⟨0, false, false⟩
  else if kind ≤ 3 then ⟨winnerCode (kind = 2) fmt l.code, false, false⟩
  else ⟨l.code.getD 0, false, false⟩

/-- Two lanes combined into one (R224). -/
def Lane.join (l m : Lane) (kind fmt : Nat) : Lane :=
  if kind ≤ 1 then
    match laneClass fmt with
    | some k => { l with acc := l.acc.plus k m.acc }
    | none => l
  else match m.code with
    | some t => l.take kind fmt false t
    | none => l

/-- The number of lanes of a KIND and format (R210). -/
def laneCount (kind fmt : Nat) : Nat :=
  if kind ≤ 1 then match laneClass fmt with | some k => 64 / k.slices | none => 0 else 64

/-- The lanes as CLR leaves them (R223). -/
def Lanes.fresh (kind fmt : Nat) : Lanes :=
  { kind := kind, fmt := fmt, lanes := List.replicate (laneCount kind fmt) (Lane.empty kind fmt) }

/-- The lanes of a core. -/
def State.lanes (s : State) (c : CoreId) : Lanes := (s.core c).lanes

/-- The lanes of a core set. -/
def State.setLanes (s : State) (c : CoreId) (l : Lanes) : State := s.setCore c { s.core c with lanes := l }

/-! ## Operand checks (R211, R218, R219, R220) -/

/-- LONG of a Reduce descriptor (R219). -/
def Desc.long (d : Desc) : Bool := d.param % 2 = 1

/-- Bits of an element of a Reduce operand: an image for a LONG descriptor. -/
def Desc.elemBits (d : Desc) : Nat :=
  if d.long then match laneClass d.fmt with | some k => 8 * imageSize k | none => 8 else fmtBits d.fmt

/-- Image bytes of a LONG descriptor, 0 otherwise. -/
def Desc.imgBytes (d : Desc) : Nat := if d.long then d.elemBits / 8 else 0

/-- Row bytes of a Reduce operand. -/
def Desc.redRow (d : Desc) : Nat := d.d0 * d.elemBits / 8

/-- The checks of one Reduce descriptor (R211, R219, R74). -/
def redDescCheck (d : Desc) (dest longOk longNeed : Bool) : Option Nat :=
  if 1 < d.param || (d.long && !longOk) || (!d.long && longNeed) || d.blk ≠ 0 || (d.long && (laneClass d.fmt).isNone)
  then some Code.rejFormat
  else descCheck d dest d.imgBytes

/-- The checks of a list of operands in order. -/
def redChecks : List (Option Desc × Bool × Bool × Bool) → Option Nat
  | [] => none
  | (none, _) :: rest => redChecks rest
  | (some d, dest, longOk, longNeed) :: rest =>
    match redDescCheck d dest longOk longNeed with
    | some code => some code
    | none => redChecks rest

/-- The byte ranges of a Reduce operand. -/
def Desc.redRanges (d : Desc) : List (Nat × Nat) := d.ranges d.redRow

/-- Two Reduce operands share a byte. -/
def redMeet (x y : Desc) : Bool := rangesMeet x.redRanges y.redRanges

/-- The shapes of a streamed operation agree (R220, R231); `apart` says that B is a value destination. -/
def streamShapes (d a : Desc) (b : Option Desc) (apart : Bool) : Bool :=
  d.rank = a.rank && d.d1 = 1 && d.d0 = a.d0 && d.d2 = a.d2 && d.d3 = a.d3 && !redMeet d a &&
  match b with
  | none => true
  | some b =>
    b.rank = d.rank && b.d0 = d.d0 && b.d1 = d.d1 && b.d2 = d.d2 && b.d3 = d.d3 &&
    if apart then !redMeet b d && !redMeet b a
    else (samePlace d b && d.redRow = b.redRow) || !redMeet d b

/-! ## Timing (R234, R235) -/

/-- Cycles of one row segment run: 64 B per cycle, and one more where a piece crosses a 64-byte boundary. -/
def segCycles (addr len : Nat) : Nat :=
  let whole := len / 64
  let rest := len % 64
  whole * (if addr % 64 = 0 then 1 else 2) + (if rest = 0 then 0 else if 64 < addr % 64 + rest then 2 else 1)

/-- Cycles of the intake of elements [i0, i0 + g) of row `r`. -/
def Desc.pieceCycles (d : Desc) (r i0 g : Nat) : Nat :=
  segCycles (d.rowAddr r + i0 * d.elemBits / 8) (ceilDiv (g * d.elemBits) 8)

/-- Intake cycles of a held operation. -/
def heldCycles (a : Desc) : Nat :=
  if a.empty then 0 else sumNat ((List.range a.rows).map fun r => a.pieceCycles r 0 a.d0)

/-- Cycles of a streamed operation's groups: max(K × r, w) each (R235). -/
def streamCycles (d a : Desc) (b : Option Desc) (lanes : Nat) : Nat :=
  if d.empty || lanes = 0 then 0
  else
    sumNat <| (List.range (a.d2 * a.d3)).map fun o =>
      sumNat <| (List.range (ceilDiv a.d0 lanes)).map fun q =>
        let g := Nat.min lanes (a.d0 - q * lanes)
        let intake := sumNat ((List.range a.d1).map fun i1 => a.pieceCycles (i1 + a.d1 * o) (q * lanes) g)
        let bytes := ceilDiv (g * d.elemBits) 8 + (match b with | some b => ceilDiv (g * b.elemBits) 8 | none => 0)
        Nat.max intake (ceilDiv bytes 64)

/-! ## The operations (R218 to R233) -/

/-- An operation of the Reduce engine whose operands are checked by its effect. -/
def reduce (op : Nat) (bad : Nat → Bool) (modOk : Nat → Bool) (body : Ctx → State → Res) : OpSpec :=
  { op := op, bad := bad, modOk := modOk, notBefore := fun _ => 0, body := body }

/-- CLR (R223). -/
def clrSpec : OpSpec :=
  reduce 0x00 (fun w => 255 < I.imm w) (fun m => m = 0) fun x s =>
    match handlesCheck s x.c (handleNeeds x.w .unused .unused .unused .unused) with
    | some code => .reject code
    | none =>
      let kind := I.imm x.w % 8
      let fmt := I.imm x.w / 8
      let ok := if kind = 0 then sumFmt fmt else if kind = 2 || kind = 3 then decide (fmt ≤ 0x0D)
                else kind ≠ 7 && intFmt fmt
      if ok then .ok (Out.at (s.setLanes x.c (Lanes.fresh kind fmt)) x.t) else .reject Code.rejFormat

/-- The lane that a streamed output position gathers: its contributions in rank order, and the image of B (R220). -/
def gather1 (kind fmt : Nat) (long : Bool) (terms : List Nat) (image : Option Nat) : Lane :=
  let l := terms.foldl (fun l t => l.take kind fmt long t) (Lane.empty kind fmt)
  match image with
  | some t => l.take kind fmt true t
  | none => l

/-- The lanes of every output of a streamed operation, by output row and index. -/
def streamLanes (kind : Nat) (a : Desc) (src : List (List Nat)) (images : Option (List (List Nat))) :
    List (List Lane) :=
  (List.range (a.d2 * a.d3)).map fun o =>
    let rows := (src.drop (a.d1 * o)).take a.d1
    (List.range a.d0).map fun i =>
      gather1 kind a.fmt a.long (rows.map fun r => r.getD i 0) (images.map fun m => (m.getD o []).getD i 0)

/-- The rows of a source gathered into held lanes (R222). -/
def heldLanes (l : Lanes) (a : Desc) (src : List (List Nat)) : Lanes :=
  { l with lanes := l.lanes.zipIdx.map fun (lane, j) =>
      if j < a.d0 then src.foldl (fun lane row => lane.take l.kind l.fmt a.long (row.getD j 0)) lane else lane }

/-- A held operation of a KIND (R222, R233). -/
def heldOp (x : Ctx) (s : State) (kind : Nat) (a : Desc) (stages : Nat) : Res :=
  let l := s.lanes x.c
  if l.kind ≠ kind || l.fmt ≠ a.fmt then .reject Code.rejFormat
  else if l.lanes.length < a.d0 then .reject Code.rejRange
  else
    withReads x.c x.t a.redRanges [] s fun s =>
      .ok { Out.at (s.setLanes x.c (heldLanes l a (rowsAs s x.c a a.elemBits))) (x.t + heldCycles a + 10) with
            stages := if a.empty then 0 else stages }

/-- Counted results written as rows of a destination. -/
def storeRounded (s : State) (c : CoreId) (d : Desc) (rows : List (List Rounded)) : State :=
  writeRowsAs s c d (fmtBits d.fmt) (rows.map fun r => r.map Rounded.code)

/-- SUM and IADD (R212 to R222, R226, R227, R233). -/
def sumOp (kind : Nat) (x : Ctx) (s : State) : Res :=
  match handlesCheck s x.c (handleNeeds x.w .optional .required .optional .unused) with
  | some code => .reject code
  | none =>
    let d := operand s x.c (I.d x.w)
    let a := readDesc s x.c (I.a x.w)
    let b := operand s x.c (I.b x.w)
    let okFmt := if kind = 0 then sumFmt else intFmt
    match redChecks [(d, true, true, false), (some a, false, true, false), (b, false, true, true)] with
    | some code => .reject code
    | none =>
      if !okFmt a.fmt || (d.any fun d => if d.long then d.fmt != a.fmt else !okFmt d.fmt) ||
          (b.any fun b => b.fmt != a.fmt) then .reject Code.rejFormat
      else
        match d with
        | none =>
          if b.isSome then .reject Code.rejFormat else heldOp x s kind a (if kind = 0 then 3 else 1)
        | some d =>
          if !streamShapes d a b false then .reject Code.rejFormat
          else
            let dst := d.redRanges
            withReads x.c x.t (a.redRanges ++ (b.map Desc.redRanges).getD []) dst s fun s =>
              let src := rowsAs s x.c a a.elemBits
              let images := b.map fun b => rowsAs s x.c b b.elemBits
              let lanes := streamLanes kind a src images
              let s := s.setLanes x.c (s.lanes x.c).cleared
              if d.empty then .ok (Out.at s x.t)
              else
                let t := x.t + streamCycles d a b (laneCount kind a.fmt) + 10
                let adds := if a.d1 = 0 && b.isNone then 0 else if kind = 0 then 3 else 1
                match d.long, laneClass a.fmt with
                | true, some k =>
                  .ok { Out.at (writeRowsAs s x.c d d.elemBits
                          (lanes.map fun r => r.map fun l => l.acc.image k a.fmt)) t with
                        stages := adds, dst := dst }
                | _, _ =>
                  let m := I.mod x.w
                  let out := lanes.map fun r => r.map fun l => l.emit kind a.fmt d.fmt (m % 4) (bitAt m 2)
                  .ok { Out.at (storeRounded s x.c d out) t with
                        sat := sumNat (out.map countSat), flush := sumNat (out.map countFlush),
                        stages := if kind = 0 then adds + 4 else adds, dst := dst }

def sumSpec : OpSpec := reduce 0x01 (fun w => I.imm w ≠ 0) (fun m => m < 8) (sumOp Kind.sum)
def iaddSpec : OpSpec := reduce 0x02 (fun w => I.imm w ≠ 0) (fun m => m = 0) (sumOp Kind.iadd)

/-- MAX, MIN, AND, OR and XOR (R220 to R222, R228 to R233). -/
def compareOp (kind : Nat) (x : Ctx) (s : State) : Res :=
  match handlesCheck s x.c (handleNeeds x.w .optional .required .unused .unused) with
  | some code => .reject code
  | none =>
    let d := operand s x.c (I.d x.w)
    let a := readDesc s x.c (I.a x.w)
    match redChecks [(d, true, false, false), (some a, false, false, false)] with
    | some code => .reject code
    | none =>
      if (4 ≤ kind && !intFmt a.fmt) || (d.any fun d => d.fmt != a.fmt) then .reject Code.rejFormat
      else
        match d with
        | none => heldOp x s kind a 0
        | some d =>
          if !streamShapes d a none false then .reject Code.rejFormat
          else
            withReads x.c x.t a.redRanges d.redRanges s fun s =>
              let lanes := streamLanes kind a (rowsAs s x.c a a.elemBits) none
              let s := s.setLanes x.c (s.lanes x.c).cleared
              if d.empty then .ok (Out.at s x.t)
              else
                .ok { Out.at (storeRounded s x.c d (lanes.map fun r => r.map fun l => l.emit kind a.fmt d.fmt 0 false))
                        (x.t + streamCycles d a none 64 + 10) with
                      dst := d.redRanges }

def maxSpec : OpSpec := reduce 0x03 (fun w => I.imm w ≠ 0) (fun m => m = 0) (compareOp Kind.max)
def minSpec : OpSpec := reduce 0x04 (fun w => I.imm w ≠ 0) (fun m => m = 0) (compareOp Kind.min)
def andSpec : OpSpec := reduce 0x07 (fun w => I.imm w ≠ 0) (fun m => m = 0) (compareOp Kind.and)
def orSpec : OpSpec := reduce 0x08 (fun w => I.imm w ≠ 0) (fun m => m = 0) (compareOp Kind.or)
def xorSpec : OpSpec := reduce 0x09 (fun w => I.imm w ≠ 0) (fun m => m = 0) (compareOp Kind.xor)

/-- The winner of a list of codes and its position, from position `i` on (R230). -/
def argWin (isMax : Bool) (fmt : Nat) : List Nat → Nat → Option (Nat × Nat) → Option (Nat × Nat)
  | [], _, best => best
  | t :: ts, i, best =>
    argWin isMax fmt ts (i + 1) (if beats isMax fmt (best.map Prod.fst) t then some (t, i) else best)

/-- ARGMAX and ARGMIN (R230, R231, R233). -/
def argOp (isMax : Bool) (x : Ctx) (s : State) : Res :=
  match handlesCheck s x.c (handleNeeds x.w .required .required .optional .unused) with
  | some code => .reject code
  | none =>
    let d := readDesc s x.c (I.d x.w)
    let a := readDesc s x.c (I.a x.w)
    let b := operand s x.c (I.b x.w)
    match redChecks [(some d, true, false, false), (some a, false, false, false), (b, true, false, false)] with
    | some code => .reject code
    | none =>
      if d.fmt ≠ 0x04 || (b.any fun b => b.fmt != a.fmt) || !streamShapes d a b true then .reject Code.rejFormat
      else
        let dst := d.redRanges ++ (b.map Desc.redRanges).getD []
        withReads x.c x.t a.redRanges dst s fun s =>
          let src := rowsAs s x.c a a.elemBits
          let wins := (List.range (a.d2 * a.d3)).map fun o =>
            let rows := (src.drop (a.d1 * o)).take a.d1
            (List.range a.d0).map fun i => argWin isMax a.fmt (rows.map fun r => r.getD i 0) 0 none
          let s := s.setLanes x.c (s.lanes x.c).cleared
          if d.empty then .ok (Out.at s x.t)
          else
            let index (w : Option (Nat × Nat)) : Nat :=
              match w with | some (_, i) => (I.imm x.w + i) % 2 ^ 32 | none => 0xFFFFFFFF
            let s := writeRowsAs s x.c d 32 (wins.map fun r => r.map index)
            let s := match b with
              | some b => writeRowsAs s x.c b (fmtBits b.fmt)
                  (wins.map fun r => r.map fun w => winnerCode isMax a.fmt (w.map Prod.fst))
              | none => s
            .ok { Out.at s (x.t + streamCycles d a b 64 + 10) with dst := dst }

def argmaxSpec : OpSpec := reduce 0x05 (fun _ => false) (fun m => m = 0) (argOp true)
def argminSpec : OpSpec := reduce 0x06 (fun _ => false) (fun m => m = 0) (argOp false)

/-- All lanes combined into one (R224). -/
def Lanes.fold (l : Lanes) : Lane := l.lanes.foldl (fun x y => x.join y l.kind l.fmt) (Lane.empty l.kind l.fmt)

/-- OUT (R215, R216, R224, R233, R235). -/
def outSpec : OpSpec :=
  reduce 0x0A (fun w => 1 < I.imm w) (fun m => m < 8) fun x s =>
    match handlesCheck s x.c (handleNeeds x.w .required .unused .unused .unused) with
    | some code => .reject code
    | none =>
      let d := readDesc s x.c (I.d x.w)
      let l := s.lanes x.c
      let fold := I.imm x.w = 1
      match redChecks [(some d, true, false, false)] with
      | some code => .reject code
      | none =>
        let okFmt := if l.kind = 0 then sumFmt d.fmt else if l.kind = 1 then intFmt d.fmt else d.fmt = l.fmt
        if l.kind = 7 || (l.kind ≠ 0 && I.mod x.w ≠ 0) || !okFmt || d.rank ≠ 1 || (fold && d.d0 ≠ 1) then
          .reject Code.rejFormat
        else if l.lanes.length < d.d0 then .reject Code.rejRange
        else if d.empty then .ok (Out.at s x.t)
        else
          let m := I.mod x.w
          let lanes := if fold then [l.fold] else l.lanes.take d.d0
          let out := lanes.map fun e => e.emit l.kind l.fmt d.fmt (m % 4) (bitAt m 2)
          .ok { Out.at (storeRounded s x.c d [out]) (x.t + 10 + ceilDiv d.rowBytes 64 + (if fold then 6 else 0)) with
                sat := countSat out, flush := countFlush out, dst := d.redRanges,
                stages := (if fold && l.kind ≤ 1 then 1 else 0) + (if l.kind = 0 then 4 else 0) }

/-- The rules SPILL and FILL share: a LONG operand of the lanes' FMT and rank 1 (R224). -/
def imageOp (x : Ctx) (s : State) (d : Desc) (dest : Bool) (k : LaneClass → Res) : Res :=
  let l := s.lanes x.c
  match redChecks [(some d, dest, true, true)] with
  | some code => .reject code
  | none =>
    if 1 < l.kind || d.fmt ≠ l.fmt || d.rank ≠ 1 then .reject Code.rejFormat
    else if l.lanes.length < d.d0 then .reject Code.rejRange
    else if d.empty then .ok (Out.at s x.t)
    else match laneClass l.fmt with
      | some c => k c
      | none => .reject Code.rejFormat

/-- SPILL (R224, R225, R235). -/
def spillSpec : OpSpec :=
  reduce 0x0B (fun w => I.imm w ≠ 0) (fun m => m = 0) fun x s =>
    match handlesCheck s x.c (handleNeeds x.w .required .unused .unused .unused) with
    | some code => .reject code
    | none =>
      let d := readDesc s x.c (I.d x.w)
      let l := s.lanes x.c
      imageOp x s d true fun k =>
        .ok { Out.at (writeRowsAs s x.c d d.elemBits [(l.lanes.take d.d0).map fun e => e.acc.image k l.fmt])
                (x.t + ceilDiv d.redRow 64) with dst := d.redRanges }

/-- FILL (R224, R225, R235). -/
def fillSpec : OpSpec :=
  reduce 0x0C (fun w => I.imm w ≠ 0) (fun m => m = 0) fun x s =>
    match handlesCheck s x.c (handleNeeds x.w .unused .required .unused .unused) with
    | some code => .reject code
    | none =>
      let a := readDesc s x.c (I.a x.w)
      let l := s.lanes x.c
      imageOp x s a false fun k =>
        withReads x.c x.t a.redRanges [] s fun s =>
          let images := (rowsAs s x.c a a.elemBits).getD 0 []
          let lanes := l.lanes.zipIdx.map fun (e, j) =>
            if j < a.d0 then { e with acc := Accum.ofImage k (images.getD j 0) } else e
          .ok (Out.at (s.setLanes x.c { l with lanes := lanes }) (x.t + ceilDiv a.redRow 64))

/-- CLR: every lane is set to the empty state of a KIND and FMT (R223). -/
def execClr (c : CoreId) (s : State) : Host.Outcome State Fault Refusal := runOp c .reduce clrSpec s
/-- SUM: an exact sum of floating-point terms (R226). -/
def execSum (c : CoreId) (s : State) : Host.Outcome State Fault Refusal := runOp c .reduce sumSpec s
/-- IADD: an exact sum of integers (R227). -/
def execIadd (c : CoreId) (s : State) : Host.Outcome State Fault Refusal := runOp c .reduce iaddSpec s
/-- MAX (R228). -/
def execMax (c : CoreId) (s : State) : Host.Outcome State Fault Refusal := runOp c .reduce maxSpec s
/-- MIN (R228). -/
def execMin (c : CoreId) (s : State) : Host.Outcome State Fault Refusal := runOp c .reduce minSpec s
/-- ARGMAX (R231). -/
def execArgmax (c : CoreId) (s : State) : Host.Outcome State Fault Refusal := runOp c .reduce argmaxSpec s
/-- ARGMIN (R231). -/
def execArgmin (c : CoreId) (s : State) : Host.Outcome State Fault Refusal := runOp c .reduce argminSpec s
/-- AND (R232). -/
def execAnd (c : CoreId) (s : State) : Host.Outcome State Fault Refusal := runOp c .reduce andSpec s
/-- OR (R232). -/
def execOr (c : CoreId) (s : State) : Host.Outcome State Fault Refusal := runOp c .reduce orSpec s
/-- XOR (R232). -/
def execXor (c : CoreId) (s : State) : Host.Outcome State Fault Refusal := runOp c .reduce xorSpec s
/-- OUT: the lanes' results are written, and the lanes stay (R224). -/
def execOut (c : CoreId) (s : State) : Host.Outcome State Fault Refusal := runOp c .reduce outSpec s
/-- SPILL: the lanes are written as long images (R224). -/
def execSpill (c : CoreId) (s : State) : Host.Outcome State Fault Refusal := runOp c .reduce spillSpec s
/-- FILL: long images replace the lanes (R224). -/
def execFill (c : CoreId) (s : State) : Host.Outcome State Fault Refusal := runOp c .reduce fillSpec s

end Sys2Proof.Machine
end

