-- ==== Sys2Proof/Machine/Stacks.lean ====
section
/-! DEFINITION. Fabric memory, its hash, operation windows and errors, die caches and scratchpads, and stack links
(chapter 09). -/
namespace Sys2Proof.Machine

/-! ## The hash (R324) -/

/-- The 11-bit fold of a row. -/
def rowFold (r : Nat) : Nat := (r % 2048) ^^^ (r / 2048)

/-- The channel, from 0 to 2,047, that a granule lies in. -/
def channelOf (g : Nat) : Nat := (g % 2048) ^^^ rowFold (g / 2048)

/-- The stack of a granule. -/
def stackOf (g : Nat) : Nat := channelOf g % 64

/-- The channel of a granule within its stack. -/
def stackChannel (g : Nat) : Nat := channelOf g / 64

/-- The granule at a channel and row: the inverse of the hash. -/
def granuleAt (c r : Nat) : Nat := r * 2048 + (c ^^^ rowFold r)

/-! ## Operation windows (R327 to R331) -/

/-- An operation window that governs a granule. -/
structure Window where
  base : Nat
  op : Nat
  fmt : Nat
  readclr : Bool
deriving DecidableEq, Repr

/-- The enabled window of a stack that covers a granule. -/
def windowOf (s : State) (stack g : Nat) : Option Window :=
  (List.range 16).findSome? fun w =>
    let ctl := s.reg (Reg.MEM_AWIN_CTL stack w)
    let base := s.fld (Reg.MEM_AWIN_BASE stack w) F.MEM_AWIN_BASE_BASE / 512
    if F.MEM_AWIN_CTL_ENABLE.on ctl && base ≤ g && g < base + F.MEM_AWIN_CTL_SIZE.get ctl then
      some ⟨base, F.MEM_AWIN_CTL_OP.get ctl, F.MEM_AWIN_CTL_FMT.get ctl, F.MEM_AWIN_CTL_READCLR.on ctl⟩
    else none

/-- The element format of a window's FMT code, as a code of R73. -/
def Window.elemFmt (w : Window) : Nat :=
  match w.fmt with
  | 0 => 0x00
  | 1 => 0x01
  | 2 => 0x04
  | _ => 0x05

/-- Element bytes of a window. -/
def Window.elemBytes (w : Window) : Nat := fmtBits w.elemFmt / 8

/-- One element applied by ADD, MAX or MIN (R328). -/
def Window.apply1 (w : Window) (stored written : Nat) : Nat :=
  let f := w.elemFmt
  if w.op = 0 then
    if intFmt f then (stored + written) % 2 ^ fmtBits f
    else (roundTo f ((decodeElem f stored).add (decodeElem f written)) 0 false).code
  else winnerCode (w.op = 1) f (if beats (w.op = 1) f (some stored) written then some written else some stored)

/-- The lane class of EXACT cells (R329). -/
def cellClass : LaneClass := ⟨4, 320, 149⟩

/-- One EXACT cell with an image added, or set to the empty lane. -/
def cellAdd (stored written : List Byte) : List Byte :=
  let x := (Accum.ofImage cellClass (leNat stored)).plus cellClass (Accum.ofImage cellClass (leNat written))
  leBytes 48 (x.image cellClass 0)

/-- A byte string cut into pieces of `n` bytes, as many as fit. -/
def pieces (n : Nat) (bs : List Byte) : List (List Byte) :=
  if n = 0 then [] else (List.range (bs.length / n)).map fun i => (bs.drop (i * n)).take n

/-- The bytes that a window leaves where `written` meets `stored` (R328, R329). -/
def Window.applyAll (w : Window) (stored written : List Byte) : List Byte :=
  if w.op = 3 then
    ((pieces 48 (stored.take 480)).zipWith cellAdd (pieces 48 (written.take 480))).flatten ++ stored.drop 480
  else
    let n := w.elemBytes
    ((pieces n stored).zipWith (fun x y => leBytes n (w.apply1 (leNat x) (leNat y))) (pieces n written)).flatten

/-- A part of a granule covers whole elements of its window, or the whole granule of an EXACT window (R330). -/
def Window.whole (w : Window) (off len : Nat) : Bool :=
  if w.op = 3 then off = 0 && len = 512 else off % w.elemBytes = 0 && len % w.elemBytes = 0

/-- The granule bytes that a READCLR read of bytes [off, off + len) leaves (R331, R332): elements of the 64-byte units
read, and cells returned whole, become empty. -/
def Window.cleared (w : Window) (stored : List Byte) (off len : Nat) : List Byte :=
  let lo := off / 64 * 64
  let hi := ceilDiv (off + len) 64 * 64
  stored.zipIdx.map fun (b, i) =>
    let inside :=
      if w.op = 3 then decide (i < 480) && decide (lo ≤ i / 48 * 48) && decide (i / 48 * 48 + 48 ≤ hi)
      else decide (lo ≤ i) && decide (i < hi)
    if inside then 0 else b

/-! ## Requests at a stack (R326, R330, R336, R339) -/

/-- A stack's link has failed: its requests fail (R339). -/
def stackFailed (s : State) (k : Nat) : Bool := s.fld (Reg.MEM_STACK_STATUS k) F.MEM_STACK_STATUS_STATE = 2

/-- A stack's link is training: its requests wait (R338). -/
def stackWaits (s : State) (k : Nat) : Bool := s.fld (Reg.MEM_STACK_STATUS k) F.MEM_STACK_STATUS_STATE = 0

/-- A MEMORY detection at a stack's channel, with what its rule names. -/
def State.logStack (s : State) (code k unit : Nat) (details : List Nat) : State :=
  s.logAt AClass.memory code (0x80 + k) 0 unit details

/-- `n` slots of a granule's channel are used (R326). -/
def State.slots (s : State) (g n : Nat) (wr : Bool) : State :=
  let k := stackOf g
  let s := s.bump (Reg.MEM_CH_SLOTS k (stackChannel g)) F.MEM_CH_SLOTS_COUNT n
  if wr then s.lifeAdd (lifeStack k 2) n else s

/-- The 64-byte words of a granule's bytes [off, off + len) are read under their code: done, corrected or failed
(R336). -/
def State.checkGranule (s : State) (g off len : Nat) : Nat × State :=
  let k := stackOf g
  let lo := g * 8 + off / 64
  let n := if len = 0 then 0 else (off + len - 1) / 64 + 1 - off / 64
  match s.findMark .fabric lo 2 n with
  | some _ =>
    (Code.failMemory,
     (((s.count (Reg.MEM_CH_ECC k (stackChannel g)) F.MEM_CH_ECC_UNCORR 1).lifeAdd (lifeStack k 1) 1).logStack
       Code.failMemory k (stackChannel g) []))
  | none =>
    let weak := s.marks.filter fun p => p.2 = 1 && markKey .fabric lo ≤ p.1 && p.1 < markKey .fabric (lo + n)
    if weak.isEmpty then (Code.done, s)
    else
      let s := { s with marks := s.marks.filter fun p => !(weak.contains p) }
      (Code.corrected,
       (((s.count (Reg.MEM_CH_ECC k (stackChannel g)) F.MEM_CH_ECC_CORR weak.length).lifeAdd (lifeStack k 0)
         weak.length).healthAdd 0 weak.length))

/-- A read of bytes [off, off + len) of a granule at its stack (R331, R336, R339). -/
def State.readGranule (s : State) (g off len : Nat) : (Nat × List Byte) × State :=
  let k := stackOf g
  if stackFailed s k then ((Code.failMemory, []), s)
  else
    let (code, s) := (s.slots g 1 false).checkGranule g off len
    if code = Code.failMemory then ((code, []), s)
    else
      let data := s.fread (g * 512 + off) len
      match windowOf s k g with
      | some w =>
        if w.readclr then ((code, data), s.fwrite (g * 512) (w.cleared (s.fread (g * 512) 512) off len))
        else ((code, data), s)
      | none => ((code, data), s)

/-- A write of bytes from `off` on to a granule at its stack (R328 to R330, R336, R339). -/
def State.writeGranule (s : State) (g off : Nat) (bs : List Byte) : Nat × State :=
  let k := stackOf g
  if stackFailed s k then (Code.failMemory, s)
  else
    match windowOf s k g with
    | none => (Code.done, (s.slots g 1 true).fwrite (g * 512 + off) bs)
    | some w =>
      if !w.whole off bs.length then
        let s := (s.flag (Reg.MEM_ATOMIC_STATUS k) F.MEM_ATOMIC_STATUS_PARTIAL_SEEN).count (Reg.MEM_PARTIAL k)
          F.MEM_PARTIAL_COUNT 1
        (Code.failMemory, s.logStack Code.failMemory k 0xFF [g * 512])
      else
        let (code, s) := (s.slots g 2 true).checkGranule g off bs.length
        if code = Code.failMemory then (code, s)
        else (code, s.fwrite (g * 512 + off) (w.applyAll (s.fread (g * 512 + off) bs.length) bs))

/-- The code of a request of two parts: a failure, else a correction, else DONE. -/
def joinCode (a b : Nat) : Nat := if Code.family a = 3 then a else if Code.family b = 3 then b else Nat.max a b

/-- Granule parts [addr, addr + len) is cut into: granule, offset and length. -/
def granuleParts (addr len : Nat) : List (Nat × Nat × Nat) :=
  if len = 0 then []
  else
    let g0 := addr / 512
    (List.range ((addr + len - 1) / 512 + 1 - g0)).map fun i =>
      let g := g0 + i
      let lo := Nat.max addr (g * 512)
      (g, lo - g * 512, Nat.min (addr + len) (g * 512 + 512) - lo)

/-- A read of fabric memory, granule by granule. -/
def State.fabRead (s : State) (addr len : Nat) : (Nat × List Byte) × State :=
  (granuleParts addr len).foldl (fun (r, s) (g, off, n) =>
    let (q, s) := s.readGranule g off n
    ((joinCode r.1 q.1, r.2 ++ q.2), s)) ((Code.done, []), s)

/-- A write of fabric memory, granule by granule (R330). -/
def State.fabWrite (s : State) (addr : Nat) (bs : List Byte) : Nat × State :=
  (granuleParts addr bs.length).foldl (fun (code, s) (g, off, n) =>
    let (q, s) := s.writeGranule g off ((bs.drop (g * 512 + off - addr)).take n)
    (joinCode code q, s)) (Code.done, s)

/-- A stack that a range touches is training. -/
def fabWaits (s : State) (addr len : Nat) : Bool :=
  (granuleParts addr len).any fun (g, _, _) => stackWaits s (stackOf g)

/-! ## Die caches (R319 to R322) -/

/-- The key of a die's copy of a granule. -/
def cacheKey (die g : Nat) : Nat := die * 2 ^ 32 + g

/-- An enabled cache window of the die covers a granule, and the die has a cache (R319). -/
def cachedBy (s : State) (die g : Nat) : Bool :=
  s.fld (Reg.MEM_DS_PART die) F.MEM_DS_PART_SCRATCH < 8 &&
  (List.range 8).any fun w =>
    let ctl := s.reg (Reg.MEM_CWIN_CTL die w)
    let base := s.fld (Reg.MEM_CWIN_BASE die w) F.MEM_CWIN_BASE_BASE / 512
    F.MEM_CWIN_CTL_ENABLE.on ctl && base ≤ g && g < base + F.MEM_CWIN_CTL_SIZE.get ctl

/-- A copy and memory by 64-byte parts: where they differ, a free bit says which one a read returns (R321). -/
def mixParts (pick : Word) (copy mem : List Byte) : List Byte :=
  ((List.range 8).map fun i => slice (if bitAt pick.toNat i then copy else mem) (i * 64) 64).flatten

/-- A read issued from a die of one granule's bytes (R319, R321): a copy may have been replaced since it was fetched,
which a free bit decides. -/
def State.cacheRead (s : State) (die g off len : Nat) : (Nat × List Byte) × State :=
  if !cachedBy s die g then s.readGranule g off len
  else
    let copy := AMap.get s.cache [] (cacheKey die g)
    let (pick, s) := s.freeWord
    if !copy.isEmpty && bitAt pick.toNat 8 then
      let s := s.bump (Reg.MEM_DS_HITS die) F.MEM_DS_HITS_COUNT 1
      ((Code.done, slice (mixParts pick copy (s.fread (g * 512) 512)) off len), s)
    else
      let (r, s) := s.readGranule g 0 512
      let s := s.bump (Reg.MEM_DS_MISSES die) F.MEM_DS_MISSES_COUNT 1
      if r.1 = Code.failMemory then (r, { s with cache := AMap.erase s.cache (cacheKey die g) })
      else ((r.1, slice r.2 off len), { s with cache := AMap.set s.cache [] (cacheKey die g) r.2 })

/-- A read of fabric memory issued from a die. -/
def State.dieRead (s : State) (die addr len : Nat) : (Nat × List Byte) × State :=
  (granuleParts addr len).foldl (fun (r, s) (g, off, n) =>
    let (q, s) := s.cacheRead die g off n
    ((joinCode r.1 q.1, r.2 ++ q.2), s)) ((Code.done, []), s)

/-- A plain write through a die updates the die's copies (R320). -/
def State.dieWrite (s : State) (die addr : Nat) (bs : List Byte) : Nat × State :=
  let (code, s) := s.fabWrite addr bs
  (code, (granuleParts addr bs.length).foldl (fun s (g, off, n) =>
    let copy := AMap.get s.cache [] (cacheKey die g)
    if copy.isEmpty || (windowOf s (stackOf g) g).isSome then s
    else { s with cache := AMap.set s.cache [] (cacheKey die g)
                              (splice copy off ((bs.drop (g * 512 + off - addr)).take n)) }) s)

/-- The copies of granules [lo, hi) of a die are dropped (R322). -/
def State.dropCopies (s : State) (die lo hi : Nat) : State :=
  { s with cache := s.cache.filter fun p => p.1 < cacheKey die lo || cacheKey die hi ≤ p.1 }

/-! ## Scratchpads (R316, R323) -/

/-- A read of scratchpad bytes under their check bits (R323). -/
def State.scratchRead (s : State) (die a len : Nat) : (Nat × List Byte) × State :=
  let lo := (die * 0x8000000 + a) / 8
  let n := if len = 0 then 0 else (die * 0x8000000 + a + len - 1) / 8 + 1 - lo
  match s.findMark .scratch lo 2 n with
  | some _ =>
    ((Code.failMemory, []), (s.count (Reg.MEM_DS_ECC die) F.MEM_DS_ECC_UNCORR 1).logAt AClass.memory Code.failMemory die
      0xF0 0 [])
  | none =>
    let weak := s.marks.filter fun p => p.2 = 1 && markKey .scratch lo ≤ p.1 && p.1 < markKey .scratch (lo + n)
    let s := { s with marks := s.marks.filter fun p => !(weak.contains p) }
    let s := if weak.isEmpty then s
             else (s.count (Reg.MEM_DS_ECC die) F.MEM_DS_ECC_CORR weak.length).healthAdd 0 weak.length
    ((Code.done, s.sread die a len), s)

/-! ## Any place a locator names (R42) -/

/-- A read of `len` bytes at a place, issued from a die. -/
def State.placeRead (s : State) (die : Nat) (p : Place) (len : Nat) : (Nat × List Byte) × State :=
  match p with
  | .hearth c a =>
    match readHearth s c [(a, len)] with
    | (some w, s) =>
      ((Code.failMemory, []), s.logAt AClass.memory Code.failMemory c.die c.region c.core [0, 0, w])
    | (none, s) => ((Code.done, s.hread c a len), s)
  | .scratch d a => s.scratchRead d a len
  | .fabric a => s.dieRead die a len
  | .queue _ => ((Code.rejRange, []), s)

/-- A write of bytes at a place, issued from a die. -/
def State.placeWrite (s : State) (die : Nat) (p : Place) (bs : List Byte) : Nat × State :=
  match p with
  | .hearth c a => (Code.done, s.hwrite c a bs)
  | .scratch d a => (Code.done, s.swrite d a bs)
  | .fabric a => s.dieWrite die a bs
  | .queue _ => (Code.rejRange, s)

/-- The place `n` bytes further on. -/
def Place.plus (p : Place) (n : Nat) : Place :=
  match p with
  | .hearth c a => .hearth c (a + n)
  | .scratch d a => .scratch d (a + n)
  | .fabric a => .fabric (a + n)
  | .queue l => .queue l

/-- The first address past a place's space (R39 to R41). -/
def Place.limit (s : State) : Place → Nat
  | .hearth _ _ => 0x20000
  | .scratch d _ => scratchSize s d
  | .fabric _ => 2 ^ 41
  | .queue _ => 0

/-- The address within a place's space. -/
def Place.addr : Place → Nat
  | .hearth _ a => a
  | .scratch _ a => a
  | .fabric a => a
  | .queue _ => 0

/-! ## Register writes (R317, R322, R335, R338, R349) -/

/-- An enabled region pool of the die keeps every byte below `size` (R349). -/
def poolsFit (s : State) (die size : Nat) : Bool :=
  (List.range 80).all fun r =>
    let cfg := s.reg (Reg.GRT_RPOOL_CFG ⟨die, r⟩)
    !F.GRT_RPOOL_CFG_ENABLE.on cfg ||
      F.GRT_RPOOL_CFG_BASE.get cfg + 0x2000 * F.GRT_RPOOL_CFG_COUNT.get cfg ≤ size

/-- A write of MEM_DS_PART (R317, R349): its completion code and the state after it. -/
def State.writeDsPart (s : State) (die : Nat) (data : Word) : Nat × State :=
  let v := F.MEM_DS_PART_SCRATCH.get data
  let old := s.fld (Reg.MEM_DS_PART die) F.MEM_DS_PART_SCRATCH
  match firstCode [
      (s.mstate ≠ MState.banked, Code.rejState),
      (8 < v, Code.rejRange),
      (!poolsFit s die (v * 0x1000000), Code.rejState)] with
  | some code => (code, s)
  | none =>
    let s := s.setFld (Reg.MEM_DS_PART die) F.MEM_DS_PART_SCRATCH v
    if v = old then (Code.done, s)
    else
      let s := s.dropCopies die 0 (2 ^ 32)
      if old < v then
        let f := s.freeBytes ((v - old) * 0x1000000)
        (Code.done, f.2.swrite die (old * 0x1000000) f.1)
      else
        (Code.done, s.swrite die (v * 0x1000000) (List.replicate ((old - v) * 0x1000000) 0))

/-- Two granule ranges share a granule. -/
def rangesTouch (b1 n1 b2 n2 : Nat) : Bool := b1 < b2 + n2 && b2 < b1 + n1 && n1 ≠ 0 && n2 ≠ 0

/-- A write of a cache window register; `ctl` says which of the two (R322). -/
def State.writeCwin (s : State) (die w : Nat) (ctl : Bool) (data : Word) : Nat × State :=
  let ab := Reg.MEM_CWIN_BASE die w
  let ac := Reg.MEM_CWIN_CTL die w
  let oldB := s.fld ab F.MEM_CWIN_BASE_BASE
  let oldC := s.reg ac
  let newB := if ctl then oldB else F.MEM_CWIN_BASE_BASE.get data
  let en := if ctl then F.MEM_CWIN_CTL_ENABLE.on data else F.MEM_CWIN_CTL_ENABLE.on oldC
  let size := if ctl then F.MEM_CWIN_CTL_SIZE.get data else F.MEM_CWIN_CTL_SIZE.get oldC
  let others := (List.range 8).any fun v =>
    let c := s.reg (Reg.MEM_CWIN_CTL die v)
    v ≠ w && F.MEM_CWIN_CTL_ENABLE.on c &&
      rangesTouch (newB / 512) size (s.fld (Reg.MEM_CWIN_BASE die v) F.MEM_CWIN_BASE_BASE / 512)
        (F.MEM_CWIN_CTL_SIZE.get c)
  match firstCode [
      (F.MEM_CWIN_CTL_BUSY.on oldC, Code.rejState),
      (newB % 512 ≠ 0 || 2 ^ 41 < newB + 512 * size, Code.rejRange),
      (en && others, Code.rejRange)] with
  | some code => (code, s)
  | none =>
    let wasOn := F.MEM_CWIN_CTL_ENABLE.on oldC
    let clears := wasOn && (!ctl || !en || size ≠ F.MEM_CWIN_CTL_SIZE.get oldC)
    let s := s.setFld ab F.MEM_CWIN_BASE_BASE newB
    let s := (s.setFld ac F.MEM_CWIN_CTL_ENABLE (if en then 1 else 0)).setFld ac F.MEM_CWIN_CTL_SIZE size
    if clears then
      (Code.done, (s.dropCopies die (oldB / 512) (oldB / 512 + F.MEM_CWIN_CTL_SIZE.get oldC)).setFld ac
        F.MEM_CWIN_CTL_BUSY 1)
    else (Code.done, s)

/-- A write of an operation window register (R335). -/
def State.writeAwin (s : State) (k w : Nat) (ctl : Bool) (data : Word) : Nat × State :=
  let ab := Reg.MEM_AWIN_BASE k w
  let ac := Reg.MEM_AWIN_CTL k w
  let base := if ctl then s.fld ab F.MEM_AWIN_BASE_BASE else F.MEM_AWIN_BASE_BASE.get data
  let c := if ctl then data else s.reg ac
  let size := F.MEM_AWIN_CTL_SIZE.get c
  let op := F.MEM_AWIN_CTL_OP.get c
  let fmt := F.MEM_AWIN_CTL_FMT.get c
  let others := (List.range 16).any fun v =>
    let x := s.reg (Reg.MEM_AWIN_CTL k v)
    v ≠ w && F.MEM_AWIN_CTL_ENABLE.on x &&
      rangesTouch (base / 512) size (s.fld (Reg.MEM_AWIN_BASE k v) F.MEM_AWIN_BASE_BASE / 512)
        (F.MEM_AWIN_CTL_SIZE.get x)
  match firstCode [
      (base % 512 ≠ 0 || 2 ^ 41 < base + 512 * size, Code.rejRange),
      (F.MEM_AWIN_CTL_ENABLE.on c && others, Code.rejRange),
      (3 < op || 3 < fmt || (op = 3 && fmt ≠ 0) || (F.MEM_AWIN_CTL_READCLR.on c && (op = 1 || op = 2)),
        Code.rejFormat)] with
  | some code => (code, s)
  | none =>
    if ctl then
      let keep := bits data.toNat 63 56 * 2 ^ 56 + bits data.toNat 31 0
      (Code.done, s.setReg ac (BitVec.ofNat 64 keep))
    else (Code.done, s.setFld ab F.MEM_AWIN_BASE_BASE base)

/-- A stack link starts to retrain (R338). -/
def State.startRetrain (s : State) (k : Nat) : State :=
  let s := s.setFld (Reg.MEM_STACK_STATUS k) F.MEM_STACK_STATUS_STATE 0
  let s := ((s.count (Reg.MEM_RETRAINS k) F.MEM_RETRAINS_COUNT 1).lifeAdd (lifeStack k 3) 1).healthAdd 4 1
  s.logAt AClass.onmod 0 (0x80 + k) 0 0xFF []

/-- A write of MEM_LINK_CTL (R338, R342). -/
def State.writeLinkCtl (s : State) (k : Nat) (data : Word) : Nat × State :=
  if !F.MEM_LINK_CTL_RETRAIN.on data then (Code.done, s)
  else if s.mstate ≠ MState.banked then (Code.rejState, s)
  else (Code.done, s.startRetrain k)

/-- Failing lanes of a group, each counted once. -/
def groupFails (failing : List Nat) (size g : Nat) : Nat := (failing.eraseDups.filter fun l => l / size = g).length

/-- Spares that training switches in, at most two per group (R338). -/
def sparesUsed (failing : List Nat) (size groups : Nat) : Nat :=
  sumNat ((List.range groups).map fun g => Nat.min 2 (groupFails failing size g))

/-- Some group has more failing lanes than spares (R339). -/
def linkLost (failing : List Nat) (size groups : Nat) : Bool :=
  (List.range groups).any fun g => 2 < groupFails failing size g

/-- Training places a stack's spares, and the stack is UP or FAILED (R338, R339). -/
def State.trainStack (s : State) (k : Nat) (failing : List Nat) : State :=
  let a := Reg.MEM_STACK_STATUS k
  let lost := linkLost failing 128 8
  let s := (s.setFld a F.MEM_STACK_STATUS_SPARES_USED (sparesUsed failing 128 8)).setFld a F.MEM_STACK_STATUS_STATE
    (if lost then 2 else 1)
  if lost then s.logAt AClass.memory Code.failMemory (0x80 + k) 0 0xFF [] else s

/-! ## The commands -/

/-- DS_PART_WRITE: a MEM_DS_PART write (R317). -/
def execDsPartWrite (die : Nat) (data : Word) (s : State) : Host.Outcome State Fault Refusal :=
  onUnit (die < 64) <| let r := s.writeDsPart die data; r.2.completed r.1 0

/-- CACHE_WINDOW_WRITE: a write of MEM_CWIN_BASE or MEM_CWIN_CTL (R322). -/
def execCacheWindowWrite (die w : Nat) (ctl : Bool) (data : Word) (s : State) : Host.Outcome State Fault Refusal :=
  onUnit (die < 64 && w < 8) <| let r := s.writeCwin die w ctl data; r.2.completed r.1 0

/-- CACHE_INVALIDATE_DONE: the invalidation of a window ends (R322). -/
def execCacheInvalidateDone (die w : Nat) (s : State) : Host.Outcome State Fault Refusal :=
  onUnit (die < 64 && w < 8) (s.setFld (Reg.MEM_CWIN_CTL die w) F.MEM_CWIN_CTL_BUSY 0)

/-- STACK_READ_REQUEST: a read request of fabric memory (R331, R336, R339); it waits while a stack trains. -/
def execStackReadRequest (addr len : Nat) (s : State) : Host.Outcome State Fault Refusal :=
  if 2 ^ 41 < addr + len then .fault (.noSuchAddress addr)
  else if fabWaits s addr len then .next s
  else let r := s.fabRead addr len; .next { r.2 with answer := ⟨r.1.1, if r.1.1 = Code.failMemory then [] else r.1.2⟩ }

/-- STACK_WRITE_REQUEST: a write request of fabric memory, judged granule by granule (R328, R330). -/
def execStackWriteRequest (addr : Nat) (data : List Byte) (s : State) : Host.Outcome State Fault Refusal :=
  if 2 ^ 41 < addr + data.length then .fault (.noSuchAddress addr)
  else if fabWaits s addr data.length then .next s
  else let r := s.fabWrite addr data; .next { r.2 with answer := ⟨r.1, []⟩ }

/-- A word with a mark of stack `k` met by the patrol scrub (R337). -/
def State.scrubWord (s : State) (k : Nat) (p : Nat × Nat) : State :=
  let w := p.1 - markKey .fabric 0
  let g := w / 8
  if p.1 < markKey .fabric 0 || markKey .sync 0 ≤ p.1 || stackOf g ≠ k then s
  else (s.checkGranule g (w % 8 * 64) 64).2

/-- SCRUB: one patrol pass over a stack (R337). -/
def execScrub (stack : Nat) (s : State) : Host.Outcome State Fault Refusal :=
  onUnit (stack < 64) (s.marks.foldl (fun s p => s.scrubWord stack p) s)

/-- STACK_RETRAIN: a stack link starts to retrain, by a write of RETRAIN or by 16 failed frames in 1 ms (R338). -/
def execStackRetrain (stack : Nat) (byWrite : Bool) (s : State) : Host.Outcome State Fault Refusal :=
  onUnit (stack < 64) <|
    if byWrite then let r := s.writeLinkCtl stack 1; r.2.completed r.1 0
    else if stackFailed s stack then s else s.startRetrain stack

/-- STACK_RETRAIN_DONE: a retrain ends with the lanes found failing (R338, R339). -/
def execStackRetrainDone (stack : Nat) (failing : List Nat) (s : State) : Host.Outcome State Fault Refusal :=
  onUnit (stack < 64) (if stackWaits s stack then s.trainStack stack failing else s)

end Sys2Proof.Machine
end

