-- ==== Sys2Proof/Machine/Grate.lean ====
section
/-! DEFINITION. The Grate: buffer pools, owners, the chain, the Move engine's Grate operations, waiting and reclaiming
(chapter 10). -/
namespace Sys2Proof.Machine

/-! ## Pools and buffers (R344, R345) -/

/-- The pools of R344. -/
inductive Pool where
  | core (c : CoreId)
  | region (r : RegionId)
  | fabric
deriving DecidableEq, Repr

/-- The key of a pool. -/
def Pool.key : Pool → Nat
  | .core c => coreKey c
  | .region r => 2 ^ 21 + regionKey r
  | .fabric => 2 ^ 22

/-- The key of buffer `i` of a pool in `State.buffers`. -/
def Pool.bufKey (p : Pool) (i : Nat) : Nat := p.key * 2 ^ 22 + i

/-- A pool's configuration. -/
structure PoolCfg where
  enable : Bool
  base : Nat
  count : Nat
deriving DecidableEq, Repr

/-- A configuration word of a pool (R369). -/
def Pool.cfgOf (p : Pool) (w : Word) : PoolCfg :=
  match p with
  | .core _ => ⟨F.GRT_CPOOL_CFG_ENABLE.on w, F.GRT_CPOOL_CFG_BASE.get w, F.GRT_CPOOL_CFG_COUNT.get w⟩
  | .region _ => ⟨F.GRT_RPOOL_CFG_ENABLE.on w, F.GRT_RPOOL_CFG_BASE.get w, F.GRT_RPOOL_CFG_COUNT.get w⟩
  | .fabric => ⟨F.GRT_FPOOL_CFG_ENABLE.on w, F.GRT_FPOOL_CFG_BASE_G.get w * 0x2000, F.GRT_FPOOL_CFG_COUNT.get w⟩

/-- The address of a pool's configuration register. -/
def Pool.cfgAddr : Pool → Nat
  | .core c => Reg.GRT_CPOOL_CFG (regionOf c) c.core
  | .region r => Reg.GRT_RPOOL_CFG r
  | .fabric => Reg.GRT_FPOOL_CFG

/-- A pool's configuration in force. -/
def State.pool (s : State) (p : Pool) : PoolCfg := p.cfgOf (s.reg p.cfgAddr)

/-- The size of a pool's owner table (R352). -/
def Pool.entries : Pool → Nat
  | .core _ => 4
  | .region _ => 32
  | .fabric => 256

/-- The address of an owner entry. -/
def Pool.ownerAddr (p : Pool) (e : Nat) : Nat :=
  match p with
  | .core c => Reg.GRT_CPOOL_OWNER (regionOf c) c.core e
  | .region r => Reg.GRT_RPOOL_OWNER r e
  | .fabric => Reg.GRT_FPOOL_OWNER e

/-- An owner entry. -/
structure OwnerEntry where
  valid : Bool
  owner : Nat
  cap : Nat
  min : Nat
deriving DecidableEq, Repr

/-- An owner entry of its word (R369). -/
def ownerEntryOf (w : Word) : OwnerEntry :=
  ⟨F.GRT_RPOOL_OWNER_VALID.on w, F.GRT_RPOOL_OWNER_OWNER.get w, F.GRT_RPOOL_OWNER_MAX.get w,
   F.GRT_RPOOL_OWNER_MIN.get w⟩

/-- The valid owner entries of a pool. -/
def State.owners (s : State) (p : Pool) : List OwnerEntry :=
  ((List.range p.entries).map fun e => ownerEntryOf (s.reg (p.ownerAddr e))).filter OwnerEntry.valid

/-- The record of a buffer. -/
def State.buffer (s : State) (p : Pool) (i : Nat) : BufRec := AMap.get s.buffers BufRec.free (p.bufKey i)

/-- A buffer's record set. -/
def State.setBuffer (s : State) (p : Pool) (i : Nat) (b : BufRec) : State :=
  { s with buffers := AMap.set s.buffers BufRec.free (p.bufKey i) b }

/-- The records of a pool's buffers in use. -/
def State.inUse (s : State) (p : Pool) : List (Nat × BufRec) :=
  (s.buffers.filter fun b => p.bufKey 0 ≤ b.1 && b.1 < p.bufKey 0 + 2 ^ 22).map fun b => (b.1 - p.bufKey 0, b.2)

/-- A pool's free count (R353): 0 while it is disabled. -/
def State.freeCount (s : State) (p : Pool) : Nat :=
  if (s.pool p).enable then (s.pool p).count - (s.inUse p).length else 0

/-- A pool's withdrawn buffers (R364). -/
def State.lost (s : State) (p : Pool) : Nat := (s.inUse p).countP fun b => b.2.withdrawn

/-- A pool's in-use buffers charged to an owner (R352). -/
def State.chargedTo (s : State) (p : Pool) (owner : Nat) : Nat := (s.inUse p).countP fun b => b.2.charged = owner

/-- HELD against an owner (R353). -/
def State.heldBack (s : State) (p : Pool) (owner : Nat) : Nat :=
  sumNat (((s.owners p).filter fun e => e.owner ≠ owner).map fun e => e.min - s.chargedTo p e.owner)

/-- A pool admits one buffer for an owner (R353). -/
def State.admits (s : State) (p : Pool) (owner : Nat) : Bool :=
  if s.freeCount p = 0 then false
  else
    let used := s.chargedTo p owner
    match (s.owners p).find? (fun e => e.owner = owner) with
    | some e =>
      if e.cap ≠ 0 && e.cap ≤ used then false
      else if used < e.min then true
      else s.heldBack p owner + 1 ≤ s.freeCount p
    | none => s.heldBack p owner + 1 ≤ s.freeCount p

/-- The place of buffer `i` of a pool. -/
def State.bufPlace (s : State) (p : Pool) (i : Nat) : Place :=
  let a := (s.pool p).base + 0x2000 * i
  match p with
  | .core c => .hearth c a
  | .region r => .scratch r.die a
  | .fabric => .fabric a

/-- The locator of a place, fully qualified (R42, R345). -/
def Place.locator : Place → Nat
  | .hearth c a => 2 ^ 60 + c.die * 2 ^ 34 + c.region * 2 ^ 27 + c.core * 2 ^ 21 + a
  | .scratch d a => 2 * 2 ^ 60 + d * 2 ^ 34 + a
  | .fabric a => 3 * 2 ^ 60 + a
  | .queue l => l

/-- A pool lists a place as one of its buffers. -/
def State.indexIn (s : State) (p : Pool) (a : Nat) : Option Nat :=
  let cfg := s.pool p
  if cfg.enable && cfg.base ≤ a && a < cfg.base + 0x2000 * cfg.count && (a - cfg.base) % 0x2000 = 0 then
    some ((a - cfg.base) / 0x2000)
  else none

/-- The buffer that a place is, in an enabled pool's area (R361). -/
def State.bufferAt (s : State) (pl : Place) : Option (Pool × Nat) :=
  match pl with
  | .hearth c a => (s.indexIn (.core c) a).map fun i => (.core c, i)
  | .scratch d a =>
    (List.range 80).findSome? fun r => (s.indexIn (.region ⟨d, r⟩) a).map fun i => (.region ⟨d, r⟩, i)
  | .fabric a => (s.indexIn .fabric a).map fun i => (.fabric, i)
  | .queue _ => none

/-! ## Granting (R346, R353 to R356, R362) -/

/-- The indexes of a pool's free buffers. -/
def State.freeList (s : State) (p : Pool) : List Nat :=
  (List.range (s.pool p).count).filter fun i => !(s.buffer p i).inUse

/-- A free buffer of a pool, which one the Grate does not specify, is granted to an owner: it holds unspecified bits,
and its owner stands in slot 0 (R346, R362). -/
def State.grant (s : State) (p : Pool) (owner : Nat) : Nat × State :=
  let (pick, s) := s.freeWord
  let free := s.freeList p
  let i := free.getD (pick.toNat % free.length) 0
  let s := s.setBuffer p i { slots := [some owner, none, none, none], charged := owner, inUse := true, withdrawn := false }
  let (bs, s) := s.freeBytes 0x2000
  let pl := s.bufPlace p i
  (pl.locator, match pl with
    | .hearth c a => s.hwrite c a bs
    | .scratch d a => s.swrite d a bs
    | .fabric a => s.fwrite a bs
    | .queue _ => s)

/-- Up to `n` buffers of one pool are granted to an owner. -/
def State.grantMany (s : State) (p : Pool) (owner : Nat) : Nat → List Nat × State
  | 0 => ([], s)
  | n + 1 =>
    if s.admits p owner then
      let (l, s) := s.grant p owner
      let (ls, s) := s.grantMany p owner n
      (l :: ls, s)
    else ([], s)

/-- OVERFLOW_SEEN of a pool is set and counted (R356). -/
def State.overflow (s : State) (p : Pool) : State :=
  match p with
  | .core c => (s.flag (Reg.GRT_CPOOL_STAT (regionOf c) c.core) F.GRT_CPOOL_STAT_OVERFLOW_SEEN).count
      (Reg.GRT_CPOOL_OVERFLOWS (regionOf c) c.core) F.GRT_CPOOL_OVERFLOWS_COUNT 1
  | .region r => (s.flag (Reg.GRT_STATUS r) F.GRT_STATUS_OVERFLOW_SEEN).count (Reg.GRT_RPOOL_OVERFLOWS r)
      F.GRT_RPOOL_OVERFLOWS_COUNT 1
  | .fabric => (s.flag Reg.GRT_FPOOL_STATUS F.GRT_FPOOL_STATUS_OVERFLOW_SEEN).count Reg.GRT_FPOOL_OVERFLOWS
      F.GRT_FPOOL_OVERFLOWS_COUNT 1

/-- The chain of pools of a core from a first to a last level (R354). -/
def chainOf (c : CoreId) (first last : Nat) : List Pool :=
  ([.core c, .region (regionOf c), .fabric].take (last + 1)).drop first

/-- A chain serves `n` buffers, pool by pool: the locators, the pools that fell short, and the state if all were had. -/
def State.chainTake (s : State) (owner : Nat) : List Pool → Nat → List Nat × List Pool × State
  | [], _ => ([], [], s)
  | p :: ps, n =>
    if n = 0 then ([], [], s)
    else
      let (ls, s1) := s.grantMany p owner n
      let (rest, short, s2) := s1.chainTake owner ps (n - ls.length)
      (ls ++ rest, if ls.length < n then p :: short else short, s2)

/-- A request of `n` buffers from a chain: all or nothing, with the overflow flags of the pools that fell short
(R355, R356). -/
def State.request (s : State) (owner : Nat) (chain : List Pool) (n : Nat) (flagged : Bool) : Option (List Nat) × State :=
  let (ls, short, s') := s.chainTake owner chain n
  let mark (s : State) : State := if flagged then short.foldl State.overflow s else s
  if ls.length = n then (some ls, mark s') else (none, mark s)

/-- A request that ended with nothing granted: REFUSED_SEEN of the requesting region (R356). -/
def State.refused (s : State) (r : RegionId) : State :=
  ((s.flag (Reg.GRT_STATUS r) F.GRT_STATUS_REFUSED_SEEN).count (Reg.GRT_REFUSALS r) F.GRT_REFUSALS_COUNT 1).logAt
    AClass.grate Code.refusedPool r.die r.region 0xE2 []

/-! ## Removing owners (R362 to R364) -/

/-- A slot list with an owner put into its lowest empty slot. -/
def addOwner (owner : Nat) : List (Option Nat) → List (Option Nat)
  | [] => []
  | none :: rest => some owner :: rest
  | some x :: rest => some x :: addOwner owner rest

/-- An owner is removed from a buffer; with its last owner the buffer returns to its pool (R362). -/
def State.removeOwner (s : State) (p : Pool) (i owner : Nat) : State :=
  let b := s.buffer p i
  let slots := b.slots.map fun x => if x = some owner then none else x
  if slots.all Option.isNone && !b.withdrawn then s.setBuffer p i BufRec.free
  else s.setBuffer p i { b with slots := slots }

/-- BAD_FREE_SEEN of a buffer's pool is set, counted and logged with the locator and the issuing core (R361, R363). -/
def State.badFree (s : State) (p : Pool) (locator : Nat) (c : CoreId) (code : Nat) : State :=
  let s := match p with
    | .core x => (s.flag (Reg.GRT_CPOOL_STAT (regionOf x) x.core) F.GRT_CPOOL_STAT_BAD_FREE_SEEN).count
        (Reg.GRT_BAD_FREES (regionOf x)) F.GRT_BAD_FREES_COUNT 1
    | .region r => (s.flag (Reg.GRT_STATUS r) F.GRT_STATUS_BAD_FREE_SEEN).count (Reg.GRT_BAD_FREES r)
        F.GRT_BAD_FREES_COUNT 1
    | .fabric => (s.flag Reg.GRT_FPOOL_STATUS F.GRT_FPOOL_STATUS_BAD_FREE_SEEN).count Reg.GRT_FPOOL_BAD_FREES
        F.GRT_FPOOL_BAD_FREES_COUNT 1
  match p with
  | .core x => s.logAt AClass.grate code x.die x.region 0xE2 [locator, coreBase c]
  | .region r => s.logAt AClass.grate code r.die r.region 0xE2 [locator, coreBase c]
  | .fabric => s.logAt AClass.grate code 0xF0 4 0 [locator, coreBase c]

/-- A buffer named by a locator loses an owner, where both still stand. -/
def State.dropBuffer (s : State) (locator owner : Nat) : State :=
  match placeOf s ⟨0, 0, 0⟩ locator with
  | .ok pl =>
    match s.bufferAt pl with
    | some (p, i) => s.removeOwner p i owner
    | none => s
  | .error _ => s

/-- An owner record shows an uncorrectable error: the buffer is withdrawn (R364). -/
def State.withdraw (s : State) (p : Pool) (i : Nat) : State :=
  let s := s.setBuffer p i { s.buffer p i with withdrawn := true }
  match p with
  | .core c => s.logAt AClass.memory Code.failMemory c.die c.region 0xE2 []
  | .region r => s.logAt AClass.memory Code.failMemory r.die r.region 0xE2 []
  | .fabric => s.logAt AClass.memory Code.failMemory 0xF0 4 0 []

/-! ## ALLOC, FREE, SHARE, GIVE (R358 to R362, R367) -/

/-- The fields of a Grate operation (R359). -/
def gOwner (w : Nat) : Nat := bits w 37 25
def gLast (w : Nat) : Nat := bits w 24 23
def gFirst (w : Nat) : Nat := bits w 22 21
def gCount (w : Nat) : Nat := bits w 20 17 + 1
def gList (w : Nat) : Nat := bits w 16 0

/-- The owner a core's Move engine acts for (R351). -/
def State.contextOf (s : State) (c : CoreId) : Nat := s.fld (Reg.HTH_CTX c) F.HTH_CTX_CONTEXT

/-- An owner code names a Flue or one of the contexts 0 to 63 (R350). -/
def ownerOk (o : Nat) : Bool := 4096 ≤ o || o < 64

/-- The list of locators leaves the hearth or is misaligned (R360). -/
def listBad (w : Nat) : Bool := gList w % 8 ≠ 0 || 0x1FFFF < gList w + 8 * gCount w - 1

/-- The unloaded bound of the farthest place of a list of locators, with one cycle per further buffer (R358). -/
def grateTime (ls : List Nat) : Nat :=
  let far := ls.foldl (fun m l => Nat.max m (if bits l 63 60 ≤ 1 then 8 else if bits l 63 60 = 2 then 60 else 400)) 8
  far + (ls.length - 1)

/-- Locators stored in a hearth list. -/
def State.storeList (s : State) (c : CoreId) (a : Nat) (ls : List Nat) : State :=
  s.hwrite c a (ls.map (leBytes 8)).flatten

/-- ALLOC (R354 to R356, R359, R360, R367). -/
def allocOp (x : Ctx) (s : State) : Res :=
  let first := gFirst x.w
  let last := gLast x.w
  let n := gCount x.w
  let owner := s.contextOf x.c
  let r := regionOf x.c
  match firstCode [
      (first = 3 || last = 3 || last < first, Code.rejFormat),
      (listBad x.w, Code.rejRange)] with
  | some code => .reject code
  | none =>
    match s.request owner (chainOf x.c first last) n true with
    | (some ls, s) =>
      .ok { Out.at (s.storeList x.c (gList x.w) ls) (x.t + grateTime ls) with dst := [(gList x.w, 8 * n)] }
    | (none, s) =>
      let g := s.region r
      if I.mod x.w = 1 && g.waitq.length < 64 then
        let e : AllocWait := { core := x.c.core, pc := x.pc, joined := x.t, n := n, first := first, last := last,
                               list := gList x.w }
        .ok { Out.at (s.setRegion r { g with waitq := g.waitq ++ [e] }) x.t with
              awaits := .grate, dst := [(gList x.w, 8 * n)] }
      else .refuse Code.refusedPool (s.refused r)

/-- What FREE, SHARE and GIVE do. -/
inductive GrateOp where
  | free | share | give
deriving DecidableEq, Repr

/-- The checks of R361 on one listed locator: the code and the pool a bad free is noted in. -/
def grateCheck (s : State) (c : CoreId) (op : GrateOp) (ctx owner : Nat) (all : List (Nat × Nat)) (i l : Nat) :
    Option (Nat × Option (Pool × Nat)) :=
  match placeOf s c l with
  | .error code => some (code, none)
  | .ok pl =>
    if pl.addr % 0x2000 ≠ 0 then some (Code.rejRange, none)
    else
      match s.bufferAt pl with
      | none => some (Code.rejRange, none)
      | some (p, k) =>
        let b := s.buffer p k
        let twice := all.any fun (l', j) =>
          j ≠ i && (match placeOf s c l' with | .ok pl' => pl' = pl | .error _ => false)
        match firstCode [
            (!b.inUse, Code.rejState),
            (b.withdrawn || s.mark .owner (p.bufKey k) = 2, Code.failMemory),
            (!b.slots.contains (some ctx), Code.rejPriv),
            (twice, Code.rejFormat),
            (op ≠ .free && b.slots.contains (some owner), Code.rejState),
            (op = .share && !b.slots.contains none, Code.refusedPool)] with
        | some code => some (code, if !b.inUse && op = .free then some (p, l) else none)
        | none => none

/-- The first failed check over a list, in list order (R361). -/
def grateChecks (s : State) (c : CoreId) (op : GrateOp) (ctx owner : Nat) (all : List (Nat × Nat)) :
    List (Nat × Nat) → Option (Nat × Option (Pool × Nat))
  | [] => none
  | (l, i) :: rest =>
    match grateCheck s c op ctx owner all i l with
    | some r => some r
    | none => grateChecks s c op ctx owner all rest

/-- One listed buffer changed (R362). -/
def State.grateApply (s : State) (c : CoreId) (op : GrateOp) (ctx owner l : Nat) : State :=
  match placeOf s c l with
  | .error _ => s
  | .ok pl =>
    match s.bufferAt pl with
    | none => s
    | some (p, i) =>
      let b := s.buffer p i
      match op with
      | .free => s.removeOwner p i ctx
      | .share => s.setBuffer p i { b with slots := addOwner owner b.slots }
      | .give => s.setBuffer p i { b with slots := b.slots.map fun o => if o = some ctx then some owner else o }

/-- FREE, SHARE and GIVE (R350, R358, R360 to R362). -/
def ownersOp (op : GrateOp) (x : Ctx) (s : State) : Res :=
  let owner := gOwner x.w
  let ctx := s.contextOf x.c
  if (op ≠ .free && !ownerOk owner) || listBad x.w then .reject Code.rejRange
  else
    withReads x.c x.t [(gList x.w, 8 * gCount x.w)] [] s fun s =>
      let ls := (List.range (gCount x.w)).map fun i => s.hnat x.c (gList x.w + 8 * i) 8
      match grateChecks s x.c op ctx owner ls.zipIdx ls.zipIdx with
      | some (code, bad) =>
        let s := match bad with | some (p, l) => s.badFree p l x.c code | none => s
        .refuse code s
      | none => .ok (Out.at (ls.foldl (fun s l => s.grateApply x.c op ctx owner l) s) (x.t + grateTime ls))

/-- A Grate operation: its reserved operand bits (R359) and the MOD values it takes. -/
def grateSpec (op : Nat) (used : List (Nat × Nat)) (wait : Bool) (body : Ctx → State → Res) : OpSpec :=
  { op := op, bad := strayBits used, modOk := fun m => m = 0 || (wait && m = 1), notBefore := fun _ => 0, body := body }

/-- ALLOC: buffers are taken along the pool chain, all or nothing (R359). -/
def execAlloc (c : CoreId) (s : State) : Host.Outcome State Fault Refusal :=
  runOp c .move (grateSpec 0x10 [(16, 0), (20, 17), (22, 21), (24, 23)] true allocOp) s
/-- FREE: the issuing context leaves each listed buffer (R362). -/
def execFree (c : CoreId) (s : State) : Host.Outcome State Fault Refusal :=
  runOp c .move (grateSpec 0x11 [(16, 0), (20, 17)] false (ownersOp .free)) s
/-- SHARE: an owner is added to each listed buffer (R362). -/
def execShare (c : CoreId) (s : State) : Host.Outcome State Fault Refusal :=
  runOp c .move (grateSpec 0x12 [(16, 0), (20, 17), (37, 25)] false (ownersOp .share)) s
/-- GIVE: an owner takes the issuing context's place on each listed buffer (R362). -/
def execGive (c : CoreId) (s : State) : Host.Outcome State Fault Refusal :=
  runOp c .move (grateSpec 0x13 [(16, 0), (20, 17), (37, 25)] false (ownersOp .give)) s

/-! ## Waiting (R357, R367) -/

/-- The Move engine's issued instruction that an entry of a wait queue stands for is resolved. -/
def State.resolveWait (s : State) (c : CoreId) (pc : Nat) (f : Inflight → Inflight) : State :=
  let g := s.eng c .move
  s.setEng c .move
    { g with inflight := updateFirst (fun i : Inflight => i.awaits = .grate && i.pc = pc) f g.inflight }

/-- The core of a wait queue entry. -/
def AllocWait.coreId (r : RegionId) (e : AllocWait) : CoreId := ⟨r.die, r.region, e.core⟩

/-- The first entry of a wait queue, oldest first, that its chain now serves (R357). -/
def State.serveWait (s : State) (r : RegionId) : List AllocWait → Option (AllocWait × List Nat × State)
  | [] => none
  | e :: rest =>
    match s.request (s.contextOf (e.coreId r)) (chainOf (e.coreId r) e.first e.last) e.n false with
    | (some ls, s') => some (e, ls, s')
    | (none, _) => s.serveWait r rest

/-- ALLOC_WAIT_GRANT: the oldest waiting ALLOC that can now be met completes DEFERRED (R367). -/
def execAllocWaitGrant (r : RegionId) (s : State) : Host.Outcome State Fault Refusal :=
  onUnit r.ok <|
    match s.serveWait r (s.region r).waitq with
    | some (e, ls, s) =>
      let g := s.region r
      let s := s.setRegion r { g with waitq := removeOne e g.waitq }
      let s := s.storeList (e.coreId r) e.list ls
      let s := s.count (Reg.GRT_DEFERRALS r) F.GRT_DEFERRALS_COUNT 1
      s.resolveWait (e.coreId r) e.pc fun i =>
        { i with awaits := .time, code := Code.deferred, doneAt := s.now + grateTime ls }
    | none => s

/-- ALLOC_WAIT_TIMEOUT: the oldest waiting ALLOC has waited GRT_WAIT_LIMIT and completes REFUSED_POOL (R367). -/
def execAllocWaitTimeout (r : RegionId) (s : State) : Host.Outcome State Fault Refusal :=
  onUnit r.ok <|
    let g := s.region r
    match g.waitq with
    | e :: rest =>
      let s := (s.at (e.joined + s.fld (Reg.GRT_WAIT_LIMIT r) F.GRT_WAIT_LIMIT_NS)).setRegion r { g with waitq := rest }
      (s.refused r).resolveWait (e.coreId r) e.pc fun i =>
        { i with awaits := .time, code := Code.refusedPool, doneAt := s.now }
    | [] => s

/-! ## Reclaiming (R368) -/

/-- The pool of a buffer key, if it is one of those a reclaim covers. -/
def covers (sp : PoolSpace) (k : Nat) : Option (Pool × Nat) :=
  let key := k / 2 ^ 22
  let i := k % 2 ^ 22
  match sp with
  | .fabric => if key = 2 ^ 22 then some (.fabric, i) else none
  | .region r =>
    if key = (Pool.region r).key then some (.region r, i)
    else if key < 2 ^ 21 && key / 128 = regionKey r && key % 128 < 64 then some (.core ⟨r.die, r.region, key % 128⟩, i)
    else none

/-- The control register of a reclaim. -/
def reclaimReg : PoolSpace → Nat
  | .region r => Reg.GRT_RCTL r
  | .fabric => Reg.GRT_FCTL

/-- A write of GRT_RCTL or GRT_FCTL (R350, R368). -/
def State.writeReclaim (s : State) (sp : PoolSpace) (data : Word) : Nat × State :=
  let a := reclaimReg sp
  let owner := F.GRT_RCTL_OWNER.get data
  if s.isOn a F.GRT_RCTL_BUSY then (Code.rejState, s)
  else if !F.GRT_RCTL_RECLAIM.on data then (Code.done, s)
  else if !ownerOk owner then (Code.rejRange, s)
  else
    let s := s.buffers.foldl (fun s b =>
      match covers sp b.1 with
      | some (p, i) => if b.2.slots.contains (some owner) then s.removeOwner p i owner else s
      | none => s) s
    (Code.done, s.setFld a F.GRT_RCTL_BUSY 1)

/-- The pool space exists. -/
def spaceOk : PoolSpace → Bool
  | .region r => r.ok
  | .fabric => true

/-- RECLAIM: an owner leaves every buffer of the pools concerned (R368). -/
def execReclaim (sp : PoolSpace) (owner : Nat) (s : State) : Host.Outcome State Fault Refusal :=
  onUnit (spaceOk sp) <|
    let r := s.writeReclaim sp (BitVec.ofNat 64 (2 ^ 13 + owner % 2 ^ 13))
    r.2.completed r.1 0

/-- RECLAIM_DONE: the reclaim ends (R368). -/
def execReclaimDone (sp : PoolSpace) (s : State) : Host.Outcome State Fault Refusal :=
  onUnit (spaceOk sp) (s.setFld (reclaimReg sp) F.GRT_RCTL_BUSY 0)

/-! ## Pool and owner registers (R344, R348, R350, R352) -/

/-- The area of a pool's configuration keeps the limits of R344. -/
def State.areaOk (s : State) (p : Pool) (c : PoolCfg) : Bool :=
  c.base % 0x2000 = 0 &&
  match p with
  | .core _ => c.count ≤ 16 && c.base + 0x2000 * c.count ≤ 0x20000
  | .region r => c.count ≤ 2048 && c.base + 0x2000 * c.count ≤ scratchSize s r.die
  | .fabric => c.count ≤ 2 ^ 22 && c.base + 0x2000 * c.count ≤ 2 ^ 41

/-- An enabled region pool overlaps another of its die (R348). -/
def State.poolMeets (s : State) (p : Pool) (c : PoolCfg) : Bool :=
  match p with
  | .region r =>
    c.enable && (List.range 80).any fun q =>
      let o := s.pool (.region ⟨r.die, q⟩)
      q ≠ r.region && o.enable && c.base < o.base + 0x2000 * o.count && o.base < c.base + 0x2000 * c.count
  | _ => false

/-- The sum of MIN over owner entries. -/
def minSum (es : List OwnerEntry) : Nat := sumNat (es.map OwnerEntry.min)

/-- A write of a pool's configuration register (R348, R364). -/
def State.writePool (s : State) (p : Pool) (data : Word) : Nat × State :=
  let old := s.pool p
  let new := p.cfgOf data
  match firstCode [
      (old.enable && (new.base ≠ old.base || new.count ≠ old.count), Code.rejState),
      (old.enable && !new.enable && (s.inUse p).any fun b => !b.2.withdrawn, Code.rejState),
      (!s.areaOk p new, Code.rejRange),
      (s.poolMeets p new, Code.rejRange),
      (new.count < minSum (s.owners p), Code.rejRange)] with
  | some code => (code, s)
  | none =>
    let keep := match p with
      | .core _ => [(63, 63), (28, 24), (16, 0)]
      | .region _ => [(63, 63), (43, 32), (26, 0)]
      | .fabric => [(63, 63), (50, 28), (27, 0)]
    let w := sumNat (keep.map fun f : Nat × Nat => bits data.toNat f.1 f.2 * 2 ^ f.2)
    let s := s.setReg p.cfgAddr (BitVec.ofNat 64 w)
    if new.enable then (Code.done, s)
    else (Code.done, { s with buffers := s.buffers.filter fun b => b.1 < p.bufKey 0 || p.bufKey 0 + 2 ^ 22 ≤ b.1 })

/-- A write of an owner entry (R350, R352). -/
def State.writeOwner (s : State) (p : Pool) (e : Nat) (data : Word) : Nat × State :=
  let a := p.ownerAddr e
  let old := ownerEntryOf (s.reg a)
  let new := ownerEntryOf data
  let others := ((List.range p.entries).filter (fun k => k ≠ e)).map fun k => ownerEntryOf (s.reg (p.ownerAddr k))
  let others := others.filter OwnerEntry.valid
  match firstCode [
      (!ownerOk new.owner, Code.rejRange),
      (new.valid && others.any fun o => o.owner = new.owner, Code.rejRange),
      (old.valid && (!new.valid || new.owner ≠ old.owner) && s.chargedTo p old.owner ≠ 0, Code.rejState),
      (new.valid && (s.pool p).count < minSum others + new.min, Code.rejRange)] with
  | some code => (code, s)
  | none =>
    let w := bits data.toNat 63 50 * 2 ^ 50 + bits data.toNat 45 0
    (Code.done, s.setReg a (BitVec.ofNat 64 w))

/-- A buffer query answers for the pools of a block (R369, R371): QUERY_OWN and QUERY_CHG. -/
def State.queryBuffer (s : State) (sp : PoolSpace) (locator : Nat) : Word × Word :=
  match placeOf s ⟨64, 0, 0⟩ locator with
  | .error _ => (0, 0)
  | .ok pl =>
    match s.bufferAt pl with
    | none => (0, 0)
    | some (p, i) =>
      let mine := match sp, p with
        | .fabric, .fabric => true
        | .region r, .region q => r = q
        | .region r, .core c => r = regionOf c
        | _, _ => false
      if !mine then (0, 0)
      else
        let b := s.buffer p i
        let slots := b.slots.zipIdx
        let v := sumNat (slots.map fun (o, n) => if o.isSome then 2 ^ (52 + n) else 0)
        let os := sumNat (slots.map fun (o, n) => o.getD 0 * 2 ^ (13 * n))
        (BitVec.ofNat 64 (2 ^ 63 + (if b.inUse then 2 ^ 62 else 0) + v + os),
         if b.inUse then BitVec.ofNat 64 (2 ^ 63 + b.charged) else 0)

end Sys2Proof.Machine
end

