-- ==== Sys2Proof/Machine/Damper.lean ====
section
/-! DEFINITION. Dampers and admission at injection (chapter 12). -/
namespace Sys2Proof.Machine

/-! ## Dampers (R439 to R442) -/

/-- A Damper's signed tokens. -/
def tokensAt (s : State) (a : Nat) : Int := toSigned 24 (s.fld a F.DMP_L1_TOK_TOKENS)

/-- A Damper's tokens set. -/
def State.setTokens (s : State) (a : Nat) (v : Int) : State := s.setFld a F.DMP_L1_TOK_TOKENS (ofSigned 24 v)

/-- The enabled level-1 Damper above a level-0 Damper. -/
def parentOf (s : State) (d : Nat) : Option Nat :=
  let w := s.reg (Reg.DMP_L0_CFG d)
  let p := F.DMP_L0_CFG_PARENT.get w
  if F.DMP_L0_CFG_PEN.on w && s.isOn (Reg.DMP_L1_CFG p) F.DMP_L1_CFG_EN then some p else none

/-- A level-0 Damper passes a packet or instruction (R440); a disabled Damper passes everything. -/
def damperPasses (s : State) (d : Nat) : Bool :=
  if s.isOn (Reg.DMP_L0_CFG d) F.DMP_L0_CFG_EN then
    0 < tokensAt s (Reg.DMP_L0_TOK d) &&
      (match parentOf s d with | some p => 0 < tokensAt s (Reg.DMP_L1_TOK p) | none => true)
  else true

/-- Cells are subtracted from a level-0 Damper and its parent (R440). -/
def State.takeTokens (s : State) (d cells : Nat) : State :=
  if s.isOn (Reg.DMP_L0_CFG d) F.DMP_L0_CFG_EN then
    let s1 := s.setTokens (Reg.DMP_L0_TOK d) (tokensAt s (Reg.DMP_L0_TOK d) - cells)
    match parentOf s d with
    | some p => s1.setTokens (Reg.DMP_L1_TOK p) (tokensAt s (Reg.DMP_L1_TOK p) - cells)
    | none => s1
  else s

/-- The first multiple of `m` that is at least `t`. -/
def nextMultiple (m t : Nat) : Nat := ceilDiv t m * m

/-- The clock reaches Almanac count `t`, or stays where it is past it. -/
def State.atAlm (s : State) (t : Nat) : State := s.at (s.now + (t - s.alm))

/-- DAMPER_REFILL: at its next multiple of 2^PSHIFT a Damper's tokens rise by RATE, at most to BURST (R440, R441). -/
def execDamperRefill (level d : Nat) (s : State) : Host.Outcome State Fault Refusal :=
  onUnit ((level = 0 && d < 1024) || (level = 1 && d < 128)) <|
    let cfg := if level = 0 then s.reg (Reg.DMP_L0_CFG d) else s.reg (Reg.DMP_L1_CFG d)
    let tok := if level = 0 then Reg.DMP_L0_TOK d else Reg.DMP_L1_TOK d
    let burst := if level = 0 then s.fld tok F.DMP_L0_TOK_BURST else F.DMP_L1_CFG_BURST.get cfg
    let old := if level = 0 then AMap.get s.damperOld 0 d else 0
    let shift := if old = 0 then F.DMP_L0_CFG_PSHIFT.get cfg else old - 1
    let key := level * 1024 + d
    let due := nextMultiple (2 ^ shift) (Nat.max s.alm (AMap.get s.damperNext 0 key))
    let s := s.atAlm due
    let s := { s with damperNext := AMap.set s.damperNext 0 key (due + 1),
                      damperOld := if level = 0 then AMap.erase s.damperOld d else s.damperOld }
    s.setTokens tok (min (burst : Int) (tokensAt s tok + F.DMP_L0_CFG_RATE.get cfg))

/-- Two enabled egress Dampers would share a port and a virtual channel (R442). -/
def egressClash (s : State) (d : Nat) (w : Word) : Bool :=
  F.DMP_L0_CFG_EN.on w && F.DMP_L0_CFG_EGRESS.on w &&
  (List.range 1024).any fun k =>
    let x := s.reg (Reg.DMP_L0_CFG k)
    k ≠ d && F.DMP_L0_CFG_EN.on x && F.DMP_L0_CFG_EGRESS.on x &&
      F.DMP_L0_CFG_PORT.get x = F.DMP_L0_CFG_PORT.get w &&
      F.DMP_L0_CFG_VCMASK.get x &&& F.DMP_L0_CFG_VCMASK.get w ≠ 0

/-- A write of DMP_L0_CFG (R441, R442). -/
def State.writeL0 (s : State) (d : Nat) (w : Word) : Nat × State :=
  let a := Reg.DMP_L0_CFG d
  let old := s.reg a
  let shift := F.DMP_L0_CFG_PSHIFT.get w
  let same (f : Fld) : Bool := f.get w = f.get old
  match firstCode [
      (F.DMP_L0_CFG_EN.on old && !(same F.DMP_L0_CFG_EGRESS && same F.DMP_L0_CFG_PORT && same F.DMP_L0_CFG_VCMASK &&
        same F.DMP_L0_CFG_PEN && same F.DMP_L0_CFG_PARENT), Code.rejState),
      (shift < 4 || 20 < shift, Code.rejRange),
      (egressClash s d w, Code.rejRange),
      (!F.DMP_L0_CFG_EGRESS.on w && (F.DMP_L0_CFG_PORT.get w ≠ 0 || F.DMP_L0_CFG_VCMASK.get w ≠ 0), Code.rejRange)] with
  | some code => (code, s)
  | none =>
    let s := s.setReg a (BitVec.ofNat 64 (bits w.toNat 63 36 * 2 ^ 36 + bits w.toNat 20 0))
    if !F.DMP_L0_CFG_EN.on w then (Code.done, { s with damperOld := AMap.erase s.damperOld d })
    else if !F.DMP_L0_CFG_EN.on old then
      (Code.done, s.setTokens (Reg.DMP_L0_TOK d) (s.fld (Reg.DMP_L0_TOK d) F.DMP_L0_TOK_BURST))
    else if AMap.get s.damperOld 0 d = 0 then
      (Code.done, { s with damperOld := AMap.set s.damperOld 0 d (F.DMP_L0_CFG_PSHIFT.get old + 1) })
    else (Code.done, s)

/-- A write of DMP_L0_TOK: BURST alone is written (R442, R453). -/
def State.writeL0Tok (s : State) (d : Nat) (w : Word) : Nat × State :=
  let burst := F.DMP_L0_TOK_BURST.get w
  if burst = 0 then (Code.rejRange, s)
  else (Code.done, s.setFld (Reg.DMP_L0_TOK d) F.DMP_L0_TOK_BURST burst)

/-- A write of DMP_L1_CFG: at once, with the tokens full or empty (R442). -/
def State.writeL1 (s : State) (d : Nat) (w : Word) : Nat × State :=
  let shift := F.DMP_L1_CFG_PSHIFT.get w
  let burst := F.DMP_L1_CFG_BURST.get w
  if shift < 4 || 20 < shift || burst = 0 then (Code.rejRange, s)
  else
    let keep := bits w.toNat 63 63 * 2 ^ 63 + burst * 2 ^ 32 + bits w.toNat 20 0
    (Code.done, (s.setReg (Reg.DMP_L1_CFG d) (BitVec.ofNat 64 keep)).setTokens (Reg.DMP_L1_TOK d)
      (if F.DMP_L1_CFG_FILL.on w then burst else 0))

/-! ## Gate lists and admission entries (R445, R446) -/

/-- A valid window whose OPEN and CLOSE break R445. -/
def badWindow (k : Nat) (w : Word) : Bool :=
  F.DMP_GATE_WIN_VALID.on w &&
    !(F.DMP_GATE_WIN_OPEN.get w < F.DMP_GATE_WIN_CLOSE.get w && F.DMP_GATE_WIN_CLOSE.get w ≤ 2 ^ k)

/-- A write of DMP_GATE_CFG (R445). -/
def State.writeGateCfg (s : State) (g : Nat) (w : Word) : Nat × State :=
  let a := Reg.DMP_GATE_CFG g
  let k := F.DMP_GATE_CFG_K.get w
  match firstCode [
      (s.isOn a F.DMP_GATE_CFG_EN && k ≠ s.fld a F.DMP_GATE_CFG_K, Code.rejState),
      (k < 8 || 24 < k || (List.range 8).any (fun i => badWindow k (s.reg (Reg.DMP_GATE_WIN g i))), Code.rejRange)] with
  | some code => (code, s)
  | none => (Code.done, s.setReg a (BitVec.ofNat 64 (bits w.toNat 63 58 * 2 ^ 58)))

/-- A write of DMP_GATE_WIN (R445). -/
def State.writeGateWin (s : State) (g i : Nat) (w : Word) : Nat × State :=
  let a := Reg.DMP_GATE_WIN g i
  let keep : Word := BitVec.ofNat 64 (bits w.toNat 63 55 * 2 ^ 55 + bits w.toNat 49 0)
  match firstCode [
      (s.isOn (Reg.DMP_GATE_CFG g) F.DMP_GATE_CFG_EN && keep ≠ s.reg a, Code.rejState),
      (badWindow (s.fld (Reg.DMP_GATE_CFG g) F.DMP_GATE_CFG_K) w, Code.rejRange)] with
  | some code => (code, s)
  | none => (Code.done, s.setReg a keep)

/-- A write of DMP_ADMIT (R350, R446). -/
def State.writeAdmit (s : State) (a : Nat) (w : Word) : Nat × State :=
  let old := s.reg (Reg.DMP_ADMIT a)
  let owner := F.DMP_ADMIT_OWNER.get w
  let valid := F.DMP_ADMIT_VALID.on w
  let twin := (List.range 256).any fun k =>
    k ≠ a && s.isOn (Reg.DMP_ADMIT k) F.DMP_ADMIT_VALID && s.fld (Reg.DMP_ADMIT k) F.DMP_ADMIT_OWNER = owner
  match firstCode [
      (!ownerOk owner, Code.rejRange),
      (valid && twin, Code.rejRange),
      (F.DMP_ADMIT_DEN.on w && s.isOn (Reg.DMP_L0_CFG (F.DMP_ADMIT_DAMPER.get w)) F.DMP_L0_CFG_EGRESS, Code.rejRange),
      (s.isOn (Reg.DMP_ADMIT_Q a) F.DMP_ADMIT_Q_CELLS && ((F.DMP_ADMIT_VALID.on old && !valid) ||
        owner ≠ F.DMP_ADMIT_OWNER.get old), Code.rejState)] with
  | some code => (code, s)
  | none => (Code.done, s.setReg (Reg.DMP_ADMIT a) (BitVec.ofNat 64 (bits w.toNat 63 39 * 2 ^ 39 + bits w.toNat 23 0)))

/-- A write of a register of the Damper block other than its flags and counters (R453). -/
def State.writeDamper (s : State) (off : Nat) (w : Word) : Nat × State :=
  if off = 8 then
    let ns := w.toNat % 2 ^ 32
    if ns < 1000 || 100000000 < ns then (Code.rejRange, s) else (Code.done, s.setFld Reg.DMP_ADMIT_WAIT F.DMP_ADMIT_WAIT_NS ns)
  else if 0x1000 ≤ off && off < 0x1800 then s.writeAdmit ((off - 0x1000) / 8) w
  else if 0x2000 ≤ off && off < 0x2800 then
    if off % 16 = 0 then s.writeL1 ((off - 0x2000) / 16) w else (Code.rejState, s)
  else if 0x4000 ≤ off && off < 0x8000 then
    if off % 16 = 0 then s.writeL0 ((off - 0x4000) / 16) w else s.writeL0Tok ((off - 0x4000) / 16) w
  else if 0x8000 ≤ off && off < 0xA000 then
    let g := (off - 0x8000) / 128
    let i := (off - 0x8000) % 128 / 8
    if i = 0 then s.writeGateCfg g w else if i < 9 then s.writeGateWin g (i - 1) w else (Code.rejRange, s)
  else (Code.rejState, s)

/-! ## Admission (R447, R448) -/

/-- The valid admission entry of an owner. -/
def admitEntry (s : State) (owner : Nat) : Option Nat :=
  (List.range 256).find? fun a =>
    s.isOn (Reg.DMP_ADMIT a) F.DMP_ADMIT_VALID && s.fld (Reg.DMP_ADMIT a) F.DMP_ADMIT_OWNER = owner

/-- MAXQ of an entry leaves room for more cells. -/
def admitRoom (s : State) (a cells : Nat) : Bool :=
  let maxq := s.fld (Reg.DMP_ADMIT a) F.DMP_ADMIT_MAXQ
  maxq = 0 || s.fld (Reg.DMP_ADMIT_Q a) F.DMP_ADMIT_Q_CELLS + cells ≤ maxq

/-- The injection Damper of an entry passes. -/
def admitDamper (s : State) (a : Nat) : Bool :=
  !s.isOn (Reg.DMP_ADMIT a) F.DMP_ADMIT_DEN || damperPasses s (s.fld (Reg.DMP_ADMIT a) F.DMP_ADMIT_DAMPER)

/-- The cells of a list of packets. -/
def cellsIn (ps : List Flying) : Nat := sumNat (ps.map fun f => cellsOf f.pkt)

/-- What admission makes of an injection at issue (R447). -/
inductive Admission where
  | now | refused | waits (damped : Bool)
deriving DecidableEq, Repr

/-- The first row of R447 that applies at issue; the injections of one owner are admitted in issue order (R448). -/
def admission (s : State) (owner cells : Nat) : Admission :=
  match admitEntry s owner with
  | none => .now
  | some a =>
    let maxq := s.fld (Reg.DMP_ADMIT a) F.DMP_ADMIT_MAXQ
    if maxq ≠ 0 && maxq < cells then .refused
    else if admitRoom s a cells && admitDamper s a && !s.admitQ.any (fun w => w.owner = owner) then .now
    else .waits (admitRoom s a cells && !admitDamper s a)

/-- Grate buffers that packets hold are freed. -/
def State.dropBuffers (s : State) (ps : List Flying) : State :=
  ps.foldl (fun s f => match f.buf with | some (l, o) => s.dropBuffer l o | none => s) s

/-- Packets are admitted: their cells count against the owner and its Damper, and they are under way (R440, R448). A
module that sends nothing frees the buffers of those that would leave it (R511). -/
def State.inject (s : State) (owner : Nat) (ps : List Flying) : State :=
  let s : State := match admitEntry s owner with
    | none => ps.foldl State.sendOut s
    | some a =>
      let n := cellsIn ps
      let q := Reg.DMP_ADMIT_Q a
      let s := s.setFld q F.DMP_ADMIT_Q_CELLS (s.fld q F.DMP_ADMIT_Q_CELLS + n)
      let s := if s.isOn (Reg.DMP_ADMIT a) F.DMP_ADMIT_DEN then
          s.takeTokens (s.fld (Reg.DMP_ADMIT a) F.DMP_ADMIT_DAMPER) n else s
      ps.foldl (fun s (f : Flying) => s.sendOut { f with adm := some owner }) s
  if s.silenced then s.dropBuffers (ps.filter fun f => !s.isMine f.pkt) else s

/-- A refusal of admission is counted and flagged (R447). -/
def State.admitRefused (s : State) : State :=
  (s.flag Reg.DMP_STATUS F.DMP_STATUS_REFUSED_SEEN).count Reg.DMP_REFUSALS F.DMP_REFUSALS_COUNT 1

/-- Who waited for admission learns the outcome: the instruction, or the Flue (R447, R480). -/
def State.tellAdmission (s : State) (w : AdmitWait) (code : Nat) : State :=
  match w.core with
  | some c =>
    let g := s.eng c .move
    let told (i : Inflight) : Inflight :=
      { i with awaits := .time, doneAt := s.now, code := if Code.family code = 0 then mergeSuccess i.code code else code }
    s.setEng c .move
      { g with inflight := updateFirst (fun i : Inflight => i.awaits = .admission && i.pc = w.pc) told g.inflight }
  | none =>
    let f := w.owner - 4096
    let bit := if code = Code.deferred then 1 else if code = Code.throttled then 2 else 4
    { s with flueNotes := AMap.set s.flueNotes 0 f (AMap.get s.flueNotes 0 f ||| bit) }

/-- An injection of `owner` is judged at issue: admitted, or queued to wait, or refused; the code it completes with
unless it waits (R447). -/
def State.tryInject (s : State) (owner : Nat) (core : Option CoreId) (pc : Nat) (took : Bool) (ps : List Flying) :
    Option Nat × State :=
  match admission s owner (cellsIn ps) with
  | .now => (some Code.done, s.inject owner ps)
  | .refused => (some Code.refusedAdmission, ((if took then s.dropBuffers ps else s).admitRefused))
  | .waits damped =>
    (none, { s with admitQ := s.admitQ ++
      [{ owner := owner, core := core, pc := pc, issued := s.now, damped := damped, took := took, pkts := ps }] })

/-- ADMISSION_GRANT: the oldest waiting injection of an owner is admitted, THROTTLED if the Damper delayed it, else
DEFERRED (R447, R448). -/
def execAdmissionGrant (owner : Nat) (s : State) : Host.Outcome State Fault Refusal :=
  match takeFirst (fun w : AdmitWait => w.owner = owner) s.admitQ with
  | none => .next s
  | some (w, rest) =>
    let n := cellsIn w.pkts
    let ready := match admitEntry s owner with
      | some a => admitRoom s a n && admitDamper s a
      | none => true
    let blocked := match admitEntry s owner with
      | some a => admitRoom s a n && !admitDamper s a
      | none => false
    if ready then
      let s := { s with admitQ := rest }.inject owner w.pkts
      let s := if w.damped then s.count Reg.DMP_THROTTLES F.DMP_THROTTLES_COUNT 1
               else s.count Reg.DMP_DEFERRALS F.DMP_DEFERRALS_COUNT 1
      .next (s.tellAdmission w (if w.damped then Code.throttled else Code.deferred))
    else if blocked then
      let q := updateFirst (fun w : AdmitWait => w.owner = owner) (fun w => { w with damped := true }) s.admitQ
      .next { s with admitQ := q }
    else .next s

/-- ADMISSION_TIMEOUT: an injection not admitted within DMP_ADMIT_WAIT of its issue is refused (R447). -/
def execAdmissionTimeout (owner : Nat) (s : State) : Host.Outcome State Fault Refusal :=
  match takeFirst (fun w : AdmitWait => w.owner = owner) s.admitQ with
  | none => .next s
  | some (w, rest) =>
    let s := { s.at (w.issued + s.fld Reg.DMP_ADMIT_WAIT F.DMP_ADMIT_WAIT_NS) with admitQ := rest }
    let s := if w.took then s.dropBuffers w.pkts else s
    .next (s.admitRefused.tellAdmission w Code.refusedAdmission)

end Sys2Proof.Machine
end

