-- ==== Sys2Proof/Machine/Link.lean ====
section
/-! DEFINITION. Jorvief Link: frames, link-level retry, training, going down and fencing (chapter 11). -/
namespace Sys2Proof.Machine

/-! ## Ports and frames -/

/-- STATE of a port. -/
def State.portState (s : State) (p : Nat) : Nat := s.fld (Reg.LNK_PORT_STATUS p) F.LNK_PORT_STATUS_STATE

/-- A port is UP. -/
def State.isUp (s : State) (p : Nat) : Bool := s.portState p = 3

/-- WIDTH code of a port: 0 where the lane is not a port's lowest lane. -/
def State.widthCode (s : State) (p : Nat) : Nat := s.fld (Reg.LNK_PORT_CFG p) F.LNK_PORT_CFG_WIDTH

/-- Lanes of a width code. -/
def lanesOf (code : Nat) : Nat := if code = 0 then 0 else 2 ^ (code - 1)

/-- Lanes of a port. -/
def State.width (s : State) (p : Nat) : Nat := lanesOf (s.widthCode p)

/-- The port runs the Ethernet personality. -/
def State.isEth (s : State) (p : Nat) : Bool := s.fld (Reg.LNK_PORT_CFG p) F.LNK_PORT_CFG_PERS = 1

/-- A LINK event at a port is logged with the port and a reason (R395). -/
def State.logPort (s : State) (p : Nat) (details : List Nat) : State :=
  s.logAt AClass.link 0 (0x40 + p / 64) (1 + p / 32 % 2) (p % 32) details

namespace L
def ftype : Fld := ⟨63, 60⟩
def fseq : Fld := ⟨59, 48⟩
def ack : Fld := ⟨47, 36⟩
def nak : Fld := ⟨35, 35⟩
def nakid : Fld := ⟨34, 33⟩
def first : Fld := ⟨31, 24⟩
def fill : Fld := ⟨23, 16⟩
def poola : Fld := ⟨63, 60⟩
def limita : Fld := ⟨59, 32⟩
def poolb : Fld := ⟨31, 28⟩
def limitb : Fld := ⟨27, 0⟩
end L

/-- The per-lane size of a credit pool (R414). -/
def poolSize (s : State) (pool : Nat) : Nat :=
  if pool < 5 then bits (s.reg Reg.RTE_POOLS0).toNat (12 * pool + 11) (12 * pool)
  else bits (s.reg Reg.RTE_POOLS1).toNat (12 * (pool - 5) + 11) (12 * (pool - 5))

/-- A pool's limit: its size and every cell freed since UP, modulo 2^28 (R416). -/
def State.poolLimit (s : State) (p pool : Nat) : Nat :=
  (s.width p * poolSize s pool + AMap.get (s.port p).freed 0 pool) % 2 ^ 28

/-! ## The port the Almanac follows (R150, R154) -/

/-- The module is the root, or has no parent: it free-runs (R150). -/
def freeRuns (s : State) : Bool :=
  let ctl := s.reg Reg.ALM_CTL
  F.ALM_CTL_ROOT.on ctl || !F.ALM_CTL_PARENT_VALID.on ctl

/-- The port a follower follows, with whether it is the backup. -/
def followed (s : State) : Option (Nat × Bool) :=
  let ctl := s.reg Reg.ALM_CTL
  let up (p : Nat) : Bool := s.isUp p && !s.isEth p
  if freeRuns s then none
  else if up (F.ALM_CTL_PARENT_PORT.get ctl) then some (F.ALM_CTL_PARENT_PORT.get ctl, false)
  else if F.ALM_CTL_BACKUP_VALID.on ctl && up (F.ALM_CTL_BACKUP_PORT.get ctl) then
    some (F.ALM_CTL_BACKUP_PORT.get ctl, true)
  else none

/-- ALM_STATUS.STATE. -/
def State.almState (s : State) : Nat := s.fld Reg.ALM_STATUS F.ALM_STATUS_STATE

/-- STATE and ON_BACKUP as the ports now stand (R150, R154). -/
def State.follow (s : State) : State :=
  let a := Reg.ALM_STATUS
  if freeRuns s then
    { (s.setFld a F.ALM_STATUS_STATE 0).setFld a F.ALM_STATUS_ON_BACKUP 0 with lock := ⟨false, 0, 0, none⟩ }
  else
    match followed s with
    | some (_, backup) =>
      let s := s.setFld a F.ALM_STATUS_ON_BACKUP (if backup then 1 else 0)
      if s.almState = 0 || s.almState = 3 then
        { s.setFld a F.ALM_STATUS_STATE 1 with lock := ⟨s.lock.step && s.almState = 0, 0, 0, none⟩ }
      else s
    | none =>
      if s.almState = 3 then s
      else { (s.setFld a F.ALM_STATUS_STATE 3).setFld a F.ALM_STATUS_ON_BACKUP 0 with
             lock := ⟨false, 0, 0, some s.now⟩ }

/-! ## Going down (R394, R395) -/

/-- Packets whose frames are not all acknowledged, one sent in part included. -/
def Port.unsure (x : Port) : Nat := sumNat (x.replay.map TxFrame.ends) + x.stream.length

/-- A CTRL body: MTYPE and content (R382). -/
def ctrlBody (mtype : Nat) (content : List Byte) : List Byte :=
  slice ((BitVec.ofNat 8 mtype : Byte) :: 0 :: 0 :: 0 :: content) 0 620

/-- A CTRL message joins those a port has to send. -/
def State.sendCtrl (s : State) (p : Nat) (body : List Byte) : State :=
  let x := s.port p
  s.setPort p { x with ctrl := x.ctrl ++ [body] }

/-- Packets whose last byte has gone, or that are discarded, leave the module: their cells, admission and buffers are
freed (R365, R417, R448). -/
def State.packetGone (s : State) (f : Flying) : State :=
  let s := (s.freeCells f).unadmit f
  match f.buf with
  | some (l, o) => s.dropBuffer l o
  | none => s

/-- A packet returns to routing at the front of where it came from. -/
def State.unassign (s : State) (f : Flying) : State :=
  match f.port with
  | some q =>
    let x := s.port q
    let pool := packetPool f.pkt
    s.setPort q { x with inq := AMap.set x.inq [] pool (f :: AMap.get x.inq [] pool) }
  | none => { s with origin := f :: s.origin }

/-- Assigned packets that have not started are left to routing (R395). -/
def State.unassignAll (s : State) (p : Nat) : State :=
  let fs := ((s.port p).outq.map Prod.snd).flatten
  let x := s.port p
  fs.reverse.foldl State.unassign (s.setPort p { x with outq := [], tags := [], vtime := 0, fprev := [] })

/-- A new training attempt begins at step 1 (R389). -/
def State.startTraining (s : State) (p : Nat) : State :=
  let (d, s) := s.freeWord
  let x := s.port p
  let t : Train := { start := s.now, step := 1, good := [], rate := 0, rateAt := s.now, own := [], peer := [], result := 0, offset := 0,
                     txd := bits d.toNat 15 0, rxd := bits d.toNat 31 16,
                     told := false, heard := none }
  (s.setPort p { x with train := some t, failedAt := none }).setFld (Reg.LNK_PORT_STATUS p) F.LNK_PORT_STATUS_STATE 2

/-- The state a port that has gone down for a reason is in: DISABLED, or DOWN, or training again at once (R394). -/
def State.afterDown (s : State) (p reason : Nat) : State :=
  if reason = 7 then s.setFld (Reg.LNK_PORT_STATUS p) F.LNK_PORT_STATUS_STATE 0
  else
    let s := s.setFld (Reg.LNK_PORT_STATUS p) F.LNK_PORT_STATUS_STATE 1
    let cfg := s.reg (Reg.LNK_PORT_CFG p)
    if F.LNK_PORT_CFG_ENABLE.on cfg && (reason = 6 || F.LNK_PORT_CFG_AUTO_RETRAIN.on cfg) then s.startTraining p
    else s

/-- The effects of R395 on a port that leaves UP, and of R516 where it is a mirror port, apart from its new state; `keep` packets are being finished. -/
def State.dropLink (s : State) (p reason keep : Nat) : State :=
  let x := s.port p
  let gone := x.unsure - keep
  let s := if keep = 0 then x.stream.foldl (fun s f => s.packetGone f.1) s else s
  let x := s.port p
  let s := s.setPort p { x with
    replay := [], toReplay := 0, stream := if keep = 0 then [] else x.stream, part := [], downAt := some s.now,
    ctrl := x.ctrl ++ [ctrlBody 2 [BitVec.ofNat 8 reason]] }
  let s := (s.unassignAll p).count (Reg.LNK_DISCARDS p) F.LNK_DISCARDS_COUNT gone
  let st := Reg.LNK_PORT_STATUS p
  let s := (s.setFld st F.LNK_PORT_STATUS_DOWN_REASON reason).setFld st F.LNK_PORT_STATUS_VERSION 0
  let s := ((s.flag (Reg.LNK_PORT_FLAGS p) F.LNK_PORT_FLAGS_DOWN_SEEN).count (Reg.LNK_DOWNS p) F.LNK_DOWNS_COUNT
    1).healthAdd 3 (if 1 ≤ reason && reason ≤ 5 then 1 else 0)
  let s := s.logPort p [p, reason]
  if s.fld Reg.VIG_SHD_CTL F.VIG_SHD_CTL_PORT = p && ((1 ≤ reason && reason ≤ 5) || reason = 8) then
    s.endShadow Code.failStateLost (s.fld Reg.VIG_SHD_LAST F.VIG_SHD_LAST_LAST_TICK)
  else s

/-- A port goes down for a reason (R394, R395). Of the causes that arise in one cycle DOWN_REASON keeps the highest. -/
def State.portDown (s : State) (p reason : Nat) : State :=
  if s.isUp p then ((s.dropLink p reason 0).afterDown p reason).follow
  else
    let st := Reg.LNK_PORT_STATUS p
    if (s.port p).downAt = some s.now && s.fld st F.LNK_PORT_STATUS_DOWN_REASON < reason then
      s.setFld st F.LNK_PORT_STATUS_DOWN_REASON reason
    else s

/-- A port that is not fenced is disabled or retrained by software (R394, R410). -/
def State.softDown (s : State) (p reason : Nat) : State :=
  if s.isUp p then s.portDown p reason
  else
    let x := s.port p
    ((s.setPort p { x with train := none, failedAt := none }).setFld (Reg.LNK_PORT_STATUS p)
      F.LNK_PORT_STATUS_DOWN_REASON reason).afterDown p reason

/-- A port is fenced: it finishes the packets it is sending, then sends DOWN (R396). -/
def State.fencePort (s : State) (p : Nat) : State :=
  if s.portState p = 4 then s
  else
    let up := s.isUp p
    let s := if up then s.dropLink p 8 (s.port p).stream.length
      else (s.sendCtrl p (ctrlBody 2 [8])).setFld (Reg.LNK_PORT_STATUS p) F.LNK_PORT_STATUS_DOWN_REASON 8
    let x := s.port p
    ((s.setPort p { x with train := none, failedAt := none }).setFld (Reg.LNK_PORT_STATUS p) F.LNK_PORT_STATUS_STATE
      4).follow.freezeRec

/-- A fenced port is released: it enters DOWN and retrains under AUTO_RETRAIN; one that is not enabled is DISABLED
(R396). -/
def State.releasePort (s : State) (p : Nat) : State :=
  if s.portState p ≠ 4 then s
  else if s.isOn (Reg.LNK_PORT_CFG p) F.LNK_PORT_CFG_ENABLE then s.afterDown p 8
  else s.setFld (Reg.LNK_PORT_STATUS p) F.LNK_PORT_STATUS_STATE 0

/-! ## Receiving (R383 to R387, R415, R416) -/

/-- One credit count is honoured; pools 10 to 15 name none (R415). -/
def Port.credit (x : Port) (pool limit : Nat) : Port :=
  if pool < 10 then { x with limit := AMap.set x.limit 0 pool (limit + 1) } else x

/-- Frames up to an acknowledged FSEQ leave the replay buffer (R383). -/
def Port.acked (x : Port) (ack now : Nat) : Port :=
  match x.replay with
  | [] => x
  | f :: _ =>
    let n := (ack + 1 + 4096 - f.seq) % 4096
    if n = 0 || x.replay.length < n then x
    else
      let rest := x.replay.drop n
      { x with replay := rest, toReplay := Nat.min x.toReplay rest.length, ackAt := now }

/-- The ACK, NAK and credit word of a good frame are honoured (R385, R386). -/
def State.honour (s : State) (p : Nat) (f : Frame) : State :=
  let x := { s.port p with lastGood := s.now }
  let x := (x.credit (L.poola.get f.credit) (L.limita.get f.credit)).credit (L.poolb.get f.credit)
    (L.limitb.get f.credit)
  let x := x.acked (L.ack.get f.hdr) s.now
  if L.nak.on f.hdr && L.nakid.get f.hdr ≠ x.acted then
    let s := s.setPort p { x with acted := L.nakid.get f.hdr, toReplay := x.replay.length }
    if x.replay.isEmpty then s else (s.count (Reg.LNK_REPLAYS p) F.LNK_REPLAYS_COUNT 1).healthAdd 2 1
  else s.setPort p x

/-- A good frame reaches an UP Jorvief port; other ports discard it (R396). -/
def State.hear (s : State) (p : Nat) (f : Frame) : Option State :=
  if s.isUp p && !s.isEth p then some (s.honour p f) else none

/-- A discard episode begins, or a failed replay of the expected frame begins a new one (R384). -/
def Port.discard (x : Port) (again : Bool) : Port :=
  if x.nakOpen && !again then x else { x with nakOpen := true, nakId := (x.nakId + 1) % 4 }

/-- Bytes of a packet on a link (R381). -/
def linkBytes (len : Nat) : Nat := ceilDiv (16 + len) 4 * 4

/-- Whole packets cut off the front of received bytes, and the rest. -/
def cutPackets (bs : List Byte) : Nat → List Packet × List Byte
  | 0 => ([], bs)
  | n + 1 =>
    if bs.length < 16 then ([], bs)
    else
      let w0 : Word := BitVec.ofNat 64 (leAt bs 0 8)
      let len := P.length.get w0
      if bs.length < linkBytes len then ([], bs)
      else
        let p : Packet := { w0 := w0, w1 := BitVec.ofNat 64 (leAt bs 8 8), payload := slice bs 16 len }
        let (ps, rest) := cutPackets (bs.drop (linkBytes len)) n
        (p :: ps, rest)

/-- The packet bytes of an accepted frame's body join those received (R378, R381). -/
def State.takeBody (s : State) (p : Nat) (f : Frame) : State :=
  let x := s.port p
  let body := (slice f.body 0 620).take (4 * L.fill.get f.hdr)
  let first := L.first.get f.hdr
  let new := if x.part.isEmpty then (if first = 255 then [] else body.drop (4 * first)) else body
  let (ps, rest) := cutPackets (x.part ++ new) 160
  let s := s.setPort p { x with part := rest, arrived := x.arrived ++ ps }
  s.bump (Reg.LNK_RX_BYTES p) F.LNK_RX_BYTES_COUNT (sumNat (ps.map fun q => 16 + h0 q P.length))

/-- A DATA or REPLAY frame is accepted in sequence, or discarded (R384). -/
def State.takeFrame (s : State) (p ftype : Nat) (f : Frame) : State :=
  match s.hear p f with
  | none => s
  | some s =>
    let x := s.port p
    if L.ftype.get f.hdr ≠ ftype then s
    else if L.fseq.get f.hdr = x.expect then
      (s.setPort p { x with expect := (x.expect + 1) % 4096, nakOpen := false }).takeBody p f
    else s.setPort p (x.discard false)

/-- DATA_FRAME: a received DATA frame (R384, R385). -/
def execDataFrame (port : Nat) (f : Frame) (s : State) : Host.Outcome State Fault Refusal :=
  onUnit (port < 1024) (s.takeFrame port 1 f)

/-- REPLAY_FRAME: a received REPLAY frame (R384, R385). -/
def execReplayFrame (port : Nat) (f : Frame) (s : State) : Host.Outcome State Fault Refusal :=
  onUnit (port < 1024) (s.takeFrame port 3 f)

/-- IDLE_FRAME: a received IDLE frame (R385). -/
def execIdleFrame (port : Nat) (f : Frame) (s : State) : Host.Outcome State Fault Refusal :=
  onUnit (port < 1024) ((s.hear port f).getD s)

/-- A CTRL frame with a message of a type: the state after its header is honoured, and its content (R382). -/
def State.hearCtrl (s : State) (p mtype : Nat) (f : Frame) : Option (State × List Byte) :=
  match s.hear p f with
  | none => none
  | some s =>
    if L.ftype.get f.hdr = 2 && leAt f.body 0 1 = mtype then some (s, f.body.drop 4) else none

/-- The state after a frame that was heard but carries no message of the expected type. -/
def State.heardOnly (s : State) (p : Nat) (f : Frame) : State := (s.hear p f).getD s

/-- DOWN: a received DOWN message (R394). -/
def execDown (port : Nat) (f : Frame) (s : State) : Host.Outcome State Fault Refusal :=
  onUnit (port < 1024) <|
    match s.hearCtrl port 2 f with
    | some (s, _) => s.portDown port 5
    | none => s.heardOnly port f

/-- BAD_FRAME: a frame that fails decoding or its CRC is discarded; `replayed` is the FSEQ of a REPLAY frame (R384).
While the port trains, no lane's run of good TRAIN frames continues (R389). -/
def execBadFrame (port : Nat) (undecoded : Bool) (replayed : Option Nat) (s : State) :
    Host.Outcome State Fault Refusal :=
  onUnit (port < 1024) <|
    let s := if undecoded then s.count (Reg.LNK_FEC_UNCORR port) F.LNK_FEC_UNCORR_COUNT 1
             else s.count (Reg.LNK_CRC_ERRS port) F.LNK_CRC_ERRS_COUNT 1
    let x := s.port port
    if s.isUp port && !s.isEth port then s.setPort port (x.discard (replayed = some x.expect))
    else
      match x.train with
      | some t => s.setPort port { x with train := some { t with good := [] } }
      | none => s

/-! ## Sending (R378 to R383, R386, R387, R396, R415) -/

/-- The credit word of the next frame: two limits, in ascending pool order (R415, R417). -/
def State.creditWord (s : State) (p : Nat) : Word :=
  let k := (s.port p).pair
  wordOf [(L.poola, 2 * k), (L.limita, s.poolLimit p (2 * k)), (L.poolb, 2 * k + 1),
    (L.limitb, s.poolLimit p (2 * k + 1))]

/-- A frame leaves: its header carries the current ACK, NAK and NAKID, and the next credit word goes with it (R378,
R385). -/
def State.emit (s : State) (p ftype fseq first fill : Nat) (body : List Byte) : State :=
  let x := s.port p
  let fenced := s.portState p = 4
  let hdr := wordOf [(L.ftype, ftype), (L.fseq, fseq), (L.ack, (x.expect + 4095) % 4096),
    (L.nak, if x.nakOpen && !fenced then 1 else 0), (L.nakid, x.nakId), (L.first, first), (L.fill, fill)]
  let f : Frame := { hdr := hdr, credit := s.creditWord p, body := body }
  s.setPort p { x with lastTx := some f, pair := (x.pair + 1) % 5, slots := x.slots + 1,
                       busy := x.busy + (if ftype = 1 || ftype = 3 then 1 else 0) }

/-- Up to `n` bytes of the packets being sent: the bytes, the offset where the first packet starts, the packets that
end, and the packets left. -/
def cutStream : List (Flying × List Byte) → Nat → Nat → List Byte × Option Nat × List Flying × List (Flying × List Byte)
  | [], _, _ => ([], none, [], [])
  | (f, bs) :: rest, n, off =>
    let starts := if bs.length = linkBytes f.pkt.payload.length && 0 < n then some off else none
    if n < bs.length then (bs.take n, starts, [], (f, bs.drop n) :: rest)
    else
      let (more, s2, ends, left) := cutStream rest (n - bs.length) (off + bs.length)
      (bs ++ more, starts.or s2, f :: ends, left)

/-- The bytes of a packet on a link (R381). -/
def packetBytes (p : Packet) : List Byte :=
  let bs := leBytes 8 p.w0.toNat ++ leBytes 8 p.w1.toNat ++ p.payload
  bs ++ List.replicate (linkBytes p.payload.length - bs.length) 0

/-- A new DATA frame takes the next packet bytes (R381, R383). -/
def State.sendData (s : State) (p : Nat) : State :=
  let x := s.port p
  let (bs, start, ends, left) := cutStream x.stream 620 0
  let first := match start with | some o => o / 4 | none => 255
  let fill := bs.length / 4
  let body := slice bs 0 620
  let t : TxFrame := { seq := x.txSeq, first := first, fill := fill, body := body, replays := 0, ends := ends.length }
  let s := s.emit p 1 x.txSeq first fill body
  let y := s.port p
  let s := s.setPort p { y with
    stream := left, txSeq := (y.txSeq + 1) % 4096, cells := y.cells + cellsIn ends,
    replay := if s.portState p = 4 then [] else y.replay ++ [t], ackAt := if y.replay.isEmpty then s.now else y.ackAt }
  let s := s.bump (Reg.LNK_TX_BYTES p) F.LNK_TX_BYTES_COUNT (sumNat (ends.map fun f => 16 + h0 f.pkt P.length))
  ends.foldl State.packetGone s

/-- The next frame of a replay is sent again; the eighth REPLAY of one FSEQ takes the port down (R386, R387). -/
def State.sendReplay (s : State) (p : Nat) : State :=
  let x := s.port p
  let i := x.replay.length - x.toReplay
  match x.replay[i]? with
  | none => s
  | some t =>
    let s := s.emit p 3 t.seq t.first t.fill t.body
    let y := s.port p
    let s := s.setPort p { y with toReplay := y.toReplay - 1, replay := y.replay.set i { t with replays := t.replays + 1 } }
    if 8 ≤ t.replays + 1 then s.portDown p 3 else s

/-- This end's capability word (R389). -/
def State.capWord (s : State) (p : Nat) : Word :=
  let cfg := s.reg (Reg.LNK_PORT_CFG p)
  wordOf [(F.LNK_PEER_VALID, 1), (F.LNK_PEER_MAXVER, F.LNK_PORT_CFG_MAXVER.get cfg),
    (F.LNK_PEER_RATES, F.LNK_PORT_CFG_RATES.get cfg), (F.LNK_PEER_WIDTH, F.LNK_PORT_CFG_WIDTH.get cfg),
    (F.LNK_PEER_PORT, p), (F.LNK_PEER_ID, s.moduleId.getD 0)]

/-- The body of a TRAIN frame (R389). -/
def State.trainBody (s : State) (p : Nat) (t : Train) : List Byte :=
  slice (leBytes 8 (s.capWord p).toNat ++ leBytes 1 t.step ++ leBytes 1 (AMap.get t.own 0 t.rate) ++ leBytes 2 t.txd ++
    leBytes 2 t.rxd ++ leBytes 1 t.result ++ leBytes 1 t.offset) 0 620

/-- An Ethernet port sends the next frame of its transmit queue, unless its priority is paused (R405, R407). -/
def State.sendEth (s : State) (p : Nat) : State :=
  let x := s.port p
  match x.ethTx with
  | [] => s
  | (_, f) :: rest =>
    let pcp := if leAt f 12 2 = 0x0081 then leAt f 14 1 / 32 else 0
    if s.alm < AMap.get x.paused 0 pcp || s.alm < AMap.get x.paused 0 8 then s
    else (s.setPort p { x with ethTx := rest, lastEth := some f }).bump (Reg.LNK_TX_BYTES p) F.LNK_TX_BYTES_COUNT f.length

/-! ## Training (R389 to R393, R404) -/

/-- A training attempt fails: TRAIN_FAIL, and a new attempt 100 ms later (R393). -/
def State.trainFail (s : State) (p : Nat) : State :=
  let x := s.port p
  let st := Reg.LNK_PORT_STATUS p
  let s := s.setPort p { x with train := none, failedAt := some s.now }
  let s := (s.setFld st F.LNK_PORT_STATUS_STATE 1).setFld st F.LNK_PORT_STATUS_DOWN_REASON 9
  (s.count (Reg.LNK_DOWNS p) F.LNK_DOWNS_COUNT 1).logPort p []

/-- A training attempt replaced. -/
def State.setTrain (s : State) (p : Nat) (t : Train) : State := s.setPort p { s.port p with train := some t }

/-- Rate codes both ends may use, highest first (R391). -/
def State.commonRates (s : State) (p : Nat) : List Nat :=
  let cfg := s.reg (Reg.LNK_PORT_CFG p)
  let peer := s.reg (Reg.LNK_PEER p)
  let both := F.LNK_PORT_CFG_RATES.get cfg &&& F.LNK_PEER_RATES.get peer
  let v2 := F.LNK_PORT_CFG_MAXVER.get cfg = 2 && F.LNK_PEER_MAXVER.get peer = 2
  [3, 2, 1].filter fun r => bitAt both (r - 1) && (r ≠ 3 || v2)

/-- The mask of a port's lanes. -/
def State.laneMask (s : State) (p : Nat) : Nat := 2 ^ s.width p - 1

/-- A rate is measured for 1 ms; which lanes pass at this end, as PASS shows it to the peer meanwhile, is a free value
(R389, R391). -/
def State.testRate (s : State) (p : Nat) (t : Train) (r : Nat) : State :=
  let (m, s) := s.freeWord
  s.setTrain p { t with step := 3, rate := r, rateAt := s.now, own := AMap.set t.own 0 r (m.toNat &&& s.laneMask p) }

/-- Step 3 begins at the highest common rate, or the attempt fails (R391). -/
def State.beginRates (s : State) (p : Nat) (t : Train) : State :=
  match s.commonRates p with
  | r :: _ => s.testRate p t r
  | [] => s.trainFail p

/-- CODEWORD_LOCK: all lanes of a training port have signal and lock, and step 2 begins (R389). -/
def execCodewordLock (port : Nat) (s : State) : Host.Outcome State Fault Refusal :=
  onUnit (port < 1024) <|
    match (s.port port).train with
    | some t =>
      if t.step ≠ 1 || s.isEth port then s
      else
        let s := (List.range (s.width port)).foldl (fun s i =>
          let a := Reg.LNK_LANE_STATUS (port + i)
          (s.setFld a F.LNK_LANE_STATUS_SIGNAL 1).setFld a F.LNK_LANE_STATUS_LOCK 1) s
        s.setTrain port { t with step := 2 }
    | none => s

/-- LNK_ASYM (R392). -/
def asymOf (own_txd own_rxd peer_txd peer_rxd : Nat) (trim : Int) : Int :=
  (((own_txd + peer_rxd : Nat) : Int) - ((peer_txd + own_rxd : Nat) : Int)) / 2 + trim

/-- Step 6: the port forms its trained width and enters UP (R389, R393, R416). -/
def State.enterUp (s : State) (p rate version tw off : Nat) : State :=
  let x := s.port p
  let s := s.setPort p
    { x with txSeq := 0, replay := [], toReplay := 0, acted := 0, ctrl := [], sent := [], limit := [], expect := 0,
             nakOpen := false, nakId := 0, part := [], freed := [], pair := 0, lastGood := s.now, ackAt := s.now,
             train := none, failedAt := none, downAt := none }
  let st := Reg.LNK_PORT_STATUS p
  let s := ((((s.setFld st F.LNK_PORT_STATUS_STATE 3).setFld st F.LNK_PORT_STATUS_VERSION version).setFld st
    F.LNK_PORT_STATUS_RATE rate).setFld st F.LNK_PORT_STATUS_TWIDTH tw).setFld st F.LNK_PORT_STATUS_TOFFSET off
  let s := (List.range (s.width p)).foldl (fun s i =>
    let a := Reg.LNK_LANE_STATUS (p + i)
    if off ≤ i && i < off + lanesOf tw then
      (s.setFld a F.LNK_LANE_STATUS_RATE rate).setFld a F.LNK_LANE_STATUS_PASS 1
    else (s.setFld a F.LNK_LANE_STATUS_RATE 0).setFld a F.LNK_LANE_STATUS_PASS 0) s
  (s.lifeAdd 11 1).follow

/-- Gbit/s per lane of a rate code, in units of 100. -/
def rateUnits (r : Nat) : Nat := if r = 0 then 0 else 2 ^ (r - 1)

/-- Every candidate of R391 that qualifies: rate code, width code and offset, best first among equal bandwidths. -/
def State.trainChoices (s : State) (p : Nat) (t : Train) : List (Nat × Nat × Nat) :=
  let full := s.widthCode p
  let narrow := s.isOn (Reg.LNK_PORT_CFG p) F.LNK_PORT_CFG_DEGRADE
  let codes := if narrow then (List.range full).map fun i => full - i else [full]
  (codes.map fun wc =>
    ((List.range (lanesOf full / lanesOf wc)).map fun k =>
      ((s.commonRates p).filter fun r =>
        let m := AMap.get t.own 0 r &&& AMap.get t.peer 0 r
        (List.range (lanesOf wc)).all fun i => bitAt m (k * lanesOf wc + i)).map fun r =>
          (r, wc, k * lanesOf wc)).flatten).flatten

/-- The first candidate of the highest bandwidth (R391). -/
def bestChoice : List (Nat × Nat × Nat) → Option (Nat × Nat × Nat)
  | [] => none
  | c :: cs =>
    match bestChoice cs with
    | some b => if rateUnits c.1 * lanesOf c.2.1 < rateUnits b.1 * lanesOf b.2.1 then some b else some c
    | none => some c

/-- Step 4: the result is chosen, or the attempt fails (R391). -/
def State.choose (s : State) (p : Nat) (t : Train) : State :=
  match bestChoice (s.trainChoices p t) with
  | some (r, wc, off) =>
    s.setTrain p { t with step := 4, result := (if r = 3 then 2 else 1) + 4 * r + 16 * wc, offset := off }
  | none => s.trainFail p

/-- RATE_MEASUREMENT_END: 1 ms at the rate under test is over; measurement stops at the first rate at which every lane
passes (R391). -/
def execRateMeasurementEnd (port : Nat) (s : State) : Host.Outcome State Fault Refusal :=
  onUnit (port < 1024) <|
    match (s.port port).train with
    | some t =>
      if t.step ≠ 3 then s
      else
        let s := s.at (t.rateAt + 1000000)
        let both := AMap.get t.own 0 t.rate &&& AMap.get t.peer 0 t.rate
        if both &&& s.laneMask port = s.laneMask port then s.choose port t
        else
          match (s.commonRates port).find? (fun r => r < t.rate) with
          | some r => s.testRate port t r
          | none => s.choose port t
    | none => s

/-- Step 5 ends once both ends have exchanged their delays, and step 6 follows (R389, R392). -/
def State.finishTraining (s : State) (p : Nat) (t : Train) : State :=
  match t.told, t.heard with
  | true, some (txd, rxd) =>
    let trim := toSigned 32 (s.fld (Reg.LNK_ASYM_TRIM p) F.LNK_ASYM_TRIM_PS)
    let a := asymOf t.txd t.rxd txd rxd trim
    (s.setFld (Reg.LNK_ASYM p) F.LNK_ASYM_PS (ofSigned 32 a)).enterUp p (bits t.result 3 2) (bits t.result 1 0)
      (bits t.result 6 4) t.offset
  | _, _ => s.setTrain p t

/-- FRAME_SEND: at a frame boundary a port sends a REPLAY, CTRL, DATA or IDLE frame, in that order; a training port
sends a TRAIN frame, and an Ethernet port an Ethernet frame (R380, R383, R386, R389, R396). -/
def execFrameSend (port : Nat) (s : State) : Host.Outcome State Fault Refusal :=
  onUnit (port < 1024) <|
    let x := s.port port
    let st := s.portState port
    if s.isEth port then (if st = 3 && s.mstate ≠ MState.fenced then s.sendEth port else s)
    else if st = 3 && x.toReplay ≠ 0 then s.sendReplay port
    else if st = 4 && !x.stream.isEmpty then s.sendData port
    else
      match x.ctrl with
      | b :: rest => if st = 0 && x.downAt.isNone then s
                     else (s.setPort port { x with ctrl := rest }).emit port 2 x.txSeq 255 0 b
      | [] =>
        if st = 3 then
          if !x.stream.isEmpty && x.replay.length < 256 * s.width port then s.sendData port
          else s.emit port 0 x.txSeq 255 0 (List.replicate 620 0)
        else if st = 4 then s.emit port 0 x.txSeq 255 0 (List.replicate 620 0)
        else
          match x.train with
          | some t =>
            let s := s.emit port 4 0 255 0 (s.trainBody port t)
            s.finishTraining port { t with told := t.told || t.step = 5 }
          | none => s

/-- TRAIN_FRAME: a good TRAIN frame on one lane advances the training steps (R389 to R392). -/
def execTrainFrame (port lane : Nat) (body : List Byte) (s : State) : Host.Outcome State Fault Refusal :=
  onUnit (port < 1024 && lane < 8) <|
    match (s.port port).train with
    | none => s
    | some t =>
      let cap : Word := BitVec.ofNat 64 (leAt body 0 8)
      let step := leAt body 8 1
      let delays := if 5 ≤ step then some (leAt body 10 2, leAt body 12 2) else none
      if s.width port ≤ lane || s.isEth port then s
      else if t.step = 2 then
        let good := AMap.set t.good 0 lane (if 2 ≤ step then AMap.get t.good 0 lane + 1 else 0)
        let t := { t with good := good }
        let s := s.setReg (Reg.LNK_PEER port) (F.LNK_PEER_VALID.put cap 1)
        if F.LNK_PEER_WIDTH.get cap ≠ s.widthCode port then s.trainFail port
        else if (List.range (s.width port)).all (fun i => 16 ≤ AMap.get t.good 0 i) then s.beginRates port t
        else s.setTrain port t
      else if t.step = 3 then
        s.setTrain port { t with peer := AMap.set t.peer 0 t.rate (leAt body 9 1) }
      else if t.step = 4 then
        if 4 ≤ step && leAt body 14 1 = t.result && leAt body 15 1 = t.offset then
          s.setTrain port { t with step := 5, heard := delays }
        else s
      else if t.step = 5 && delays.isSome then s.finishTraining port { t with heard := delays }
      else s

/-- TRAIN_TIMEOUT: a training attempt has not ended in 10 ms (R393). -/
def execTrainTimeout (port : Nat) (s : State) : Host.Outcome State Fault Refusal :=
  onUnit (port < 1024) <|
    match (s.port port).train with
    | some t => (s.at (t.start + 10000000)).trainFail port
    | none => s

/-- TRAIN_RETRY: 100 ms after a failed attempt an enabled port trains again (R393). -/
def execTrainRetry (port : Nat) (s : State) : Host.Outcome State Fault Refusal :=
  onUnit (port < 1024) <|
    match (s.port port).failedAt with
    | some t =>
      if s.isOn (Reg.LNK_PORT_CFG port) F.LNK_PORT_CFG_ENABLE && s.portState port = 1 then
        (s.at (t + 100000000)).startTraining port
      else s
    | none => s

/-- ETH_ALIGNMENT_LOCK: an Ethernet port gains alignment lock and is UP (R404). -/
def execEthAlignmentLock (port : Nat) (s : State) : Host.Outcome State Fault Refusal :=
  onUnit (port < 1024) <|
    if s.isEth port && s.portState port = 2 then
      let rates := s.fld (Reg.LNK_PORT_CFG port) F.LNK_PORT_CFG_RATES
      s.enterUp port (if bitAt rates 1 then 2 else 1) 0 (s.widthCode port) 0
    else s

/-! ## Causes of going down (R394) -/

/-- LANE_SIGNAL_LOSS: a lane loses signal or lock; a trained lane takes its port down (R394). -/
def execLaneSignalLoss (port lane : Nat) (s : State) : Host.Outcome State Fault Refusal :=
  onUnit (port < 1024 && lane < 8) <|
    let a := Reg.LNK_LANE_STATUS (port + lane)
    let st := s.reg (Reg.LNK_PORT_STATUS port)
    let off := F.LNK_PORT_STATUS_TOFFSET.get st
    let trained := off ≤ lane && lane < off + lanesOf (F.LNK_PORT_STATUS_TWIDTH.get st)
    if s.width port ≤ lane then s
    else
      let s := (s.setFld a F.LNK_LANE_STATUS_SIGNAL 0).setFld a F.LNK_LANE_STATUS_LOCK 0
      if trained then s.portDown port 1 else s

/-- SILENT_TIMEOUT: no good frame for 500 ns (R394). -/
def execSilentTimeout (port : Nat) (s : State) : Host.Outcome State Fault Refusal :=
  onUnit (port < 1024) <|
    if s.isUp port && !s.isEth port then (s.at ((s.port port).lastGood + 500)).portDown port 2 else s

/-- STALL_TIMEOUT: unacknowledged frames and no ACK progress for 10 µs (R394). -/
def execStallTimeout (port : Nat) (s : State) : Host.Outcome State Fault Refusal :=
  onUnit (port < 1024) <|
    let x := s.port port
    if s.isUp port && !x.replay.isEmpty then (s.at (x.ackAt + 10000)).portDown port 4 else s

/-! ## Port registers (R26, R404, R410) -/

/-- A lane of another configured port. -/
def State.laneTaken (s : State) (p w : Nat) : Bool :=
  (List.range 15).any fun k =>
    let q := p + k
    7 ≤ q && q - 7 ≠ p && (let o := q - 7
                           let ow := s.width o
                           0 < ow && o < p + w && p < o + ow)

/-- Enabled Ethernet ports of the module, one excepted. -/
def State.ethPorts (s : State) (p : Nat) : Nat :=
  (List.range 1024).countP fun q =>
    q ≠ p && (let cfg := s.reg (Reg.LNK_PORT_CFG q)
              F.LNK_PORT_CFG_ENABLE.on cfg && F.LNK_PORT_CFG_PERS.get cfg = 1)

/-- The configuration an LNK_PORT_CFG write asks for is one that R26, R404 or R410 refuses. -/
def State.badPortCfg (s : State) (p : Nat) (w : Word) : Bool :=
  let code := F.LNK_PORT_CFG_WIDTH.get w
  let pers := F.LNK_PORT_CFG_PERS.get w
  let ver := F.LNK_PORT_CFG_MAXVER.get w
  let rates := F.LNK_PORT_CFG_RATES.get w
  let en := F.LNK_PORT_CFG_ENABLE.on w
  4 < code || (code ≠ 0 && (p % lanesOf code ≠ 0 || s.laneTaken p (lanesOf code))) || 1 < pers ||
  ver = 0 || 2 < ver || rates = 0 || (en && code = 0) ||
  (pers = 1 && en && (64 ≤ s.ethPorts p || bitAt rates 2 || (code = 4 && bitAt rates 1)))

/-- A write of LNK_PORT_CFG (R410). -/
def State.writePortCfg (s : State) (p : Nat) (w : Word) : Nat × State :=
  let a := Reg.LNK_PORT_CFG p
  let old := s.reg a
  let new := w &&& 0xFFFC000000000000
  let on0 := F.LNK_PORT_CFG_ENABLE.on old
  let on1 := F.LNK_PORT_CFG_ENABLE.on new
  let others := (new ^^^ old) &&& 0x7FFC000000000000 != 0
  let m := s.mstate
  match firstCode [
      (others && (m ≠ MState.banked || on0), Code.rejState),
      (!on0 && on1 && m ≠ MState.banked, Code.rejState),
      (on0 && !on1 && !((m = MState.banked || m = MState.damped || m = MState.fenced) && s.portState p ≠ 4),
        Code.rejState),
      (s.portState p = 4 && on0 ≠ on1, Code.rejState),
      (s.badPortCfg p new, Code.rejRange)] with
  | some code => (code, s)
  | none =>
    let s := s.setReg a new
    if !on0 && on1 then (Code.done, s.startTraining p)
    else if on0 && !on1 then (Code.done, s.softDown p 7)
    else (Code.done, s)

/-- A write of LNK_PORT_CTL (R410). -/
def State.writePortCtl (s : State) (p : Nat) (w : Word) : Nat × State :=
  if !F.LNK_PORT_CTL_RETRAIN.on w then (Code.done, s)
  else if s.isOn (Reg.LNK_PORT_CFG p) F.LNK_PORT_CFG_ENABLE && s.portState p ≠ 4 then (Code.done, s.softDown p 6)
  else (Code.rejState, s)

/-- PORT_ENABLE: LNK_PORT_CFG.ENABLE is set (R410). -/
def execPortEnable (port : Nat) (s : State) : Host.Outcome State Fault Refusal :=
  onUnit (port < 1024) <|
    let r := s.writePortCfg port (F.LNK_PORT_CFG_ENABLE.put (s.reg (Reg.LNK_PORT_CFG port)) 1)
    r.2.completed r.1 0

/-- PORT_DISABLE: LNK_PORT_CFG.ENABLE is cleared (R410). -/
def execPortDisable (port : Nat) (s : State) : Host.Outcome State Fault Refusal :=
  onUnit (port < 1024) <|
    let r := s.writePortCfg port (F.LNK_PORT_CFG_ENABLE.put (s.reg (Reg.LNK_PORT_CFG port)) 0)
    r.2.completed r.1 0

/-- PORT_RETRAIN: LNK_PORT_CTL.RETRAIN is written (R394, R410). -/
def execPortRetrain (port : Nat) (s : State) : Host.Outcome State Fault Refusal :=
  onUnit (port < 1024) <|
    let r := if s.widthCode port = 0 then (Code.rejState, s) else s.writePortCtl port 1
    r.2.completed r.1 0

end Sys2Proof.Machine
end

