-- ==== Sys2Proof/Machine/Almanac.lean ====
section
/-! DEFINITION. The Almanac: time messages, lock, holdover and its control registers (chapter 04). -/
namespace Sys2Proof.Machine

/-! ## Time messages (R151, R152) -/

/-- A port's time messages. -/
def State.portTime (s : State) (p : Nat) : PortTime := AMap.get s.times PortTime.none p

/-- A port's time messages set. -/
def State.setPortTime (s : State) (p : Nat) (x : PortTime) : State :=
  { s with times := AMap.set s.times PortTime.none p x }

/-- The Almanac as ten bytes, its fraction a free multiple of 1/16 ns (R151). -/
def State.stamp (s : State) : List Byte × State :=
  let (w, s) := s.freeWord
  (leBytes 2 (w.toNat % 16 * 4096) ++ leBytes 8 s.alm, s)

/-- The time in ten bytes, in units of 2^−16 ns. -/
def stampNat (bs : List Byte) : Nat := leAt bs 2 8 * 65536 + leAt bs 0 2

/-- The module is locked for every rule of the chapter: LOCKED, or root (R154). -/
def State.isLocked (s : State) : Bool := s.isOn Reg.ALM_CTL F.ALM_CTL_ROOT || s.almState = 2

/-- The 48 bytes of a time message (R151). -/
def timeBytes (seq : Nat) (tx seen : List Byte) (locked root : Bool) (depth : Nat) : List Byte :=
  leBytes 2 seq ++ tx ++ slice seen 0 22 ++ leBytes 1 ((if locked then 1 else 0) + (if root then 2 else 0)) ++
    leBytes 1 depth ++ List.replicate 12 0

/-- TIME_MESSAGE_SEND: an UP Jorvief port sends its time message, 1 µs after the last (R151). -/
def execTimeMessageSend (port : Nat) (s : State) : Host.Outcome State Fault Refusal :=
  onUnit (port < 1024) <|
    if !s.isUp port || s.isEth port then s
    else
      let x := s.portTime port
      let s := if x.last = 0 then s else s.at (x.last - 1 + 1000)
      let (tx, s) := s.stamp
      let x := { x with seq := (x.seq + 1) % 65536, last := s.now + 1,
                        sent := (x.seq, s.now, tx) :: x.sent.filter (fun m => s.now ≤ m.2.1 + 4000) }
      let body := timeBytes (s.portTime port).seq tx x.seen s.isLocked (s.isOn Reg.ALM_CTL F.ALM_CTL_ROOT)
        (s.fld Reg.ALM_STATUS F.ALM_STATUS_DEPTH)
      (s.setPortTime port x).sendCtrl port (ctrlBody 1 body)

/-- The offset of a time message, in units of ps / 131,072 (R152): `asym` is the port's asymmetry in ps. -/
def offsetOfMsg (t1 t2 t3 t4 : Nat) (asym : Int) : Int :=
  (((t2 : Int) - t1) - ((t4 : Int) - t3)) * 1000 - asym * 131072

/-- An offset lies beyond a bound in ps. -/
def beyond (theta : Int) (ps : Nat) : Bool := ps * 131072 < theta.natAbs

/-- An offset rounded to whole ns; a free bit decides a tie (R155). -/
def wholeNs (theta : Int) (up : Bool) : Int :=
  let unit : Int := 131072000
  let q := theta / unit
  let r := theta % unit
  if 2 * r < unit || (2 * r = unit && !up) then q else q + 1

/-- The reference and every die copy take a value; stamps from now on say so (R588). -/
def State.moveAlm (s : State) (n : Nat) : State := { s with alm := n, power := { s.power with almMoved := true } }

/-- The reference and every die copy step (R155). -/
def State.stepAlm (s : State) (d : Int) : State := s.moveAlm ((s.alm : Int) + d).toNat

/-- A TIME event is logged with its details. -/
def State.logTime (s : State) (details : List Nat) : State := s.logAt AClass.time 0 0xF0 1 0 details

/-- OUT_OF_STEP is set, counted and logged (R156). -/
def State.outOfStep (s : State) : State :=
  (((s.flag Reg.ALM_STATUS F.ALM_STATUS_OUT_OF_STEP).count Reg.ALM_OOS_EVENTS F.ALM_OOS_EVENTS_COUNT 1).healthAdd 6
    1).logTime []

/-- The offset to the followed port: ALM_OFFSET, the one step allowed, lock, and OUT_OF_STEP (R154 to R156). -/
def State.servo (s : State) (theta : Int) (depth : Nat) : State :=
  let (w, s) := s.freeWord
  let s := s.setFld Reg.ALM_OFFSET F.ALM_OFFSET_PS (ofSigned 32 (theta / 131072))
  let s := s.setFld Reg.ALM_STATUS F.ALM_STATUS_DEPTH (depth + 1)
  if s.almState = 1 && s.lock.step then
    { s.stepAlm (wholeNs theta (bitAt w.toNat 0)) with lock := ⟨false, 0, 0, none⟩ }
  else
    let good := if beyond theta 1000 then 0 else s.lock.good + 1
    let bad := if beyond theta 1500 then s.lock.bad + 1 else 0
    let s := if s.almState = 1 && 64 ≤ good then s.setFld Reg.ALM_STATUS F.ALM_STATUS_STATE 2 else s
    let s := { s with lock := ⟨s.lock.step, Nat.min good 64, if bad = 4 then 0 else bad, none⟩ }
    if bad = 4 then s.outOfStep else s

/-- The offset to a port that is not the parent's: four in a row beyond ±3.0 ns disagree (R157). -/
def State.crossCheck (s : State) (p : Nat) (theta : Int) : State :=
  let x := s.portTime p
  let bad := if beyond theta 3000 then x.bad + 1 else 0
  let s := s.setPortTime p { x with bad := if bad = 4 then 0 else bad }
  if bad = 4 then
    ((s.flag Reg.ALM_STATUS F.ALM_STATUS_NEIGHBOUR_DISAGREE).count Reg.ALM_DISAGREE_EVENTS
      F.ALM_DISAGREE_EVENTS_COUNT 1).logTime [p]
  else s

/-- The port is the parent's (R157). -/
def isParent (s : State) (p : Nat) : Bool := !freeRuns s && s.fld Reg.ALM_CTL F.ALM_CTL_PARENT_PORT = p

/-- TIME: a received time message is kept for the echo, and where it echoes a message of the last 4 µs its offset is
taken (R151, R152). -/
def execTime (port : Nat) (f : Frame) (s : State) : Host.Outcome State Fault Refusal :=
  onUnit (port < 1024) <|
    match s.hearCtrl port 1 f with
    | none => s.heardOnly port f
    | some (s, m) =>
      let (rx, s) := s.stamp
      let x := s.portTime port
      let s := s.setPortTime port { x with seen := slice m 0 12 ++ rx }
      let echo := leAt m 12 2
      if x.sent.any (fun k => k.1 = echo && s.now ≤ k.2.1 + 4000) then
        let asym := toSigned 32 (s.fld (Reg.LNK_ASYM port) F.LNK_ASYM_PS)
        let theta := offsetOfMsg (stampNat (slice m 14 10)) (stampNat (slice m 24 10)) (stampNat (slice m 2 10))
          (stampNat rx) asym
        let s := match followed s with
          | some (p, _) => if p = port then s.servo theta (leAt m 35 1) else s
          | none => s
        if isParent s port then s else s.crossCheck port theta
      else s

/-- HOLDOVER_TIMEOUT: HOLDOVER has lasted 1 ms (R156). -/
def execHoldoverTimeout (s : State) : Host.Outcome State Fault Refusal :=
  match s.almState, s.lock.holdAt with
  | 3, some t => .next { (s.at (t + 1000000)).outOfStep with lock := { s.lock with holdAt := none } }
  | _, _ => .next s

/-- REFERENCE_TAKEOVER: the Almanac unit of I/O die 8 becomes the module reference; a change of at most 0.5 ns moves no
whole count (R149). -/
def execReferenceTakeover (s : State) : Host.Outcome State Fault Refusal := .next { s with refBackup := true }

/-! ## Control registers (R155, R158, R159, R180) -/

/-- PHASE of the job. -/
def State.phase (s : State) : Nat := s.fld Reg.ALM_JOB_STATUS F.ALM_JOB_STATUS_PHASE

/-- No job is under way: PHASE is IDLE, ENDED or ABORTED. -/
def State.jobIdle (s : State) : Bool := s.phase = 0 || 6 ≤ s.phase

/-- A trained Jorvief Link port (R180). -/
def trained (s : State) (p : Nat) : Bool := s.isUp p && !s.isEth p

/-- A write of ALM_CTL (R155, R159, R179, R180). -/
def State.writeAlmCtl (s : State) (w : Word) : Nat × State :=
  let old := s.reg Reg.ALM_CTL
  let m := s.mstate
  let banked := m = MState.banked
  let root := F.ALM_CTL_ROOT.on w
  let k := F.ALM_CTL_K.get w
  let newParent := F.ALM_CTL_PARENT_VALID.on w && !F.ALM_CTL_PARENT_VALID.on old
  match firstCode [
      (F.ALM_CTL_RELOCK.on w && !banked, Code.rejState),
      (newParent && !banked, Code.rejState),
      (k < 8 || 20 < k, Code.rejRange),
      (k ≠ F.ALM_CTL_K.get old && !s.jobIdle, Code.rejState),
      (F.ALM_CTL_ROOT.get w ≠ F.ALM_CTL_ROOT.get old && (m = MState.lit || m = MState.shadow), Code.rejState),
      (!root && F.ALM_CTL_PARENT_VALID.on w && !trained s (F.ALM_CTL_PARENT_PORT.get w), Code.rejRange),
      (!root && F.ALM_CTL_BACKUP_VALID.on w && !trained s (F.ALM_CTL_BACKUP_PORT.get w), Code.rejRange)] with
  | some code => (code, s)
  | none =>
    let keep : Word := BitVec.ofNat 64 (bits w.toNat 31 31 * 2 ^ 31 + bits w.toNat 29 3 * 8)
    let s := s.setReg Reg.ALM_CTL keep
    let again := newParent || F.ALM_CTL_RELOCK.on w
    let s := if again && !freeRuns s then
        { s.setFld Reg.ALM_STATUS F.ALM_STATUS_STATE 1 with lock := ⟨true, 0, 0, none⟩ } else s
    let s := if root then s.setFld Reg.ALM_STATUS F.ALM_STATUS_DEPTH 0 else s
    (Code.done, s.follow)

/-- RELOCK: a write of ALM_CTL.RELOCK (R155). -/
def execRelock (s : State) : Host.Outcome State Fault Refusal :=
  let r := s.writeAlmCtl (F.ALM_CTL_RELOCK.put (s.reg Reg.ALM_CTL) 1)
  .next (r.2.completed r.1 0)

/-- A write of ALM_SET (R158). -/
def State.writeAlmSet (s : State) (w : Word) : Nat × State :=
  let m := s.mstate
  if s.isOn Reg.ALM_CTL F.ALM_CTL_ROOT && m ≠ MState.lit && m ≠ MState.shadow && s.jobIdle then
    (Code.done, s.moveAlm w.toNat)
  else (Code.rejState, s)

/-- ALM_SET: the root's Almanac takes a value (R158). -/
def execAlmSet (count : Word) (s : State) : Host.Outcome State Fault Refusal :=
  let r := s.writeAlmSet count
  .next (r.2.completed r.1 0)

/-- A write of ALM_TRIM (R179). -/
def State.writeAlmTrim (s : State) (w : Word) : Nat × State :=
  if 50000 < (toSigned 32 w.toNat).natAbs then (Code.rejRange, s)
  else (Code.done, s.setFld Reg.ALM_TRIM F.ALM_TRIM_PPB w.toNat)

end Sys2Proof.Machine
end

