-- ==== Sys2Proof/Machine/Calendar.lean ====
section
/-! DEFINITION. Calendars: entries, validation, launches, checks and overruns (chapter 04). -/
namespace Sys2Proof.Machine

/-! ## Entries (R161, R162) -/

/-- A Calendar entry's four words (R162). -/
structure CalEntry where
  w0 : Nat
  w1 : Nat
  w2 : Nat
  w3 : Nat
deriving DecidableEq, Repr

namespace CalEntry
def launch (e : CalEntry) : Nat := bits e.w0 63 32
def vid (e : CalEntry) : Nat := bits e.w0 31 16
def context (e : CalEntry) : Nat := bits e.w0 15 10
def action (e : CalEntry) : Nat := bits e.w0 9 7
def amount (e : CalEntry) : Nat := bits e.w0 6 2
def deadline (e : CalEntry) : Nat := bits e.w1 63 32
def cvid (e : CalEntry) : Nat := bits e.w1 31 16
def ccond (e : CalEntry) : Nat := bits e.w1 15 13
def cval (e : CalEntry) : Nat := bits e.w1 12 0
def region (e : CalEntry) : Nat := bits e.w2 15 9
def qid (e : CalEntry) : Nat := bits e.w2 8 0
end CalEntry

/-- Entries of a die's table. -/
def calLen (s : State) (die : Nat) : Nat := s.fld (Reg.ALM_CAL_LEN die) F.ALM_CAL_LEN_ENTRIES

/-- Entry `i` of a die's table, as it stands in the scratchpad. -/
def calEntry (s : State) (die i : Nat) : CalEntry :=
  let a := bits (s.reg (Reg.ALM_CAL_LOC die)).toNat 26 0 + 32 * i
  let bs := s.sread die a 32
  ⟨leAt bs 0 8, leAt bs 8 8, leAt bs 16 8, leAt bs 24 8⟩

/-- The tick exponent. -/
def tickK (s : State) : Nat := s.fld Reg.ALM_CTL F.ALM_CTL_K

/-- The Almanac count of a tick of the job (R160). -/
def tickAt (s : State) (t : Nat) : Nat := s.fld Reg.ALM_EPOCH F.ALM_EPOCH_EPOCH + t * 2 ^ tickK s

/-- A queue identifier that an engine holds (R147). -/
def qidHeld (q : Nat) : Bool :=
  q ≠ 511 && q % 8 ≠ 7 && (q % 8 ≠ 6 || isTcore (q / 8))

/-! ## Validation (R161, R163) -/

/-- A launch or check target translated under an entry's context, in its region (R163). -/
def calTarget (s : State) (die : Nat) (e : CalEntry) (vid kind : Nat) : Except Nat Target :=
  translate s ⟨die, e.region⟩ e.context vid true kind

/-- The launch signal's object kind: an action of 1 sets a flag, 3 adds to a counter. -/
def calKind (e : CalEntry) : Nat := sigKind e.action

/-- The code of the first failed translation of an entry. -/
def calXlat (s : State) (die : Nat) (e : CalEntry) : Option Nat :=
  match (if e.action = 0 then none else some (calTarget s die e e.vid (calKind e))) with
  | some (.error code) => some code
  | _ =>
    match (if e.ccond = 0 then none else some (calTarget s die e e.cvid (waitKind e.ccond))) with
    | some (.error code) => some code
    | _ => none

/-- The checks of R163 on one entry; `prev` is the LAUNCH before it, `group` its place in its tick group counted from
1, and `pending` the DEADLINEs of checks still pending at its launch, its own included. -/
def entryCode (s : State) (die : Nat) (e : CalEntry) (prev group : Nat) (pending : List Nat) : Option Nat :=
  let a := e.action
  let c := e.ccond
  match firstCode [
      (e.w0 % 4 ≠ 0 || bits e.w2 63 16 ≠ 0 || e.w3 ≠ 0 || a = 2 || 4 ≤ a || c = 5 || c = 6, Code.rejFormat),
      ((a = 0 && c = 0) || (c = 0 && e.deadline ≠ 0) || (c ≠ 0 && e.deadline = 0), Code.rejFormat),
      (e.deadline ≠ 0 && e.deadline ≤ e.launch, Code.rejFormat),
      ((e.amount ≠ 0 && a ≠ 3) || (c = 7 && 1 < e.cval), Code.rejFormat),
      (e.launch < prev, Code.rejFormat),
      (2048 < group, Code.rejRange),
      (4096 < pending.length, Code.rejRange),
      (79 < e.region || !qidHeld e.qid, Code.rejRange)] with
  | some code => some code
  | none => calXlat s die e

/-- Validation of entries `i` on, `n` of them. -/
def tableCode (s : State) (die : Nat) : Nat → Nat → Nat → Nat → List Nat → Option Nat
  | 0, _, _, _, _ => none
  | n + 1, i, prev, group, pending =>
    let e := calEntry s die i
    let group := if e.launch = prev && i ≠ 0 then group + 1 else 1
    let pending := pending.filter (fun d => e.launch < d) ++ (if e.ccond = 0 then [] else [e.deadline])
    match entryCode s die e prev group pending with
    | some code => some code
    | none => tableCode s die n (i + 1) e.launch group pending

/-- The locator of a die's table (R161). -/
def calLocBad (s : State) (die : Nat) : Bool :=
  let l := (s.reg (Reg.ALM_CAL_LOC die)).toNat
  match placeOf s ⟨die, 0, 0⟩ l with
  | .ok (.scratch d a) => d ≠ die || a % 32 ≠ 0 || scratchSize s die < a + 32 * calLen s die
  | _ => true

/-- The first failure over every die's table, dies in ascending order (R161, R163). -/
def validation (s : State) : Option Nat :=
  (List.range 64).findSome? fun d =>
    if calLen s d = 0 then none
    else if calLocBad s d then some Code.rejRange
    else tableCode s d (calLen s d) 0 0 0 []

/-- Cycles validation takes: 8 entries per cycle, the dies in parallel (R168). -/
def validationTime (s : State) : Nat :=
  (List.range 64).foldl (fun m d => Nat.max m (ceilDiv (calLen s d) 8)) 0

/-! ## Overruns (R172, R173) -/

/-- A SCHEDULE event is logged. -/
def State.logSchedule (s : State) (code : Nat) (details : List Nat) : State :=
  s.logAt AClass.schedule code 0xF0 1 0 details

/-- A die's Calendar stops (R173). -/
def State.stopCalendar (s : State) (die : Nat) : State :=
  { s with job := { s.job with stopped := die :: s.job.stopped, checks := AMap.erase s.job.checks die } }

/-- The engine a queue identifier names completes its head instruction with FAIL_OVERRUN (R173). -/
def State.overrunEngine (s : State) (die region qid : Nat) : State :=
  let c : CoreId := ⟨die, region, qid / 8⟩
  match allCls.find? (fun e => clsCode e = qid % 8) with
  | some e =>
    let g := s.eng c e
    if (g.st = .running || g.st = .waiting) && g.ending = .none then
      (s.endWait c e).engineFault c e (s.instrWord c g.pc) g.pc Code.failOverrun s.alm 0 0
    else s
  | none => s

/-- An overrun is recorded, logged, and acted on (R172, R173). -/
def State.overrun (s : State) (die i region qid reason : Nat) (word : Word) : State :=
  let s := s.count Reg.ALM_OVR_COUNT F.ALM_OVR_COUNT_COUNT 1
  let s := s.setReg Reg.ALM_OVR_LAST (wordOf [(F.ALM_OVR_LAST_DIE, die), (F.ALM_OVR_LAST_ENTRY, i),
    (F.ALM_OVR_LAST_REASON, reason), (F.ALM_OVR_LAST_QID, qid), (F.ALM_OVR_LAST_REGION, region)])
  let s := (s.flag Reg.ALM_STATUS F.ALM_STATUS_OVERRUN_SEEN).logSchedule 0 [die, i, region * 512 + qid, word.toNat]
  let act := s.fld Reg.ALM_CAL_CTL F.ALM_CAL_CTL_OVR_ACT
  let s := if 1 ≤ act then s.overrunEngine die region qid else s
  let s := if 2 ≤ act then s.stopCalendar die else s
  if act = 3 then (s.stopAll).setPhase 7 Code.failOverrun else s

/-! ## Launches and checks (R164 to R167) -/

/-- The next entry to launch on a die, with its index, where its Calendar runs. -/
def nextEntry (s : State) (die : Nat) : Option (Nat × CalEntry) :=
  let i := s.fld (Reg.ALM_CAL_POS die) F.ALM_CAL_POS_NEXT
  if s.phase = 5 && !s.job.stopped.contains die && i < calLen s die then some (i, calEntry s die i) else none

/-- Entries before `i` that share its LAUNCH, nearest first, up to 2,048. -/
def groupPos (s : State) (die launch : Nat) : Nat → Nat → Nat
  | 0, _ => 0
  | _, 0 => 0
  | n + 1, i + 1 => if (calEntry s die i).launch = launch then groupPos s die launch n i + 1 else 0

/-- The Almanac count at which entry `i` of a die launches (R164). -/
def launchAt (s : State) (die i : Nat) (e : CalEntry) : Nat := tickAt s e.launch + groupPos s die e.launch 2048 i / 8

/-- An entry's check becomes pending and its signal lands in phase C of the cycle in which the Almanac reads `due`, or as
soon after as a cycle still takes it (R164, R165). -/
def State.launchNow (s : State) (die i : Nat) (e : CalEntry) (due : Nat) : State :=
  let r : RegionId := ⟨die, e.region⟩
  let word (t : Except Nat Target) : Word := match t with | .ok t => s.reg (Reg.SYN_OBJ r t.obj) | .error _ => 0
  match calXlat s die e with
  | some _ => s.overrun die i e.region e.qid 2 (word (calTarget s die e e.cvid (waitKind e.ccond)))
  | none =>
    let s := if e.ccond = 0 then s
      else
        match calTarget s die e e.cvid (waitKind e.ccond) with
        | .ok t =>
          let c : CalCheck := { entry := i, deadline := e.deadline, region := e.region, obj := t.obj, cond := e.ccond,
                                val := e.cval, qid := e.qid }
          { s with job := { s.job with checks := AMap.set s.job.checks [] die (AMap.get s.job.checks [] die ++ [c]) } }
        | .error _ => s
    if e.action = 0 then s
    else
      match calTarget s die e e.vid (calKind e) with
      | .ok t => s.landSig r t.obj t.tag e.action (e.amount + 1) (some 511) 511 (s.landing (s.now - (s.alm - due)))
      | .error _ => s

/-- An entry launches, and the position moves past it (R164, R165). -/
def State.launchEntry (s : State) (die i : Nat) (e : CalEntry) (due : Nat) : State :=
  let p := Reg.ALM_CAL_POS die
  ((s.setFld p F.ALM_CAL_POS_TICK e.launch).setFld p F.ALM_CAL_POS_NEXT (i + 1)).launchNow die i e due

/-- CALENDAR_LAUNCH: the next entry of a die launches in its cycle (R164). -/
def execCalendarLaunch (die : Nat) (s : State) : Host.Outcome State Fault Refusal :=
  onUnit (die < 64) <|
    match nextEntry s die with
    | some (i, e) => (s.atAlm (launchAt s die i e)).launchEntry die i e (launchAt s die i e)
    | none => s

/-- CALENDAR_LATE_LAUNCH: an entry not read by its launch cycle launches when it has been read, and is an overrun
(R167). -/
def execCalendarLateLaunch (die : Nat) (s : State) : Host.Outcome State Fault Refusal :=
  onUnit (die < 64) <|
    match nextEntry s die with
    | some (i, e) =>
      let u := s.atAlm (launchAt s die i e + 1)
      let s := u.launchEntry die i e u.alm
      let word := match calTarget s die e e.cvid (waitKind e.ccond) with
        | .ok t => s.reg (Reg.SYN_OBJ ⟨die, e.region⟩ t.obj)
        | .error _ => 0
      s.overrun die i e.region e.qid 1 word
    | none => s

/-- A check passes against an object word (R166). -/
def checkHolds (c : CalCheck) (w : Word) : Bool :=
  kindOf w = waitKind c.cond && !F.SYN_OBJ_FLAG_ERR.on w && waitHolds c.cond c.val w

/-- CALENDAR_CHECK: the checks of a die whose DEADLINE comes next are judged at that boundary (R166). -/
def execCalendarCheck (die : Nat) (s : State) : Host.Outcome State Fault Refusal :=
  onUnit (die < 64) <|
    match AMap.get s.job.checks [] die with
    | [] => s
    | c :: cs =>
      if s.phase ≠ 5 then s
      else
        let d := cs.foldl (fun m x => Nat.min m x.deadline) c.deadline
        let due := (c :: cs).filter fun x => x.deadline = d
        let s := s.atAlm (tickAt s d)
        let s := { s with job := { s.job with
          checks := AMap.set s.job.checks [] die ((c :: cs).filter fun x => x.deadline ≠ d) } }
        let judged := due.map fun x => (x, s.v0 (Reg.SYN_OBJ ⟨die, x.region⟩ x.obj))
        judged.foldl (fun s (x, w) =>
          if checkHolds x w || s.job.stopped.contains die then s else s.overrun die x.entry x.region x.qid 0 w) s

end Sys2Proof.Machine
end

