-- ==== Sys2Proof/Machine/Plan.lean ====
section
/-! DEFINITION. Flue images and the plan they hold: header, tables, ranks, segments, chunks, and which module sends which
segment to which (chapter 13). Everything here is a function of the image alone. -/
namespace Sys2Proof.Machine

/-! ## The image (R456, R457) -/

namespace Im
def group (m : List Byte) : Nat := leAt m 0 4
def kind (m : List Byte) : Nat := leAt m 4 1
def srcBytes (m : List Byte) : Nat := leAt m 6 2
def wireBytes (m : List Byte) : Nat := leAt m 8 2
def downBytes (m : List Byte) : Nat := leAt m 10 2
def segElem (m : List Byte) : Nat := leAt m 12 4
def chunkElem (m : List Byte) : Nat := leAt m 16 2
def nhub (m : List Byte) : Nat := leAt m 18 2
def nsrc (m : List Byte) : Nat := leAt m 20 1
def ndst (m : List Byte) : Nat := leAt m 21 1
def nval (m : List Byte) : Nat := leAt m 22 1
def lastLevel (m : List Byte) : Nat := leAt m 23 1
def elems (m : List Byte) : Nat := leAt m 24 8
def root (m : List Byte) : Nat := leAt m 32 2
def minBuf (m : List Byte) : Nat := leAt m 34 2
def wantBuf (m : List Byte) : Nat := leAt m 36 2
def nslot (m : List Byte) : Nat := leAt m 38 1
def nloc (m : List Byte) : Nat := leAt m 39 1
/-- The operation of quick value `i`. -/
def qop (m : List Byte) (i : Nat) : Nat := bits (leAt m 40 4) (4 * i + 3) (4 * i)
def go (m : List Byte) : Nat := leAt m 44 4
def goVal (m : List Byte) : Nat := leAt m 48 2
/-- The field at an offset of stage record `k`, 1 to 3. -/
def stage (m : List Byte) (k off n : Nat) : Nat := leAt m (64 + 16 * (k - 1) + off) n
/-- N of stage `k`. -/
def width (m : List Byte) (k : Nat) : Nat := stage m k 0 2
/-- POS of stage `k`. -/
def pos (m : List Byte) (k : Nat) : Nat := stage m k 2 2
/-- ROOTPOS of stage `k`. -/
def rootPos (m : List Byte) (k : Nat) : Nat := stage m k 4 2
/-- Stage `k` is HALVING. -/
def halving (m : List Byte) (k : Nat) : Bool := stage m k 6 1 = 1
/-- MEMOFF of stage `k`. -/
def memOff (m : List Byte) (k : Nat) : Nat := stage m k 8 4
def stageBase (m : List Byte) : Nat := leAt m 112 4
def sStride (m : List Byte) : Nat := leAt m 116 4
def cStride (m : List Byte) : Nat := leAt m 120 4
def outBase (m : List Byte) : Nat := leAt m 124 4
def oStride (m : List Byte) : Nat := leAt m 128 4
def uoutBase (m : List Byte) : Nat := leAt m 132 4
def uoStride (m : List Byte) : Nat := leAt m 136 4
def tBase (m : List Byte) : Nat := leAt m 140 1
def uBase (m : List Byte) : Nat := leAt m 141 1
def rankOff (m : List Byte) : Nat := leAt m 144 4
def srcOff (m : List Byte) : Nat := leAt m 148 4
def dstOff (m : List Byte) : Nat := leAt m 152 4
def hubOff (m : List Byte) : Nat := leAt m 156 4
def tplOff (m : List Byte) : Nat := leAt m 160 4
def crec (m : List Byte) : Nat := leAt m 168 8
def crent (m : List Byte) : Nat := leAt m 176 2
/-- The quick kinds. -/
def quick (m : List Byte) : Bool := kind m < 2
/-- The kinds that run hub tasks (R463). -/
def tasked (m : List Byte) : Bool := kind m = 2 || kind m = 3 || kind m = 10 || kind m = 11
/-- The kinds that send through the rank table. -/
def ranked (m : List Byte) : Bool := 7 ≤ kind m && kind m ≤ 9
/-- NRANKS (R459). -/
def nranks (m : List Byte) : Nat := width m 1 * width m 2 * width m 3
/-- Entry `i` of a member or rank table: the module and its Flue number. -/
def entry (m : List Byte) (off i : Nat) : Nat × Nat := (leAt m (off + 4 * i) 4 % 4096, leAt m (off + 4 * i) 4 / 4096 % 4096)
/-- Locator of source `i`. -/
def source (m : List Byte) (i : Nat) : Nat := leAt m (srcOff m + 16 * i) 8
/-- Locator of destination `i`. -/
def dest (m : List Byte) (i : Nat) : Nat := leAt m (dstOff m + 16 * i) 8
/-- The signal of destination `i`: object, region, die, TAG and SACT in one word, and SVAL. -/
def destSig (m : List Byte) (i : Nat) : Nat × Nat := (leAt m (dstOff m + 16 * i + 8) 4, leAt m (dstOff m + 16 * i + 12) 1)
/-- The core of hub `h`. -/
def hubCore (m : List Byte) (h : Nat) : CoreId :=
  let w := leAt m (hubOff m + 16 * h) 4
  ⟨bits w 18 13, bits w 12 6, bits w 5 0⟩
/-- Object `i` of hub `h`: 0 TASK, 1 DONE, 2 UTASK, 3 UDONE. -/
def hubObj (m : List Byte) (h i : Nat) : Nat := bits (leAt m (hubOff m + 16 * h + 4) 8) (12 * i + 11) (12 * i)
/-- TAG of hub `h`. -/
def hubTag (m : List Byte) (h : Nat) : Nat := leAt m (hubOff m + 16 * h + 12) 1 % 16
/-- Template `t`. -/
def template (m : List Byte) (t : Nat) : List Byte := slice m (tplOff m + 64 * t) 64
end Im

/-- The end of each table, for the image's length (R612). -/
def tableEnds (m : List Byte) : List Nat :=
  let ends (off size n : Nat) : Nat := if n = 0 then 0 else off + size * n
  [ends (Im.rankOff m) 4 (if Im.ranked m then Im.nranks m else 0), ends (Im.srcOff m) 16 (Im.nsrc m),
   ends (Im.dstOff m) 16 (Im.ndst m), ends (Im.hubOff m) 16 (Im.nhub m),
   ends (Im.tplOff m) 64 4] ++
  [1, 2, 3].map fun k => if Im.width m k = 1 then 0 else ends (Im.memOff m k) 4 (Im.width m k)

/-- The image's length in bytes (R612). -/
def imageLength (m : List Byte) : Nat := (tableEnds m).foldl Nat.max 256

/-- A power of two. -/
def isPow2 (n : Nat) : Bool := n ≠ 0 && 2 ^ n.log2 = n

/-- A nonzero byte that R456 reserves. -/
def reservedByte (m : List Byte) : Bool :=
  ([(5, 1), (50, 14), (142, 2), (164, 4), (178, 78)] ++
    ([1, 2, 3].map fun k => [(64 + 16 * (k - 1) + 7, 1), (64 + 16 * (k - 1) + 12, 4)]).flatten).any
    fun f : Nat × Nat => leAt m f.1 f.2 ≠ 0

/-- A count outside the range R456 gives it. -/
def badCounts (m : List Byte) : Bool :=
  let k := Im.kind m
  64 < Im.nsrc m || 64 < Im.ndst m || 8 < Im.nval m || 2 < Im.lastLevel m || Im.goVal m = 0 || 8191 < Im.goVal m ||
  [1, 2, 3].any (fun j => Im.width m j = 0 || 256 < Im.width m j) ||
  (2 ≤ k && (Im.nhub m = 0 || 4096 < Im.nhub m || Im.nslot m = 0 || 16 < Im.nslot m)) ||
  ((k = 8 || k = 9) && (Im.nloc m = 0 || 16 < Im.nloc m))

/-- The ring of completion records is misplaced. -/
def badRing (m : List Byte) : Bool :=
  let l := Im.crec m
  let sp := bits l 63 60
  let room := if sp = 1 then 0x20000 else if sp = 2 then 0x8000000 else 2 ^ 41
  let at_ := if sp = 1 then bits l 16 0 else if sp = 2 then bits l 26 0 else bits l 40 0
  sp = 0 || 3 < sp || l % 32 ≠ 0 || (Im.crent m ≠ 0 && room < at_ + 32 * Im.crent m)

/-- A QOP nibble breaks R456 or R483. -/
def badQop (m : List Byte) : Bool :=
  if Im.quick m then
    (List.range 8).any fun i => if i < Im.nval m then 8 ≤ Im.qop m i else Im.qop m i ≠ 0
  else leAt m 40 4 ≠ 0

/-- The checks of a LOAD after the image has been read (R458): the first code that applies. `self` is the module. -/
def loadCode (m : List Byte) (self : Option Nat) (loc : Nat) : Option Nat :=
  let k := Im.kind m
  firstCode [
    (12 ≤ k || [1, 2, 3].any (fun j => 1 < Im.stage m j 6 1) || reservedByte m ||
      (List.range (Im.ndst m)).any (fun i => let a := bits (Im.destSig m i).1 31 29; a ≠ 1 && a ≠ 3), 0x23),
    ([1, 2, 3].any (fun j => Im.halving m j && !isPow2 (Im.width m j)) || badQop m ||
      (Im.quick m && (Im.nhub m ≠ 0 || Im.nslot m ≠ 0)) || (k ≠ 8 && k ≠ 9 && Im.nloc m ≠ 0), 0x23),
    (0x100000 < Im.segElem m * Nat.max (Im.wireBytes m) (Im.downBytes m) || Im.segElem m < Im.chunkElem m, 0x22),
    ([Im.wireBytes m, Im.downBytes m].any (fun b => 8192 < Im.chunkElem m * b || Im.chunkElem m * b % 64 ≠ 0), 0x22),
    ([1, 2, 3].any (fun j => Im.width m j ≤ Im.pos m j || Im.width m j ≤ Im.rootPos m j) || 4096 < Im.nranks m ||
      Im.nranks m ≤ Im.root m, 0x22),
    (65536 < imageLength m || 2 ^ 41 < loc % 2 ^ 41 + imageLength m || badCounts m, 0x22),
    (badRing m, 0x22),
    ([1, 2, 3].any (fun j => 1 < Im.width m j && (List.range (Im.width m j)).any (fun i =>
      i ≠ Im.pos m j && self = some (Im.entry m (Im.memOff m j) i).1)), 0x22),
    (79 < bits (Im.go m) 18 12 || (List.range (Im.nhub m)).any (fun h => 79 < (Im.hubCore m h).region), 0x22)]

/-! ## Ranks, segments and chunks (R459, R460, R461) -/

/-- The product of the widths of the stages before `k`. -/
def below (m : List Byte) : Nat → Nat
  | 0 | 1 => 1
  | k + 2 => below m (k + 1) * Im.width m (k + 1)

/-- Digit `k` of a rank or segment number. -/
def digit (m : List Byte) (k x : Nat) : Nat := x / below m k % Im.width m k

/-- This module's rank (R459). -/
def rankOf (m : List Byte) : Nat := Im.pos m 1 + Im.width m 1 * (Im.pos m 2 + Im.width m 2 * Im.pos m 3)

/-- Segments of one rank's vector. -/
def segCount (m : List Byte) : Nat := ceilDiv (Im.elems m) (Im.segElem m)

/-- Elements of a segment, numbered within its block. -/
def segElems (m : List Byte) (seg : Nat) : Nat :=
  let s := seg % Nat.max 1 (segCount m)
  Nat.min (Im.segElem m) (Im.elems m - s * Im.segElem m)

/-- Element bytes of a phase. -/
def phaseBytes (m : List Byte) (down : Bool) : Nat := if down then Im.downBytes m else Im.wireBytes m

/-- Bytes of a whole chunk in a phase. -/
def chunkBytes (m : List Byte) (down : Bool) : Nat := Im.chunkElem m * phaseBytes m down

/-- Chunks of a piece of `len` bytes. -/
def chunksOf (m : List Byte) (down : Bool) (len : Nat) : Nat := ceilDiv len (chunkBytes m down)

/-- Bytes of chunk `i` of a piece of `len` bytes. -/
def chunkLen (m : List Byte) (down : Bool) (len i : Nat) : Nat := Nat.min (chunkBytes m down) (len - i * chunkBytes m down)

/-- Elements of chunk `i` of a segment. -/
def chunkElems (m : List Byte) (seg i : Nat) : Nat :=
  Nat.min (Im.chunkElem m) (segElems m seg - i * Im.chunkElem m)

/-! ## Hub steps (R461, R463, R471) -/

/-- A step of the up phase at the hubs: its stage and its place within a HALVING stage. -/
structure HubStep where
  stage : Nat
  idx : Nat
deriving DecidableEq, Repr

/-- The used stages. -/
def usedStages (m : List Byte) : List Nat := [1, 2, 3].filter fun k => 1 < Im.width m k

/-- The hub steps in order. Stage 0 is left out where one source serves as it stands; a plan with no used stage ends in its
stage-0 task. -/
def hubSteps (m : List Byte) : List HubStep :=
  let skip := Im.nsrc m = 1 && Im.srcBytes m = Im.wireBytes m && !(usedStages m).isEmpty
  (if skip then [] else [⟨0, 0⟩]) ++ ((usedStages m).map fun k =>
    if Im.halving m k then (List.range (Im.width m k).log2).map fun i => ⟨k, i⟩ else [⟨k, 0⟩]).flatten

/-- The bit a HALVING step works on (R461). -/
def halfBit (m : List Byte) (k i : Nat) : Nat := (Im.width m k).log2 - 1 - i

/-- This module's digits below stage `k` are those of `x`. -/
def lowAgree (m : List Byte) (k x : Nat) : Bool :=
  (List.range k).all fun j => j = 0 || digit m j x = Im.pos m j

/-- This module runs a step's task on a segment. -/
def runsTask (m : List Byte) (t : HubStep) (seg : Nat) : Bool :=
  if t.stage = 0 then true
  else
    lowAgree m t.stage seg &&
    (let d := digit m t.stage seg
     let p := Im.pos m t.stage
     if Im.halving m t.stage then d / 2 ^ halfBit m t.stage t.idx = p / 2 ^ halfBit m t.stage t.idx else d = p)

/-- The positions whose contributions a task combines, in order. -/
def taskPositions (m : List Byte) (t : HubStep) : List Nat :=
  if t.stage = 0 then List.range (Im.nsrc m)
  else
    let p := Im.pos m t.stage
    if Im.halving m t.stage then
      let q := p ^^^ 2 ^ halfBit m t.stage t.idx
      [Nat.min p q, Nat.max p q]
    else List.range (Im.width m t.stage)

/-- The mark of a chunk that is part of the result at this module. -/
def resultStep : Nat := 0xFFFF

/-! ## Who sends what (R461 to R463) -/

/-- The power of two that two positions differ by, if they do. -/
def halfPair (a b : Nat) : Option Nat := if isPow2 (a ^^^ b) then some (a ^^^ b).log2 else none

/-- In the up phase of a reduction, position `a` of stage `k` sends segment `seg` to position `b`. -/
def upSends (m : List Byte) (k a b seg : Nat) : Bool :=
  let d := digit m k seg
  lowAgree m k seg && a ≠ b &&
  (if Im.halving m k then
    match halfPair a b with
    | some t => a / 2 ^ (t + 1) = d / 2 ^ (t + 1) && bitAt a t != bitAt d t
    | none => false
  else b = d)

/-- In the down phase of a reduction, position `a` of stage `k` sends segment `seg` to position `b`. -/
def downSends (m : List Byte) (k a b seg : Nat) : Bool :=
  let d := digit m k seg
  lowAgree m k seg && a ≠ b &&
  (if Im.halving m k then
    match halfPair a b with
    | some t => a / 2 ^ t = d / 2 ^ t
    | none => false
  else a = d)

/-- Blocks position `a` of stage `k` holds where each stage adds its members' blocks: its own digits above `k`, any below. -/
def blocksHeld (m : List Byte) (k a : Nat) : List Nat :=
  (List.range (Im.nranks m)).filter fun r =>
    digit m k r = a && [1, 2, 3].all fun j => j ≤ k || digit m j r = Im.pos m j

/-- The segments of a block. -/
def blockSegs (m : List Byte) (r : Nat) : List Nat := (List.range (segCount m)).map fun i => r * segCount m + i

/-- The segments that position `a` of a stage (a rank for stage 0) sends to position `b` in a phase, in sending order. -/
def sendsTo (m : List Byte) (stage : Nat) (down : Bool) (a b : Nat) : List Nat :=
  let k := Im.kind m
  let segs := List.range (segCount m)
  if Im.tasked m then
    if stage = 0 then []
    else if !down then segs.filter (upSends m stage a b)
    else if k = 3 then [] else segs.filter (downSends m stage a b)
  else if k = 4 then (if down && stage ≠ 0 then ((blocksHeld m stage a).map (blockSegs m)).flatten else [])
  else if k = 5 then (if down && stage ≠ 0 && a = digit m stage (Im.root m) && lowAgree m stage (Im.root m) then segs else [])
  else if k = 6 then
    (if !down && stage ≠ 0 && b = digit m stage (Im.root m) && lowAgree m stage (Im.root m) then
      ((blocksHeld m stage a).map (blockSegs m)).flatten else [])
  else if k = 7 then (if stage = 0 && !down then blockSegs m a else [])
  else if k = 8 || k = 9 then (if stage = 0 && !down then [a] else [])
  else []

/-- A peer of this module in a stage and phase: its position and its place in its table. -/
structure FLink where
  stage : Nat
  down : Bool
  pos : Nat
  module : Nat
  flue : Nat
deriving DecidableEq, Repr

/-- This module's position in a stage; its rank for stage 0. -/
def ownPos (m : List Byte) (stage : Nat) : Nat := if stage = 0 then rankOf m else Im.pos m stage

/-- The peers of a stage. -/
def stagePeers (m : List Byte) (stage n off : Nat) : List FLink :=
  ((List.range n).filter (fun q => q ≠ ownPos m stage)).flatMap fun q =>
    let e := Im.entry m off q
    [⟨stage, false, q, e.1, e.2⟩, ⟨stage, true, q, e.1, e.2⟩]

/-- Every peer of this module. -/
def flueLinks (m : List Byte) : List FLink :=
  if Im.ranked m then stagePeers m 0 (Im.nranks m) (Im.rankOff m)
  else (usedStages m).flatMap fun k => stagePeers m k (Im.width m k) (Im.memOff m k)

/-- Every module and Flue of the tables but this module's own, each once (R479). -/
def flueMembers (m : List Byte) : List FLink :=
  let all := (usedStages m).flatMap (fun k => stagePeers m k (Im.width m k) (Im.memOff m k)) ++
    (if Im.ranked m then stagePeers m 0 (Im.nranks m) (Im.rankOff m) else [])
  all.foldl (fun acc l => if acc.any (fun x => x.module = l.module && x.flue = l.flue) then acc else acc ++ [l]) []

end Sys2Proof.Machine
end

