-- ==== Sys2Proof/Machine/Recorder.lean ====
section
/-! DEFINITION. The input recorder and the digests of Flue traffic (chapter 14). -/
namespace Sys2Proof.Machine

/-! ## CRC-64 (R512) -/

/-- One bit of the CRC of ECMA-182. -/
def crc64Bit (x : Nat) : Nat :=
  if 2 ^ 63 ≤ x then (2 * x % 2 ^ 64) ^^^ 0x42F0E1EBA9EA3693 else 2 * x

/-- One byte of it. -/
def crc64Byte (x : Nat) (b : Byte) : Nat :=
  (List.range 8).foldl (fun x _ => crc64Bit x) (x ^^^ (b.toNat * 2 ^ 56))

/-- The CRC-64 of ECMA-182 over bytes: initial value 0, no reflection, no final XOR (R512). -/
def crc64 (bs : List Byte) : Nat := bs.foldl crc64Byte 0

/-! ## Records (R520 to R522) -/

/-- The recorder is enabled and not frozen. -/
def State.recording (s : State) : Bool :=
  s.isOn Reg.VIG_REC_CTL F.VIG_REC_CTL_EN && !s.isOn Reg.VIG_REC_CTL F.VIG_REC_CTL_FROZEN

/-- A record's bytes: a 32-byte header, the content, and zeros to a multiple of 64 (R521). -/
def RecEntry.bytes (e : RecEntry) (seq : Nat) : List Byte :=
  let w1 := e.content.length % 2 ^ 32 + e.kind * 2 ^ 32 + e.port * 2 ^ 38
  let bs := leBytes 8 e.alm ++ leBytes 8 w1 ++ leBytes 8 seq ++ leBytes 8 e.word3 ++ e.content
  bs ++ List.replicate (ceilDiv bs.length 64 * 64 - bs.length) 0

/-- Bytes a record takes. -/
def RecEntry.size (e : RecEntry) : Nat := ceilDiv (32 + e.content.length) 64 * 64

/-- The parts of a ring that `n` bytes from an offset fall into: address and length (R521). -/
def ringParts (base size off n : Nat) : List (Nat × Nat) :=
  let first := Nat.min n (size - off)
  [(base + off, first)] ++ (if first < n then [(base, n - first)] else [])

/-- The recorder's ring: its address and length in bytes. -/
def State.recRing (s : State) : Nat × Nat :=
  ((s.reg Reg.VIG_REC_LOC).toNat % 2 ^ 41, 512 * s.fld Reg.VIG_REC_SIZE F.VIG_REC_SIZE_GRANULES)

/-- A record is written at the head of the ring, where its stacks can take it. -/
def State.writeRec (s : State) (e : RecEntry) : Option State :=
  let (base, size) := s.recRing
  let off := s.fld Reg.VIG_REC_HEAD F.VIG_REC_HEAD_OFFSET % Nat.max 1 size
  let parts := ringParts base size off e.size
  if parts.any fun p => fabWaits s p.1 p.2 then none
  else
    let bs := e.bytes (s.fld Reg.VIG_REC_SEQ F.VIG_REC_SEQ_COUNT)
    let (s, _) := parts.foldl (fun (s, bs) p => ((s.fabWrite p.1 (bs.take p.2)).2, bs.drop p.2)) (s, bs)
    some ((s.bump Reg.VIG_REC_SEQ F.VIG_REC_SEQ_COUNT 1).setFld Reg.VIG_REC_HEAD F.VIG_REC_HEAD_OFFSET
      ((off + e.size) % Nat.max 1 size))

/-- Records in transit are written, oldest first, while they can be. -/
def State.flushRecs (s : State) : Nat → State
  | 0 => s
  | n + 1 =>
    match s.transit with
    | [] => s
    | e :: rest =>
      match s.writeRec e with
      | some s' => { s' with transit := rest }.flushRecs n
      | none => s

/-- Bytes of records that an I/O die holds in transit (R520). -/
def State.inTransit (s : State) (iod : Nat) : Nat :=
  sumNat ((s.transit.filter fun e => e.iod = iod).map RecEntry.size)

/-- A record joins those in transit and is written if it can be. -/
def State.pushRec (s : State) (e : RecEntry) : State :=
  let s := { s with transit := s.transit ++ [e] }
  s.flushRecs s.transit.length

/-- Records were lost and there is space again: a GAP record is written first (R522). -/
def State.gapRec (s : State) : State :=
  let s := s.flushRecs s.transit.length
  if s.recLost = 0 || !s.recording || 2 ^ 20 < s.inTransit 0 + 64 then s
  else
    let lost := s.recLost
    let s := ({ s with recLost := 0 }.relFlag F.VIG_REL_STATUS_REC_GAP_SEEN).logAt AClass.recorder 0 s.leadSite 0x20 0
      []
    s.pushRec { iod := 0, alm := s.alm, port := 0, kind := 2, word3 := lost, content := [] }

/-- A record is made, unless the recorder is off; one that finds its space full is not written (R520, R522). -/
def State.record (s : State) (e : RecEntry) : State :=
  if !s.recording then s
  else
    let lost := s.recLost
    let s := s.gapRec
    if s.inTransit e.iod + e.size ≤ 2 ^ 20 && s.recLost = 0 then s.pushRec e
    else { s with recLost := Nat.max lost s.recLost + 1 }.count Reg.VIG_REC_GAPS F.VIG_REC_GAPS_COUNT 1

/-- An event record (R521). -/
def State.recordEvent (s : State) (kind word3 : Nat) (content : List Byte) : State :=
  s.record { iod := 0, alm := s.alm, port := 0, kind := kind, word3 := word3, content := content }

/-- A packet accepted for this module at a port is recorded, if its type is (R520). -/
def State.recordPacket (s : State) (port : Nat) (p : Packet) : State :=
  if bitAt (s.fld Reg.VIG_REC_CTL F.VIG_REC_CTL_PMASK) (h0 p P.ptype) && h0 p P.ptype ≠ 9 then
    s.record { iod := port / 64, alm := s.alm, port := port, kind := 0, word3 := 0,
               content := leBytes 8 p.w0.toNat ++ leBytes 8 p.w1.toNat ++ p.payload }
  else s

/-- A write of VIG_REC_MARK (R521). -/
def State.writeMark (s : State) (id : Word) : State :=
  s.recordEvent 1 id.toNat (leBytes 8 (s.reg Reg.ALM_EPOCH).toNat)

/-- REC_MARK: a write of VIG_REC_MARK writes a MARK record (R521). -/
def execRecMark (id : Word) (s : State) : Host.Outcome State Fault Refusal := .next (s.writeMark id |>.completed Code.done 0)

/-- REC_GAP: space in transit frees, and after lost records a GAP record is written (R522). -/
def execRecGap (s : State) : Host.Outcome State Fault Refusal := .next s.gapRec

/-! ## Digests (R512, R513, R516) -/

/-- The module digests its Flue traffic: it shadows or is shadowed, replays, or records (R512, R521). -/
def State.digesting (s : State) : Bool :=
  s.fld Reg.ALM_JOB_STATUS F.ALM_JOB_STATUS_PHASE = 5 &&
  (s.shdMode = 1 || s.shdMode = 2 || s.recording || s.replay.isSome)

/-- The digest of a tick changed, if it is kept. -/
def State.updDig (s : State) (tick : Nat) (g : TickDig → TickDig) : State :=
  { s with digs := updateFirst (fun d : TickDig => d.tick = tick && d.finalAt.isNone) g s.digs }

/-- A CRC joins the digest of a tick. -/
def State.digAdd (s : State) (tick : Nat) (bs : List Byte) : State :=
  s.updDig tick fun d => { d with sum := (d.sum + crc64 bs) % 2 ^ 64 }

/-- A packet that an instance sends for the first time is digested (R512). -/
def State.digPacket (s : State) (tick : Nat) (p : Packet) : State :=
  let w0 := P.hops.put (P.epoch.put (P.vc.put p.w0 0) 0) 0
  s.digAdd tick (leBytes 8 w0.toNat ++ leBytes 8 p.w1.toNat ++ p.payload)

/-- The launch tick at an Almanac count, modulo 2^64 (R464). -/
def State.tickNow (s : State) : Nat :=
  ofSigned 64 (Int.fdiv ((s.alm : Int) - s.fld Reg.ALM_EPOCH F.ALM_EPOCH_EPOCH) (2 ^ tickK s : Nat))

/-- A CTRL frame's content of a DIGEST (R513). -/
def TickDig.body (d : TickDig) : List Byte :=
  ctrlBody 3 (leBytes 8 d.tick ++ leBytes 8 d.sum ++ leBytes 4 d.launched ++ leBytes 1 (if d.bad then 1 else 0))

/-- The replay compares its own digest of a tick with the recorded one (R523, R524). -/
def State.replayDig (s : State) (tick sum : Nat) : State :=
  match s.replay with
  | none => s
  | some r =>
    match r.digs.find? fun g => g.1 = tick with
    | none => s
    | some g =>
      let first := match r.differs with | some t => Nat.min t tick | none => tick
      { s with replay := some { r with digs := r.digs.filter (fun x => x.1 ≠ tick),
                                       differs := if g.2 = sum then r.differs else some first } }

/-- A digest that has just become final is recorded, sent to the shadow, or kept to be compared (R513, R521, R523). -/
def State.finishDig (s : State) (d : TickDig) : State :=
  let s := s.recordEvent 4 d.tick (leBytes 8 d.sum)
  let s := s.replayDig d.tick d.sum
  if s.shdMode = 1 && s.shdState = Shd.mirroring then
    s.sendCtrl (s.fld Reg.VIG_SHD_CTL F.VIG_SHD_CTL_PORT) d.body
  else if s.shadowing then { s with digs := s.digs ++ [{ d with finalAt := some s.now }] }
  else s

/-- A digest and the primary's are both final: they are compared (R513). -/
def State.compareDig (s : State) (p : PeerDig) : State :=
  match s.digs.find? fun d : TickDig => d.tick = p.tick && d.finalAt.isSome with
  | none => s
  | some d =>
    let s := { s with digs := removeOne d s.digs, peerDigs := removeOne p s.peerDigs }
    if d.sum = p.sum && d.launched % 2 ^ 32 = p.count then
      (s.bump Reg.VIG_SHD_STATUS F.VIG_SHD_STATUS_MATCHED 1).setFld Reg.VIG_SHD_LAST F.VIG_SHD_LAST_LAST_TICK p.tick
    else s.endShadow Code.failMismatch p.tick

/-- Every tick that is over and whose instances have all completed has a final digest; digests final on both sides are
compared (R512, R513). -/
def State.sweepDigs (s : State) : State :=
  let now := toSigned 64 s.tickNow
  let ready := s.digs.filter fun d => d.finalAt.isNone && d.live = 0 && toSigned 64 d.tick < now
  let s := ready.foldl State.finishDig { s with digs := s.digs.filter fun d => !ready.contains d }
  s.peerDigs.foldl State.compareDig s

/-- An instance launches at a tick (R512). -/
def State.digOpen (s : State) (tick : Nat) : State :=
  let s := s.sweepDigs
  if !s.digesting then s
  else if s.digs.any fun d => d.tick = tick && d.finalAt.isNone then
    s.updDig tick fun d => { d with launched := d.launched + 1, live := d.live + 1 }
  else
    { s with digs := s.digs ++ [{ tick := tick, sum := 0, launched := 1, live := 1, bad := false, finalAt := none }] }

/-- An instance completes (R512); on a shadow a completion of its own fault ends shadowing (R513), and a failed Flue
freezes the recorder (R522). -/
def State.digClose (s : State) (tick f inst code : Nat) : State :=
  let s := s.digAdd tick (leBytes 2 f ++ leBytes 2 inst)
  let s := s.digAdd tick (leBytes 1 (Code.family code * 16))
  let s := s.updDig tick fun d => { d with live := d.live - 1, bad := d.bad || Code.family code = 3 }
  let s := if Code.family code = 3 then s.freezeRec else s
  let own := (Code.family code = 1 || Code.family code = 3) && code ≠ Code.failAborted && code ≠ Code.failMismatch
  let s := if own then s.endShadow code tick else s
  s.sweepDigs

end Sys2Proof.Machine
end

