-- ==== Sys2Proof/Machine/Flues.lean ====
section
/-! DEFINITION. Flues: loading, launches, grants, chunks, hub tasks, resends, aborts, dispatch and completion of data
collectives (chapter 13). -/
namespace Sys2Proof.Machine

/-! ## Records and entries (R454, R490) -/

-- States of a Flue (R454).
namespace FSt
def empty : Nat := 0
def loading : Nat := 1
def idle : Nat := 2
def running : Nat := 3
def faulted : Nat := 4
end FSt

/-- A Flue's record. -/
def State.flue (s : State) (f : Nat) : FlueRec := AMap.get s.flues FlueRec.empty f

/-- A Flue's record set. -/
def State.setFlue (s : State) (f : Nat) (x : FlueRec) : State := { s with flues := AMap.set s.flues FlueRec.empty f x }

/-- STATE of a Flue. -/
def State.flueSt (s : State) (f : Nat) : Nat := s.fld (Reg.FLU_ENTRY f) F.FLU_ENTRY_STATE

/-- A field of a Flue's entry set. -/
def State.setEntry (s : State) (f : Nat) (x : Fld) (v : Nat) : State := s.setFld (Reg.FLU_ENTRY f) x v

/-- INSTANCE of a Flue. -/
def State.instance_ (s : State) (f : Nat) : Nat := s.fld (Reg.FLU_ENTRY f) F.FLU_ENTRY_INSTANCE

/-- The open instance set; BUFFERS follows it. -/
def State.setRun (s : State) (f : Nat) (r : FlueRun) : State :=
  (s.setFlue f { s.flue f with run := some r }).setEntry f F.FLU_ENTRY_BUFFERS r.held.length

/-- The owner code of a Flue (R350). -/
def flueOwner (f : Nat) : Nat := 4096 + f

/-- A COLLECTIVE event of a Flue is logged (R604). -/
def State.logFlue (s : State) (code : Nat) (details : List Nat) : State :=
  s.logAt AClass.collective code 0xF0 3 0 details

/-- An instance that has launched nothing yet, opened now. -/
def FlueRun.fresh (s : State) (tick : Nat) : FlueRun :=
  { tick := tick, alm := s.alm, opened := s.now, heard := s.now, grantAt := s.now, waiting := false, drawing := false,
    waited := false, mended := false, held := [], free := [], chans := [], pieces := [], ins := [], outs := [], vals := [],
    given := [], tasks := [], seqs := [], counts := [], handshake := false, own := [], stage := 0, sentAt := s.now,
    again := 0, judged := 0 }

/-! ## Memory that a Flue reads and writes -/

/-- A read of `n` bytes at an offset from a locator of space 0x1 to 0x3: DONE or DONE_CORRECTED, or a failure. -/
def State.flueRead (s : State) (loc off n : Nat) : (Nat × List Byte) × State :=
  match placeOf s ⟨0, 0, 0⟩ loc with
  | .ok pl =>
    let q := pl.plus off
    if bits loc 63 60 = 0 || q.limit s < q.addr + n then ((Code.rejRange, []), s)
    else
      let r := match q with
        | .fabric a => s.fabRead a n
        | q => s.placeRead 0 q n
      ((if r.1.1 = Code.done && r.2.marks.length < s.marks.length then Code.corrected else r.1.1, slice r.1.2 0 n), r.2)
  | .error code => ((code, []), s)

/-- A write of bytes at an offset from a locator of space 0x1 to 0x3. -/
def State.flueWrite (s : State) (loc off : Nat) (bs : List Byte) : Nat × State :=
  match placeOf s ⟨0, 0, 0⟩ loc with
  | .ok pl =>
    let q := pl.plus off
    if bits loc 63 60 = 0 || q.limit s < q.addr + bs.length then (Code.rejRange, s)
    else match q with
      | .fabric a => s.fabWrite a bs
      | q => s.placeWrite 0 q bs
  | .error code => (code, s)

/-- Bytes stored in a hub's hearth; none lies above its end. -/
def State.hubWrite (s : State) (c : CoreId) (a : Nat) (bs : List Byte) : State :=
  if a < 0x20000 then s.hwrite c a (bs.take (0x20000 - a)) else s

/-- Bytes read from a hub's hearth, 0 above its end. -/
def State.hubRead (s : State) (c : CoreId) (a n : Nat) : List Byte :=
  if a < 0x20000 then slice (s.hread c a (Nat.min n (0x20000 - a))) 0 n else List.replicate n 0

/-! ## Packets (R466, R468) -/

/-- A Flue's packet enters admission under its owner code (R448, R480). -/
def State.flueSend (s : State) (f : Nat) (p : Packet) : State :=
  match s.tryInject (flueOwner f) none 0 false [Flying.of p none none s.now] with
  | (some code, s) =>
    if Code.family code = 1 then { s with flueNotes := AMap.set s.flueNotes 0 f (AMap.get s.flueNotes 0 f ||| 4) } else s
  | (none, s) => s

/-- Header word 1 of a QUICK packet. -/
def quickWord (flue gen stage : Nat) (down : Bool) : Word :=
  wordOf [(P.flue, flue), (P.gen, gen), (P.stage, stage), (P.down, if down then 1 else 0)]

namespace Msg
def grant : Nat := 1
def count : Nat := 2
def abort : Nat := 3
def resend : Nat := 4
end Msg

/-- A control message of a data Flue to a peer (R466). -/
def State.message (s : State) (m : List Byte) (inst tick : Nat) (l : FLink) (msg status low : Nat) (rest : List Byte) :
    Packet :=
  let w0 := Im.group m + inst * 2 ^ 32 + status * 2 ^ 48 + msg * 2 ^ 56
  let body := leBytes 8 w0 ++ leBytes 8 tick ++ leBytes 8 (low + rankOf m * 2 ^ 52) ++ rest
  { w0 := s.originWord 4 1 1 l.module body.length, w1 := quickWord l.flue (inst % 2 ^ 14) l.stage l.down, payload := body }

/-- ABORT goes to every module of the tables (R479). -/
def State.sendAborts (s : State) (f : Nat) (m : List Byte) (inst tick code : Nat) : State :=
  let s := (flueMembers m).foldl (fun s l =>
    s.flueSend f (s.message m inst tick l Msg.abort code 0 (List.replicate 8 0))) s
  (s.flag Reg.FLU_STATUS F.FLU_STATUS_ABORT_SEEN).count Reg.FLU_ABORTS F.FLU_ABORTS_COUNT 1

/-! ## Completion (R454, R479, R480, R600) -/

/-- Bytes of the result at each destination. -/
def resultBytes (m : List Byte) : Nat :=
  let k := Im.kind m
  let n := Im.elems m * Im.downBytes m
  if Im.quick m then 8 * Im.nval m
  else if k = 4 || k = 6 || k = 7 then Im.nranks m * n else n

/-- The flags and counters that a completion code sets (R490). -/
def State.flueFlags (s : State) (code : Nat) : State :=
  if code = Code.failMismatch then
    (s.flag Reg.FLU_STATUS F.FLU_STATUS_MISMATCH_SEEN).count Reg.FLU_MISMATCHES F.FLU_MISMATCHES_COUNT 1
  else if code = Code.failTimeout then
    (s.flag Reg.FLU_STATUS F.FLU_STATUS_TIMEOUT_SEEN).count Reg.FLU_TIMEOUTS F.FLU_TIMEOUTS_COUNT 1
  else if code = Code.refusedPool || code = Code.refusedAdmission then
    (s.flag Reg.FLU_STATUS F.FLU_STATUS_REFUSED_SEEN).count Reg.FLU_REFUSALS F.FLU_REFUSALS_COUNT 1
  else s

/-- The completion record of an instance goes to its ring; the code of the write (R480, R600, R601). -/
def State.flueRecord (s : State) (f : Nat) (m : List Byte) (r : FlueRun) (code cause : Nat) : Nat × State :=
  if Im.crent m = 0 then (Code.done, s)
  else
    let inst := s.instance_ f
    let time := if Code.family code = 1 || Code.family code = 2 then r.alm else s.alm
    let bytes := leBytes 8 (code + 0xF * 2 ^ 8 + inst * 2 ^ 32 + f * 2 ^ 48) ++ leBytes 8 time ++ leBytes 8 0 ++
      leBytes 8 (cause + Im.kind m * 2 ^ 8 + r.tick % 2 ^ 32 * 2 ^ 16)
    s.flueWrite (Im.crec m) (32 * (inst % Im.crent m)) bytes

/-- Destination `i`'s signal lands (R480, R608). -/
def State.destSignal (s : State) (f : Nat) (m : List Byte) (i : Nat) : State :=
  let (w, v) := Im.destSig m i
  let r : RegionId := ⟨bits w 24 19, bits w 18 12⟩
  if r.ok then s.landSig r (bits w 11 0) (bits w 28 25) (bits w 31 29) (v + 1) none (flueOwner f) (s.landing s.now) else s

/-- The instance's buffers are freed. -/
def State.freeHeld (s : State) (f : Nat) (r : FlueRun) : State :=
  r.held.foldl (fun s l => s.dropBuffer l (flueOwner f)) s

/-- The instance is closed with a code; early messages and quick values stay. -/
def State.closeRun (s : State) (f code cause : Nat) : State :=
  let tick := match (s.flue f).run with | some r => r.tick | none => 0
  let s := s.digClose tick f (s.instance_ f) code
  let s := s.setFlue f { s.flue f with run := none }
  let s := (s.setEntry f F.FLU_ENTRY_BUFFERS 0).setEntry f F.FLU_ENTRY_LAST_STATUS code
  let s := (s.setEntry f F.FLU_ENTRY_CAUSE cause).setEntry f F.FLU_ENTRY_STATE
    (if Code.family code = 0 then FSt.idle else FSt.faulted)
  { s with flueNotes := AMap.erase s.flueNotes f }

/-- Destinations of a failed instance hold unspecified bits (R479). -/
def State.spoilDests (s : State) (m : List Byte) : State :=
  (List.range (Im.ndst m)).foldl (fun s i =>
    let (bs, s) := s.freeBytes (resultBytes m)
    (s.flueWrite (Im.dest m i) 0 bs).2) s

/-- A data instance ends in family 0x1_, 0x2_ or 0x3_ (R479). -/
def State.flueFail (s : State) (f : Nat) (r : FlueRun) (code cause : Nat) : State :=
  let m := (s.flue f).image
  let s := if Code.family code = 3 then s.spoilDests m else s
  let s := (s.flueRecord f m r code cause).2
  let s := (s.freeHeld f r).closeRun f code cause
  ((s.sendAborts f m (s.instance_ f) r.tick code).flueFlags code).logFlue code []

/-- A quick instance ends in a failure: nothing is sent (R485, R611). -/
def State.quickFail (s : State) (f : Nat) (r : FlueRun) (code : Nat) : State :=
  let m := (s.flue f).image
  let s := (s.flueRecord f m r code 0).2
  ((s.closeRun f code 0).flueFlags code).logFlue code []

/-- The destination writes of an instance, in table order: the first failure's code (R611). -/
def State.writeDests (s : State) (m : List Byte) (parts : List (Nat × List Byte)) : Nat × State :=
  (List.range (Im.ndst m)).foldl (fun (code, s) i =>
    parts.foldl (fun (code, s) (off, bs) =>
      if bs.isEmpty then (code, s)
      else
        let (k, s) := s.flueWrite (Im.dest m i) off bs
        (if Code.family code = 0 && Code.family k ≠ 0 then k else code, s)) (code, s)) (Code.done, s)

/-- An instance that met no failure writes its destinations and record and applies its signals, or ends with the code of
the first failed write (R480, R611). -/
def State.flueFinish (s : State) (f : Nat) (r : FlueRun) (parts : List (Nat × List Byte)) : State :=
  let m := (s.flue f).image
  let notes := AMap.get s.flueNotes 0 f
  let code := if bitAt notes 1 then Code.throttled
    else if r.waited || bitAt notes 0 then Code.deferred
    else if r.mended then Code.corrected else Code.done
  let (k, s1) := s.writeDests m parts
  let (k2, s2) := if Code.family k = 0 then s1.flueRecord f m r code 0 else (k, s1)
  if Code.family k2 ≠ 0 then
    if Im.quick m then
      ((s2.closeRun f k2 0).flueFlags k2).logFlue k2 []
    else s2.flueFail f r k2 0
  else
    let s := (s2.freeHeld f r).closeRun f code 0
    (List.range (Im.ndst m)).foldl (fun s i => s.destSignal f m i) s

/-! ## Commands (R455, R612) -/

/-- A write of FLU_CMD: LOAD, UNLOAD, ABORT or CLEAR of a Flue (R455). -/
def State.writeFluCmd (s : State) (w : Word) : Nat × State :=
  let f := F.FLU_CMD_FLUE.get w
  let st := s.flueSt f
  let ms := s.mstate
  let ended (s : State) (code : Nat) : State := s.setFld Reg.FLU_CMD F.FLU_CMD_STATUS code
  if s.isOn Reg.FLU_CMD F.FLU_CMD_BUSY then (Code.rejState, s)
  else
    match F.FLU_CMD_OP.get w with
    | 1 =>
      if st = FSt.empty && (ms = MState.banked || ms = MState.lit) then
        let loc := s.fld Reg.FLU_CMD_LOC F.FLU_CMD_LOC_LOCATOR
        let a := loc % 2 ^ 41
        let seen := s.fabric.filter fun c => a ≤ c.1 && c.1 < a + 65536
        (Code.done, { (s.setEntry f F.FLU_ENTRY_STATE FSt.loading).setFld Reg.FLU_CMD F.FLU_CMD_BUSY 1 with
                      flueCmd := some ⟨f, true, loc, seen⟩ })
      else (Code.rejState, s)
    | 2 =>
      if st = FSt.idle || st = FSt.faulted then
        (Code.done, { s.setFld Reg.FLU_CMD F.FLU_CMD_BUSY 1 with flueCmd := some ⟨f, false, 0, []⟩ })
      else (Code.rejState, s)
    | 3 =>
      if st = FSt.running then
        match (s.flue f).run with
        | some r =>
          if Im.quick (s.flue f).image then (Code.done, ended (s.quickFail f r Code.failAborted) Code.done)
          else (Code.done, ended (s.flueFail f r Code.failAborted 0) Code.done)
        | none => (Code.rejState, s)
      else (Code.rejState, s)
    | _ => if st = FSt.faulted then (Code.done, ended (s.setEntry f F.FLU_ENTRY_STATE FSt.idle) Code.done)
           else (Code.rejState, s)

/-- A command written to FLU_CMD. -/
def flueCmdWrite (op f : Nat) (s : State) : Host.Outcome State Fault Refusal :=
  onUnit (f < 4096) <|
    let r := s.writeFluCmd (wordOf [(F.FLU_CMD_OP, op), (F.FLU_CMD_FLUE, f)])
    r.2.completed r.1 0

/-- LOAD (R455). -/
def execLoad (f : Nat) (s : State) : Host.Outcome State Fault Refusal := flueCmdWrite 1 f s
/-- UNLOAD (R455). -/
def execUnload (f : Nat) (s : State) : Host.Outcome State Fault Refusal := flueCmdWrite 2 f s
/-- FLUE_ABORT_CMD: ABORT of a running instance (R455). -/
def execFlueAbortCmd (f : Nat) (s : State) : Host.Outcome State Fault Refusal := flueCmdWrite 3 f s
/-- CLEAR (R455). -/
def execClear (f : Nat) (s : State) : Host.Outcome State Fault Refusal := flueCmdWrite 0 f s

/-- A byte that changed while the image was read: a free bit says which value was read (R612). -/
def mixBytes : List Byte → List Byte → List Byte → List Byte
  | a :: as, b :: bs, k :: ks => (if k.getLsbD 0 then a else b) :: mixBytes as bs ks
  | _, _, _ => []

/-- The image at a locator is read and checked (R458, R612): its code and bytes. -/
def State.readImage (s : State) (c : FlueCmd) : (Nat × List Byte) × State :=
  let a := c.loc % 2 ^ 41
  if bits c.loc 63 60 ≠ 3 || bits c.loc 59 41 ≠ 0 || c.loc % 512 ≠ 0 then ((Code.rejRange, []), s)
  else
    let want := Nat.min 65536 (imageLength (s.fread a 256))
    let n := Nat.min want (2 ^ 41 - a)
    let (r, s) := s.fabRead a n
    if r.1 = Code.failMemory then (r, s)
    else
      let (ks, s) := s.freeBytes n
      let m := mixBytes (Mem.read c.seen a n) (slice r.2 0 n) ks
      match loadCode m s.moduleId a with
      | some code => ((code, []), s)
      | none => ((Code.done, m), s)

/-- FLUE_LOAD_DONE: a LOAD or UNLOAD finishes (R455, R612). -/
def execFlueLoadDone (s : State) : Host.Outcome State Fault Refusal :=
  match s.flueCmd with
  | none => .next s
  | some c =>
    let s := { s.setFld Reg.FLU_CMD F.FLU_CMD_BUSY 0 with flueCmd := none }
    if c.isLoad then
      let (r, s) := s.readImage c
      let s := s.setFld Reg.FLU_CMD F.FLU_CMD_STATUS r.1
      if Code.family r.1 = 0 then
        .next (((s.setFlue c.flue { FlueRec.empty with image := r.2 }).setEntry c.flue F.FLU_ENTRY_STATE FSt.idle).setEntry
          c.flue F.FLU_ENTRY_KIND (Im.kind r.2))
      else .next (s.setEntry c.flue F.FLU_ENTRY_STATE FSt.empty)
    else
      let owner := flueOwner c.flue
      let s := s.buffers.foldl (fun s b =>
        if b.2.slots.contains (some owner) then
          let key := b.1 / 2 ^ 22
          let i := b.1 % 2 ^ 22
          let p : Pool := if key = 2 ^ 22 then .fabric
            else if 2 ^ 21 ≤ key then .region ⟨(key - 2 ^ 21) / 128, (key - 2 ^ 21) % 128⟩ else .core (coreOfKey key)
          s.removeOwner p i owner
        else s) s
      let s := (s.setFlue c.flue FlueRec.empty).setFld Reg.FLU_CMD F.FLU_CMD_STATUS Code.done
      .next ((s.setEntry c.flue F.FLU_ENTRY_STATE FSt.empty).setEntry c.flue F.FLU_ENTRY_KIND 0)

/-! ## Sources, pieces and values -/

/-- The INT32 at an index of a table at a source. -/
def State.tableAt (s : State) (loc i : Nat) : Nat := leNat (s.flueRead loc (4 * i) 4).1.2

/-- Records this rank has for expert `j` of rank `r` in a dispatch (R488). -/
def dispatchCount (s : State) (m : List Byte) (src r j : Nat) : Nat :=
  s.tableAt (Im.source m src) (r * Im.nloc m + j)

/-- Records this rank has for rank `r` in a dispatch. -/
def dispatchTo (s : State) (m : List Byte) (src r : Nat) : Nat :=
  sumNat ((List.range (Im.nloc m)).map fun j => dispatchCount s m src r j)

/-- Count and record offset that a dispatch's received table holds for an expert and a sender rank (R488). -/
def tableEntry (s : State) (m : List Byte) (j r : Nat) : Nat × Nat :=
  let i := 2 * (j * Im.nranks m + r)
  (s.tableAt (Im.source m 0) i, s.tableAt (Im.source m 0) (i + 1))

/-- The length of a piece in wire bytes (R469, R488, R489). -/
def pieceLen (s : State) (m : List Byte) (r : FlueRun) (l : FLink) (seg : Nat) (sending : Bool) : Nat :=
  let k := Im.kind m
  if k = 8 then
    if sending then dispatchTo s m 0 l.pos * Im.srcBytes m
    else sumNat (AMap.get r.counts [] (l.pos + 1)) * Im.srcBytes m
  else if k = 9 then
    if sending then sumNat ((List.range (Im.nloc m)).map fun j => (tableEntry s m j l.pos).1) * Im.srcBytes m
    else dispatchTo s m 1 l.pos * Im.srcBytes m
  else segElems m seg * phaseBytes m l.down

/-- The pieces this module sends to a peer, or receives from it, in sending order, with their lengths. -/
def linkPieces (s : State) (m : List Byte) (r : FlueRun) (l : FLink) (sending : Bool) : List (Nat × Nat) :=
  let own := ownPos m l.stage
  let segs := if sending then sendsTo m l.stage l.down own l.pos else sendsTo m l.stage l.down l.pos own
  segs.map fun g => (g, pieceLen s m r l g sending)

/-- The chunks of a list of pieces in order: segment, chunk index, piece length. -/
def chunkList (m : List Byte) (down : Bool) (ps : List (Nat × Nat)) : List (Nat × Nat × Nat) :=
  ps.flatMap fun (g, len) => (List.range (chunksOf m down len)).map fun i => (g, i, len)

/-- What a Flue keeps of a peer. -/
def FlueRun.chan (r : FlueRun) (l : FLink) : FChan :=
  (r.chans.find? fun c => c.stage = l.stage && c.down = l.down && c.pos = l.pos).getD
    { stage := l.stage, down := l.down, pos := l.pos, limit := 0, taken := 0, runs := 0, said := none, got := 0, sent := 0,
      acked := 0 }

/-- What a Flue keeps of a peer set. -/
def FlueRun.setChan (r : FlueRun) (c : FChan) : FlueRun :=
  let same (x : FChan) : Bool := x.stage = c.stage && x.down = c.down && x.pos = c.pos
  { r with chans := if r.chans.any same then r.chans.map (fun x => if same x then c else x) else r.chans ++ [c] }

/-- Bytes of the records this rank sends in an expert exchange, from `off` on. -/
def State.exchangeBytes (s : State) (m : List Byte) (pos : Nat) : List Byte :=
  let b := Im.srcBytes m
  if Im.kind m = 8 then
    let before := sumNat ((List.range pos).map fun q => dispatchTo s m 0 q)
    (s.flueRead (Im.source m 0) (4 * Im.nranks m * Im.nloc m + before * b) (dispatchTo s m 0 pos * b)).1.2
  else
    (List.range (Im.nloc m)).flatMap fun j =>
      let (n, off) := tableEntry s m j pos
      (s.flueRead (Im.source m 0) (8 * Im.nranks m * Im.nloc m + off * b) (n * b)).1.2

/-- The value of a chunk that a step gave, or of the result. -/
def FlueRun.val (r : FlueRun) (step seg idx : Nat) : Option (List Byte) :=
  (r.vals.find? fun v => v.step = step && v.seg = seg && v.idx = idx).map FVal.data

/-- The index of a step in the plan. -/
def stepIndex (m : List Byte) (t : HubStep) : Option Nat := (hubSteps m).findIdx? (fun x => x = t)

/-- The step before which this module sends a segment to a position in the up phase. -/
def sendStep (m : List Byte) (l : FLink) : HubStep :=
  if Im.halving m l.stage then
    ⟨l.stage, (Im.width m l.stage).log2 - 1 - ((halfPair (Im.pos m l.stage) l.pos).getD 0)⟩
  else ⟨l.stage, 0⟩

/-- The bytes of a chunk ready to be sent to a peer: the code of the read and the bytes. -/
def State.outgoing (s : State) (m : List Byte) (r : FlueRun) (l : FLink) (seg idx len : Nat) :
    Option ((Nat × List Byte) × State) :=
  let cb := chunkBytes m l.down
  let n := chunkLen m l.down len idx
  let fromSource (off : Nat) := some (s.flueRead (Im.source m 0) (off + idx * cb) n)
  let fromVal (step : Nat) := (r.val step seg idx).map fun b => ((Code.done, b), s)
  let w := phaseBytes m l.down
  let block := seg % Nat.max 1 (segCount m) * Im.segElem m * w
  if Im.kind m = 8 || Im.kind m = 9 then
    some ((Code.done, slice (s.exchangeBytes m l.pos) (idx * cb) n), s)
  else if Im.tasked m then
    if l.down then fromVal resultStep
    else
      match stepIndex m (sendStep m l) with
      | some 0 => fromSource block
      | some t => fromVal (t - 1)
      | none => none
  else if Im.kind m = 7 then fromSource (l.pos * Im.elems m * w + block)
  else if Im.kind m = 5 then (if rankOf m = Im.root m then fromSource block else fromVal resultStep)
  else if seg / Nat.max 1 (segCount m) = rankOf m then fromSource block
  else fromVal resultStep

/-! ## Sending, granting and drawing (R475 to R477) -/

/-- The core whose chain a Flue draws from: hub 0's (R475). -/
def flueChain (m : List Byte) : List Pool := chainOf (Im.hubCore m 0) 0 (Im.lastLevel m)

/-- Buffers set aside for senders. -/
def FlueRun.setAside (r : FlueRun) : Nat := sumNat (r.chans.map fun c => c.limit - c.taken)

/-- The next chunk to a peer is sent, if it is ready, within the limit, and a buffer is free that is not set aside for a
sender (R475 to R477). -/
def State.sendNext (s : State) (f : Nat) (l : FLink) : Bool × State :=
  match (s.flue f).run with
  | none => (false, s)
  | some r =>
    let m := (s.flue f).image
    let c := r.chan l
    match (chunkList m l.down (linkPieces s m r l true))[c.sent]?, r.free with
    | some (seg, idx, len), b :: free =>
      if c.got ≤ c.sent || r.free.length ≤ r.setAside then (false, s)
      else
        match s.outgoing m r l seg idx len with
        | none => (false, s)
        | some ((code, bs), s) =>
          if Code.family code ≠ 0 then (false, s.flueFail f r code 0)
          else
            let s := (s.flueWrite b 0 bs).2
            let last := (idx + 1) * chunkBytes m l.down ≥ len
            let p : Packet :=
              { w0 := s.originWord 3 (if l.down then 6 else 5) 1 l.module bs.length,
                w1 := wordOf [(P.flue, l.flue), (P.seg, seg % 2 ^ 15 + (if l.down then 2 ^ 15 else 0)),
                  (P.last, if last then 1 else 0), (P.offset, idx * chunkBytes m l.down / 64), (P.segLen, len)],
                payload := bs }
            let r := { r with free := free, mended := r.mended || code = Code.corrected,
                              outs := r.outs ++ [(⟨l.stage, l.down, l.pos, seg, idx, b, bs.length⟩ : FChunk)] }
            let s := s.setRun f (r.setChan { c with sent := c.sent + 1 })
            (true, ((s.digPacket r.tick p).flueSend f p).bump Reg.FLU_BYTES_OUT F.FLU_BYTES_OUT_COUNT bs.length)
    | _, _ => (false, s)

/-- Chunks to a peer are sent while they can be. -/
def State.sendAll (s : State) (f : Nat) (l : FLink) : Nat → State
  | 0 => s
  | n + 1 => match s.sendNext f l with
    | (true, s) => s.sendAll f l n
    | (false, s) => s

/-- Chunks a peer is still to be granted. -/
def ungranted (s : State) (m : List Byte) (r : FlueRun) (l : FLink) : Nat :=
  (chunkList m l.down (linkPieces s m r l false)).length - (r.chan l).limit

/-- The Flue may grant: a dispatch only once every count has arrived (R488). -/
def mayGrant (m : List Byte) (r : FlueRun) : Bool := Im.kind m ≠ 8 || r.counts.length = Im.nranks m

/-- Spare buffers are set aside for senders that wait; which sender gets one, or whether it is kept for sending, is
left to a free value (R476). -/
def State.grantSpare (s : State) (f kept : Nat) : Nat → State
  | 0 => s
  | n + 1 =>
    match (s.flue f).run with
    | none => s
    | some r =>
      let m := (s.flue f).image
      let waiting := (flueLinks m).filter fun l => 0 < ungranted s m r l
      if r.free.length ≤ r.setAside + kept || !mayGrant m r || waiting.isEmpty then s
      else
        let sends := (flueLinks m).any fun l =>
          (r.chan l).sent < (chunkList m l.down (linkPieces s m r l true)).length
        let (pick, s) := s.freeWord
        let k := pick.toNat % (waiting.length + if sends then 1 else 0)
        match waiting[k]? with
        | some l =>
          let c := r.chan l
          (s.setRun f (r.setChan { c with limit := c.limit + 1 })).grantSpare f kept n
        | none => s.grantSpare f (kept + 1) n

/-- While a sender waits, buffers are drawn one at a time up to WANTBUF (R476). -/
def State.drawMore (s : State) (f : Nat) : Nat → State
  | 0 => s
  | n + 1 =>
    match (s.flue f).run with
    | none => s
    | some r =>
      let m := (s.flue f).image
      let need := mayGrant m r && (flueLinks m).any fun l => 0 < ungranted s m r l
      if r.waiting || r.drawing || Im.wantBuf m ≤ r.held.length || !need then s
      else
        match s.request (flueOwner f) (flueChain m) 1 true with
        | (some ls, s) => (s.setRun f { r with held := r.held ++ ls, free := r.free ++ ls }).drawMore f n
        | (none, s) => s.setRun f { r with drawing := true }

/-- The current GRANT to a peer (R466, R477). -/
def State.sendGrant (s : State) (f : Nat) (l : FLink) : State :=
  match (s.flue f).run with
  | none => s
  | some r =>
    let m := (s.flue f).image
    let c := r.chan l
    let s := s.setRun f (r.setChan { c with said := some (c.limit, c.runs) })
    s.flueSend f (s.message m (s.instance_ f) r.tick l Msg.grant 0 c.limit (leBytes 8 c.runs))

/-- A GRANT goes to every sender whose limit or count has changed (R477). -/
def State.sayGrants (s : State) (f : Nat) : State :=
  (flueLinks (s.flue f).image).foldl (fun s l =>
    match (s.flue f).run with
    | none => s
    | some r =>
      let c := r.chan l
      if c.said.getD (0, 0) ≠ (c.limit, c.runs) then s.sendGrant f l else s) s

/-- A Flue does all that its open instance can do without another event: it draws, sends, sets buffers aside and
grants. -/
def State.flueWork (s : State) (f : Nat) : State :=
  match (s.flue f).run with
  | none => s
  | some r =>
    let m := (s.flue f).image
    if r.waiting || Im.quick m then s
    else
      let s := s.drawMore f (Im.wantBuf m)
      let s := (flueLinks m).foldl (fun s l => s.sendAll f l (r.held.length + Im.wantBuf m)) s
      (s.grantSpare f 0 (r.held.length + Im.wantBuf m)).sayGrants f

/-! ## Hub tasks (R461, R471 to R474) -/

/-- A descriptor's four words with BASE, DIM0, DIM1 and, for A, STRIDE1 set (R472). -/
def setDesc (bs : List Byte) (base d0 d1 : Nat) (s1 : Option Nat) : List Byte :=
  let w0 := setBits (leAt bs 0 8) 32 16 base
  let w1 := setBits (setBits (leAt bs 8 8) 15 0 d0) 31 16 d1
  let w2 := match s1 with | some v => setBits (leAt bs 16 8) 17 0 v | none => leAt bs 16 8
  leBytes 8 w0 ++ leBytes 8 w1 ++ leBytes 8 w2 ++ slice bs 24 8

/-- The kind of a step's task: 0 stage 0, 1 REDUCE, 2 LAST; the last step of the plan is LAST. -/
def taskKind (m : List Byte) (t : Nat) : Nat :=
  if t + 1 = (hubSteps m).length then 2
  else match (hubSteps m)[t]? with
    | some ⟨0, _⟩ => 0
    | _ => 1

/-- The INFO record (R472). -/
def infoBytes (m : List Byte) (inst : Nat) (t : HubStep) (kind n seg idx : Nat) : List Byte :=
  leBytes 8 (seg * 2 ^ 32 + t.stage * 2 ^ 24 + t.idx * 2 ^ 16 + kind * 2 ^ 8 + n) ++
  leBytes 8 (chunkElems m seg idx * 2 ^ 32 + idx) ++ leBytes 8 inst ++ leBytes 8 0

/-- A contribution to a step's chunk from a position: where its bytes stand, if it is present. -/
inductive Contribution where
  | source (i : Nat)
  | held (bs : List Byte)
  | buffer (b len : Nat)
deriving DecidableEq, Repr

/-- The contribution of a position to a step's chunk. -/
def contribution (m : List Byte) (r : FlueRun) (t : Nat) (st : HubStep) (seg idx pos : Nat) : Option Contribution :=
  if st.stage = 0 then some (.source pos)
  else if pos = Im.pos m st.stage then
    if t = 0 then some (.source 0) else (r.val (t - 1) seg idx).map .held
  else
    (r.ins.find? fun c => c.stage = st.stage && !c.down && c.pos = pos && c.seg = seg && c.idx = idx).map fun c =>
      .buffer c.buf c.len

/-- Every contribution of a step's chunk is present and the task has not been given. -/
def taskReady (m : List Byte) (r : FlueRun) (t : Nat) (st : HubStep) (seg idx : Nat) : Bool :=
  runsTask m st seg && !r.given.contains (t, seg, idx) &&
  (taskPositions m st).all fun p => (contribution m r t st seg idx p).isSome

/-- The next task a hub can be given: lowest segment first, then lowest chunk, then earliest step. -/
def nextTask (m : List Byte) (r : FlueRun) (hub : Nat) : Option (Nat × HubStep × Nat × Nat) :=
  ((List.range (segCount m)).filter fun g => g % Nat.max 1 (Im.nhub m) = hub).findSome? fun g =>
    (List.range (ceilDiv (segElems m g) (Im.chunkElem m))).findSome? fun i =>
      (hubSteps m).zipIdx.findSome? fun (st, t) =>
        if taskReady m r t st g i then some (t, st, g, i) else none

/-- The slot a hub's next task takes, if it is free (R471). -/
def freeSlot (m : List Byte) (r : FlueRun) (hub : Nat) : Option Nat :=
  let q := AMap.get r.seqs 0 hub % Nat.max 1 (Im.nslot m)
  if r.tasks.any (fun k => k.hub = hub && k.slot = q) then none else some q

/-- The order key of an open instance: launch tick, then GROUP (R465). -/
def orderKey (m : List Byte) (r : FlueRun) : Nat := r.tick * 2 ^ 32 + Im.group m

/-- Another Flue with a lower order key has a task ready for the same core (R465). -/
def earlierTask (s : State) (f : Nat) (m : List Byte) (r : FlueRun) (hub : Nat) : Bool :=
  s.flues.any fun (g, x) =>
    match x.run with
    | some r' =>
      g ≠ f && Im.tasked x.image && orderKey x.image r' < orderKey m r &&
      (List.range (Im.nhub x.image)).any fun h =>
        Im.hubCore x.image h = Im.hubCore m hub && (freeSlot x.image r' h).isSome && (nextTask x.image r' h).isSome
    | none => false

/-- One contribution is copied to its place, and its buffer is free again (R471). -/
def State.copyIn (s : State) (f : Nat) (m : List Byte) (t : Nat) (st : HubStep) (seg idx : Nat) (c : CoreId) (a : Nat)
    (pos : Nat) : Nat × State :=
  match (s.flue f).run with
  | none => (Code.done, s)
  | some r =>
    let bytes := if st.stage = 0 then Im.srcBytes m else Im.wireBytes m
    let n := chunkElems m seg idx * bytes
    match contribution m r t st seg idx pos with
    | some (.source i) =>
      let off := seg * Im.segElem m * Im.srcBytes m + idx * Im.chunkElem m * Im.srcBytes m
      let (x, s) := s.flueRead (Im.source m i) off n
      (x.1, if Code.family x.1 = 0 then s.hubWrite c a x.2 else s)
    | some (.held bs) => (Code.done, s.hubWrite c a bs)
    | some (.buffer b len) =>
      let (x, s) := s.flueRead b 0 len
      let s := if Code.family x.1 = 0 then s.hubWrite c a x.2 else s
      (x.1, s.setRun f { r with ins := r.ins.filter (fun k => k.buf ≠ b), free := r.free ++ [b] })
    | none => (Code.done, s)

/-- A Flue's signal lands on a hub's object (R471, R474). -/
def State.hubSignal (s : State) (f : Nat) (m : List Byte) (hub obj : Nat) : State :=
  s.landSig (regionOf (Im.hubCore m hub)) (Im.hubObj m hub obj) (Im.hubTag m hub) 3 1 none (flueOwner f)
    (s.landing s.now)

/-- Descriptors and INFO of a task are written at three handles. -/
def State.writeTask (s : State) (c : CoreId) (handle : Nat) (a d info : List Byte) : State :=
  ((s.hubWrite c (descAddr s c handle) a).hubWrite c (descAddr s c (handle + 1)) d).hubWrite c
    (descAddr s c (handle + 2)) info

/-- HUB_TASK: a hub is given its next task (R471, R472). -/
def execHubTask (f hub : Nat) (s : State) : Host.Outcome State Fault Refusal :=
  onUnit (f < 4096) <|
    let m := (s.flue f).image
    match (s.flue f).run with
    | none => s
    | some r =>
      match nextTask m r hub, freeSlot m r hub with
      | some (t, st, seg, idx), some q =>
        if !Im.tasked m || Im.nhub m ≤ hub || earlierTask s f m r hub then s
        else
          let c := Im.hubCore m hub
          let ps := taskPositions m st
          let a := Im.stageBase m + q * Im.sStride m
          let (code, s) := ps.zipIdx.foldl (fun (code, s) (p, i) =>
            let (k, s) := s.copyIn f m t st seg idx c (a + i * Im.cStride m) p
            (joinCode code k, s)) (Code.done, s)
          let r := (s.flue f).run.getD r
          if Code.family code ≠ 0 then s.flueFail f r code 0
          else
            let kind := taskKind m t
            let tpl := Im.template m kind
            let n := chunkElems m seg idx
            let h := Im.tBase m + 3 * q
            let s := s.writeTask c h (setDesc (slice tpl 0 32) a n ps.length (some (Im.cStride m)))
              (setDesc (slice tpl 32 32) (Im.outBase m + q * Im.oStride m) n 1 none)
              (infoBytes m (s.instance_ f) st kind ps.length seg idx)
            let r := { r with given := r.given ++ [(t, seg, idx)], mended := r.mended || code = Code.corrected,
                              tasks := r.tasks ++ [⟨hub, q, t, seg, idx, false⟩],
                              seqs := AMap.set r.seqs 0 hub (AMap.get r.seqs 0 hub + 1) }
            ((s.setRun f r).hubSignal f m hub 0).flueWork f
      | _, _ => s

/-- A Flue's take of one from a hub's counter, after every engine take of the cycle (R464, R471). -/
def State.takeHub (s : State) (m : List Byte) (hub obj : Nat) : Bool × State :=
  let r := regionOf (Im.hubCore m hub)
  let o := Im.hubObj m hub obj
  let s := s.beforeWait r o 5 512
  let w := s.reg (Reg.SYN_OBJ r o)
  if kindOf w = 2 && tagOf w = Im.hubTag m hub then s.judge r o 5 1 512 else (false, s)

/-- A task's output joins the instance: as a step's result, or as part of the result this module holds. -/
def FlueRun.gain (m : List Byte) (r : FlueRun) (t seg idx : Nat) (bs : List Byte) : FlueRun :=
  { r with vals := r.vals ++ [⟨if t + 1 = (hubSteps m).length then resultStep else t, seg, idx, bs⟩] }

/-- TASK_TAKEBACK: a take of DONE or UDONE passes, and the oldest task it stands for is taken back (R471, R473). -/
def execTaskTakeback (f hub : Nat) (upd : Bool) (s : State) : Host.Outcome State Fault Refusal :=
  onUnit (f < 4096) <|
    let m := (s.flue f).image
    match (s.flue f).run with
    | none => s
    | some r =>
      match takeFirst (fun k : FTask => k.hub = hub && k.upd = upd) r.tasks with
      | none => s
      | some (k, rest) =>
        let (ok, s) := s.takeHub m hub (if upd then 3 else 1)
        if !ok then s
        else
          let c := Im.hubCore m hub
          let last := k.step + 1 = (hubSteps m).length
          let n := chunkElems m k.seg k.idx
          let out := Im.outBase m + k.slot * Im.oStride m
          if last && !upd && Im.kind m = 11 then
            let u := Im.uoutBase m + k.slot * Im.uoStride m
            let tpl := Im.template m 3
            let st := (hubSteps m)[k.step]?.getD ⟨0, 0⟩
            let s := s.writeTask c (Im.uBase m + 3 * k.slot) (setDesc (slice tpl 0 32) out n 1 (some (Im.cStride m)))
              (setDesc (slice tpl 32 32) u n 1 none) (infoBytes m (s.instance_ f) st 3 1 k.seg k.idx)
            (s.setRun f { r with tasks := rest ++ [{ k with upd := true }] }).hubSignal f m hub 2
          else
            let a := if upd then Im.uoutBase m + k.slot * Im.uoStride m else out
            let bs := s.hubRead c a (n * (if last then Im.downBytes m else Im.wireBytes m))
            (s.setRun f (FlueRun.gain m { r with tasks := rest } k.step k.seg k.idx bs)).flueWork f

/-! ## Messages (R466, R467, R477 to R479) -/

/-- The payload fields of a message. -/
def msgCode (p : Packet) : Nat := leAt p.payload 7 1
def msgStatus (p : Packet) : Nat := leAt p.payload 6 1
def msgInst (p : Packet) : Nat := leAt p.payload 4 2
def msgGroup (p : Packet) : Nat := leAt p.payload 0 4
def msgTick (p : Packet) : Nat := leAt p.payload 8 8
def msgRank (p : Packet) : Nat := bits (leAt p.payload 16 8) 63 52
def msgLow (p : Packet) : Nat := leAt p.payload 16 4

/-- The peer a message came from: in its stage and phase, the position whose rank it names and whose module sent it. -/
def senderOf (m : List Byte) (p : Packet) : Option FLink :=
  let members := flueLinks m ++ (flueMembers m)
  members.find? fun l =>
    l.stage = h1 p P.stage && l.down = (h1 p P.down = 1) && l.module = h0 p P.src && h0 p P.smod = 1 &&
    (if l.stage = 0 then l.pos = msgRank p
     else msgRank p = rankOf m + below m l.stage * l.pos - below m l.stage * Im.pos m l.stage)

/-- Buffers of acknowledged pieces are free again (R477). -/
def FlueRun.release (s : State) (m : List Byte) (r : FlueRun) (l : FLink) (n : Nat) : FlueRun :=
  let segs := ((linkPieces s m r l true).take n).map Prod.fst
  let gone := r.outs.filter fun k => k.stage = l.stage && k.down = l.down && k.pos = l.pos && segs.contains k.seg
  { r with outs := r.outs.filter (fun k => !gone.contains k), free := r.free ++ gone.map FChunk.buf }

/-- Every chunk of a piece that has been sent is sent again (R478). -/
def State.sendAgain (s : State) (f : Nat) (m : List Byte) (r : FlueRun) (l : FLink) (seg : Nat) : State :=
  let len := ((linkPieces s m r l true).find? fun x => x.1 = seg).map Prod.snd |>.getD 0
  (r.outs.filter fun k => k.stage = l.stage && k.down = l.down && k.pos = l.pos && k.seg = seg).foldl (fun s k =>
    let (x, s) := s.flueRead k.buf 0 k.len
    let cb := chunkBytes m l.down
    let p : Packet :=
      { w0 := s.originWord 3 (if l.down then 6 else 5) 1 l.module k.len,
        w1 := wordOf [(P.flue, l.flue), (P.seg, seg % 2 ^ 15 + (if l.down then 2 ^ 15 else 0)),
          (P.last, if (k.idx + 1) * cb ≥ len then 1 else 0), (P.offset, k.idx * cb / 64), (P.segLen, len)],
        payload := x.2 }
    if Code.family x.1 ≠ 0 then s
    else (s.flueSend f p).bump Reg.FLU_BYTES_OUT F.FLU_BYTES_OUT_COUNT k.len) s

/-- The counts of a COUNT message (R488). -/
def countsOf (m : List Byte) (p : Packet) : List Nat := (List.range (Im.nloc m)).map fun j => leAt p.payload (24 + 3 * j) 3

/-- A message for the open instance is checked (R467) and acted on. -/
def State.hearMessage (s : State) (f : Nat) (p : Packet) : State :=
  match (s.flue f).run with
  | none => s
  | some r =>
    let m := (s.flue f).image
    let inst := s.instance_ f
    let old := msgCode p = Msg.abort && (inst + 65536 - msgInst p) % 65536 < 32768 && msgInst p ≠ inst
    if old then s
    else if msgGroup p ≠ Im.group m || msgInst p ≠ inst || msgTick p ≠ r.tick then s.flueFail f r Code.failMismatch 0
    else
      match senderOf m p with
      | none => s.flueFail f r Code.failMismatch 0
      | some l =>
        let r := { r with heard := s.now }
        if msgCode p = Msg.abort then
          let s := (s.flag Reg.FLU_STATUS F.FLU_STATUS_ABORT_SEEN).count Reg.FLU_ABORTS F.FLU_ABORTS_COUNT 1
          s.flueFail f r Code.failAborted (msgStatus p)
        else if msgCode p = Msg.grant then
          let c := r.chan l
          let acked := Nat.max c.acked (leAt p.payload 24 8)
          let r := FlueRun.release s m (r.setChan { c with got := Nat.max c.got (msgLow p), acked := acked }) l acked
          (s.setRun f r).flueWork f
        else if msgCode p = Msg.resend then
          let r := { r with mended := true }
          (s.setRun f r).sendAgain f m r l (msgLow p)
        else if msgCode p = Msg.count then
          (s.setRun f { r with counts := AMap.insert r.counts (l.pos + 1) (countsOf m p) }).flueWork f
        else s.setRun f r

/-- A message that names an instance this Flue has not launched (R467). -/
def notLaunched (s : State) (f : Nat) (p : Packet) : Bool :=
  let d := (msgInst p + 65536 - s.instance_ f) % 65536
  d ≠ 0 && d < 32768

/-- A message of a data Flue arrives: it is acted on, or held for an instance not launched, or it comes too late and is
discarded. -/
def State.arriveMessage (s : State) (msg : Nat) (p : Packet) : State :=
  let f := h1 p P.flue
  let x := s.flue f
  if h0 p P.ptype ≠ 4 || msgCode p ≠ msg || Im.quick x.image then s
  else
    let s := (s.land p).2
    match x.run with
    | some _ => s.hearMessage f p
    | none =>
      if s.flueSt f = FSt.idle && notLaunched s f p then
        s.setFlue f { s.flue f with early := (s.flue f).early ++ [p] }
      else s

/-- GRANT: a sender's limit rises and completed pieces are released (R476, R477). -/
def execGrant (p : Packet) (s : State) : Host.Outcome State Fault Refusal := .next (s.arriveMessage Msg.grant p)
/-- RESEND: every chunk of a piece is sent again (R478). -/
def execResend (p : Packet) (s : State) : Host.Outcome State Fault Refusal := .next (s.arriveMessage Msg.resend p)
/-- ABORT: the open instance ends with FAIL_ABORTED (R479). -/
def execAbort (p : Packet) (s : State) : Host.Outcome State Fault Refusal := .next (s.arriveMessage Msg.abort p)
/-- COUNT_MESSAGE: a dispatch's counts arrive (R488). -/
def execCountMessage (p : Packet) (s : State) : Host.Outcome State Fault Refusal := .next (s.arriveMessage Msg.count p)

/-- GRANT_REPEAT: every FLU_RESEND an open instance repeats its latest GRANTs (R477). -/
def execGrantRepeat (f : Nat) (s : State) : Host.Outcome State Fault Refusal :=
  onUnit (f < 4096) <|
    match (s.flue f).run with
    | none => s
    | some r =>
      if Im.quick (s.flue f).image then s
      else
        let s := s.at (r.grantAt + s.fld Reg.FLU_RESEND F.FLU_RESEND_NS)
        let s := s.setRun f { r with grantAt := s.now }
        (flueLinks (s.flue f).image).foldl (fun s l =>
          if (((s.flue f).run.getD r).chan l).said.isSome then s.sendGrant f l else s) s

/-! ## Chunks and pieces (R468 to R470, R478) -/

/-- The peer and piece a FLUE packet belongs to, with the piece's length. -/
def pieceOf (s : State) (m : List Byte) (r : FlueRun) (p : Packet) : Option (FLink × Nat × Nat) :=
  let w := h1 p P.seg
  (flueLinks m).findSome? fun l =>
    if l.module = h0 p P.src && h0 p P.smod = 1 && l.down = (w / 2 ^ 15 = 1) then
      ((linkPieces s m r l false).find? fun x => x.1 % 2 ^ 15 = w % 2 ^ 15).map fun x => (l, x.1, x.2)
    else none

/-- A piece under way. -/
def FlueRun.piece (r : FlueRun) (l : FLink) (seg : Nat) : Option FPiece :=
  r.pieces.find? fun x => x.stage = l.stage && x.down = l.down && x.pos = l.pos && x.seg = seg

/-- A piece under way set. -/
def FlueRun.setPiece (r : FlueRun) (x : FPiece) : FlueRun :=
  let same (y : FPiece) : Bool := y.stage = x.stage && y.down = x.down && y.pos = x.pos && y.seg = x.seg
  { r with pieces := if r.pieces.any same then r.pieces.map (fun y => if same y then x else y) else r.pieces ++ [x] }

/-- Payload bytes accepted for a piece. -/
def FPiece.bytes (x : FPiece) : Nat := sumNat (x.got.map Prod.snd)

/-- Pieces of a peer complete in an unbroken run from the first (R477). -/
def runLength (r : FlueRun) (l : FLink) : List (Nat × Nat) → Nat
  | [] => 0
  | (seg, len) :: rest =>
    let got := match r.piece l seg with | some x => x.bytes | none => 0
    if got = len then runLength r l rest + 1 else 0

/-- A shadow's Flue draws a buffer for a mirrored chunk that finds none (R511). -/
def State.shadowDraw (s : State) (f : Nat) (m : List Byte) (r : FlueRun) : FlueRun × State :=
  if s.mstate ≠ MState.shadow || !r.free.isEmpty then (r, s)
  else
    match s.request (flueOwner f) (flueChain m) 1 true with
    | (some ls, s) =>
      let r := { r with held := r.held ++ ls, free := ls }
      (r, s.setRun f r)
    | (none, s) => (r, s)

/-- FLUE_CHUNK: a FLUE packet is checked and counted toward its piece (R467 to R470). -/
def execFlueChunk (p : Packet) (s : State) : Host.Outcome State Fault Refusal :=
  let f := h1 p P.flue
  let m := (s.flue f).image
  match (s.flue f).run with
  | none => .next (if h0 p P.ptype = 3 then (s.land p).2 else s)
  | some r =>
    if h0 p P.ptype ≠ 3 then .next s
    else
      match pieceOf s m r p with
      | none => .next ((s.land p).2.flueFail f r Code.failMismatch 0)
      | some (l, seg, len) =>
        let off := 64 * h1 p P.offset
        let cb := chunkBytes m l.down
        let idx := off / cb
        let n := p.payload.length
        let x := (r.piece l seg).getD { stage := l.stage, down := l.down, pos := l.pos, seg := seg, got := [],
                                        since := s.now, resends := 0 }
        let again := x.got.any fun g => g.1 = idx
        if off % cb ≠ 0 || len < off + n || h1 p P.segLen ≠ len || (again && x.resends = 0) then
          .next ((s.land p).2.flueFail f r Code.failMismatch 0)
        else if again then .next ((s.land p).2.setRun f { r with heard := s.now })
        else
          let (r, s) := s.shadowDraw f m r
          match r.free with
          | [] => .next s
          | b :: free =>
            let s := (s.land p).2.bump Reg.FLU_BYTES_IN F.FLU_BYTES_IN_COUNT n
            let s := (s.flueWrite b 0 p.payload).2
            let x := { x with got := x.got ++ [(idx, n)] }
            let s := if h1 p P.last = 1 && x.bytes < len then s.bump Reg.FLU_LAST_EARLY F.FLU_LAST_EARLY_COUNT 1 else s
            let c := r.chan l
            let r := { r with heard := s.now }.setPiece x
            let r := r.setChan { c with taken := c.taken + 1 }
            let r := if Im.tasked m && !l.down then
                { r with free := free, ins := r.ins ++ [(⟨l.stage, l.down, l.pos, seg, idx, b, n⟩ : FChunk)] }
              else { r with vals := r.vals ++ [(⟨resultStep, seg, idx, p.payload⟩ : FVal)], free := free ++ [b] }
            let c := r.chan l
            let r := r.setChan { c with runs := runLength r l (linkPieces s m r l false) }
            .next ((s.setRun f r).flueWork f)

/-- PIECE_RESEND_TIMEOUT: a piece has been open for FLU_RESEND; RESEND is sent, or after the third the instance ends with
FAIL_LINK (R478). A shadow does neither (R511). -/
def execPieceResendTimeout (f peer seg : Nat) (down : Bool) (s : State) : Host.Outcome State Fault Refusal :=
  onUnit (f < 4096) <|
    let m := (s.flue f).image
    match (s.flue f).run with
    | none => s
    | some r =>
      let open_ := (flueLinks m).findSome? fun l =>
        if l.module = peer && l.down = down then
          match r.piece l seg, (linkPieces s m r l false).find? (fun x => x.1 = seg) with
          | some x, some (_, len) => if x.bytes < len then some (l, x) else none
          | _, _ => none
        else none
      match (if s.mstate = MState.shadow then none else open_) with
      | none => s
      | some (l, x) =>
        let s := s.at (x.since + s.fld Reg.FLU_RESEND F.FLU_RESEND_NS)
        if 3 ≤ x.resends then s.flueFail f r Code.failLink 0
        else
          let s := s.setRun f ({ r with mended := true }.setPiece { x with since := s.now, resends := x.resends + 1 })
          let s := s.flueSend f (s.message m (s.instance_ f) r.tick l Msg.resend 0 seg (List.replicate 8 0))
          (((s.flag Reg.FLU_STATUS F.FLU_STATUS_RESEND_SEEN).count Reg.FLU_RESENDS F.FLU_RESENDS_COUNT 1).healthAdd 5 1).logFlue
            0 []

/-! ## Launches (R464, R475, R488) -/

/-- Messages held for the instance that has just opened are acted on (R467). -/
def State.hearHeld (s : State) (f : Nat) : State :=
  let ps := (s.flue f).early
  let s := s.setFlue f { s.flue f with early := [] }
  ps.foldl (fun s p => s.hearMessage f p) s

/-- A dispatch's counts go to every rank, unless one is 2^24 or more (R488). -/
def State.sendCounts (s : State) (f : Nat) : State :=
  match (s.flue f).run with
  | none => s
  | some r =>
    let m := (s.flue f).image
    let counts (q : Nat) : List Nat := (List.range (Im.nloc m)).map fun j => dispatchCount s m 0 q j
    let all := (List.range (Im.nranks m)).flatMap counts
    let bad := (List.range (Im.nranks m * Im.nloc m)).findSome? fun i =>
      let x := (s.flueRead (Im.source m 0) (4 * i) 4).1
      if Code.family x.1 ≠ 0 then some x.1 else none
    match bad with
    | some code => s.flueFail f r code 0
    | none =>
      if all.any (fun n => 2 ^ 24 ≤ n) then s.flueFail f r Code.rejRange 0
      else
        let own := rankOf m
        let s := s.setRun f { r with counts := AMap.insert r.counts (own + 1) (counts own) }
        ((flueLinks m).filter fun l => !l.down).foldl (fun s l =>
          let body := slice ((counts l.pos).flatMap (leBytes 3)) 0 (8 * ceilDiv (3 * Im.nloc m) 8)
          let p := s.message m (s.instance_ f) r.tick l Msg.count 0 0 body
          (s.digPacket r.tick p).flueSend f p) s

/-- The instance has its first buffers: it begins. -/
def State.flueBegin (s : State) (f : Nat) : State :=
  let s := if Im.kind (s.flue f).image = 8 then s.sendCounts f else s
  (s.hearHeld f).flueWork f

/-- The GO object of an image: its region and number. -/
def goRegion (m : List Byte) : RegionId := ⟨bits (Im.go m) 24 19, bits (Im.go m) 18 12⟩
def goObj (m : List Byte) : Nat := bits (Im.go m) 11 0

/-- What a judged take of GO finds (R464). -/
inductive GoTake where
  | passes | waits | fails
deriving DecidableEq, Repr

/-- The take of GOVAL on the GO object is judged after every engine take of the cycle (R464). -/
def State.takeGo (s : State) (m : List Byte) : GoTake × State :=
  let r := goRegion m
  let s := s.beforeWait r (goObj m) 5 512
  let w := s.reg (Reg.SYN_OBJ r (goObj m))
  if kindOf w ≠ 2 || tagOf w ≠ bits (Im.go m) 28 25 || F.SYN_OBJ_FLAG_ERR.on w then (.fails, s)
  else
    let (ok, s) := s.judge r (goObj m) 5 (Im.goVal m) 512
    (if ok then .passes else .waits, s)

/-- A GO object that fails its check faults the Flue (R464). -/
def State.goFails (s : State) (f : Nat) (m : List Byte) : State :=
  let s := (s.setEntry f F.FLU_ENTRY_STATE FSt.faulted).setEntry f F.FLU_ENTRY_LAST_STATUS Code.failMismatch
  (s.flueFlags Code.failMismatch).logFlue Code.failMismatch [f, goObj m + (goRegion m).region * 2 ^ 12 + (goRegion m).die * 2 ^ 19]

/-- An instance opens: STATE, INSTANCE and the launch tick (R464). -/
def State.openRun (s : State) (f : Nat) : FlueRun × State :=
  let s := (s.setEntry f F.FLU_ENTRY_STATE FSt.running).setEntry f F.FLU_ENTRY_INSTANCE (s.instance_ f + 1)
  let s := { s with flueNotes := AMap.erase s.flueNotes f }
  (FlueRun.fresh s s.tickNow, s.digOpen s.tickNow)

/-- FLUE_LAUNCH: a take of GO passes and a data instance launches, or the GO object fails its check (R464, R475). -/
def execFlueLaunch (f : Nat) (s : State) : Host.Outcome State Fault Refusal :=
  onUnit (f < 4096) <|
    let m := (s.flue f).image
    let ms := s.mstate
    let busy := match s.flueCmd with | some c => c.flue = f | none => false
    if s.flueSt f ≠ FSt.idle || Im.quick m || busy || !(ms = MState.lit || ms = MState.shadow) then s
    else
      match s.takeGo m with
      | (.fails, s) => s.goFails f m
      | (.waits, s) => s
      | (.passes, s) =>
        let (r, s) := s.openRun f
        match s.request (flueOwner f) (flueChain m) (Im.minBuf m) true with
        | (some ls, s) => (s.setRun f { r with held := ls, free := ls }).flueBegin f
        | (none, s) => s.setRun f { r with waiting := true }

/-- Another Flue with a lower order key waits for buffers of the same chain (R465). -/
def earlierDraw (s : State) (f : Nat) (m : List Byte) (r : FlueRun) : Bool :=
  s.flues.any fun (g, x) =>
    match x.run with
    | some r' => g ≠ f && (r'.waiting || r'.drawing) && flueChain x.image = flueChain m &&
        orderKey x.image r' < orderKey m r
    | none => false

/-- FLUE_BUFFER_GRANT: a launch request or a further draw is met after waiting (R475, R476). -/
def execFlueBufferGrant (f : Nat) (s : State) : Host.Outcome State Fault Refusal :=
  onUnit (f < 4096) <|
    let m := (s.flue f).image
    match (s.flue f).run with
    | none => s
    | some r =>
      if earlierDraw s f m r || !(r.waiting || r.drawing) then s
      else
        match s.request (flueOwner f) (flueChain m) (if r.waiting then Im.minBuf m else 1) false with
        | (some ls, s) =>
          let s := s.setRun f { r with held := r.held ++ ls, free := r.free ++ ls, waited := true, waiting := false,
                                       drawing := false }
          if r.waiting then s.flueBegin f else s.flueWork f
        | (none, _) => s

/-- FLUE_BUFFER_TIMEOUT: a launch request is not met within FLU_WAIT (R475). -/
def execFlueBufferTimeout (f : Nat) (s : State) : Host.Outcome State Fault Refusal :=
  onUnit (f < 4096) <|
    match (s.flue f).run with
    | none => s
    | some r =>
      if r.waiting then
        (s.at (r.opened + s.fld Reg.FLU_WAIT F.FLU_WAIT_NS)).flueFail f r Code.refusedPool 0
      else s

/-- FLUE_TIMEOUT: an instance has received no chunk and no message for FLU_TIMEOUT (R479). -/
def execFlueTimeout (f : Nat) (s : State) : Host.Outcome State Fault Refusal :=
  onUnit (f < 4096) <|
    match (s.flue f).run with
    | none => s
    | some r =>
      let s := s.at (r.heard + s.fld Reg.FLU_TIMEOUT F.FLU_TIMEOUT_NS)
      if Im.quick (s.flue f).image then s.quickFail f r Code.failTimeout else s.flueFail f r Code.failTimeout 0

/-- FLUE_UNLAUNCHED_MISMATCH: the tick after a held message's launch tick has ended and its instance has not launched
(R467). -/
def execFlueUnlaunchedMismatch (f : Nat) (s : State) : Host.Outcome State Fault Refusal :=
  onUnit (f < 4096) <|
    match (s.flue f).early, (s.flue f).run with
    | p :: rest, none =>
      if s.flueSt f ≠ FSt.idle then s
      else
        let m := (s.flue f).image
        let due := (s.fld Reg.ALM_EPOCH F.ALM_EPOCH_EPOCH : Int) + (toSigned 64 (msgTick p) + 2) * (2 ^ tickK s : Nat)
        let s := s.atAlm due.toNat
        let s := s.setFlue f { s.flue f with early := rest }
        let s := (s.setEntry f F.FLU_ENTRY_STATE FSt.faulted).setEntry f F.FLU_ENTRY_LAST_STATUS Code.failMismatch
        ((s.sendAborts f m (msgInst p) (msgTick p) Code.failMismatch).flueFlags Code.failMismatch).logFlue
          Code.failMismatch []
    | _, _ => s

/-! ## Completion of data instances (R462, R463, R480, R488, R489) -/

/-- Every piece a peer owes is complete, and every piece owed to it is reported complete. -/
def linkDone (s : State) (m : List Byte) (r : FlueRun) (l : FLink) : Bool :=
  let c := r.chan l
  let inn := linkPieces s m r l false
  let out := linkPieces s m r l true
  runLength r l inn = inn.length && (out.filter fun x => x.2 ≠ 0).length ≤ c.acked

/-- The segments whose result this module holds at the end of the up phase. -/
def ownedSegs (m : List Byte) : List Nat :=
  (List.range (segCount m)).filter fun g =>
    match (hubSteps m).getLast? with
    | some t => runsTask m t g
    | none => true

/-- Every task of the plan has been taken back. -/
def tasksDone (m : List Byte) (r : FlueRun) : Bool :=
  !Im.tasked m || (r.tasks.isEmpty && (ownedSegs m).all fun g =>
    (List.range (ceilDiv (segElems m g) (Im.chunkElem m))).all fun i => (r.val resultStep g i).isSome)

/-- Received bytes of a piece, in chunk order. -/
def FlueRun.pieceBytes (r : FlueRun) (m : List Byte) (seg len : Nat) : List Byte :=
  ((List.range (chunksOf m false len)).map fun i => (r.val resultStep seg i).getD []).flatten

/-- The destination bytes of a dispatch: its table, and the records by expert and then by sender (R488). -/
def dispatchParts (s : State) (m : List Byte) (r : FlueRun) : List (Nat × List Byte) :=
  let n := Im.nranks m
  let b := Im.srcBytes m
  let count (q j : Nat) : Nat := (AMap.get r.counts [] (q + 1)).getD j 0
  let pairs := (List.range (Im.nloc m)).flatMap fun j => (List.range n).map fun q => (j, q)
  let offs := pairs.foldl (fun (acc : List (Nat × Nat) × Nat) (j, q) =>
    (acc.1 ++ [(count q j, acc.2)], acc.2 + count q j)) ([], 0)
  let table := offs.1.flatMap fun (c, o) => leBytes 4 c ++ leBytes 4 o
  let recs := pairs.flatMap fun (j, q) =>
    let all := if q = rankOf m then s.exchangeBytes m q
      else r.pieceBytes m q (sumNat (AMap.get r.counts [] (q + 1)) * b)
    slice all (sumNat ((List.range j).map (count q)) * b) (count q j * b)
  [(0, table ++ recs)]

/-- The destination bytes of a combine: the records by rank, in the order they were sent out (R489). -/
def combineParts (s : State) (m : List Byte) (r : FlueRun) : List (Nat × List Byte) :=
  [(0, (List.range (Im.nranks m)).flatMap fun q =>
    if q = rankOf m then s.exchangeBytes m q else r.pieceBytes m q (dispatchTo s m 1 q * Im.srcBytes m))]

/-- A Flue's own block in the result. -/
def State.ownBlock (s : State) (m : List Byte) (off : Nat) : (Nat × List Byte) × State :=
  s.flueRead (Im.source m 0) off (Im.elems m * Im.downBytes m)

/-- The destination bytes of an instance, by offset (R462, R463), with the code of the reads it made. -/
def State.resultParts (s : State) (m : List Byte) (r : FlueRun) : (Nat × List (Nat × List Byte)) × State :=
  let k := Im.kind m
  let d := Im.downBytes m
  let rs := r.vals.filter fun v => v.step = resultStep
  let block := Im.elems m * d
  let at_ (g i : Nat) : Nat :=
    g / Nat.max 1 (segCount m) * block + g % Nat.max 1 (segCount m) * Im.segElem m * d + i * Im.chunkElem m * d
  if k = 8 then ((Code.done, dispatchParts s m r), s)
  else if k = 9 then ((Code.done, combineParts s m r), s)
  else if k = 3 then
    let base (g : Nat) : Nat := sumNat (((ownedSegs m).filter fun x => x < g).map fun x => segElems m x * d)
    ((Code.done, rs.map fun v => (base v.seg + v.idx * Im.chunkElem m * d, v.data)), s)
  else if k = 4 || k = 7 || (k = 6 && rankOf m = Im.root m) then
    let (x, s) := s.ownBlock m (if k = 7 then rankOf m * block else 0)
    ((x.1, (rankOf m * block, x.2) :: rs.map fun v => (at_ v.seg v.idx, v.data)), s)
  else if k = 6 then
    let (bs, s) := s.freeBytes (resultBytes m)
    ((Code.done, [(0, bs)]), s)
  else if k = 5 && rankOf m = Im.root m then
    let (x, s) := s.ownBlock m 0
    ((x.1, [(0, x.2)]), s)
  else ((Code.done, rs.map fun v => (v.seg * Im.segElem m * d + v.idx * Im.chunkElem m * d, v.data)), s)

/-- FLUE_COMPLETE: an instance whose plan is done completes; one with a packet refused admission ends (R480). -/
def execFlueComplete (f : Nat) (s : State) : Host.Outcome State Fault Refusal :=
  onUnit (f < 4096) <|
    let m := (s.flue f).image
    match (s.flue f).run with
    | none => s
    | some r =>
      if bitAt (AMap.get s.flueNotes 0 f) 2 then
        if Im.quick m then s.quickFail f r Code.refusedAdmission else s.flueFail f r Code.refusedAdmission 0
      else if Im.quick m || r.waiting || !mayGrant m r || !tasksDone m r ||
          !((flueLinks m).all fun l => linkDone s m r l) then s
      else
        let (x, s) := s.resultParts m r
        if Code.family x.1 ≠ 0 then s.flueFail f r x.1 0
        else s.flueFinish f { r with mended := r.mended || x.1 = Code.corrected } x.2

end Sys2Proof.Machine
end

