-- ==== Sys2Proof/Machine/Move.lean ====
section
/-! DEFINITION. The Move engine: transfers, locator registers, packet queues, packets that arrive for a core, and the
completion of issued instructions (chapters 02 and 08). -/
namespace Sys2Proof.Machine

/-! ## Transfers (R78 to R82, R298 to R301) -/

/-- A GET or PUT: its direction, rows, row length in bytes, hearth address and stride in bytes, locator and RSTRIDE. -/
structure Xfer where
  put : Bool
  rows : Nat
  len : Nat
  haddr : Nat
  hstride : Nat
  loc : Nat
  rstride : Nat
deriving DecidableEq, Repr

/-- The transfer an instruction word names, with its locator register's value (R78, R79). -/
def xferOf (put : Bool) (w loc rstride : Nat) : Xfer :=
  { put := put, rows := bits w 38 27, len := 64 * bits w 26 15, haddr := 64 * bits w 10 0,
    hstride := 64 * bits w 50 39, loc := loc, rstride := rstride }

/-- The transfer moves nothing (R82). -/
def Xfer.empty (x : Xfer) : Bool := x.rows = 0 || x.len = 0

/-- The hearth ranges of the rows. -/
def Xfer.hearthRows (x : Xfer) : List (Nat × Nat) :=
  (List.range x.rows).map fun r => (x.haddr + r * x.hstride, x.len)

/-- The hearth span ends above the hearth (R81). -/
def Xfer.hearthBad (x : Xfer) : Bool := !x.empty && 0x20000 < x.haddr + (x.rows - 1) * x.hstride + x.len

/-- Mesh hops between two compute dies (R21). -/
def hops (a b : Nat) : Nat :=
  let d (x y : Nat) : Nat := if x ≤ y then y - x else x - y
  d (a / 8) (b / 8) + d (a % 8) (b % 8)

/-- The unloaded first-data latency of a place from a core (R301). -/
def latency (c : CoreId) (p : Place) : Nat :=
  match p with
  | .hearth d _ =>
    if d = c then 6
    else if d.die = c.die then (if d.region = c.region then 24 else 40) else 60 + 25 * hops c.die d.die
  | .scratch d _ => if d = c.die then 30 else 60 + 25 * hops c.die d
  | .fabric a => 250 + 25 * hops c.die (stackOf (a / 512))
  | .queue _ => 6

/-- The die a place lies on, or is reached through (R22). -/
def Place.die : Place → Nat
  | .hearth c _ => c.die
  | .scratch d _ => d
  | .fabric a => stackOf (a / 512)
  | .queue _ => 0

/-- A range of bytes at a place cannot answer now: its die or stack is held in reset, or its stack trains (R338,
R551). -/
def silent (s : State) (p : Place) (len : Nat) : Bool :=
  match p with
  | .hearth c _ => s.inReset.contains c.die
  | .scratch d _ => s.inReset.contains d
  | .fabric a =>
    (granuleParts a len).any fun (g, _, _) =>
      stackWaits s (stackOf g) || s.inReset.contains (0x80 + stackOf g) || s.inReset.contains (stackOf g)
  | .queue _ => false

/-- Some row of a transfer cannot be acknowledged now. -/
def xferSilent (s : State) (x : Xfer) (p : Place) : Bool :=
  (List.range x.rows).any fun r => silent s (p.plus (r * x.rstride)) x.len

/-- A read, with its code raised to DONE_CORRECTED where it corrected a stored word (R301). -/
def State.readNoting (s : State) (die : Nat) (p : Place) (len : Nat) : (Nat × List Byte) × State :=
  let r := s.placeRead die p len
  ((if r.1.1 = Code.done && r.2.marks.length < s.marks.length then Code.corrected else r.1.1, r.1.2), r.2)

/-- One row of a transfer (R80): its code and the hearth word with an uncorrectable error, if one. -/
def State.moveRow (s : State) (c : CoreId) (x : Xfer) (p : Place) (r : Nat) : Nat × State :=
  let h : Place := .hearth c (x.haddr + r * x.hstride)
  let q := p.plus (r * x.rstride)
  let (src, dst) := if x.put then (h, q) else (q, h)
  let (d, s) := s.readNoting c.die src x.len
  if d.1 = Code.failMemory then (d.1, s)
  else
    let (code, s) := s.placeWrite c.die dst d.2
    (joinCode d.1 code, s)

/-- The rows of a transfer in order. -/
def State.moveRows (s : State) (c : CoreId) (x : Xfer) (p : Place) : Nat × State :=
  (List.range x.rows).foldl (fun (code, s) r =>
    let (k, s) := s.moveRow c x p r
    (joinCode code k, s)) (Code.done, s)

/-- A transfer takes place: its bytes are counted, and mesh traffic noted (R298, R310, R452). -/
def State.transfer (s : State) (c : CoreId) (x : Xfer) (p : Place) : Nat × State :=
  let (code, s) := s.moveRows c x p
  let n := x.rows * x.len
  let s := if x.put then s.bump (Reg.MOV_BYTES_OUT c) F.MOV_BYTES_OUT_COUNT n
           else s.bump (Reg.MOV_BYTES_IN c) F.MOV_BYTES_IN_COUNT n
  (code, if p.die = c.die then s else { s with meshUsed := true })

/-- Cycles of a transfer: 64 bytes per cycle and the first-data latency (R298, R301). -/
def xferTime (c : CoreId) (x : Xfer) (p : Place) : Nat :=
  let far := (List.range x.rows).foldl (fun m r => Nat.max m (latency c (p.plus (r * x.rstride)))) 0
  far + x.rows * (x.len / 64)

/-- A locator register. -/
def Core.locator (x : Core) (r : Nat) : Locator := AMap.get x.locs ⟨0, 0⟩ r

/-- A locator register set. -/
def State.setLocator (s : State) (c : CoreId) (r : Nat) (l : Locator) : State :=
  let x := s.core c
  s.setCore c { x with locs := AMap.set x.locs ⟨0, 0⟩ r l }

/-- With INC, ROWS × RSTRIDE is added to the locator modulo 2^64 (R80). -/
def State.incLocator (s : State) (x : Ctx) (rows : Nat) : State :=
  let r := bits x.w 14 11
  let l := (s.core x.c).locator r
  if I.mod x.w % 2 = 1 then s.setLocator x.c r { l with loc := l.loc + BitVec.ofNat 64 (rows * l.rstride) } else s

/-- Rows in the hearth and rows at a place of the same hearth share bytes (R300). -/
def copyMeets (c : CoreId) (x : Xfer) (p : Place) : Bool :=
  match p with
  | .hearth d a =>
    d = c && rangesMeet x.hearthRows ((List.range x.rows).map fun r => (a + r * x.rstride, x.len))
  | _ => false

/-- The checks of R81 and R300 on a locator of space 0x0 to 0x3, after the locator has passed R42. -/
def xferChecks (s : State) (c : CoreId) (x : Xfer) (p : Place) : Option Nat :=
  firstCode [
    (p.addr % 64 ≠ 0, Code.rejRange),
    (!x.empty && p.limit s < p.addr + (x.rows - 1) * x.rstride + x.len, Code.rejRange),
    (x.rstride % 64 ≠ 0, Code.rejRange),
    (!x.empty && 1 < x.rows && (if x.put then x.rstride < x.len else x.hstride < x.len), Code.rejFormat),
    (!x.empty && copyMeets c x p, Code.rejFormat)]

/-- A transfer to or from a place. Where a request cannot be acknowledged yet, or an earlier transfer of the engine is
not, it takes place when it can (R299, R301). -/
def placeXfer (x : Ctx) (m : Xfer) (p : Place) (s : State) : Res :=
  match xferChecks s x.c m p with
  | some code => .reject code
  | none =>
    let s := s.incLocator x m.rows
    let dst := if m.put then [] else m.hearthRows
    if m.empty then .ok (Out.at s x.t)
    else if xferSilent s m p || (s.eng x.c x.e).inflight.any (fun i => i.awaits = .requests) then
      .ok { Out.at s x.t with awaits := .requests, dst := dst, remote := some (m.loc, m.rstride) }
    else
      let (code, s) := s.transfer x.c m p
      .ok { Out.at s (x.t + xferTime x.c m p) with code := code, dst := if code = Code.failMemory then dst else [] }

/-! ## Packet queues (R302 to R305) -/

/-- A queue's configuration; receive queues follow the send queues (R310). -/
def queueCfg (s : State) (c : CoreId) (q : Nat) : Word := s.reg (Reg.MOV_QCFG c q)

/-- A receive queue. -/
def Core.queue (x : Core) (q : Nat) : List RxPacket := AMap.get x.recv [] q

/-- A receive queue set. -/
def State.setQueue (s : State) (c : CoreId) (q : Nat) (ps : List RxPacket) : State :=
  let x := s.core c
  s.setCore c { x with recv := AMap.set x.recv [] q ps }

/-- The checks of R302 on a packet-queue locator; `dir` is the direction the operation needs. -/
def queueChecks (s : State) (x : Ctx) (m : Xfer) (dir : Nat) : Option Nat :=
  let q := bits m.loc 34 32
  let hdr := bits m.loc 16 0
  firstCode [
    (bits m.loc 59 36 ≠ 0 || bits m.loc 31 17 ≠ 0 || hdr % 16 ≠ 0, Code.rejRange),
    (I.mod x.w % 2 = 1, Code.rejFormat),
    (m.rstride ≠ 0, Code.rejRange),
    (!m.empty && 0x20000 < hdr + 16 * m.rows, Code.rejRange),
    (!F.MOV_QCFG_ENABLE.on (queueCfg s x.c (if dir = 1 then q else 8 + q)) || bits m.loc 35 35 ≠ dir, Code.rejState)]

/-- The header of a packet a core sends: the fields that R398 names are the module's own (R303, R398). -/
def State.coreHeader (s : State) (w0 : Word) (vc len : Nat) : Word :=
  P.rsv.put (s.originWord 0 vc (P.dmod.get w0) (P.dest.get w0) len) (P.rsv.get w0)

/-- A packet that a send queue sends from a Grate buffer. -/
def State.queued (s : State) (c : CoreId) (q ctx : Nat) (w0 w1 : Word) (payload : List Byte) (buf : Nat) : Flying :=
  let vc := if F.MOV_QCFG_VC.get (queueCfg s c q) = 0 then 2 else 3
  { Flying.of { w0 := s.coreHeader w0 vc payload.length, w1 := w1, payload := payload } (some (regionOf c)) none s.now
      with buf := some (buf, ctx), sendq := some (coreKey c * 8 + q) }

/-- Packets enter admission: the instruction's completion follows (R447). -/
def injectOut (x : Ctx) (s : State) (took : Bool) (code : Nat) (ps : List Flying) (t : Nat) : Res :=
  match s.tryInject (s.contextOf x.c) (some x.c) x.pc took ps with
  | (some k, s) => if Code.family k = 0 then .ok { Out.at s t with code := mergeSuccess code k } else .refuse k s
  | (none, s) => .ok { Out.at s t with awaits := .admission, code := code }

/-- A PUT to a send queue: one Grate buffer per row, each row copied into its buffer and queued (R303). -/
def putQueue (x : Ctx) (m : Xfer) (s : State) : Res :=
  match queueChecks s x m 1 with
  | some code => .reject code
  | none =>
    let q := bits m.loc 34 32
    let hdr := bits m.loc 16 0
    let ctx := s.contextOf x.c
    if 8192 < m.len then .reject Code.rejRange
    else if m.empty then .ok (Out.at s x.t)
    else
      match s.request ctx (chainOf x.c 0 2) m.rows true with
      | (none, s) => .refuse Code.refusedPool (s.refused (regionOf x.c))
      | (some _, _) =>
        withReads x.c x.t ((hdr, 16 * m.rows) :: m.hearthRows) [] s fun s0 =>
          let (ls, s) := s0.request ctx (chainOf x.c 0 2) m.rows true
          let step (acc : List Flying × State) (l : Nat × Nat) : List Flying × State :=
            let (ps, s) := acc
            let bs := s.hread x.c (m.haddr + l.2 * m.hstride) m.len
            let w0 : Word := BitVec.ofNat 64 (s.hnat x.c (hdr + 16 * l.2) 8)
            let w1 : Word := BitVec.ofNat 64 (s.hnat x.c (hdr + 16 * l.2 + 8) 8)
            let s := match placeOf s x.c l.1 with
              | .ok pl => (s.placeWrite x.c.die pl bs).2
              | .error _ => s
            (ps ++ [s.queued x.c q ctx w0 w1 bs l.1], s)
          let (ps, s) := (ls.getD []).zipIdx.foldl step ([], s)
          let s := s.bump (Reg.MOV_BYTES_OUT x.c) F.MOV_BYTES_OUT_COUNT (m.rows * (m.len + 16))
          injectOut x s true Code.done ps (x.t + 6 + m.rows * (m.len / 64))

/-- The context leaves the buffer of a packet taken from a receive queue (R365). -/
def State.freePacket (s : State) (c : CoreId) (p : RxPacket) : State := s.dropBuffer p.buf (s.contextOf c)

/-- A GET from a receive queue: headers and payloads of the packets at its head (R304). -/
def getQueue (x : Ctx) (m : Xfer) (s : State) : Res :=
  match queueChecks s x m 0 with
  | some code => .reject code
  | none =>
    let q := bits m.loc 34 32
    let hdr := bits m.loc 16 0
    let ps := (s.core x.c).queue q
    if !m.empty && 1 < m.rows && m.hstride < m.len then .reject Code.rejFormat
    else if m.empty then .ok (Out.at s x.t)
    else if ps.length < m.rows then .reject Code.rejState
    else if (ps.take m.rows).any (fun p => m.len < p.len) then .reject Code.rejFormat
    else
      let s := s.setQueue x.c q (ps.drop m.rows)
      let step (acc : Nat × State) (p : RxPacket × Nat) : Nat × State :=
        let (code, s) := acc
        let s := s.hwrite x.c (hdr + 16 * p.2) (leBytes 8 p.1.w0.toNat ++ leBytes 8 p.1.w1.toNat)
        let (d, s) := match placeOf s x.c p.1.buf with
          | .ok pl => s.readNoting x.c.die pl p.1.len
          | .error k => ((k, []), s)
        let s := if d.1 = Code.failMemory then s else s.hwrite x.c (m.haddr + p.2 * m.hstride) d.2
        let s := s.bump (Reg.MOV_BYTES_IN x.c) F.MOV_BYTES_IN_COUNT (p.1.len + 16)
        (joinCode code d.1, s.freePacket x.c p.1)
      let (code, s) := (ps.take m.rows).zipIdx.foldl step (Code.done, s)
      .ok { Out.at s (x.t + 6 + m.rows * (m.len / 64)) with
            code := code, dst := if code = Code.failMemory then m.hearthRows else [] }

/-- GET and PUT (R80 to R82, R302). -/
def moveOp (put : Bool) (x : Ctx) (s : State) : Res :=
  let l := (s.core x.c).locator (bits x.w 14 11)
  let m := xferOf put x.w l.loc.toNat l.rstride
  if m.hearthBad then .reject Code.rejRange
  else
    match placeOf s x.c m.loc with
    | .error code => .reject code
    | .ok (.queue _) => if put then putQueue x m s else getQueue x m s
    | .ok p => placeXfer x m p s

/-- SETLOC: a locator record of the hearth is loaded into a locator register (R79, R81). -/
def setlocOp (x : Ctx) (s : State) : Res :=
  let a := bits x.w 16 0
  if a % 16 ≠ 0 then .reject Code.rejRange
  else
    withReads x.c x.t [(a, 16)] [] s fun s =>
      if s.hnat x.c (a + 12) 4 ≠ 0 then .reject Code.rejFormat
      else .ok (Out.at (s.setLocator x.c (bits x.w 20 17)
        { loc := BitVec.ofNat 64 (s.hnat x.c a 8), rstride := s.hnat x.c (a + 8) 4 }) x.t)

/-- A packet record's checks at REC (R305). -/
def recordChecks (s : State) (c : CoreId) (a : Nat) : Option Nat :=
  firstCode [(a % 32 ≠ 0, Code.rejRange), (s.hnat c (a + 24) 8 ≠ 0, Code.rejFormat)]

/-- QSEND: the header and Grate buffer of a record are sent (R305, R361, R365). -/
def qsendOp (x : Ctx) (s : State) : Res :=
  let a := bits x.w 16 0
  let q := bits x.w 19 17
  if a % 32 ≠ 0 then .reject Code.rejRange
  else
    withReads x.c x.t [(a, 32)] [] s fun s =>
      let w0 : Word := BitVec.ofNat 64 (s.hnat x.c a 8)
      let buf := s.hnat x.c (a + 16) 8
      match firstCode [
          ((recordChecks s x.c a).isSome, Code.rejFormat),
          (!F.MOV_QCFG_ENABLE.on (queueCfg s x.c q), Code.rejState),
          (8192 < P.length.get w0, Code.rejRange)] with
      | some code => .reject code
      | none =>
        match grateCheck s x.c .free (s.contextOf x.c) 0 [] 0 buf with
        | some (code, _) => .refuse code s
        | none =>
          let (d, s) := match placeOf s x.c buf with
            | .ok pl => s.readNoting x.c.die pl (P.length.get w0)
            | .error k => ((k, []), s)
          if d.1 = Code.failMemory then .ok { Out.at s x.t with code := d.1 }
          else
            injectOut x s false d.1
              [s.queued x.c q (s.contextOf x.c) w0 (BitVec.ofNat 64 (s.hnat x.c (a + 8) 8)) d.2 buf] (x.t + 6)

/-- QRECV: the head packet's header and buffer locator go to a record (R305). -/
def qrecvOp (x : Ctx) (s : State) : Res :=
  let a := bits x.w 16 0
  let q := bits x.w 19 17
  match recordChecks s x.c a with
  | some code => .reject code
  | none =>
    match (s.core x.c).queue q with
    | [] => .reject Code.rejState
    | p :: rest =>
      let s := s.setQueue x.c q rest
      .ok { Out.at (s.hwrite x.c a (leBytes 8 p.w0.toNat ++ leBytes 8 p.w1.toNat ++ leBytes 8 p.buf)) (x.t + 6) with
            dst := [(a, 24)] }

/-- QDROP: the n head packets are discarded and freed (R305). -/
def qdropOp (x : Ctx) (s : State) : Res :=
  let q := bits x.w 19 17
  let n := bits x.w 26 20 + 1
  let ps := (s.core x.c).queue q
  if ps.length < n then .reject Code.rejState
  else .ok (Out.at ((ps.take n).foldl (fun s p => s.freePacket x.c p) (s.setQueue x.c q (ps.drop n))) (x.t + 6))

/-- A Move operation: the operand bits it uses and the MOD values it takes. -/
def moveSpec (op : Nat) (used : List (Nat × Nat)) (top : Nat) (body : Ctx → State → Res) : OpSpec :=
  { op := op, bad := strayBits used, modOk := fun m => m ≤ top, notBefore := fun _ => 0, body := body }

/-- GET: rows of a remote place are copied into the hearth, or packets taken from a receive queue (R80, R304). -/
def execGet (c : CoreId) (s : State) : Host.Outcome State Fault Refusal :=
  runOp c .move (moveSpec 0x00 [(50, 0)] 1 (moveOp false)) s
/-- PUT: hearth rows are copied to a remote place, or sent as packets (R80, R303). -/
def execPut (c : CoreId) (s : State) : Host.Outcome State Fault Refusal :=
  runOp c .move (moveSpec 0x01 [(50, 0)] 1 (moveOp true)) s
/-- SETLOC: a locator register is loaded (R79). -/
def execSetloc (c : CoreId) (s : State) : Host.Outcome State Fault Refusal :=
  runOp c .move (moveSpec 0x02 [(20, 0)] 0 setlocOp) s
/-- QSEND: a Grate buffer is sent as a packet without copying (R305). -/
def execQsend (c : CoreId) (s : State) : Host.Outcome State Fault Refusal :=
  runOp c .move (moveSpec 0x20 [(19, 0)] 0 qsendOp) s
/-- QRECV: a receive queue's head packet is handed over (R305). -/
def execQrecv (c : CoreId) (s : State) : Host.Outcome State Fault Refusal :=
  runOp c .move (moveSpec 0x21 [(19, 0)] 0 qrecvOp) s
/-- QDROP: head packets of a receive queue are dropped (R305). -/
def execQdrop (c : CoreId) (s : State) : Host.Outcome State Fault Refusal :=
  runOp c .move (moveSpec 0x22 [(26, 17)] 0 qdropOp) s

/-! ## Completion of issued instructions -/

/-- A Move instruction whose requests can now be acknowledged takes place (R301). -/
def State.finishMove (s : State) (c : CoreId) (i : Inflight) : Option (Inflight × State) :=
  match i.remote with
  | none => none
  | some (loc, rstride) =>
    let m := xferOf (I.op i.word = 1) i.word loc rstride
    match placeOf s c loc with
    | .error code => some ({ i with awaits := .time, code := code, doneAt := s.now }, s)
    | .ok p =>
      if xferSilent s m p then none
      else
        let (code, s) := s.transfer c m p
        some ({ i with awaits := .time, code := code, doneAt := s.now + xferTime c m p,
                       dst := if code = Code.failMemory then i.dst else [] }, s)

/-- The oldest issued instruction of an engine, ready to complete: a transfer whose requests were not acknowledged
takes place first. -/
def State.readyHead (s : State) (c : CoreId) (e : Cls) (i : Inflight) : Option (Inflight × State) :=
  if i.awaits = .time then some (i, s)
  else if i.awaits = .requests && e = .move then s.finishMove c i
  else none

/-- INSTRUCTION_COMPLETE: the oldest issued instruction completes, or one of its checked steps meets an armed
injection and is replayed (R64, R236 to R240). -/
def execInstructionComplete (c : CoreId) (e : Cls) (s : State) : Host.Outcome State Fault Refusal :=
  onUnit (c.has e) <|
    let g := s.eng c e
    match g.inflight with
    | [] => s
    | i :: rest =>
      if g.held.isSome then s
      else
        match s.readyHead c e i with
        | none => s
        | some (i, s) =>
          match s.meetInject c e i with
          | some (i', s') =>
            let g' := s'.eng c e
            s'.setEng c e { g' with inflight := i' :: g'.inflight.drop 1 }
          | none =>
            let s := if 0 < i.mismatches && i.mismatches < 3 then s.noteReplay c e else s
            let L := s.landing (i.doneAt + 1)
            s.complete c e i rest (L - 1)

/-- MOVE_REQUEST_TIMEOUT: the oldest transfer of a Move engine, with a request not acknowledged within MOV_TIMEOUT, ends
with FAIL_TIMEOUT (R301). -/
def execMoveRequestTimeout (c : CoreId) (s : State) : Host.Outcome State Fault Refusal :=
  onUnit c.ok <|
    let g := s.eng c .move
    match g.inflight with
    | [] => s
    | i :: rest =>
      if i.awaits ≠ .requests || g.held.isSome then s
      else
        let t := i.issued + s.fld (Reg.MOV_TIMEOUT c) F.MOV_TIMEOUT_NS
        let s := s.at t
        let s := (s.flag (Reg.MOV_STATUS c) F.MOV_STATUS_TIMEOUT_SEEN).count (Reg.MOV_TIMEOUTS c)
          F.MOV_TIMEOUTS_COUNT 1
        s.complete c .move { i with code := Code.failTimeout, doneAt := s.now } rest s.now

/-! ## Packets that arrive for a core (R306, R307, R365, R366) -/

/-- The core a DATA packet names. -/
def dataCore (p : Packet) : CoreId := ⟨h1 p P.die, h1 p P.region, h1 p P.core⟩

/-- Two DATA packets name one receive queue. -/
def sameQueue (p q : Packet) : Bool := dataCore p = dataCore q && h1 p P.queue = h1 q P.queue

/-- An arrival adds 1 to the counter ARRIVE names; a failed translation is logged; none where a remote signal has no
place yet (R306). -/
def State.signalArrival (s : State) (c : CoreId) (cfg : Word) : Option State :=
  if !F.MOV_QCFG_ARRIVE_EN.on cfg then some s
  else
    let r := regionOf c
    match translate s r (s.contextOf c) (F.MOV_QCFG_ARRIVE.get cfg) false 2 with
    | .error code => some (s.logAt AClass.sync code c.die c.region c.core [])
    | .ok t =>
      let g := sigOf t 3 1 (qidOf c .move)
      if g.scope = 0 then some (s.landSig r g.obj g.tag g.act g.amt (some g.qid) g.qid (s.landing 0))
      else if s.canSend r then some (s.release r g)
      else none

/-- A packet whose queue or buffers have no room waits at the region router port from its arrival on (R307, R366). -/
def State.holdPacket (s : State) (f : Flying) : State :=
  if f.held.isSome then s
  else { s with flight := removeOne f s.flight ++ [{ f with held := some s.now }] }

/-- A DATA packet enters its receive queue: it takes a Grate buffer for the core's context, is queued and signals
(R306, R365); none where there is no room. The second state is that of a packet that must wait. -/
def State.enterQueue (s : State) (f : Flying) : Option State × State :=
  let p := f.pkt
  let c := dataCore p
  let q := h1 p P.queue
  let cfg := queueCfg s c (8 + q)
  let ps := (s.core c).queue q
  if !F.MOV_QCFG_ENABLE.on cfg || F.MOV_QCFG_DEPTH.get cfg ≤ ps.length then (none, s)
  else
    match s.request (s.contextOf c) (chainOf c 0 2) 1 true with
    | (some [l], s1) =>
      let s2 := match placeOf s1 c l with
        | .ok pl => (s1.placeWrite c.die pl p.payload).2
        | .error _ => s1
      let s3 := s2.setQueue c q (ps ++ [{ w0 := p.w0, w1 := p.w1, len := p.payload.length, buf := l }])
      (s3.signalArrival c cfg, s)
    | (_, s1) => (none, s1.refused (regionOf c))

/-- A DATA packet for this module that names a core it has. -/
def forCore (p : Packet) : Bool := h0 p P.ptype = 0 && h0 p P.dmod = 1 && (dataCore p).ok

/-- The packet as it stands in flight, or as it newly arrives. -/
def State.arrivalOf (s : State) (p : Packet) : Flying × State :=
  match s.inFlight p with
  | some f => (f, s)
  | none =>
    let f := Flying.of p none none s.now
    (f, { s with flight := s.flight ++ [f] })

/-- PACKET_ARRIVAL: a DATA packet reaches its core's region router port and enters its receive queue, or waits there
(R306, R307); the router port holds it while the core is substituted (R502). -/
def execPacketArrival (p : Packet) (s : State) : Host.Outcome State Fault Refusal :=
  onUnit (forCore p) <|
    let (f, s) := s.arrivalOf p
    let first := (s.flight.find? fun g => g.held.isSome && sameQueue g.pkt p)
    if s.substituting (dataCore p) then s
    else if first.isSome && first ≠ some f then s.holdPacket f
    else
      match s.enterQueue f with
      | (some s, _) =>
        let s := (s.land p).2.countRouter (some (regionOf (dataCore p))) false p
        match f.buf with
        | some (l, o) => s.dropBuffer l o
        | none => s
      | (none, s) => s.holdPacket f

/-- RX_HOLD_DROP: the oldest packet that waits for a core has waited MOV_HOLD and is dropped (R307). -/
def execRxHoldDrop (c : CoreId) (s : State) : Host.Outcome State Fault Refusal :=
  onUnit c.ok <|
    match (if s.substituting c then none else s.flight.find? fun f => f.held.isSome && dataCore f.pkt = c) with
    | none => s
    | some f =>
      let s := s.at (f.held.getD 0 + s.fld (Reg.MOV_HOLD c) F.MOV_HOLD_NS)
      let s := { s with flight := removeOne f s.flight }
      let s := (s.freeCells f).unadmit f
      let s := match f.buf with | some (l, o) => s.dropBuffer l o | none => s
      let s := (s.flag (Reg.MOV_STATUS c) F.MOV_STATUS_RXDROP_SEEN).count (Reg.MOV_RXDROP c) F.MOV_RXDROP_COUNT 1
      s.logAt AClass.route 0 c.die c.region c.core [h1 f.pkt P.queue, f.pkt.w0.toNat, f.pkt.w1.toNat]

end Sys2Proof.Machine
end

