-- ==== Sys2Proof/Machine/Route.lean ====
section
/-! DEFINITION. Routing, credit, output scheduling, time gates, the Equinox flip, congestion maps, memory requests from
the link and Ethernet forwarding (chapters 11 and 12). -/
namespace Sys2Proof.Machine

/-! ## Lookup (R420 to R423) -/

/-- The module table entry for a module and epoch; none where SPLIT = 0 and the identifier has none (R420, R423). -/
def moduleEntry (s : State) (m epoch : Nat) : Option Word :=
  if s.isOn Reg.RTE_MODE F.RTE_MODE_SPLIT then
    some (s.reg (if m / 2048 = 0 then Reg.RTE_MTAB0 (m % 2048) else Reg.RTE_MTAB1 (m % 2048)))
  else if 2048 ≤ m then none
  else some (s.reg (if epoch = 0 then Reg.RTE_MTAB0 m else Reg.RTE_MTAB1 m))

namespace E
def valid : Fld := ⟨31, 31⟩
def loc : Fld := ⟨30, 30⟩
def port : Fld := ⟨29, 20⟩
def module : Fld := ⟨19, 8⟩
end E

/-- The half of an endpoint entry for an epoch (R422). -/
def endpointHalf (s : State) (d epoch : Nat) : Word :=
  let e := AMap.get s.endpoints 0 d
  if epoch = 1 && !s.isOn Reg.RTE_MODE F.RTE_MODE_SPLIT then BitVec.ofNat 64 (bits e.toNat 63 32)
  else BitVec.ofNat 64 (bits e.toNat 31 0)

/-- What the lookup of R423 says of a packet. -/
inductive Look where
  | mine | drop | port (p : Nat) | entry (e : Word)
deriving DecidableEq, Repr

/-- The lookup of R423. -/
def look (s : State) (p : Packet) : Look :=
  let epoch := h0 p P.epoch
  let via (m : Nat) : Look :=
    match moduleEntry s m epoch with
    | some e => if F.RTE_MTAB0_VALID.on e then .entry e else .drop
    | none => .drop
  if h0 p P.dmod = 1 then
    if s.isMine p then .mine else via (h0 p P.dest % 4096)
  else
    let h := endpointHalf s (h0 p P.dest) epoch
    if !E.valid.on h then .drop
    else if E.loc.on h then .port (E.port.get h)
    else if s.moduleId = some (E.module.get h) then .drop
    else via (E.module.get h)

/-! ## Assignment (R412, R416, R424 to R426) -/

/-- The VC a packet leaves on (R412). -/
def outVc (f : Flying) : Nat :=
  let vc := h0 f.pkt P.vc
  if f.port.isSome && (h0 f.pkt P.dmod = 0 || h0 f.pkt P.ptype = 9) && vc ≠ 0 && vc ≠ 1 && vc ≠ 7 then 4 else vc

/-- Credit a port holds in a pool (R416). -/
def credit (s : State) (p pool : Nat) : Nat :=
  let x := s.port p
  let limit := AMap.get x.limit 0 pool
  if limit = 0 then 0 else (limit - 1 + 2 ^ 28 - AMap.get x.sent 0 pool % 2 ^ 28) % 2 ^ 28

/-- Cells assigned to a port and not yet sent. -/
def Port.waiting (x : Port) : Nat :=
  sumNat (x.outq.map fun q => cellsIn q.2) + sumNat (x.stream.map fun f => cellsOf f.1.pkt)

/-- A port can carry packets: UP with the Jorvief personality. -/
def State.carries (s : State) (p : Nat) : Bool := s.isUp p && !s.isEth p

/-- The candidate ports of an entry (R421). -/
def candidates (e : Word) : List Nat :=
  let m := F.RTE_MTAB0_CMASK.get e
  (if bitAt m 0 then [F.RTE_MTAB0_CAND0.get e] else []) ++ (if bitAt m 1 then [F.RTE_MTAB0_CAND1.get e] else []) ++
  (if bitAt m 2 then [F.RTE_MTAB0_CAND2.get e] else []) ++ (if bitAt m 3 then [F.RTE_MTAB0_CAND3.get e] else [])

/-- The escape port of an entry (R421). -/
def escPort (e : Word) : Nat := F.RTE_MTAB0_ESC_PORT.get e

/-- A packet that arrived on an UPWARD port would leave on an UPWARD port (R425). -/
def climbs (s : State) (f : Flying) (p : Nat) : Bool :=
  match f.port with
  | some q => s.isOn (Reg.RTE_PORT q) F.RTE_PORT_UPWARD && s.isOn (Reg.RTE_PORT p) F.RTE_PORT_UPWARD
  | none => false

/-- The qualifying candidate with the most credit less the cells that wait there; the lower port of equals (R424). -/
def bestPort (s : State) (pool cells : Nat) : List Nat → Option Nat
  | [] => none
  | p :: ps =>
    let score (q : Nat) : Int := (credit s q pool : Int) - ((s.port q).waiting : Nat)
    let rest := bestPort s pool cells ps
    if s.carries p && cells ≤ credit s p pool then
      match rest with
      | some q => if score p < score q || (score p = score q && q < p) then some q else some p
      | none => some p
    else rest

/-- What routing makes of a packet now. -/
inductive Verdict where
  | wait | noRoute | violation | to (p vc : Nat)
deriving DecidableEq, Repr

/-- A packet goes to a port it must take, if the port has credit in a pool (R416, R424, R426). -/
def onlyPort (s : State) (f : Flying) (p vc : Nat) : Verdict :=
  if !s.carries p then .noRoute
  else if cellsOf f.pkt ≤ credit s p (poolOf vc (h0 f.pkt P.ptype)) then .to p vc
  else .wait

/-- The packet may leave only by the escape port: it is in pool MGMT, QUICK or QACK, or on VC7 (R424). -/
def escapeOnly (p : Packet) : Bool := packetPool p ≤ 2 || h0 p P.vc = 7

/-- Routing by candidates alone (R423 to R426). -/
def routeNow (s : State) (f : Flying) : Verdict :=
  let vc := outVc f
  match look s f.pkt with
  | .mine => .wait
  | .drop => .noRoute
  | .port p => onlyPort s f p vc
  | .entry e =>
    if escapeOnly f.pkt then
      if s.carries (escPort e) && climbs s f (escPort e) then .violation else onlyPort s f (escPort e) vc
    else
      let cs := candidates e
      match bestPort s (poolOf vc (h0 f.pkt P.ptype)) (cellsOf f.pkt) cs with
      | some p => .to p vc
      | none => if (escPort e :: cs).any s.isUp then .wait else .noRoute

/-- Routing by escape (rule 2 of R424). -/
def routeEscape (s : State) (f : Flying) : Verdict :=
  match look s f.pkt with
  | .entry e =>
    if escapeOnly f.pkt || routeNow s f ≠ .wait then .wait
    else if s.carries (escPort e) && cellsOf f.pkt ≤ credit s (escPort e) (poolOf 7 (h0 f.pkt P.ptype)) then
      .to (escPort e) 7
    else .wait
  | _ => .wait

/-- Weight of a VC at a port (R437). -/
def weight (s : State) (p vc : Nat) : Nat := bits (s.reg (Reg.RTE_PORT p)).toNat (7 * vc + 6) (7 * vc)

/-- The tag of a packet that reaches the head of its queue (R437). -/
def State.headTag (s : State) (p vc : Nat) (f : Flying) : Nat :=
  let x := s.port p
  let w := weight s p vc
  Nat.max x.vtime (AMap.get x.fprev 0 vc) + (if w = 0 then 0 else ceilDiv (cellsOf f.pkt * 65536) w)

/-- A packet is assigned a port on a VC: SENT rises, and it joins the VC's queue (R416, R436). -/
def State.assign (s : State) (f : Flying) (p vc : Nat) : State :=
  let pkt := { f.pkt with w0 := P.vc.put f.pkt.w0 vc }
  let g := { f with pkt := pkt }
  let pool := poolOf vc (h0 pkt P.ptype)
  let x := s.port p
  let q := AMap.get x.outq [] vc
  let tag := s.headTag p vc g
  s.setPort p { x with sent := AMap.set x.sent 0 pool (AMap.get x.sent 0 pool + cellsOf pkt),
                       outq := AMap.set x.outq [] vc (q ++ [g]),
                       tags := if q.isEmpty then AMap.set x.tags 0 vc tag else x.tags }

/-- A packet is dropped, and its drop logged with its header (R425, R426). -/
def State.dropPacket (s : State) (f : Flying) (violation : Bool) : State :=
  let s := s.packetGone f
  let s := if violation then
      (s.flag Reg.RTE_STATUS F.RTE_STATUS_ESCVIOL_SEEN).count Reg.RTE_ESCVIOL F.RTE_ESCVIOL_COUNT 1
    else (s.flag Reg.RTE_STATUS F.RTE_STATUS_NOROUTE_SEEN).count Reg.RTE_NOROUTE F.RTE_NOROUTE_COUNT 1
  s.logAt AClass.route 0 0xF0 2 0 [f.pkt.w0.toNat, f.pkt.w1.toNat]

/-- A packet's verdict is carried out; the packet has left its queue. -/
def State.carry (s : State) (f : Flying) : Verdict → State
  | .wait => s
  | .noRoute => s.dropPacket f false
  | .violation => s.dropPacket f true
  | .to p vc => s.assign f p vc

/-- The packets a source offers to routing: the head of an input pool, or every packet sent from inside that no older
one of its VC0 or VC1 flow precedes (R413, R424). -/
def State.offered (s : State) : PktSource → List Flying
  | .port p pool => (AMap.get (s.port p).inq [] pool).take 1
  | .origin =>
    let sameFlow (a b : Packet) : Bool :=
      h0 a P.vc ≤ 1 && h0 a P.vc = h0 b P.vc && h0 a P.dmod = h0 b P.dmod && h0 a P.dest = h0 b P.dest
    s.origin.zipIdx.filterMap fun (f, i) => if (s.origin.take i).any (fun g => sameFlow f.pkt g.pkt) then none else some f

/-- A packet leaves the source it waits in; the next packet of an input pool is at the head from now on. -/
def State.leaveSource (s : State) (f : Flying) : PktSource → State
  | .port p pool =>
    let x := s.port p
    let rest := match (AMap.get x.inq [] pool).drop 1 with
      | [] => []
      | g :: gs => { g with since := s.now } :: gs
    s.setPort p { x with inq := AMap.set x.inq [] pool rest }
  | .origin => { s with origin := removeOne f s.origin }

/-- A source names a port and a pool. -/
def sourceOk : PktSource → Bool
  | .port p pool => p < 1024 && pool < 10
  | .origin => true

/-- Copies and relayed packets leave on the mirror port, in order, as far as its credit allows (R510, R515). -/
def State.flushCopies (s : State) : Nat → State
  | 0 => s
  | n + 1 =>
    match s.shadow.copies with
    | [] => s
    | f :: rest =>
      let p := s.fld Reg.VIG_SHD_CTL F.VIG_SHD_CTL_PORT
      if s.carries p && cellsOf f.pkt ≤ credit s p (packetPool f.pkt) then
        ({ s with shadow := { s.shadow with copies := rest } }.assign f p (h0 f.pkt P.vc)).flushCopies n
      else s

/-- PACKET_ROUTE: the first offered packet that does not wait is assigned a port or dropped (R424 to R426). While a
takeover is being decided, every packet is held (R514); copies for a mirror port go first (R510). -/
def execPacketRoute (src : PktSource) (s : State) : Host.Outcome State Fault Refusal :=
  onUnit (sourceOk src) <|
    if s.shdState = Shd.deciding then s
    else
      let s := s.flushCopies s.shadow.copies.length
      match (s.offered src).find? (fun f => routeNow s f ≠ .wait) with
      | some f => (s.leaveSource f src).carry f (routeNow s f)
      | none => s

/-- ESCAPE_ROUTE: the first offered packet without a candidate, RTE_ESC_DELAY after it reached the head, takes the
escape port on VC7 (R424). -/
def execEscapeRoute (src : PktSource) (s : State) : Host.Outcome State Fault Refusal :=
  onUnit (sourceOk src) <|
    match (if s.shdState = Shd.deciding then none else (s.offered src).find? (fun f => routeEscape s f ≠ .wait)) with
    | some f =>
      let s := s.at (f.since + s.fld Reg.RTE_ESC_DELAY F.RTE_ESC_DELAY_NS)
      let v := routeEscape s f
      let s := (s.leaveSource f src).carry f v
      match v with
      | .to p _ =>
        let s := (s.bump Reg.RTE_ESC_PKTS F.RTE_ESC_PKTS_COUNT 1).bump (Reg.RTE_IOD_ESC_PKTS (p / 64))
          F.RTE_IOD_ESC_PKTS_COUNT 1
        let x := s.port p
        s.setPort p { x with escs := x.escs + 1 }
      | _ => s
    | none => s

/-! ## Output scheduling (R436 to R438, R443, R444) -/

/-- The enabled egress Damper of a port and VC (R439). -/
def egressDamper (s : State) (p vc : Nat) : Option Nat :=
  (List.range 1024).find? fun d =>
    let w := s.reg (Reg.DMP_L0_CFG d)
    F.DMP_L0_CFG_EN.on w && F.DMP_L0_CFG_EGRESS.on w && F.DMP_L0_CFG_PORT.get w = p &&
      bitAt (F.DMP_L0_CFG_VCMASK.get w) vc

/-- A time gate's window. -/
structure GateWin where
  opens : Nat
  closes : Nat
deriving DecidableEq, Repr

/-- The valid windows of the list a port follows that name a VC, with the list's cycle length; none where the VC is not
gated (R443). -/
def gateOf (s : State) (p vc : Nat) : Option (Nat × List GateWin) :=
  let w := s.reg (Reg.RTE_PORT p)
  let g := F.RTE_PORT_GATE.get w
  let cfg := s.reg (Reg.DMP_GATE_CFG g)
  if !F.RTE_PORT_GATE_EN.on w || !F.DMP_GATE_CFG_EN.on cfg then none
  else
    let ws := (List.range 8).filterMap fun i =>
      let x := s.reg (Reg.DMP_GATE_WIN g i)
      if F.DMP_GATE_WIN_VALID.on x && bitAt (F.DMP_GATE_WIN_VCMASK.get x) vc then
        some ⟨F.DMP_GATE_WIN_OPEN.get x, F.DMP_GATE_WIN_CLOSE.get x⟩
      else none
    if ws.isEmpty then none else some (2 ^ F.DMP_GATE_CFG_K.get cfg, ws)

/-- Tenths of a nanosecond, times the trained width, that one frame takes (R372). -/
def frameTenths (rate : Nat) : Nat := if rate = 3 then 128 else if rate = 2 then 256 else 512

/-- When a head packet may start, in ns from now, and whether it overruns its window (R444). -/
def gateDelay (s : State) (p vc : Nat) (f : Flying) : Nat × Bool :=
  match gateOf s p vc with
  | none => (0, false)
  | some (cycle, ws) =>
    let st := s.reg (Reg.LNK_PORT_STATUS p)
    let w := lanesOf (F.LNK_PORT_STATUS_TWIDTH.get st)
    let frames := ceilDiv (linkBytes (h0 f.pkt P.length)) 620
    let tail := (frames - 1) * frameTenths (F.LNK_PORT_STATUS_RATE.get st)
    let pos := s.alm % cycle
    let fits (g : GateWin) : Bool := g.opens * 10 * w + tail < g.closes * 10 * w
    let delay (g : GateWin) : Nat :=
      if pos < g.opens then g.opens - pos
      else if pos * 10 * w + tail < g.closes * 10 * w then 0
      else cycle - pos + g.opens
    let opening (g : GateWin) : Nat := if pos ≤ g.opens then g.opens - pos else cycle - pos + g.opens
    let least (xs : List Nat) : Nat := xs.foldl Nat.min (2 * cycle)
    if ws.any fits then (least ((ws.filter fits).map delay), false) else (least (ws.map opening), true)

/-- The scheduling mode in force: 1 weighted fair queueing, 2 strict-plus-weighted (R438). -/
def schedMode (s : State) : Nat :=
  let m := s.fld Reg.RTE_MODE F.RTE_MODE_SCHED
  if m = 0 then (if s.mstate = MState.lit then 1 else 2) else m

/-- The strict VCs, in order (R438). -/
def strictVcs (s : State) : List Nat :=
  if schedMode s = 2 then [0, 1, 7].take (s.fld Reg.RTE_MODE F.RTE_MODE_STRICT_N) else []

/-- A change of mode resets every tag at the next packet boundary (R438). -/
def State.retag (s : State) (p : Nat) : State :=
  let x := s.port p
  if x.mode = schedMode s then s
  else
    let s := s.setPort p { x with mode := schedMode s, vtime := 0, fprev := [], tags := [] }
    let x := s.port p
    let tags := x.outq.foldl (fun m q =>
      match q.2 with
      | f :: _ => AMap.set m 0 q.1 (s.headTag p q.1 f)
      | [] => m) []
    s.setPort p { x with tags := tags }

/-- A head packet of a port: its VC, the packet, when its gate lets it start, and whether it overruns. -/
structure Head where
  vc : Nat
  pkt : Flying
  delay : Nat
  overrun : Bool

/-- The heads of a port whose Dampers pass (R436, R440). -/
def State.heads (s : State) (p : Nat) : List Head :=
  (s.port p).outq.filterMap fun q =>
    match q.2 with
    | [] => none
    | f :: _ =>
      let open_ := match egressDamper s p q.1 with | some d => damperPasses s d | none => true
      let g := gateDelay s p q.1 f
      if open_ then some ⟨q.1, f, g.1, g.2⟩ else none

/-- The head with the smallest tag, the lower VC of equals (R437). -/
def leastTag (tags : AMap Nat) : List Head → Option Head
  | [] => none
  | h :: hs =>
    match leastTag tags hs with
    | none => some h
    | some g =>
      let a := AMap.get tags 0 h.vc
      let b := AMap.get tags 0 g.vc
      if b < a || (b = a && g.vc < h.vc) then some g else some h

/-- The head a port starts: a strict VC in order, else the least tag (R437, R438). -/
def pickHead (s : State) (p : Nat) (hs : List Head) : Option Head :=
  match (strictVcs s).findSome? (fun v => hs.find? fun h => h.vc = v) with
  | some h => some h
  | none => leastTag (s.port p).tags hs

/-- A head packet starts (R436, R437, R440, R444). -/
def State.startHead (s : State) (p : Nat) (h : Head) : State :=
  let s := match egressDamper s p h.vc with
    | some d => s.takeTokens d (cellsOf h.pkt.pkt)
    | none => s
  let s := if h.overrun then
      (s.flag Reg.DMP_STATUS F.DMP_STATUS_GATE_OVERRUN_SEEN).count Reg.DMP_GATE_OVERRUNS F.DMP_GATE_OVERRUNS_COUNT 1
    else s
  let x := s.port p
  let tag := AMap.get x.tags 0 h.vc
  let rest := (AMap.get x.outq [] h.vc).drop 1
  let outq := AMap.set x.outq [] h.vc rest
  let x := { x with stream := x.stream ++ [(h.pkt, packetBytes h.pkt.pkt)], outq := outq,
                    gated := x.gated + (if h.delay = 0 then 0 else 1) }
  if outq.isEmpty then s.setPort p { x with vtime := 0, fprev := [], tags := [] }
  else
    let s := s.setPort p { x with vtime := tag, fprev := AMap.set x.fprev 0 h.vc tag, tags := AMap.erase x.tags h.vc }
    match rest with
    | f :: _ =>
      let y := s.port p
      s.setPort p { y with tags := AMap.set y.tags 0 h.vc (s.headTag p h.vc f) }
    | [] => s

/-- PORT_PACKET_START: at a packet boundary an UP port starts the eligible head its scheduler picks; where every head
waits for its gate, the first opening is reached (R436). -/
def execPortPacketStart (port : Nat) (s : State) : Host.Outcome State Fault Refusal :=
  onUnit (port < 1024) <|
    let left := sumNat ((s.port port).stream.map fun f => f.2.length)
    if !s.carries port || 620 ≤ left then s
    else
      let s := s.retag port
      match s.heads port with
      | [] => s
      | h :: hs =>
        let soonest := hs.foldl (fun m g => Nat.min m g.delay) h.delay
        let s := s.at (s.now + soonest)
        match pickHead s port ((h :: hs).filter fun g => g.delay = soonest) with
        | some g => s.startHead port g
        | none => s

/-! ## Fabric memory requests (R402, R403) -/

/-- The MEMRSP that answers a request (R402). -/
def State.memResponse (s : State) (q : Packet) (wr : Bool) (code : Nat) (data : List Byte) : Packet :=
  { w0 := s.originWord 8 3 (h0 q P.smod) (h0 q P.src) data.length,
    w1 := wordOf [(P.status, code), (P.wr, if wr then 1 else 0), (P.mtoken, h1 q P.mtoken), (P.rdlen, h1 q P.rdlen),
      (P.maddr, h1 q P.maddr)],
    payload := data }

/-- The port at which a request entered. -/
def State.entryPort (s : State) (port : Nat) (q : Packet) : Nat :=
  match s.inFlight q with
  | some f => f.port.getD port
  | none => port

/-- A request is served: it leaves its input pool, and its answer is sent. -/
def State.answerMem (s : State) (q : Packet) (wr : Bool) (code : Nat) (data : List Byte) : State :=
  let s := (s.land q).2
  s.sendOut (.of (s.memResponse q wr code data) none none s.now)

/-- A stack that a range touches cannot answer now. -/
def fabSilent (s : State) (addr len : Nat) : Bool := silent s (.fabric addr) len

/-- MEMRD: a read of fabric memory for the link (R402). -/
def execMemrd (port : Nat) (p : Packet) (s : State) : Host.Outcome State Fault Refusal :=
  onUnit (port < 1024) <|
    let addr := 64 * h1 p P.maddr
    let n := h1 p P.rdlen
    if h0 p P.ptype ≠ 6 then s
    else if !s.isOn (Reg.LNK_PORT_CFG (s.entryPort port p)) F.LNK_PORT_CFG_MEM_EN then
      s.answerMem p false Code.rejPriv []
    else if n = 0 || 128 < n || 2 ^ 41 < addr + 64 * n then s.answerMem p false Code.rejRange []
    else if fabSilent s addr (64 * n) then s
    else
      let (r, s) := s.fabRead addr (64 * n)
      s.answerMem p false r.1 (if r.1 = Code.failMemory then [] else r.2)

/-- MEMWR: a write of fabric memory for the link, answered after it is stored (R402, R403). -/
def execMemwr (port : Nat) (p : Packet) (s : State) : Host.Outcome State Fault Refusal :=
  onUnit (port < 1024) <|
    let addr := 64 * h1 p P.maddr
    if h0 p P.ptype ≠ 7 then s
    else if !s.isOn (Reg.LNK_PORT_CFG (s.entryPort port p)) F.LNK_PORT_CFG_MEM_EN then
      s.answerMem p true Code.rejPriv []
    else if 2 ^ 41 < addr + p.payload.length then s.answerMem p true Code.rejRange []
    else if fabSilent s addr p.payload.length then s
    else
      let (code, s) := s.fabWrite addr p.payload
      s.answerMem p true code []

/-! ## The Ethernet personality (R405 to R407, R428) -/

/-- One bit step of the reflected CRC-32 of IEEE 802.3. -/
def crcBit (x : Nat) : Nat := if x % 2 = 1 then (x / 2) ^^^ 0xEDB88320 else x / 2

/-- CRC-32 over bytes from a running value. -/
def crcStep : Nat → List Byte → Nat
  | x, [] => x
  | x, b :: bs =>
    let y := x ^^^ b.toNat
    crcStep (crcBit (crcBit (crcBit (crcBit (crcBit (crcBit (crcBit (crcBit y)))))))) bs

/-- The FCS of a frame's bytes. -/
def fcsOf (bs : List Byte) : Nat := crcStep 0xFFFFFFFF bs ^^^ 0xFFFFFFFF

/-- A frame has a supported size and a good FCS (R405). -/
def ethOk (f : List Byte) : Bool :=
  64 ≤ f.length && f.length ≤ 8192 && leAt f (f.length - 4) 4 = fcsOf (f.take (f.length - 4))

/-- The big-endian number in bytes of a frame. -/
def beAt (f : List Byte) (lo n : Nat) : Nat := leNat (slice f lo n).reverse

/-- The outer VLAN ID of a frame, 0 when untagged. -/
def vlanOf (f : List Byte) : Nat := if beAt f 12 2 = 0x8100 || beAt f 12 2 = 0x88A8 then beAt f 14 2 % 4096 else 0

/-- A table entry matches a frame (R406). -/
def fibHit (s : State) (iod : Nat) (f : List Byte) (e : Nat) : Bool :=
  let w := s.reg (Reg.LNK_ETH_FIB_W0 iod e)
  F.LNK_ETH_FIB_W0_VALID.on w && F.LNK_ETH_FIB_W0_DMAC.get w = beAt f 0 6 &&
    (F.LNK_ETH_FIB_W0_VLAN_ANY.on w || F.LNK_ETH_FIB_W0_VID.get w = vlanOf f)

/-- The first of `n` table entries from `e` on that matches a frame. -/
def fibFrom (s : State) (iod : Nat) (f : List Byte) (e : Nat) : Nat → Option Nat
  | 0 => none
  | n + 1 => if fibHit s iod f e then some e else fibFrom s iod f (e + 1) n

/-- The first table entry that decides a frame's fate (R406). -/
def fibMatch (s : State) (iod : Nat) (f : List Byte) : Option Nat := fibFrom s iod f 0 1024

/-- A frame joins an Ethernet port's transmit queue (R407, R428). -/
def State.ethQueue (s : State) (p : Nat) (f : List Byte) : State :=
  let x := s.port p
  s.setPort p { x with ethTx := x.ethTx ++ [(s.now, f)] }

/-- Bits per ns of an Ethernet port. -/
def State.ethRate (s : State) (p : Nat) : Nat :=
  let st := s.reg (Reg.LNK_PORT_STATUS p)
  100 * rateUnits (F.LNK_PORT_STATUS_RATE.get st) * lanesOf (F.LNK_PORT_STATUS_TWIDTH.get st)

/-- A pause of one priority, or of all (8), for a number of 512-bit times (R405). -/
def State.pause (s : State) (p prio quanta : Nat) : State :=
  let x := s.port p
  let ns := if s.ethRate p = 0 then 0 else 512 * quanta / s.ethRate p
  s.setPort p { x with paused := AMap.set x.paused 0 prio (if quanta = 0 then 0 else s.alm + ns) }

/-- A MAC control frame: PAUSE or priority-based flow control (R405). -/
def State.macControl (s : State) (p : Nat) (f : List Byte) : State :=
  if beAt f 14 2 = 1 then s.pause p 8 (beAt f 16 2)
  else if beAt f 14 2 = 0x101 then
    (List.range 8).foldl (fun s i =>
      if bitAt (beAt f 16 2) i then s.pause p i (beAt f (18 + 2 * i) 2) else s) s
  else s

/-- A matched frame leaves as its table entry says: at a port of this module, or in packets to another (R406). -/
def State.ethAction (s : State) (w : Word) (frame : List Byte) : State :=
  let out := F.LNK_ETH_FIB_W1_PORT.get w
  let m := F.LNK_ETH_FIB_W1_MODULE.get w
  match F.LNK_ETH_FIB_W1_ACTION.get w with
  | 1 => if s.isUp out && s.isEth out then s.ethQueue out frame else s
  | 2 =>
    if s.moduleId = some m then (if s.isUp out && s.isEth out then s.ethQueue out frame else s)
    else
      s.originate (.of { w0 := s.originWord 9 4 1 m frame.length, w1 := wordOf [(P.ethPort, out)],
                         payload := frame } none none s.now)
  | _ => s

/-- ETH_FRAME: a frame arriving at an Ethernet port is dropped, sent on an Ethernet port, or sent as an ETH packet
(R405, R406). -/
def execEthFrame (port : Nat) (frame : List Byte) (s : State) : Host.Outcome State Fault Refusal :=
  onUnit (port < 1024) <|
    let iod := port / 64
    if !s.isUp port || !s.isEth port || s.mstate = MState.fenced then s
    else if !ethOk frame then s.count (Reg.LNK_ETH_DROPS port) F.LNK_ETH_DROPS_COUNT 1
    else
      let s := s.bump (Reg.LNK_RX_BYTES port) F.LNK_RX_BYTES_COUNT frame.length
      if beAt frame 12 2 = 0x8808 then s.macControl port frame
      else
        match fibMatch s iod frame with
        | none => s.count (Reg.LNK_ETH_NOMATCH iod) F.LNK_ETH_NOMATCH_COUNT 1
        | some e => (s.count (Reg.LNK_ETH_FIB_W1 iod e) F.LNK_ETH_FIB_W1_HITS 1).ethAction
            (s.reg (Reg.LNK_ETH_FIB_W1 iod e)) frame

/-- ETH_HOLD_DROP: a frame held 1 ms in a transmit queue is dropped (R428). -/
def execEthHoldDrop (port : Nat) (s : State) : Host.Outcome State Fault Refusal :=
  onUnit (port < 1024) <|
    match (s.port port).ethTx with
    | (t, _) :: rest =>
      let s := s.at (t + 1000000)
      let s := s.setPort port { s.port port with ethTx := rest }
      (s.count (Reg.RTE_IOD_HOLD_DROPS (port / 64)) F.RTE_IOD_HOLD_DROPS_COUNT 1).logAt AClass.route 0
        (0x40 + port / 64) 0x10 0 []
    | [] => s

/-! ## Tables and the Equinox flip (R431 to R435) -/

/-- The bank of an epoch may not be written now (R431, R435). -/
def bankLocked (s : State) (b : Nat) : Bool :=
  if s.isOn Reg.RTE_MODE F.RTE_MODE_SPLIT then s.mstate ≠ MState.banked
  else
    let e := s.reg Reg.RTE_EPOCH
    b = F.RTE_EPOCH_CUR.get e || F.RTE_EPOCH_ARMED.on e || (F.RTE_EPOCH_DRAINING.on e && b = 1 - F.RTE_EPOCH_CUR.get e)

/-- A write of a module table entry (R431, R435). -/
def State.writeMtab (s : State) (bank m : Nat) (w : Word) : Nat × State :=
  if bankLocked s bank then (Code.rejState, s)
  else
    let keep : Word := BitVec.ofNat 64 (bits w.toNat 63 63 * 2 ^ 63 + bits w.toNat 61 8 * 2 ^ 8)
    (Code.done, s.setReg (if bank = 0 then Reg.RTE_MTAB0 m else Reg.RTE_MTAB1 m) keep)

/-- INDEX rises after an access of RTE_EP_DATA when INC is 1 (R451). -/
def State.advanceIndex (s : State) : State :=
  if s.isOn Reg.RTE_EP_SEL F.RTE_EP_SEL_INC then s.bump Reg.RTE_EP_SEL F.RTE_EP_SEL_INDEX 1 else s

/-- A write of RTE_EP_DATA; a half is written where its value changes (R422, R431, R435). -/
def State.writeEpData (s : State) (w : Word) : Nat × State :=
  let i := s.fld Reg.RTE_EP_SEL F.RTE_EP_SEL_INDEX
  let old := (AMap.get s.endpoints 0 i).toNat
  let new := bits w.toNat 63 40 * 2 ^ 40 + bits w.toNat 31 8 * 2 ^ 8
  let split := s.isOn Reg.RTE_MODE F.RTE_MODE_SPLIT
  if (split && bankLocked s 0) || (bits new 31 0 ≠ bits old 31 0 && bankLocked s 0) ||
      (bits new 63 32 ≠ bits old 63 32 && bankLocked s 1) then (Code.rejState, s)
  else (Code.done, { s with endpoints := AMap.set s.endpoints 0 i (BitVec.ofNat 64 new) }.advanceIndex)

/-- A read of RTE_EP_DATA. -/
def State.readEpData (s : State) : Word × State :=
  (AMap.get s.endpoints 0 (s.fld Reg.RTE_EP_SEL F.RTE_EP_SEL_INDEX), s.advanceIndex)

/-- EP_DATA_ACCESS: a read or write of RTE_EP_DATA (R422, R451). -/
def execEpDataAccess (write : Bool) (data : Word) (s : State) : Host.Outcome State Fault Refusal :=
  if write then let r := s.writeEpData data; .next (r.2.completed r.1 0)
  else let r := s.readEpData; .next (r.2.completed Code.done r.1)

/-- A write of RTE_EPOCH (R432, R435). -/
def State.writeEpoch (s : State) (w : Word) : Nat × State :=
  if !F.RTE_EPOCH_ARM.on w then (Code.done, s)
  else
    let e := s.reg Reg.RTE_EPOCH
    match firstCode [
        (s.isOn Reg.RTE_MODE F.RTE_MODE_SPLIT || F.RTE_EPOCH_ARMED.on e || F.RTE_EPOCH_DRAINING.on e, Code.rejState),
        (s.fld Reg.RTE_FLIP_AT F.RTE_FLIP_AT_COUNT < s.alm + 10000, Code.rejRange)] with
    | some code => (code, s)
    | none => (Code.done, s.setFld Reg.RTE_EPOCH F.RTE_EPOCH_ARMED 1)

/-- FLIP_ARM: RTE_EPOCH.ARM is written (R432). -/
def execFlipArm (s : State) : Host.Outcome State Fault Refusal :=
  let r := s.writeEpoch (F.RTE_EPOCH_ARM.only 1)
  .next (r.2.completed r.1 0)

/-- EQUINOX_FLIP: at FLIP_AT an armed flip takes place (R432). -/
def execEquinoxFlip (s : State) : Host.Outcome State Fault Refusal :=
  if !s.isOn Reg.RTE_EPOCH F.RTE_EPOCH_ARMED then .next s
  else
    let s := s.atAlm (s.fld Reg.RTE_FLIP_AT F.RTE_FLIP_AT_COUNT)
    let e := s.reg Reg.RTE_EPOCH
    let e := F.RTE_EPOCH_CUR.put e (1 - F.RTE_EPOCH_CUR.get e)
    let e := F.RTE_EPOCH_FLIPS.put (F.RTE_EPOCH_ARMED.put e 0) (F.RTE_EPOCH_FLIPS.get e + 1)
    let s := s.setReg Reg.RTE_EPOCH (F.RTE_EPOCH_DRAINING.put e 1)
    .next { s with drainEnd := s.alm + s.fld Reg.RTE_DRAIN F.RTE_DRAIN_NS }

/-- DRAIN_END: RTE_DRAIN after a flip DRAINING clears (R432). -/
def execDrainEnd (s : State) : Host.Outcome State Fault Refusal :=
  if !s.isOn Reg.RTE_EPOCH F.RTE_EPOCH_DRAINING then .next s
  else .next ((s.atAlm s.drainEnd).setFld Reg.RTE_EPOCH F.RTE_EPOCH_DRAINING 0)

/-! ## Congestion maps (R449, R450) -/

/-- QLEVEL of a VC's queued cells (R450). -/
def queueLevel (cells : Nat) : Nat := if cells = 0 then 0 else Nat.min 15 (log2 cells + 1)

/-- The record of one port; STALL is a free value (R450). -/
def State.mapRecord (s : State) (p : Nat) (stall : Nat) : List Byte :=
  let x := s.port p
  let level := sumNat ((List.range 8).map fun v => queueLevel (cellsIn (AMap.get x.outq [] v)) * 2 ^ (4 * v))
  let util := if x.slots = 0 then 0 else 255 * x.busy / x.slots
  let w0 := p * 2 ^ 54 + s.portState p * 2 ^ 51 + util * 2 ^ 40 + stall % 256 * 2 ^ 32 + level
  let w1 := satAdd 16 x.escs 0 * 2 ^ 48 + satAdd 16 x.gated 0 * 2 ^ 32 + satAdd 32 x.cells 0
  leBytes 8 w0 ++ leBytes 8 w1

/-- CONGESTION_MAP: at the next Almanac multiple of 2^K a map is written to its ring, whole before SEQ rises (R449,
R450). -/
def execCongestionMap (s : State) : Host.Outcome State Fault Refusal :=
  let ctl := s.reg Reg.RTE_CMAP_CTL
  if !F.RTE_CMAP_CTL_EN.on ctl then .next s
  else
    let due := nextMultiple (2 ^ F.RTE_CMAP_CTL_K.get ctl) (Nat.max s.alm s.cmapNext)
    let s := { s.atAlm due with cmapNext := due + 1 }
    let seq := s.fld Reg.RTE_CMAP_SEQ F.RTE_CMAP_SEQ_SEQ
    let ports := (List.range 1024).filter fun p => s.isOn (Reg.LNK_PORT_CFG p) F.LNK_PORT_CFG_ENABLE
    let recs := ports.foldl (fun (acc : List Byte × State) p =>
      let (w, s) := acc.2.freeWord
      (acc.1 ++ s.mapRecord p w.toNat, s)) ([], s)
    let s := recs.2
    let flags := s.epoch + s.fld Reg.RTE_MODE F.RTE_MODE_SPLIT * 2
    let header := leBytes 8 s.alm ++ leBytes 4 (seq + 1) ++ leBytes 2 (s.moduleId.getD 0) ++ leBytes 2 ports.length ++
      leBytes 1 flags ++ List.replicate 47 0
    let slot := seq % Nat.max 1 (F.RTE_CMAP_CTL_ENTRIES.get ctl)
    let loc := s.fld Reg.RTE_CMAP_LOC F.RTE_CMAP_LOC_LOCATOR % 2 ^ 41
    let s := (s.fabWrite (loc + 32768 * slot) (header ++ recs.1)).2
    let s := ports.foldl (fun s p =>
      s.setPort p { s.port p with slots := 0, busy := 0, escs := 0, gated := 0, cells := 0 }) s
    .next (s.bump Reg.RTE_CMAP_SEQ F.RTE_CMAP_SEQ_SEQ 1)

/-! ## Routing registers (R414, R438, R451, R452) -/

/-- The pool sizes that a write of RTE_POOLS0 or RTE_POOLS1 would leave break R414. -/
def badPools (w0 w1 : Word) : Bool :=
  let sizes := (List.range 5).map (fun i => bits w0.toNat (12 * i + 11) (12 * i)) ++
    (List.range 5).map fun i => bits w1.toNat (12 * i + 11) (12 * i)
  4096 < sumNat sizes || sizes.zipIdx.any fun (n, i) => n < (if i = 1 then 2 else if i = 2 then 1 else 129)

/-- A write of RTE_POOLS0 or RTE_POOLS1 (R414, R452). -/
def State.writePools (s : State) (first : Bool) (w : Word) : Nat × State :=
  let w : Word := BitVec.ofNat 64 (bits w.toNat 59 0)
  let anyUp := (List.range 1024).any fun p => s.carries p
  match firstCode [
      (anyUp || s.mstate ≠ MState.banked, Code.rejState),
      (if first then badPools w (s.reg Reg.RTE_POOLS1) else badPools (s.reg Reg.RTE_POOLS0) w, Code.rejRange)] with
  | some code => (code, s)
  | none => (Code.done, s.setReg (if first then Reg.RTE_POOLS0 else Reg.RTE_POOLS1) w)

/-- A write of RTE_PORT (R452). -/
def State.writeRtePort (s : State) (p : Nat) (w : Word) : Nat × State :=
  let old := s.reg (Reg.RTE_PORT p)
  match firstCode [
      (F.RTE_PORT_UPWARD.get w ≠ F.RTE_PORT_UPWARD.get old && s.mstate ≠ MState.banked, Code.rejState),
      ((List.range 8).any (fun v => bits w.toNat (7 * v + 6) (7 * v) = 0), Code.rejRange),
      (s.widthCode p = 0, Code.rejRange)] with
  | some code => (code, s)
  | none => (Code.done, s.setReg (Reg.RTE_PORT p) w)

/-- A write of RTE_MODE (R435, R438). -/
def State.writeRteMode (s : State) (w : Word) : Nat × State :=
  match firstCode [
      (s.mstate ≠ MState.banked, Code.rejState),
      (F.RTE_MODE_SCHED.get w = 3, Code.rejRange)] with
  | some code => (code, s)
  | none => (Code.done, s.setReg Reg.RTE_MODE (BitVec.ofNat 64 (bits w.toNat 5 2 * 4 + bits w.toNat 0 0)))

/-- A write of RTE_DRAIN, RTE_ESC_DELAY, RTE_CMAP_LOC or RTE_CMAP_CTL: whether its value is refused (R451). -/
def badRouteValue (off : Nat) (w : Word) : Bool :=
  let v := w.toNat % 2 ^ 32
  if off = 0x18 then v < 10000 || 10000000 < v
  else if off = 0x20 then 65535 < v
  else if off = 0x40 then bits w.toNat 63 60 ≠ 3 || bits w.toNat 59 41 ≠ 0 || w.toNat % 32768 ≠ 0
  else if off = 0x48 then
    let k := F.RTE_CMAP_CTL_K.get w
    (F.RTE_CMAP_CTL_EN.on w && F.RTE_CMAP_CTL_ENTRIES.get w = 0) || k < 12 || 24 < k
  else false

end Sys2Proof.Machine
end

