-- ==== Sys2Proof/Machine/Accept.lean ====
section
/-! DEFINITION. Packets accepted at a port: the checks of R401, mirroring, recording and their sinks (chapters 11, 12
and 14). -/
namespace Sys2Proof.Machine

/-! ## Checks (R399, R401) -/

/-- LENGTH is one that R399 allows a type; a QUICK packet above 64 bytes is a COUNT message. -/
def lengthOk (p : Packet) : Bool :=
  let n := h0 p P.length
  match h0 p P.ptype with
  | 0 => n ≤ 8192
  | 1 => n = 0
  | 2 => n = 0
  | 3 => 1 ≤ n && n ≤ 8192
  | 4 => 8 ≤ n && n ≤ 72 && n % 8 = 0 && (n ≤ 64 || msgCode p = Msg.count)
  | 5 => n ≤ 8192
  | 6 => n = 0
  | 7 => 64 ≤ n && n ≤ 8192 && n % 64 = 0
  | 8 => n = 0 || n = 64 * h1 p P.rdlen
  | 9 => 64 ≤ n && n ≤ 8192
  | _ => false

/-- The VCs a type may occupy: those of its origin, 4 and 7 (R399, R401). -/
def vcOk (p : Packet) : Bool :=
  let vc := h0 p P.vc
  vc = 4 || vc = 7 ||
  match h0 p P.ptype with
  | 0 => vc = 2 || vc = 3
  | 1 => vc = 1
  | 2 => vc = 1
  | 3 => vc = 5 || vc = 6
  | 4 => vc = 1
  | 5 => vc = 0
  | 6 => vc = 2
  | 7 => vc = 2
  | 8 => vc = 3
  | _ => false

/-- The reserved bits of a header are 0 (R397, R400, R532). -/
def reservedOk (p : Packet) : Bool :=
  let w1 := p.w1.toNat
  h0 p P.rsv = 0 &&
  match h0 p P.ptype with
  | 2 => bits w1 50 18 = 0
  | 4 => bits w1 34 0 = 0
  | 5 => bits w1 38 32 = 0 && bits w1 23 0 = 0
  | 9 => bits w1 63 10 = 0
  | _ => true

/-- A packet for this module names a unit it does not have, or an Ethernet port that is not UP (R401). -/
def namesNothing (s : State) (p : Packet) : Bool :=
  match h0 p P.ptype with
  | 0 => 79 < h1 p P.region
  | 1 => 79 < h1 p P.region
  | 2 => 79 < h1 p P.region
  | 9 => !s.isUp (h1 p P.ethPort) || !s.isEth (h1 p P.ethPort)
  | _ => false

/-- A packet accepted at a port is dropped by R401; HOPS counts this module already. -/
def badHeader (s : State) (port : Nat) (p : Packet) : Bool :=
  9 < h0 p P.ptype || !lengthOk p || !reservedOk p || !vcOk p ||
  (h0 p P.dmod = 0 && h0 p P.dest = 0xFFFF) || (h0 p P.dmod = 1 && 4096 ≤ h0 p P.dest) ||
  s.fld (Reg.LNK_HOP_LIMIT (port / 64)) F.LNK_HOP_LIMIT_LIMIT ≤ h0 p P.hops ||
  (s.isMine p && namesNothing s p) || (s.moduleId.isNone && h0 p P.ptype ≠ 5)

/-- The cells of a packet that leaves its input pool at once are freed. -/
def State.freeInput (s : State) (port : Nat) (p : Packet) : State := s.freeCells (.of p none (some port) s.now)

/-- A packet with a bad header is dropped, counted and logged (R401). -/
def State.dropBad (s : State) (port : Nat) (p : Packet) : State :=
  let s := s.freeInput port p
  let s := (s.flag (Reg.LNK_PORT_FLAGS port) F.LNK_PORT_FLAGS_BADHDR_SEEN).count (Reg.LNK_BADHDR port) F.LNK_BADHDR_COUNT 1
  s.logPort port [p.w0.toNat, p.w1.toNat]

/-! ## Sinks (R428) -/

/-- A MGMT packet joins the Vigil's queue for the in-band path, or is dropped when it is full (R428, R536). -/
def State.takeMgmt (s : State) (p : Packet) : State :=
  if s.vigil.mgmtQ.length < 64 then { s with vigil := { s.vigil with mgmtQ := s.vigil.mgmtQ ++ [p] } }
  else s.count Reg.VIG_MGMT_DROPS F.VIG_MGMT_DROPS_COUNT 1

/-- A packet for this module goes to its sink: the Vigil, an Ethernet transmit queue, or a unit that takes it when its own
command comes. A MEMRSP has no sink here, and a shadow discards a SIGACK (R428, R511). -/
def State.sinkPacket (s : State) (port : Nat) (p : Packet) : State :=
  match h0 p P.ptype with
  | 5 => (s.freeInput port p).takeMgmt p
  | 8 => s.freeInput port p
  | 9 => (s.freeInput port p).ethQueue (h1 p P.ethPort) p.payload
  | k =>
    if k = 2 && s.mstate = MState.shadow then s.freeInput port p
    else
      let f := Flying.of p none (some port) s.now
      { s with flight := s.flight ++ [f], meshUsed := true }

/-- A packet joins those that wait for credit at the mirror port. -/
def State.copyOut (s : State) (p : Packet) (port : Option Nat) : State :=
  let s := { s with shadow := { s.shadow with copies := s.shadow.copies ++ [Flying.of p none port s.now] } }
  s.flushCopies s.shadow.copies.length

/-- Every module a packet enters adds 1 to HOPS (R398). -/
def entered (p : Packet) : Packet := { p with w0 := P.hops.put p.w0 (h0 p P.hops + 1) }

/-- A packet is accepted for this module: it is recorded, copied to a shadow, and goes to its sink (R510, R520). -/
def State.acceptMine (s : State) (port : Nat) (p : Packet) : State :=
  let s := s.recordPacket port p
  let s := if s.shdMode = 1 && s.shdState = Shd.mirroring && h0 p P.ptype ≠ 9 then s.copyOut p none else s
  s.sinkPacket port (entered p)

/-- A packet to be forwarded waits at the input for an output port (R424). -/
def State.forward (s : State) (port : Nat) (p : Packet) : State :=
  let x := s.port port
  let pool := packetPool p
  s.setPort port { x with inq := AMap.set x.inq [] pool (AMap.get x.inq [] pool ++ [Flying.of p none (some port) s.now]) }

/-- A mirrored packet reaches a shadow: it is treated as accepted for itself, or discarded once shadowing has ended
(R510, R513). -/
def State.acceptMirrored (s : State) (port : Nat) (p : Packet) : State :=
  if s.shdState = Shd.ended then s.freeInput port p
  else if badHeader s port (entered p) then s.dropBad port p
  else s.acceptMine port p

/-- A packet is accepted at a port (R401, R423, R510, R511, R515). -/
def State.acceptPacket (s : State) (port : Nat) (p : Packet) : State :=
  let q := entered p
  let mirror := s.shdMode = 2 && s.fld Reg.VIG_SHD_CTL F.VIG_SHD_CTL_PORT = port
  if s.mstate = MState.shadow then
    if mirror then s.acceptMirrored port p
    else if s.shadow.returning && s.isMine q && h0 p P.ptype ≠ 9 then s.copyOut p (some port)
    else s.dropPacket (.of q none (some port) s.now) false
  else if badHeader s port q then s.dropBad port q
  else if s.isMine q then
    if s.shdMode = 1 && s.shdState = Shd.relaying then s.copyOut p (some port) else s.acceptMine port p
  else s.forward port q

/-- PACKET_ACCEPT: the oldest packet accepted whole at a port is checked and passed on or dropped; while a takeover is
being decided it is held (R401, R514). -/
def execPacketAccept (port : Nat) (s : State) : Host.Outcome State Fault Refusal :=
  onUnit (port < 1024) <|
    let x := s.port port
    match x.arrived with
    | p :: rest =>
      if s.shdState = Shd.deciding then s else (s.setPort port { x with arrived := rest }).acceptPacket port p
    | [] => s

/-- MIRROR_PACKET: a packet mirrored by the primary is treated by the shadow as accepted for itself (R510). -/
def execMirrorPacket (p : Packet) (s : State) : Host.Outcome State Fault Refusal :=
  let port := s.fld Reg.VIG_SHD_CTL F.VIG_SHD_CTL_PORT
  if s.mstate ≠ MState.shadow || s.shdMode ≠ 2 then .next s
  else
    let x := s.port port
    .next ((s.setPort port { x with arrived := removeOne p x.arrived }).acceptMirrored port p)

end Sys2Proof.Machine
end

