-- ==== Sys2Proof/Machine/Quick.lean ====
section
/-! DEFINITION. The quick path: barriers and scalar reductions, and the handshake's instance (chapter 13). -/
namespace Sys2Proof.Machine

/-- One slot combined by a QOP code (R483). -/
def qopApply (op a b : Nat) : Nat :=
  match op with
  | 0 => (a + b) % 2 ^ 64
  | 1 => Nat.max a b
  | 2 => Nat.min a b
  | 3 => if toSigned 64 a ≤ toSigned 64 b then b else a
  | 4 => if toSigned 64 a ≤ toSigned 64 b then a else b
  | 5 => a &&& b
  | 6 => a ||| b
  | _ => a ^^^ b

/-- Two values combined slot by slot. -/
def qopAll (m : List Byte) (xs ys : List Nat) : List Nat :=
  (xs.zip ys).zipIdx.map fun ((a, b), i) => qopApply (Im.qop m i) a b

/-- Slots of a value: NVAL, and one for a barrier (R481). -/
def quickSlots (m : List Byte) : Nat := Nat.max 1 (Im.nval m)

/-- A value's slots in a payload. -/
def slotsOf (m : List Byte) (bs : List Byte) : List Nat := (List.range (quickSlots m)).map fun i => leAt bs (8 * i) 8

/-- A QUICK packet with a value (R481). -/
def State.quickPacket (s : State) (m : List Byte) (gen stage : Nat) (down : Bool) (to_ : Nat × Nat) (v : List Nat) : Packet :=
  let body := ((v.take (quickSlots m)).map (leBytes 8)).flatten
  { w0 := s.originWord 4 1 1 to_.1 body.length, w1 := quickWord to_.2 gen stage down, payload := body }

/-- How far a value has climbed. -/
inductive Climb where
  | final (v : List Nat)
  | up (stage : Nat) (v : List Nat)
  | waits
deriving DecidableEq, Repr

/-- The value of a generation at this module, through the stages whose root it is (R482). -/
def climb (m : List Byte) (ups : List QVal) (gen : Nat) : List Nat → List Nat → Climb
  | [], v => .final v
  | k :: ks, v =>
    if Im.width m k = 1 then climb m ups gen ks v
    else if Im.pos m k ≠ Im.rootPos m k then .up k v
    else
      let at_ (q : Nat) : Option (List Nat) :=
        if q = Im.pos m k then some v
        else (ups.find? fun x => x.gen = gen && x.stage = k && x.pos = q).map QVal.vals
      match (List.range (Im.width m k)).mapM at_ with
      | none => .waits
      | some [] => .waits
      | some (x :: xs) => climb m ups gen ks (xs.foldl (qopAll m) x)

/-- The generation of the open or last instance. -/
def State.gen (s : State) (f : Nat) : Nat := s.instance_ f % 2 ^ 14

/-- The packet with a value for ROOTPOS of a stage. -/
def State.upPacket (s : State) (f : Nat) (m : List Byte) (k : Nat) (v : List Nat) : Packet :=
  s.quickPacket m (s.gen f) k false (Im.entry m (Im.memOff m k) (Im.rootPos m k)) v

/-- A down value goes to the members of each stage this module is root of, below the stage it came from (R482), and is
digested (R512). -/
def State.sendDown (s : State) (f : Nat) (m : List Byte) (tick gen top : Nat) (v : List Nat) : State :=
  [3, 2, 1].foldl (fun s k =>
    if top ≤ k || Im.width m k = 1 || Im.pos m k ≠ Im.rootPos m k then s
    else ((List.range (Im.width m k)).filter fun q => q ≠ Im.pos m k).foldl (fun s q =>
      let p := s.quickPacket m gen k true (Im.entry m (Im.memOff m k) q) v
      (s.digPacket tick p).flueSend f p) s) s

/-- The instance holds the final value: it goes down, to the destinations, and to the Almanac unit for the handshake
(R482, R487, R611). -/
def State.quickEnd (s : State) (f : Nat) (r : FlueRun) (top : Nat) (v : List Nat) : State :=
  let m := (s.flue f).image
  let gen := s.gen f
  let s := s.sendDown f m r.tick gen top v
  let x := s.flue f
  let s := s.setFlue f { x with last := some (gen, v), ups := x.ups.filter fun u => u.gen ≠ gen }
  let s := if r.handshake then { s with job := { s.job with result := some (s.alm, v) } } else s
  s.flueFinish f r [(0, ((v.take (Im.nval m)).map (leBytes 8)).flatten)]

/-! ## Late arrivals (R508) -/

/-- 256 is added to a module's late entry; one that reaches LATE_THR is flagged and logged. -/
def State.noteLate (s : State) (id : Nat) : State :=
  let (l, logged) := AMap.get s.late (0, false) id
  let l := satAdd 32 l 256
  let hit := s.fld Reg.VIG_LATE_CFG F.VIG_LATE_CFG_LATE_THR ≤ l && !logged
  let s := { s with late := AMap.set s.late (0, false) id (l, logged || hit) }
  if hit then (s.relFlag F.VIG_REL_STATUS_LATE_SEEN).logAt AClass.health 0 s.leadSite 0x20 0 [id] else s

/-- When the values of a stage this module is root of arrived, with the modules they came from; none while one is
missing. -/
def arrivals (s : State) (m : List Byte) (ups : List QVal) (gen opened k : Nat) : Option (List (Nat × Nat)) :=
  let mine := ups.filter fun u => u.gen = gen
  let formed := (mine.filter fun u => u.stage < k).foldl (fun t u => Nat.max t u.heard) opened
  (List.range (Im.width m k)).mapM fun q =>
    if q = Im.pos m k then some (s.moduleId.getD 0, formed)
    else (mine.find? fun u => u.stage = k && u.pos = q).map fun u => ((Im.entry m (Im.memOff m k) q).1, u.heard)

/-- The last of a list of arrivals and the time of the one before it. -/
def lastArrival : List (Nat × Nat) → Option (Nat × Nat × Nat)
  | [] => none
  | [a] => some (a.1, a.2, a.2)
  | a :: as =>
    match lastArrival as with
    | some (id, t, prev) =>
      if a.2 ≤ t then some (id, t, if as.length = 1 then a.2 else Nat.max prev a.2) else some (a.1, a.2, t)
    | none => some (a.1, a.2, a.2)

/-- The last value of a stage is judged against the one before it (R508). -/
def State.judgeArrivals (s : State) (as : List (Nat × Nat)) : State :=
  match lastArrival as with
  | some (id, t, prev) => if s.fld Reg.VIG_LATE_CFG F.VIG_LATE_CFG_LATE_NS ≤ t - prev then s.noteLate id else s
  | none => s

/-- Stages after stage `j` whose values have all arrived are judged in order; the last stage judged. -/
def State.judgeStages (s : State) (f j : Nat) (m : List Byte) (r : FlueRun) : List Nat → State × Nat
  | [] => (s, j)
  | k :: ks =>
    if k ≤ j || Im.width m k = 1 then s.judgeStages f (Nat.max j k) m r ks
    else if Im.pos m k ≠ Im.rootPos m k then (s, j)
    else
      match arrivals s m (s.flue f).ups (s.gen f) r.opened k with
      | none => (s, j)
      | some as => (s.judgeArrivals as).judgeStages f k m r ks

/-- Stages whose values have all arrived are judged, each once per generation. -/
def State.judgeLate (s : State) (f : Nat) : State :=
  match (s.flue f).run with
  | none => s
  | some r =>
    if s.fld Reg.VIG_HEALTH_CTL F.VIG_HEALTH_CTL_MODE < 2 then s
    else
      let x := s.judgeStages f r.judged (s.flue f).image r [1, 2, 3]
      x.1.setRun f { r with judged := x.2 }

/-- An open quick instance goes as far as the values it holds allow. -/
def State.quickWork (s : State) (f : Nat) : State :=
  let s := s.judgeLate f
  match (s.flue f).run with
  | none => s
  | some r =>
    let m := (s.flue f).image
    if r.stage ≠ 0 then s
    else
      match climb m (s.flue f).ups (s.gen f) [1, 2, 3] r.own with
      | .final v => s.quickEnd f r 4 v
      | .up k v =>
        let p := s.upPacket f m k v
        ((s.setRun f { r with stage := k, own := v, sentAt := s.now, again := 0 }).digPacket r.tick p).flueSend f p
      | .waits => s

/-- The stage 0 value of an instance: its sources' words combined in source order (R613). -/
def State.quickOwn (s : State) (m : List Byte) : (Nat × List Nat) × State :=
  let zero := (List.range (quickSlots m)).map fun _ => 0
  if Im.nval m = 0 || Im.nsrc m = 0 then ((Code.done, zero), s)
  else
    (List.range (Im.nsrc m)).foldl (fun (x, s) i =>
      let (d, s) := s.flueRead (Im.source m i) 0 64
      let v := slotsOf m d.2
      ((joinCode x.1 d.1, if i = 0 then v else qopAll m x.2 v), s)) ((Code.done, zero), s)

/-- A quick instance opens with a value (R613); `hs` says that the Almanac unit launched it (R487). -/
def State.quickOpen (s : State) (f : Nat) (given : Option (List Nat)) : State :=
  let m := (s.flue f).image
  let (r, s) := s.openRun f
  let (x, s) := match given with
    | some v => ((Code.done, v), s)
    | none => s.quickOwn m
  let r := { r with own := x.2, handshake := given.isSome, mended := x.1 = Code.corrected }
  let fl := s.flue f
  let gen := s.gen f
  let s := s.setFlue f { fl with ups := fl.ups.filter fun u => u.gen = gen || u.gen = (gen + 1) % 2 ^ 14 }
  if Code.family x.1 ≠ 0 then (s.setRun f r).quickFail f r x.1 else (s.setRun f r).quickWork f

/-- A Flue with the settings the handshake needs, loaded (R487). -/
def handshakeReady (s : State) (f : Nat) : Bool :=
  let m := (s.flue f).image
  2 ≤ s.flueSt f && s.flueSt f ≤ 4 && Im.kind m = 1 && Im.nsrc m = 0 && Im.ndst m = 0 && Im.nval m = 8 &&
  (List.range 8).all fun i => Im.qop m i = 1

/-- The Flue of the handshake. -/
def hsFlue (s : State) : Nat := s.fld Reg.ALM_JOB F.ALM_JOB_HS_FLUE

/-- QUICK_LAUNCH: a take of GO passes and a quick instance launches, or the GO object fails its check (R464, R613). -/
def execQuickLaunch (f : Nat) (s : State) : Host.Outcome State Fault Refusal :=
  onUnit (f < 4096) <|
    let m := (s.flue f).image
    let ms := s.mstate
    let busy := match s.flueCmd with | some c => c.flue = f | none => false
    let may := ms = MState.banked || ms = MState.lit || ms = MState.shadow || ms = MState.damped
    if s.flueSt f ≠ FSt.idle || !Im.quick m || busy || !may || (f = hsFlue s && handshakeReady s f) then s
    else
      match s.takeGo m with
      | (.fails, s) => s.goFails f m
      | (.waits, s) => s
      | (.passes, s) => s.quickOpen f none

/-- The position in a stage that a packet's sender holds. -/
def quickSender (m : List Byte) (k : Nat) (p : Packet) : Option Nat :=
  if k = 0 || Im.width m k = 1 then none
  else (List.range (Im.width m k)).find? fun q =>
    q ≠ Im.pos m k && (Im.entry m (Im.memOff m k) q).1 = h0 p P.src && h0 p P.smod = 1

/-- A value for an open instance that breaks R467 or R484 ends it. -/
def State.quickMismatch (s : State) (f : Nat) : State :=
  match (s.flue f).run with
  | some r => s.quickFail f r Code.failMismatch
  | none => s

/-- QUICK_VALUE: a value comes up to a stage root (R482, R484, R485). -/
def execQuickValue (p : Packet) (s : State) : Host.Outcome State Fault Refusal :=
  let f := h1 p P.flue
  let m := (s.flue f).image
  let k := h1 p P.stage
  let gen := h1 p P.gen
  if h0 p P.ptype ≠ 4 || h1 p P.down = 1 || !Im.quick m || m.isEmpty then .next s
  else
    let s := (s.land p).2
    let x := s.flue f
    match quickSender m k p with
    | none => .next (s.quickMismatch f)
    | some q =>
      let cur := s.gen f
      let open_ := x.run.isSome
      let finished := match x.last with
        | some (g, v) => if g = gen && !(open_ && gen = cur) then some v else none
        | none => none
      match finished with
      | some v =>
        .next (s.flueSend f (s.quickPacket m gen k true (Im.entry m (Im.memOff m k) q) v))
      | none =>
        if Im.pos m k ≠ Im.rootPos m k || !((open_ && gen = cur) || gen = (cur + 1) % 2 ^ 14) then
          .next (s.quickMismatch f)
        else
          let s := match x.run with
            | some r => s.setRun f { r with heard := s.now }
            | none => s
          let x := s.flue f
          if x.ups.any fun u => u.gen = gen && u.stage = k && u.pos = q then .next s
          else
            .next ((s.setFlue f { x with ups := x.ups ++ [⟨gen, k, q, slotsOf m p.payload, s.now⟩] }).quickWork f)

/-- QUICK_DOWN: a down value is forwarded, written to the destinations and signalled (R482). -/
def execQuickDown (p : Packet) (s : State) : Host.Outcome State Fault Refusal :=
  let f := h1 p P.flue
  let m := (s.flue f).image
  let k := h1 p P.stage
  if h0 p P.ptype ≠ 4 || h1 p P.down = 0 || !Im.quick m || m.isEmpty then .next s
  else
    let s := (s.land p).2
    match (s.flue f).run with
    | none => .next s
    | some r =>
      let old := match (s.flue f).last with | some (g, _) => g = h1 p P.gen && g ≠ s.gen f | none => false
      if old then .next s
      else if h1 p P.gen ≠ s.gen f || r.stage ≠ k || quickSender m k p ≠ some (Im.rootPos m k) then
        .next (s.quickMismatch f)
      else .next (s.quickEnd f r k (slotsOf m p.payload))

/-- QUICK_RESEND: no down value within FLU_QRESEND: the value is sent again, or after the third time the instance ends
with FAIL_TIMEOUT (R485). -/
def execQuickResend (f : Nat) (s : State) : Host.Outcome State Fault Refusal :=
  onUnit (f < 4096) <|
    match (s.flue f).run with
    | none => s
    | some r =>
      let m := (s.flue f).image
      if !Im.quick m || r.stage = 0 then s
      else
        let s := s.at (r.sentAt + s.fld Reg.FLU_QRESEND F.FLU_QRESEND_NS)
        if 3 ≤ r.again then s.quickFail f r Code.failTimeout
        else
          let s := s.setRun f { r with sentAt := s.now, again := r.again + 1, mended := true }
          (((s.flueSend f (s.upPacket f m r.stage r.own)).flag Reg.FLU_STATUS F.FLU_STATUS_RESEND_SEEN).count Reg.FLU_RESENDS
            F.FLU_RESENDS_COUNT 1).healthAdd 5 1

end Sys2Proof.Machine
end

