-- ==== Sys2Proof/Machine/Jobs.lean ====
section
/-! DEFINITION. Arming, the handshake, and the start, abort and end of a job (chapter 04). -/
namespace Sys2Proof.Machine

/-- A job ends before it runs: PHASE is ABORTED with a code, and a failed ARM or handshake is logged (R168, R170,
R604). -/
def State.jobFails (s : State) (code : Nat) : State := (s.setPhase 7 code).logSchedule code []

/-! ## The ring a replay reads (R521, R523) -/

/-- The replay ring: its address and length in bytes. -/
def State.replayRing (s : State) : Nat × Nat :=
  ((s.reg Reg.VIG_RPL_LOC).toNat % 2 ^ 41, 512 * s.fld Reg.VIG_RPL_SIZE F.VIG_RPL_SIZE_GRANULES)

/-- Bytes of a ring from an offset, across its end. -/
def State.ringRead (s : State) (base size off n : Nat) : List Byte :=
  (ringParts base size (off % Nat.max 1 size) n).flatMap fun p => s.fread p.1 p.2

/-- The record whose header stands at an offset of a ring, with its sequence number and whether its reserved bits are 0. -/
def State.readRec (s : State) (base size off : Nat) : RecEntry × Nat × Bool :=
  let h := s.ringRead base size off 32
  let w1 := leAt h 8 8
  let n := Nat.min (bits w1 31 0) size
  ({ iod := bits w1 47 38 / 64, alm := leAt h 0 8, port := bits w1 47 38, kind := bits w1 37 32, word3 := leAt h 24 8,
     content := s.ringRead base size (off + 32) n }, leAt h 16 8, bits w1 63 48 = 0)

/-- The records of consecutive numbers from an offset on, up to a last number. -/
def State.walkRecs (s : State) (base size : Nat) : Nat → Nat → Nat → Nat → List RecEntry
  | 0, _, _, _ => []
  | n + 1, off, seq, last =>
    let (e, q, ok) := s.readRec base size off
    if q ≠ seq || !ok || last < seq then [] else e :: s.walkRecs base size n (off + e.size) (seq + 1) last

/-- The records from START to END, if START is a MARK (R523). -/
def State.replayRecs (s : State) : Option (List RecEntry) :=
  let (base, size) := s.replayRing
  let first := s.fld Reg.VIG_RPL_START F.VIG_RPL_START_SEQ
  let last := s.fld Reg.VIG_RPL_END F.VIG_RPL_END_SEQ
  let isMark (off : Nat) : Bool :=
    let (e, q, ok) := s.readRec base size off
    ok && q = first && e.kind = 1 && e.content.length = 8
  let blocks := ((s.fabric.filter fun c => base ≤ c.1 && c.1 < base + size).map fun c => (c.1 - base) / 64).eraseDups
  match blocks.find? fun b => isMark (64 * b) with
  | some b => some (s.walkRecs base size (Nat.min (last + 1 - first) (size / 64)) (64 * b) first last)
  | none => none

/-- The next ARM is a replay (R525). -/
def State.replayArmed (s : State) : Bool := s.isOn Reg.VIG_RPL_CTL F.VIG_RPL_CTL_EN

/-- What a replay needs of its ring is there: START is a MARK and no GAP lies before END (R523). -/
def replayReady (s : State) : Bool :=
  match s.replayRecs with
  | some es => es.all fun e => e.kind ≠ 2
  | none => false

/-- The replay that an ARM sets up; none where the ARM is none (R523). -/
def State.replaySetup (s : State) : Option Replay :=
  if !s.replayArmed then none
  else
    match s.replayRecs with
    | some (m :: es) =>
      let epoch := leAt m.content 0 8
      let mark := (Int.fdiv ((m.alm : Int) - epoch) (2 ^ tickK s : Nat) + 1).toNat
      some { recs := es.filter fun e => e.kind = 0, epoch := epoch, mark := mark,
             digs := (es.filter fun e => e.kind = 4 && mark ≤ e.word3).map fun e => (e.word3, leAt e.content 0 8),
             differs := none }
    | _ => none

/-! ## ARM and ABORT (R168, R170, R174) -/

/-- ALM_JOB_CTL.ARM is written (R168, R523); the recorder writes an ARM record (R521). -/
def State.arm (s : State) : Nat × State :=
  if s.mstate ≠ MState.banked || !s.jobIdle then (Code.rejState, s)
  else
    let s := s.recordEvent 3 (s.fld Reg.ALM_JOB F.ALM_JOB_JOB_ID * 2 ^ 32)
      (leBytes 8 (s.reg Reg.ALM_EPOCH).toNat ++ leBytes 8 (s.reg Reg.ALM_DIGEST).toNat)
    match firstCode [
        (s.fld Reg.ALM_EPOCH F.ALM_EPOCH_EPOCH % 2 ^ tickK s ≠ 0, Code.rejRange),
        (!handshakeReady s (hsFlue s), Code.rejRange),
        (s.replayArmed && !replayReady s, Code.rejRange),
        (!isLocked s, Code.refusedCalendar)] with
    | some code => (Code.done, s.jobFails code)
    | none =>
      (Code.done, { s.setFld Reg.ALM_JOB_STATUS F.ALM_JOB_STATUS_PHASE 1 with
        job := { s.job with armedAt := s.now, stopped := [], checks := [], result := none }, replay := s.replaySetup })

/-- ALM_JOB_CTL.ABORT is written (R170, R174). -/
def State.abortJob (s : State) : Nat × State :=
  if s.jobIdle then (Code.rejState, s)
  else (Code.done, (s.stopAll).setPhase 7 Code.failAborted)

/-- A write of ALM_JOB_CTL: ABORT is judged before ARM. -/
def State.writeJobCtl (s : State) (w : Word) : Nat × State :=
  let a := F.ALM_JOB_CTL_ABORT.on w
  let b := F.ALM_JOB_CTL_ARM.on w
  if a then
    match s.abortJob with
    | (0, s') => if b then (match s'.arm with | (0, s'') => (Code.done, s'') | (code, _) => (code, s)) else (Code.done, s')
    | (code, _) => (code, s)
  else if b then s.arm
  else (Code.done, s)

/-- ARM (R168). -/
def execArm (s : State) : Host.Outcome State Fault Refusal :=
  let r := s.writeJobCtl (F.ALM_JOB_CTL_ARM.only 1)
  .next (r.2.completed r.1 0)

/-- JOB_ABORT (R170, R174). -/
def execJobAbort (s : State) : Host.Outcome State Fault Refusal :=
  let r := s.writeJobCtl (F.ALM_JOB_CTL_ABORT.only 1)
  .next (r.2.completed r.1 0)

/-- EPOCH. -/
def State.epochAt (s : State) : Nat := s.fld Reg.ALM_EPOCH F.ALM_EPOCH_EPOCH

/-- ARM_VALIDATION_DONE: validation ends and PHASE becomes ARMED, or ABORTED with its code (R163, R168); a
shadow or a replay opens no handshake and is COMMITTED at once (R509, R523). -/
def execArmValidationDone (s : State) : Host.Outcome State Fault Refusal :=
  if s.phase ≠ 1 then .next s
  else
    let s := s.at (s.job.armedAt + validationTime s)
    match validation s with
    | some code => .next (s.jobFails code)
    | none =>
      if s.epochAt < s.alm + 100000 then .next (s.jobFails Code.refusedCalendar)
      else .next (s.setPhase (if s.shdMode = 2 || s.replay.isSome then 4 else 2) Code.done)

/-- The words of the handshake, then their complements (R169). -/
def handshakeWords (s : State) : List Nat :=
  let ws := [s.fld Reg.ALM_JOB F.ALM_JOB_JOB_ID * 2 ^ 32 + tickK s * 2 ^ 24, s.epochAt,
    (s.reg Reg.VIG_REPRO_ID).toNat, s.fld Reg.ALM_DIGEST F.ALM_DIGEST_DIGEST]
  ws ++ ws.map not64

/-- HANDSHAKE_OPEN: at EPOCH − 100 µs an armed module launches the handshake's reduction (R169, R487). -/
def execHandshakeOpen (s : State) : Host.Outcome State Fault Refusal :=
  if s.phase ≠ 2 then .next s
  else
    let s := (s.atAlm (s.epochAt - 100000)).setFld Reg.ALM_JOB_STATUS F.ALM_JOB_STATUS_PHASE 3
    let s := { s with job := { s.job with result := none } }
    let f := hsFlue s
    if handshakeReady s f && s.flueSt f = FSt.idle then .next (s.quickOpen f (some (handshakeWords s)))
    else .next s

/-- Every result word agrees with the complement of its partner (R169). -/
def handshakeAgrees (v : List Nat) : Bool := (List.range 4).all fun i => v.getD i 0 = not64 (v.getD (i + 4) 0)

/-- HANDSHAKE_RESULT: a result received by EPOCH − 10 µs commits the job or aborts it (R170). -/
def execHandshakeResult (s : State) : Host.Outcome State Fault Refusal :=
  match s.job.result with
  | some (t, v) =>
    if s.phase ≠ 3 || s.epochAt < t + 10000 then .next s
    else if handshakeAgrees v then .next (s.setFld Reg.ALM_JOB_STATUS F.ALM_JOB_STATUS_PHASE 4)
    else .next (s.jobFails Code.failMismatch)
  | none => .next s

/-- HANDSHAKE_TIMEOUT: no result by EPOCH − 10 µs (R170). -/
def execHandshakeTimeout (s : State) : Host.Outcome State Fault Refusal :=
  let inTime := match s.job.result with | some (t, _) => t + 10000 ≤ s.epochAt | none => false
  if s.phase ≠ 3 || inTime then .next s
  else .next ((s.atAlm (s.epochAt - 10000)).jobFails Code.failTimeout)

/-- The first entry of a die that launches: in a replay, the first whose LAUNCH is the mark tick or later (R523). -/
def firstEntry (s : State) (die : Nat) : Nat :=
  match s.replay with
  | some r => ((List.range (calLen s die)).find? fun i => r.mark ≤ (calEntry s die i).launch).getD (calLen s die)
  | none => 0

/-- JOB_START: at EPOCH a committed module enters LIT, or as a shadow or replay SHADOW, and tick 0 begins (R170, R509,
R523). -/
def execJobStart (s : State) : Host.Outcome State Fault Refusal :=
  if s.phase ≠ 4 || s.mstate ≠ MState.banked then .next s
  else
    let mode := s.shdMode
    let s := (s.atAlm s.epochAt).setMState (if mode = 2 || s.replay.isSome then MState.shadow else MState.lit)
    let s := if mode = 1 || mode = 2 then s.setShd Shd.mirroring else s
    let s := (List.range 64).foldl (fun s d =>
      (s.setReg (Reg.ALM_CAL_POS d) 0).setFld (Reg.ALM_CAL_POS d) F.ALM_CAL_POS_NEXT (firstEntry s d)) s
    .next { s.setFld Reg.ALM_JOB_STATUS F.ALM_JOB_STATUS_PHASE 5 with
      job := { s.job with stopped := [], checks := [] }, digs := [], peerDigs := [], shadow := Shadow.none }

/-- A die has launched its last entry and judged its last check. -/
def dieDone (s : State) (d : Nat) : Bool :=
  calLen s d ≤ s.fld (Reg.ALM_CAL_POS d) F.ALM_CAL_POS_NEXT && (AMap.get s.job.checks [] d).isEmpty

/-- JOB_END: every die has launched its last entry and judged its last check (R174). -/
def execJobEnd (s : State) : Host.Outcome State Fault Refusal :=
  if s.phase = 5 && (List.range 64).all (dieDone s) then .next (s.setPhase 6 Code.done) else .next s

end Sys2Proof.Machine
end

