-- ==== Sys2Proof/Machine/Shadow.lean ====
section
/-! DEFINITION. Shadowing: digests compared, takeover and relay, and replay (chapter 14). -/
namespace Sys2Proof.Machine

/-- The mirror port. -/
def State.mirrorPort (s : State) : Nat := s.fld Reg.VIG_SHD_CTL F.VIG_SHD_CTL_PORT

/-- A CTRL message of a type on a mirror port: the state after its header is honoured, and its content (R382, R513). -/
def State.hearMirror (s : State) (port mtype : Nat) (f : Frame) : Option (State × List Byte) :=
  if port = s.mirrorPort && s.shdMode ≠ 0 then s.hearCtrl port mtype f else none

/-! ## Mirroring (R510) -/

/-- MIRROR_HOLD_TIMEOUT: a copy has had no credit for VIG_SHD_HOLD, and the primary stops mirroring (R510). -/
def execMirrorHoldTimeout (s : State) : Host.Outcome State Fault Refusal :=
  match s.shadow.copies with
  | f :: _ =>
    if s.shdMode ≠ 1 || s.shdState ≠ Shd.mirroring then .next s
    else
      let s := s.at (f.since + s.fld Reg.VIG_SHD_HOLD F.VIG_SHD_HOLD_NS)
      let s := { s with shadow := { s.shadow with copies := [] } }
      let s := (s.setShd Shd.ended).setFld Reg.VIG_SHD_STATUS F.VIG_SHD_STATUS_CODE Code.failTimeout
      .next (s.sendCtrl s.mirrorPort (ctrlBody 5 [1]))
  | [] => .next s

/-- MIRROR_STOP: a received MIRROR_STOP ends shadowing with FAIL_TIMEOUT (R510, R513). -/
def execMirrorStop (port : Nat) (f : Frame) (s : State) : Host.Outcome State Fault Refusal :=
  onUnit (port < 1024) <|
    match s.hearMirror port 5 f with
    | some (s, m) => if leAt m 0 1 = 1 then s.endShadow Code.failTimeout s.tickNow else s
    | none => s.heardOnly port f

/-! ## Digests (R513, R516) -/

/-- DIGEST: a DIGEST message is compared with the shadow's own digest once that is final (R513, R516). -/
def execDigest (port : Nat) (f : Frame) (s : State) : Host.Outcome State Fault Refusal :=
  onUnit (port < 1024) <|
    match s.hearMirror port 3 f with
    | some (s, m) =>
      if !s.shadowing then s
      else if leAt m 20 1 = 1 then s.endShadow Code.failStateLost (leAt m 0 8)
      else
        { s with peerDigs := s.peerDigs ++ [(⟨leAt m 0 8, leAt m 8 8, leAt m 16 4, s.now⟩ : PeerDig)] }.sweepDigs
    | none => s.heardOnly port f

/-- DIGEST_TIMEOUT: 100 µs after one side's digest of a tick, the other's is missing: FAIL_TIMEOUT where the shadow's own
is not final, FAIL_STATE_LOST where the primary's has not come (R513, R516). -/
def execDigestTimeout (tick : Nat) (s : State) : Host.Outcome State Fault Refusal :=
  let s := s.sweepDigs
  if !s.shadowing then .next s
  else
    match s.peerDigs.find? fun p => p.tick = tick, s.digs.find? fun d => d.tick = tick && d.finalAt.isSome with
    | some p, none =>
      let s := (s.at (p.heard + 100000)).sweepDigs
      .next (if s.peerDigs.contains p then s.endShadow Code.failTimeout tick else s)
    | none, some d => .next ((s.at (d.finalAt.getD 0 + 100000)).endShadow Code.failStateLost tick)
    | _, _ => .next s

/-! ## Takeover (R514, R515) -/

/-- The takeover tick. -/
def State.takeTick (s : State) : Nat := s.fld Reg.VIG_SHD_TAKE F.VIG_SHD_TAKE_TICK

/-- The module is quiet (R514). -/
def quiet (s : State) (tick : Nat) : Bool :=
  s.flues.all (fun x => s.flueSt x.1 = FSt.idle || s.flueSt x.1 = FSt.empty) &&
  (List.range 256).all (fun a => s.fld (Reg.DMP_ADMIT_Q a) F.DMP_ADMIT_Q_CELLS = 0) &&
  (s.origin ++ s.flight).all (fun f => f.sendq.isNone) &&
  s.ports.all (fun x => x.2.outq.all (fun q => q.2.all fun f => f.sendq.isNone) && x.2.stream.all (fun f => f.1.sendq.isNone)) &&
  s.regions.all (fun x => x.2.out.isEmpty) &&
  (s.shdMode ≠ 2 || s.peerDigs.all fun p => tick ≤ p.tick)

/-- The module enters DAMPED (R542, R545). -/
def State.enterDamped (s : State) : State :=
  let s := (s.setMState MState.damped).stopAll
  if s.fld Reg.ALM_JOB_STATUS F.ALM_JOB_STATUS_PHASE = 5 then s.setPhase 7 Code.failAborted else s

/-- Packets that the module has originated and not sent are dropped. -/
def State.dropOrigin (s : State) : State := s.origin.foldl State.packetGone { s with origin := [] }

/-- Both verdicts are known: the roles swap, or stay as they were (R515). -/
def State.resolveTake (s : State) : State :=
  match s.shadow.own, s.shadow.peer, s.shadow.judged with
  | some a, some (_, b), some (_, alm) =>
    let s := { s with shadow := { s.shadow with own := none, peer := none } }
    if a && b then
      if s.shdMode = 1 then
        let split := s.isOn Reg.RTE_MODE F.RTE_MODE_SPLIT
        let till := if split then none else some (alm + s.fld Reg.RTE_DRAIN F.RTE_DRAIN_NS)
        { (s.setShd Shd.relaying).dropOrigin with shadow := { s.shadow with relayEnd := till } }
      else if s.mstate = MState.shadow then (s.setShd Shd.taken).setMState MState.lit
      else s
    else if s.shdMode = 2 then
      { (s.setShd Shd.mirroring).dropOrigin with shadow := { s.shadow with returning := true } }
    else s.setShd Shd.mirroring
  | _, _, _ => s

/-- TAKEOVER_JUDGE: at the boundary of the takeover tick the module judges whether it is quiet, holds its traffic and
sends a VERDICT (R514). -/
def execTakeoverJudge (s : State) : Host.Outcome State Fault Refusal :=
  let t := s.takeTick
  let done : Bool := match s.shadow.judged with | some (k, _) => k = t | none => false
  let may := (s.shdMode = 1 && s.mstate = MState.lit) || s.shadowing
  if !s.isOn Reg.VIG_SHD_TAKE F.VIG_SHD_TAKE_VALID || done || !may || s.shdState ≠ Shd.mirroring then .next s
  else
    let s := (s.atAlm (tickAt s t)).sweepDigs
    if s.shdState ≠ Shd.mirroring then .next s
    else
      let q := quiet s t
      let s := { s.setShd Shd.deciding with shadow := { s.shadow with judged := some (t, s.alm), own := some q } }
      let s := s.sendCtrl s.mirrorPort (ctrlBody 4 (leBytes 4 (if q then 1 else 0) ++ leBytes 8 t))
      let early := s.shadow.peer.any fun v => v.1 == t
      .next (if early then s.resolveTake else { s with shadow := { s.shadow with peer := none } })

/-- VERDICT: the other module's verdict arrives; with both known, the roles swap or stay (R514, R515). -/
def execVerdict (port : Nat) (f : Frame) (s : State) : Host.Outcome State Fault Refusal :=
  onUnit (port < 1024) <|
    match s.hearMirror port 4 f with
    | some (s, m) =>
      let t := leAt m 4 8
      if t ≠ s.takeTick then s
      else
        let s := { s with shadow := { s.shadow with peer := some (t, leAt m 0 1 = 1) } }
        if s.shdState = Shd.deciding then s.resolveTake else s
    | none => s.heardOnly port f

/-- VERDICT_TIMEOUT: a verdict that has not arrived in 2 µs counts as "not quiet" (R514). -/
def execVerdictTimeout (s : State) : Host.Outcome State Fault Refusal :=
  match s.shadow.judged with
  | some (t, alm) =>
    if s.shdState ≠ Shd.deciding then .next s
    else
      let s := s.atAlm (alm + 2000)
      .next { s with shadow := { s.shadow with peer := some (t, false) } }.resolveTake
  | none => .next s

/-- The primary stops relaying, enters DAMPED and sets MODE to 0 (R515). -/
def State.endRelay (s : State) : State :=
  let s := (s.setShd Shd.ended).setFld Reg.VIG_SHD_CTL F.VIG_SHD_CTL_MODE 0
  let s := s.shadow.copies.foldl State.packetGone s
  { s.enterDamped with shadow := Shadow.none }

/-- RELAY_END: under SPLIT = 0, RTE_DRAIN after the swap the primary stops relaying (R515). -/
def execRelayEnd (s : State) : Host.Outcome State Fault Refusal :=
  match s.shadow.relayEnd with
  | some a =>
    if s.shdMode = 1 && s.shdState = Shd.relaying && s.mstate = MState.lit then .next (s.atAlm a).endRelay else .next s
  | none => .next s

/-! ## Replay (R523, R524) -/

/-- A packet is rebuilt from a record's content. -/
def packetOfBytes (bs : List Byte) : Packet :=
  { w0 := BitVec.ofNat 64 (leAt bs 0 8), w1 := BitVec.ofNat 64 (leAt bs 8 8), payload := bs.drop 16 }

/-- REPLAY_INJECT: the next recorded packet is injected at its recorded port and offset from EPOCH (R523). -/
def execReplayInject (s : State) : Host.Outcome State Fault Refusal :=
  match s.replay with
  | some r =>
    match r.recs with
    | e :: rest =>
      if s.mstate ≠ MState.shadow then .next s
      else
        let s := { s with replay := some { r with recs := rest } }
        .next ((s.atAlm (s.epochAt + e.alm - r.epoch)).acceptMine e.port (packetOfBytes e.content))
    | [] => .next s
  | none => .next s

/-- REPLAY_END: the last record has been injected and every digest of the covered ticks is final (R524). -/
def execReplayEnd (s : State) : Host.Outcome State Fault Refusal :=
  let s := s.sweepDigs
  match s.replay with
  | some r =>
    let open_ := r.digs.filter fun g => toSigned 64 s.tickNow ≤ toSigned 64 g.1 || s.digs.any fun d => d.tick = g.1
    if s.mstate ≠ MState.shadow || !r.recs.isEmpty || !open_.isEmpty then .next s
    else
      let s := r.digs.foldl (fun s g => s.replayDig g.1 0) s
      let differs := (s.replay.map Replay.differs).getD none
      let a := Reg.VIG_RPL_STATUS
      let code := if differs.isSome then Code.failMismatch else Code.done
      let s := ((s.setFld a F.VIG_RPL_STATUS_CODE code).setFld a F.VIG_RPL_STATUS_DONE 1).setFld a
        F.VIG_RPL_STATUS_MISMATCH_TICK (differs.getD 0)
      let s := { s with replay := none }
      .next (match differs with | some _ => s.logAt AClass.shadow code s.leadSite 0x20 0 [] | none => s)
  | none => .next s

end Sys2Proof.Machine
end

