-- ==== Sys2Proof/Machine/Crypto.lean ====
section
/-! DEFINITION. SHA-256 and the verification of ECDSA P-256 signatures, as the standards the manual names define them
(R518, R556: FIPS 180-4, FIPS 186-5, SEC 1). -/
namespace Sys2Proof.Machine

/-! ## SHA-256 -/

/-- The round constants of SHA-256. -/
def shaConsts : List (BitVec 32) :=
  [0x428A2F98, 0x71374491, 0xB5C0FBCF, 0xE9B5DBA5, 0x3956C25B, 0x59F111F1, 0x923F82A4, 0xAB1C5ED5,
   0xD807AA98, 0x12835B01, 0x243185BE, 0x550C7DC3, 0x72BE5D74, 0x80DEB1FE, 0x9BDC06A7, 0xC19BF174] ++
  [0xE49B69C1, 0xEFBE4786, 0x0FC19DC6, 0x240CA1CC, 0x2DE92C6F, 0x4A7484AA, 0x5CB0A9DC, 0x76F988DA,
   0x983E5152, 0xA831C66D, 0xB00327C8, 0xBF597FC7, 0xC6E00BF3, 0xD5A79147, 0x06CA6351, 0x14292967] ++
  [0x27B70A85, 0x2E1B2138, 0x4D2C6DFC, 0x53380D13, 0x650A7354, 0x766A0ABB, 0x81C2C92E, 0x92722C85,
   0xA2BFE8A1, 0xA81A664B, 0xC24B8B70, 0xC76C51A3, 0xD192E819, 0xD6990624, 0xF40E3585, 0x106AA070] ++
  [0x19A4C116, 0x1E376C08, 0x2748774C, 0x34B0BCB5, 0x391C0CB3, 0x4ED8AA4A, 0x5B9CCA4F, 0x682E6FF3,
   0x748F82EE, 0x78A5636F, 0x84C87814, 0x8CC70208, 0x90BEFFFA, 0xA4506CEB, 0xBEF9A3F7, 0xC67178F2]

/-- The initial hash value of SHA-256. -/
def shaInit : List (BitVec 32) :=
  [0x6A09E667, 0xBB67AE85, 0x3C6EF372, 0xA54FF53A, 0x510E527F, 0x9B05688C, 0x1F83D9AB, 0x5BE0CD19]

/-- The big-endian number that bytes spell. -/
def beNat (bs : List Byte) : Nat := bs.foldl (fun n b => n * 256 + b.toNat) 0

/-- The `n` big-endian bytes of a number. -/
def beBytes (n x : Nat) : List Byte := (leBytes n x).reverse

/-- The working variables a to h. -/
structure Sha where
  a : BitVec 32
  b : BitVec 32
  c : BitVec 32
  d : BitVec 32
  e : BitVec 32
  f : BitVec 32
  g : BitVec 32
  h : BitVec 32
deriving DecidableEq, Repr

/-- The working variables of eight words. -/
def Sha.of (l : List (BitVec 32)) : Sha :=
  ⟨l.getD 0 0, l.getD 1 0, l.getD 2 0, l.getD 3 0, l.getD 4 0, l.getD 5 0, l.getD 6 0, l.getD 7 0⟩

/-- The eight words of the working variables. -/
def Sha.words (s : Sha) : List (BitVec 32) := [s.a, s.b, s.c, s.d, s.e, s.f, s.g, s.h]

/-- One round with its constant and schedule word. -/
def Sha.round (s : Sha) (k w : BitVec 32) : Sha :=
  let s1 := s.e.rotateRight 6 ^^^ s.e.rotateRight 11 ^^^ s.e.rotateRight 25
  let ch := (s.e &&& s.f) ^^^ (~~~s.e &&& s.g)
  let t1 := s.h + s1 + ch + k + w
  let s0 := s.a.rotateRight 2 ^^^ s.a.rotateRight 13 ^^^ s.a.rotateRight 22
  let maj := (s.a &&& s.b) ^^^ (s.a &&& s.c) ^^^ (s.b &&& s.c)
  { a := t1 + (s0 + maj), b := s.a, c := s.b, d := s.c, e := s.d + t1, f := s.e, g := s.f, h := s.g }

/-- The next schedule word from the last 16. -/
def shaNext (w : List (BitVec 32)) : BitVec 32 :=
  let x := w.getD 1 0
  let y := w.getD 14 0
  (y.rotateRight 17 ^^^ y.rotateRight 19 ^^^ (y >>> 10)) + w.getD 9 0 +
    (x.rotateRight 7 ^^^ x.rotateRight 18 ^^^ (x >>> 3)) + w.getD 0 0

/-- The rounds of a block: `w` holds the next 16 schedule words. -/
def shaRounds : List (BitVec 32) → List (BitVec 32) → Sha → Sha
  | [], _, s => s
  | k :: ks, w, s => shaRounds ks (w.drop 1 ++ [shaNext w]) (s.round k (w.getD 0 0))

/-- The hash value after one block of 64 bytes. -/
def shaBlock (h : List (BitVec 32)) (block : List Byte) : List (BitVec 32) :=
  let w := (List.range 16).map fun i => BitVec.ofNat 32 (beNat (slice block (4 * i) 4))
  List.zipWith (· + ·) h (shaRounds shaConsts w (Sha.of h)).words

/-- The hash value after `n` blocks. -/
def shaBlocks : Nat → List Byte → List (BitVec 32) → List (BitVec 32)
  | 0, _, h => h
  | n + 1, bs, h => shaBlocks n (bs.drop 64) (shaBlock h (bs.take 64))

/-- A message padded to whole blocks. -/
def shaPad (bs : List Byte) : List Byte :=
  bs ++ [0x80] ++ List.replicate ((119 - bs.length % 64) % 64) 0 ++ beBytes 8 (8 * bs.length)

/-- The SHA-256 digest of a byte string. -/
def sha256 (bs : List Byte) : List Byte :=
  let m := shaPad bs
  (shaBlocks (m.length / 64) m shaInit).flatMap fun w => beBytes 4 w.toNat

/-! ## ECDSA over P-256 -/

namespace P256
def p : Nat := 0xFFFFFFFF00000001000000000000000000000000FFFFFFFFFFFFFFFFFFFFFFFF
def n : Nat := 0xFFFFFFFF00000000FFFFFFFFFFFFFFFFBCE6FAADA7179E84F3B9CAC2FC632551
def b : Nat := 0x5AC635D8AA3A93E7B3EBBD55769886BC651D06B0CC53B0F63BCE3C3E27D2604B
def gx : Nat := 0x6B17D1F2E12C4247F8BCE6E563A440F277037D812DEB33A0F4A13945D898C296
def gy : Nat := 0x4FE342E2FE1A7F9B8EE7EB4A7C0F9E162BCE33576B315ECECBB6406837BF51F5
end P256

/-- A point in Jacobian coordinates; z = 0 is the point at infinity. -/
structure JPoint where
  x : Nat
  y : Nat
  z : Nat
deriving DecidableEq, Repr

/-- Difference modulo p. -/
def subP (a b : Nat) : Nat := (a + (P256.p - b % P256.p)) % P256.p

/-- A point doubled. -/
def JPoint.dbl (q : JPoint) : JPoint :=
  if q.z = 0 then q
  else
    let m := P256.p
    let delta := q.z * q.z % m
    let gamma := q.y * q.y % m
    let beta := q.x * gamma % m
    let alpha := 3 * subP q.x delta * (q.x + delta) % m
    let x3 := subP (alpha * alpha) (8 * beta)
    let z3 := 2 * q.y * q.z % m
    { x := x3, y := subP (alpha * subP (4 * beta) x3) (8 * gamma * gamma), z := z3 }

/-- Two points added. -/
def JPoint.add (q r : JPoint) : JPoint :=
  if q.z = 0 then r
  else if r.z = 0 then q
  else
    let m := P256.p
    let z1 := q.z * q.z % m
    let z2 := r.z * r.z % m
    let u1 := q.x * z2 % m
    let u2 := r.x * z1 % m
    let s1 := q.y * r.z * z2 % m
    let s2 := r.y * q.z * z1 % m
    if u1 = u2 then (if s1 = s2 then q.dbl else { x := 1, y := 1, z := 0 })
    else
      let h := subP u2 u1
      let r := { r with x := subP s2 s1, z := q.z * r.z * h % m : JPoint }
      let h2 := h * h % m
      let h3 := h * h2 % m
      let v := u1 * h2 % m
      let x3 := subP (r.x * r.x) (h3 + 2 * v)
      { x := x3, y := subP (r.x * subP v x3) (s1 * h3), z := r.z }

/-- A point times a scalar below 2^256, from the top bit down. -/
def JPoint.mulBits (q : JPoint) (k : Nat) : Nat → JPoint
  | 0 => { x := 1, y := 1, z := 0 }
  | i + 1 =>
    let r := (q.mulBits (k / 2) i).dbl
    if k % 2 = 1 then r.add q else r

/-- Power modulo `m` for exponents below 2^i. -/
def powMod (m b e : Nat) : Nat → Nat
  | 0 => 1
  | i + 1 =>
    let r := powMod m b (e / 2) i
    let r := r * r % m
    if e % 2 = 1 then r * b % m else r

/-- Inverse modulo a prime. -/
def invMod (m a : Nat) : Nat := powMod m a (m - 2) 256

/-- A public key, x then y, is a point of the curve. -/
def keyValid (key : List Byte) : Bool :=
  let x := beNat (slice key 0 32)
  let y := beNat (slice key 32 32)
  x < P256.p && y < P256.p && (y * y) % P256.p = subP (x * x * x + P256.b) (3 * x)

/-- An ECDSA signature (r, s) of a digest verifies under a public key. -/
def ecdsaVerify (key digest r s : List Byte) : Bool :=
  let rn := beNat r
  let sn := beNat s
  if rn = 0 || P256.n ≤ rn || sn = 0 || P256.n ≤ sn || !keyValid key then false
  else
    let w := invMod P256.n sn
    let u1 := beNat digest * w % P256.n
    let u2 := rn * w % P256.n
    let g : JPoint := { x := P256.gx, y := P256.gy, z := 1 }
    let q : JPoint := { x := beNat (slice key 0 32), y := beNat (slice key 32 32), z := 1 }
    let t := (g.mulBits u1 256).add (q.mulBits u2 256)
    if t.z = 0 then false
    else
      let zi := invMod P256.p t.z
      t.x * (zi * zi % P256.p) % P256.p % P256.n = rn

end Sys2Proof.Machine
end

