-- ==== Sys2Proof/Machine/Save.lean ====
section
/-! DEFINITION. Saving and restoring a context's sync state (R141 to R145). -/
namespace Sys2Proof.Machine

/-- An engine of a region core that runs a context is not HALTED (R142). -/
def contextBusy (s : State) (r : RegionId) (ctx : Nat) : Bool :=
  s.cores.any fun (k, x) =>
    k / 128 = regionKey r && k % 128 < 64 && s.fld (Reg.HTH_CTX ⟨r.die, r.region, k % 128⟩) F.HTH_CTX_CONTEXT = ctx &&
      x.engs.any fun (_, g) => g.st ≠ .halted

/-- A write of SYN_SAVE_CTL (R141, R142). -/
def State.writeSaveCtl (s : State) (r : RegionId) (w : Word) : Nat × State :=
  let a := Reg.SYN_SAVE_CTL r
  let op := F.SYN_SAVE_CTL_OP.get w
  let ctx := F.SYN_SAVE_CTL_CONTEXT.get w
  let loc := s.reg (Reg.SYN_SAVE_LOC r)
  let l := loc.toNat
  let placed := match placeOf s ⟨r.die, r.region, 0⟩ l with
    | .ok (.scratch _ _) => true
    | .ok (.fabric _) => true
    | _ => false
  if op = 0 then (Code.done, s)
  else
    match firstCode [
        (op = 3, Code.rejFormat),
        (!placed || l % 64 ≠ 0, Code.rejRange),
        (s.isOn a F.SYN_SAVE_CTL_BUSY, Code.rejState),
        (!s.isOn (Reg.SYN_CTXMAP r ctx) F.SYN_CTXMAP_VALID, Code.rejState),
        (contextBusy s r ctx, Code.rejState)] with
    | some code => (code, s)
    | none =>
      let g := s.region r
      let j : SaveJob := { op := op, ctx := ctx, free := F.SYN_SAVE_CTL_FREE.on w, loc := loc, endAt := s.now, code := 0 }
      (Code.done, (s.setRegion r { g with save := some j }).setFld a F.SYN_SAVE_CTL_BUSY 1)

/-- SYNC_SAVE: a write of SYN_SAVE_CTL with OP 1; `data` gives FREE and the context (R141). -/
def execSyncSave (r : RegionId) (data : Word) (s : State) : Host.Outcome State Fault Refusal :=
  onUnit r.ok <|
    let x := s.writeSaveCtl r (F.SYN_SAVE_CTL_OP.put data 1)
    x.2.completed x.1 0

/-- SYNC_RESTORE: a write of SYN_SAVE_CTL with OP 2 (R141). -/
def execSyncRestore (r : RegionId) (data : Word) (s : State) : Host.Outcome State Fault Refusal :=
  onUnit r.ok <|
    let x := s.writeSaveCtl r (F.SYN_SAVE_CTL_OP.put data 2)
    x.2.completed x.1 0

/-- The objects of a context's window: position, the object a valid entry of scope 0 names, and the entry's TAG. -/
def windowObjs (s : State) (r : RegionId) (ctx : Nat) : List (Nat × Nat × Nat) :=
  let m := s.reg (Reg.SYN_CTXMAP r ctx)
  (List.range (F.SYN_CTXMAP_COUNT.get m)).filterMap fun i =>
    let x := s.reg (Reg.SYN_XLAT r (F.SYN_CTXMAP_TBASE.get m + i))
    if F.SYN_XLAT_VALID.on x && F.SYN_XLAT_SCOPE.get x = 0 then
      some (i, F.SYN_XLAT_OBJECT.get x, F.SYN_XLAT_TAG.get x)
    else none

/-- A tracked barrier word's tracking entry. -/
def trackOf (w : Word) : Option Nat :=
  if kindOf w = 3 && F.SYN_OBJ_BARRIER_TRACK.on w then some (F.SYN_OBJ_BARRIER_TIDX.get w) else none

/-- The tracking entries of a list of object words, ascending. -/
def tracksOf (ws : List Word) : List Nat := (List.range 64).filter fun t => ws.any fun w => trackOf w = some t

/-- A tracking entry's three masks as 192 bytes (R143). -/
def maskBytes (s : State) (r : RegionId) (t : Nat) : List Byte :=
  ((List.range 8).map fun w => leBytes 8 (s.reg (Reg.SYN_TRACK_MEMBER r t w)).toNat).flatten ++
  ((List.range 8).map fun w => leBytes 8 (s.reg (Reg.SYN_TRACK_CUR r t w)).toNat).flatten ++
  ((List.range 8).map fun w => leBytes 8 (s.reg (Reg.SYN_TRACK_NEXT r t w)).toNat).flatten

/-- A tracking entry's masks set from 192 bytes. -/
def State.setMasks (s : State) (r : RegionId) (t : Nat) (bs : List Byte) : State :=
  (List.range 8).foldl (fun s w =>
    let word (off : Nat) : Word := BitVec.ofNat 64 (leAt bs (off + 8 * w) 8)
    ((s.setReg (Reg.SYN_TRACK_MEMBER r t w) (word 0)).setReg (Reg.SYN_TRACK_CUR r t w) (word 64)).setReg
      (Reg.SYN_TRACK_NEXT r t w) (word 128)) s

/-- The saved image of a context (R143). -/
def saveImage (s : State) (r : RegionId) (ctx : Nat) : List Byte :=
  let m := s.reg (Reg.SYN_CTXMAP r ctx)
  let n := F.SYN_CTXMAP_COUNT.get m
  let objs := windowObjs s r ctx
  let ws := (List.range n).map fun i =>
    match objs.find? (fun o => o.1 = i) with
    | some (_, o, _) => s.reg (Reg.SYN_OBJ r o)
    | none => 0
  let ts := tracksOf ws
  leBytes 8 (F.SYN_CTXMAP_VBASE.get m * 2 ^ 48 + ts.length * 2 ^ 12 + n) ++ (ws.map fun w => leBytes 8 w.toNat).flatten ++
    (ts.map (maskBytes s r)).flatten

/-- A sync word of a context's window shows an uncorrectable error. -/
def windowFails (s : State) (r : RegionId) (ctx : Nat) : Bool :=
  (windowObjs s r ctx).any fun o => s.mark .sync (regionKey r * 4096 + o.2.1) = 2

/-- A save's objects and tracking entries are freed (R143, R609). -/
def State.freeSaved (s : State) (r : RegionId) (ctx : Nat) : State :=
  let objs := windowObjs s r ctx
  let ts := tracksOf (objs.map fun o => s.reg (Reg.SYN_OBJ r o.2.1))
  let s := objs.foldl (fun s o =>
    let w := s.reg (Reg.SYN_OBJ r o.2.1)
    s.setReg (Reg.SYN_OBJ r o.2.1) (BitVec.ofNat 64 (bits w.toNat 61 57 * 2 ^ 57))) s
  ts.foldl (fun s t => s.setMasks r t []) s

/-- A place can take `n` bytes. -/
def holds (s : State) (p : Place) (n : Nat) : Bool := p.addr + n ≤ p.limit s

/-- A save takes place: its completion code (R143, R145). -/
def State.saveCtx (s : State) (r : RegionId) (j : SaveJob) (p : Place) : Nat × State :=
  let image := saveImage s r j.ctx
  if !holds s p image.length then (Code.rejRange, s)
  else if windowFails s r j.ctx then
    let (bs, s) := s.freeBytes image.length
    (Code.failMemory, (s.placeWrite r.die p bs).2)
  else
    let (code, s) := s.placeWrite r.die p image
    if Code.family code = 3 then
      let (bs, s) := s.freeBytes image.length
      (code, (s.placeWrite r.die p bs).2)
    else (code, if j.free then s.freeSaved r j.ctx else s)

/-- The objects of a failed restore hold unspecified bits (R145). -/
def State.spoilObjs (s : State) (r : RegionId) (ctx : Nat) : State :=
  (windowObjs s r ctx).foldl (fun s o =>
    let (w, s) := s.freeWord
    s.setReg (Reg.SYN_OBJ r o.2.1) (cleanObj w)) s

/-- A restore takes place: its completion code (R144, R145). -/
def State.restoreCtx (s : State) (r : RegionId) (j : SaveJob) (p : Place) : Nat × State :=
  let m := s.reg (Reg.SYN_CTXMAP r j.ctx)
  let n := F.SYN_CTXMAP_COUNT.get m
  if !holds s p 8 then (Code.rejRange, s)
  else
    let (h, s) := s.placeRead r.die p 8
    let hw := leAt h.2 0 8
    let len := 8 + 8 * n + 192 * bits hw 18 12
    if h.1 = Code.failMemory then (h.1, s.spoilObjs r j.ctx)
    else if bits hw 63 48 ≠ F.SYN_CTXMAP_VBASE.get m || bits hw 11 0 ≠ n then (Code.rejFormat, s)
    else if !holds s p len then (Code.rejRange, s)
    else
      let (d, s) := s.placeRead r.die p len
      if d.1 = Code.failMemory then (d.1, s.spoilObjs r j.ctx)
      else
        let words : List Word := (List.range n).map fun i => BitVec.ofNat 64 (leAt d.2 (8 + 8 * i) 8)
        let ts := (tracksOf words).take (bits hw 18 12)
        let used (t : Nat) : Bool := (List.range 8).any fun w => s.reg (Reg.SYN_TRACK_MEMBER r t w) ≠ 0
        if ts.any used then (Code.rejState, s)
        else
          let s := (windowObjs s r j.ctx).foldl (fun s o =>
            let w := words.getD o.1 0
            if w = 0 then s
            else (s.setReg (Reg.SYN_OBJ r o.2.1) (cleanObj (F.SYN_OBJ_FLAG_TAG.put w o.2.2))).setMark .sync
              (regionKey r * 4096 + o.2.1) 0) s
          let s := ts.zipIdx.foldl (fun s (t, i) => s.setMasks r t (slice d.2 (8 + 8 * n + 192 * i) 192)) s
          (d.1, s)

/-- SYNC_SAVE_FINISH: a save or restore ends, BUSY clears and STATUS holds its code (R145). -/
def execSyncSaveFinish (r : RegionId) (s : State) : Host.Outcome State Fault Refusal :=
  onUnit r.ok <|
    let g := s.region r
    match g.save with
    | none => s
    | some j =>
      let s := s.setRegion r { g with save := none }
      let (code, s) := match placeOf s ⟨r.die, r.region, 0⟩ j.loc.toNat with
        | .ok p => if j.op = 1 then s.saveCtx r j p else s.restoreCtx r j p
        | .error code => (code, s)
      let a := Reg.SYN_SAVE_CTL r
      (s.setFld a F.SYN_SAVE_CTL_BUSY 0).setFld a F.SYN_SAVE_CTL_STATUS code

end Sys2Proof.Machine
end

