-- ==== Sys2Proof/Machine/Spare.lean ====
section
/-! DEFINITION. The watchdog, spare cores, on-module link lanes and health scoring (chapter 14). -/
namespace Sys2Proof.Machine

/-! ## Watchdog (R496) -/

/-- A stall is declared: flagged, logged with its site and unit, and the recorder freezes (R496, R522). -/
def State.stall (s : State) (site unit : Nat) : State :=
  ((s.relFlag F.VIG_REL_STATUS_STALL_SEEN).logAt AClass.stall 0 site 0 unit [site, unit]).freezeRec

/-- HEARTBEAT: a site's heartbeat with the units it names as STUCK; one named twice in a row is a stall (R496). -/
def execHeartbeat (site : Nat) (stuck : List Nat) (s : State) : Host.Outcome State Fault Refusal :=
  onUnit (siteOk site) <|
    let before := AMap.get s.stuck [] site
    let s := { s with beats := AMap.set s.beats 0 site s.now, stuck := AMap.set s.stuck [] site stuck }
    (stuck.eraseDups.filter fun u => before.contains u).foldl (fun s u => s.stall site u) s

/-- HEARTBEAT_TIMEOUT: a site's heartbeat has been missing for 100 µs (R496). -/
def execHeartbeatTimeout (site : Nat) (s : State) : Host.Outcome State Fault Refusal :=
  onUnit (siteOk site) ((s.at (AMap.get s.beats 0 site + 100000)).stall site 0xFF)

/-! ## Spare cores (R500 to R504) -/

/-- SEQ_STATUS of an engine (R105). -/
def Engine.status (g : Engine) : Word :=
  wordOf [(F.SEQ_STATUS_QDEPTH, g.queued), (F.SEQ_STATUS_FAULT_PC, g.faultPc), (F.SEQ_STATUS_LAST_FAULT, g.lastFault),
    (F.SEQ_STATUS_STATE, g.st.code), (F.SEQ_STATUS_PC, g.pc)]

/-- State of a spare slot: 0 FREE, 1 IN_USE, 2 FAILED; and the logical core it serves (R525). -/
def slotState (s : State) (die region slot : Nat) : Nat :=
  s.fld (Reg.HTH_SPARE_MAP die region) (if slot = 0 then F.HTH_SPARE_MAP_STATE0 else F.HTH_SPARE_MAP_STATE1)
def slotCore (s : State) (die region slot : Nat) : Nat :=
  s.fld (Reg.HTH_SPARE_MAP die region) (if slot = 0 then F.HTH_SPARE_MAP_CORE0 else F.HTH_SPARE_MAP_CORE1)

/-- A spare slot's state and core set. -/
def State.setSlot (s : State) (die region slot st core : Nat) : State :=
  let a := Reg.HTH_SPARE_MAP die region
  if slot = 0 then (s.setFld a F.HTH_SPARE_MAP_STATE0 st).setFld a F.HTH_SPARE_MAP_CORE0 core
  else (s.setFld a F.HTH_SPARE_MAP_STATE1 st).setFld a F.HTH_SPARE_MAP_CORE1 core

/-- The lowest-numbered FREE slot of a region. -/
def freeSpare (s : State) (die region : Nat) : Option Nat :=
  [0, 1].find? fun k => slotState s die region k = 0

/-- Every engine of a core is HALTED or FAULTED. -/
def coreResting (s : State) (c : CoreId) : Bool :=
  (s.core c).engs.all fun (_, g) => g.st = .halted || g.st = .faulted

/-- The first row of R501 that refuses a substitution. -/
def subRefused (s : State) (die region core : Nat) : Option Nat :=
  let m := s.mstate
  firstCode [
    (s.isOn (Reg.HTH_SPARE_CMD die) F.HTH_SPARE_CMD_BUSY ||
      !(m = MState.banked || m = MState.damped || m = MState.lit) || !coreResting s ⟨die, region, core⟩, Code.rejState),
    (79 < region, Code.rejRange),
    ((freeSpare s die region).isNone, Code.rejState)]

/-- A substitution starts, or is refused in STATUS (R501, R502). -/
def State.startSub (s : State) (die region core : Nat) (nocopy : Bool) : State :=
  let a := Reg.HTH_SPARE_CMD die
  match subRefused s die region core, freeSpare s die region with
  | none, some k =>
    { s.setFld a F.HTH_SPARE_CMD_BUSY 1 with
      subst := AMap.set s.subst none die (some ⟨region, core, k, nocopy, s.now⟩) }
  | some code, _ => s.setFld a F.HTH_SPARE_CMD_STATUS code
  | none, none => s

/-- A write of HTH_SPARE_CMD (R501). -/
def State.writeSpareCmd (s : State) (die : Nat) (w : Word) : Nat × State :=
  if F.HTH_SPARE_CMD_GO.on w then
    (Code.done, s.startSub die (F.HTH_SPARE_CMD_REGION.get w) (F.HTH_SPARE_CMD_CORE.get w) (F.HTH_SPARE_CMD_NOCOPY.on w))
  else (Code.done, s)

/-- SPARE_SUBSTITUTE: a write of HTH_SPARE_CMD (R501). -/
def execSpareSubstitute (die : Nat) (data : Word) (s : State) : Host.Outcome State Fault Refusal :=
  onUnit (die < 64) <| let r := s.writeSpareCmd die data; r.2.completed r.1 0

/-- AUTO_SUBSTITUTE: with AUTO, a marked core whose engines rest is substituted (R501). -/
def execAutoSubstitute (c : CoreId) (s : State) : Host.Outcome State Fault Refusal :=
  onUnit c.ok <|
    if s.isOn (Reg.HTH_SPARE_CTL c.die) F.HTH_SPARE_CTL_AUTO &&
        bitAt (s.reg (Reg.HTH_SPARE_MARK c.die c.region)).toNat c.core && (subRefused s c.die c.region c.core).isNone then
      s.startSub c.die c.region c.core false
    else s

/-- What a substitution loses when nothing is copied: hearth and banks hold unspecified bits, registers their reset
values, and the engines are HALTED (R503). -/
def State.loseCore (s : State) (c : CoreId) : State :=
  let lo := ((c.die * 256 + c.region) * 256 + c.core) * 2 ^ 16
  let s := { s with regs := s.regs.filter fun r => r.1 < lo || lo + 2 ^ 15 ≤ r.1 }
  let s := s.setCore c Core.idle
  let (bs, s) := s.freeBytes 0x20000
  let s := s.hwrite c 0 bs
  let (b0, s) := s.freeBytes 0x3000
  let (b1, s) := s.freeBytes 0x3000
  (s.iwrite c 0 0 b0).iwrite c 1 0 b1

/-- What a substitution changes when all is copied: tiles and lanes hold nothing, and the errors seen of the old core are
forgotten (R502). -/
def State.moveCore (s : State) (c : CoreId) : State :=
  s.setCore c { s.core c with lanes := Lanes.none, tiles := [], residueFails := [], badFetches := [] }

/-- Packets held for a core wait from now on as long as before the substitution (R502). -/
def State.resumeHeld (s : State) (c : CoreId) (since : Nat) : State :=
  { s with flight := s.flight.map fun f =>
      if f.held.isSome && h0 f.pkt P.ptype = 0 && h1 f.pkt P.die = c.die && h1 f.pkt P.region = c.region &&
          h1 f.pkt P.core = c.core then { f with held := f.held.map (· + (s.now - since)) } else f }

/-- SUBSTITUTION_DONE: the spare takes the logical number and the old core becomes FAILED (R502 to R504). -/
def execSubstitutionDone (die : Nat) (s : State) : Host.Outcome State Fault Refusal :=
  onUnit (die < 64) <|
    match s.subJob die with
    | none => s
    | some j =>
      let c : CoreId := ⟨die, j.region, j.core⟩
      let word (e : Cls) : Nat := ((s.catchUp c).eng c e).status.toNat
      let details := [j.slot * 2 ^ 13 + j.region * 2 ^ 6 + j.core, word .reduce, word .move, word .tally]
      let code := if j.nocopy then Code.failStateLost else Code.done
      let s := if j.nocopy then s.loseCore c else s.moveCore c
      let old := [0, 1].filter fun k => slotState s die j.region k = 1 && slotCore s die j.region k = j.core
      let s := old.foldl (fun s k => s.setSlot die j.region k 2 j.core) s
      let s := s.setSlot die j.region j.slot 1 j.core
      let m := Reg.HTH_SPARE_MARK die j.region
      let s := s.setReg m (s.reg m &&& ~~~(BitVec.ofNat 64 (2 ^ j.core)))
      let a := Reg.HTH_SPARE_CMD die
      let s := (s.setFld a F.HTH_SPARE_CMD_BUSY 0).setFld a F.HTH_SPARE_CMD_STATUS code
      let s := ({ s with subst := AMap.set s.subst none die none }.resumeHeld c j.since).count (Reg.HTH_SUBSTITUTIONS die)
        F.HTH_SUBSTITUTIONS_COUNT 1
      ((s.lifeAdd 13 1).healthAdd 7 1).logAt AClass.info code die j.region j.core details

/-! ## On-module link lanes (R505) -/

/-- The die a mesh link leads to (R21): north, east, south, west. -/
def meshPeer (die side : Nat) : Nat :=
  match side with
  | 0 => die - 8
  | 1 => die + 1
  | 2 => die + 8
  | _ => die - 1

/-- The link registers of an on-module link, at each of its ends that has one: link, retrains, and the site logged. -/
def linkRegs : OnLink → List (Nat × Nat × Nat)
  | .mesh d n =>
    [(Reg.RTE_MESH_LINK d n, Reg.RTE_MESH_RETRAINS d n, d),
     (Reg.RTE_MESH_LINK (meshPeer d n) ((n + 2) % 4), Reg.RTE_MESH_RETRAINS (meshPeer d n) ((n + 2) % 4), meshPeer d n)]
  | .attach i a => [(Reg.RTE_IOD_ATTACH i a, Reg.RTE_IOD_RETRAINS i a, 0x40 + i)]

/-- Groups of an on-module link (R505). -/
def linkGroups : OnLink → Nat
  | .mesh _ _ => 16
  | .attach _ _ => 8

/-- STATE and SPARES_USED of a link after training with failing lanes (R338, R505). -/
def trainedLink (groups : Nat) (failing : List Nat) : Word :=
  wordOf [(F.RTE_MESH_LINK_SPARES_USED, sparesUsed failing 64 groups),
    (F.RTE_MESH_LINK_STATE, if linkLost failing 64 groups then 2 else 1)]

/-- Spare lanes of mesh links and attachments in use (R590): each mesh link is counted at its northern or western end. -/
def spareLanes (s : State) : Nat :=
  sumNat ((List.range 64).map fun d => sumNat ([1, 2].map fun n => s.fld (Reg.RTE_MESH_LINK d n)
    F.RTE_MESH_LINK_SPARES_USED)) +
  sumNat ((List.range 16).map fun i => sumNat ([0, 1].map fun a => s.fld (Reg.RTE_IOD_ATTACH i a)
    F.RTE_MESH_LINK_SPARES_USED))

/-- A link is trained. -/
def State.trainLink (s : State) (l : OnLink) (failing : List Nat) : State :=
  let w := trainedLink (linkGroups l) failing
  let s := (linkRegs l).foldl (fun s r => s.setReg r.1 w) s
  let s := { s with life := AMap.set s.life 0 14 (spareLanes s) }
  if linkLost failing 64 (linkGroups l) then
    (linkRegs l).foldl (fun s r => s.logAt AClass.onmod 0 r.2.2 (if r.2.2 < 0x40 then 0xF1 else 0x10) 0 []) s
  else s

/-- ONMOD_LINK_RETRAIN: a mesh link or attachment retrains; one that is FAILED stays so (R505). -/
def execOnmodLinkRetrain (l : OnLink) (failing : List Nat) (s : State) : Host.Outcome State Fault Refusal :=
  onUnit l.ok <|
    if (linkRegs l).any fun r => s.fld r.1 F.RTE_MESH_LINK_STATE = 2 then s
    else
      let s := (linkRegs l).foldl (fun s r => s.count r.2.1 F.RTE_MESH_RETRAINS_COUNT 1) s
      let s := (s.lifeAdd 12 1).healthAdd 4 1
      let s := match linkRegs l with
        | r :: _ => s.logAt AClass.onmod 0 r.2.2 (if r.2.2 < 0x40 then 0xF1 else 0x10) 0 []
        | [] => s
      s.trainLink l failing

/-! ## Health scoring (R506 to R508) -/

/-- Weight `i`. -/
def healthWeight (s : State) (i : Nat) : Nat := bits (s.reg Reg.VIG_HEALTH_W).toNat (8 * i + 7) (8 * i)

/-- The score after an update (R506). -/
def nextScore (s : State) : Nat :=
  let score := s.fld Reg.VIG_HEALTH F.VIG_HEALTH_SCORE
  let decay := s.fld Reg.VIG_HEALTH_CTL F.VIG_HEALTH_CTL_DECAY
  let add := sumNat ((List.range 8).map fun i => healthWeight s i * Nat.min (AMap.get s.health 0 i) 65535)
  Nat.min (score - score / 2 ^ decay + add) (2 ^ 32 - 1)

/-- LEVEL for a score, from the present level (R507). -/
def nextLevel (score warn suspect level : Nat) : Nat :=
  let rises := if suspect ≤ score then 2 else if warn ≤ score then 1 else 0
  let keeps (k : Nat) : Bool := if k = 2 then 3 * suspect ≤ 4 * score else if k = 1 then 3 * warn ≤ 4 * score else true
  if level < rises then rises
  else if keeps level then level
  else if level = 2 && keeps 1 then 1 else 0

/-- The late table's entries decay (R508). -/
def State.decayLate (s : State) : State :=
  let decay := s.fld Reg.VIG_HEALTH_CTL F.VIG_HEALTH_CTL_DECAY
  let thr := s.fld Reg.VIG_LATE_CFG F.VIG_LATE_CFG_LATE_THR
  { s with late := s.late.filterMap fun (id, l, logged) =>
      let l := l - l / 2 ^ decay
      let logged := logged && thr ≤ 2 * l
      if l = 0 && !logged then none else some (id, l, logged) }

/-- HEALTH_UPDATE: at the next Almanac multiple of 2^HK the score and the late table are updated (R506 to R508). -/
def execHealthUpdate (s : State) : Host.Outcome State Fault Refusal :=
  let ctl := s.reg Reg.VIG_HEALTH_CTL
  if F.VIG_HEALTH_CTL_MODE.get ctl % 2 = 0 then .next s
  else
    let due := nextMultiple (2 ^ F.VIG_HEALTH_CTL_HK.get ctl) (Nat.max s.healthNext s.alm)
    let s := s.atAlm due
    let s := { s.decayLate with healthNext := due + 1 }
    let score := nextScore s
    let level := s.fld Reg.VIG_HEALTH F.VIG_HEALTH_LEVEL
    let thr := s.reg Reg.VIG_HEALTH_THR
    let new := nextLevel score (F.VIG_HEALTH_THR_WARN.get thr) (F.VIG_HEALTH_THR_SUSPECT.get thr) level
    let s := { (s.setFld Reg.VIG_HEALTH F.VIG_HEALTH_SCORE score).setFld Reg.VIG_HEALTH F.VIG_HEALTH_LEVEL new with
               health := [] }
    .next (if level < new then
        (s.relFlag (if new = 2 then F.VIG_REL_STATUS_HEALTH_SUSPECT_SEEN else F.VIG_REL_STATUS_HEALTH_WARN_SEEN)).logAt
          AClass.health 0 s.leadSite 0x20 0 [score]
      else s)

end Sys2Proof.Machine
end

