-- ==== Sys2Proof/Machine/Tensor.lean ====
section
/-! DEFINITION. The Tensor engine: tiles, multiply-accumulate chunks, tile reads, ready cycles and hazards
(chapter 07). -/
namespace Sys2Proof.Machine

/-! ## Tiles (R243, R244) -/

/-- A tile of a core. -/
def State.tile (s : State) (c : CoreId) (i : Nat) : Tile := AMap.get (s.core c).tiles Tile.none i

/-- A tile of a core set. -/
def State.setTile (s : State) (c : CoreId) (i : Nat) (v : Tile) : State :=
  s.setCore c { s.core c with tiles := AMap.set (s.core c).tiles Tile.none i v }

/-- The FMT whose codes a tile KIND's elements are. -/
def tileFmt (kind : Nat) : Nat := if kind = 0 then 0x00 else if kind = 1 then 0x03 else 0x05

/-- The cell number of row `i`, column `j`. -/
def cellOf (i j : Nat) : Nat := i * 64 + j

/-- An operation that names a tile before its ready cycle completes with FAIL_HAZARD (R259). -/
def hazard (x : Ctx) (s : State) (tile : Nat) (k : Res) : Res :=
  let r := (s.tile x.c tile).ready
  if x.t < r then
    let a := Reg.TEN_HAZARD_LAST x.c
    let s := (s.setFld a F.TEN_HAZARD_LAST_TILE tile).setFld a F.TEN_HAZARD_LAST_SHORT (Nat.min (r - x.t) 0xFFFF)
    let s := (s.flag (Reg.TEN_STATUS x.c) F.TEN_STATUS_HAZARD_SEEN).count (Reg.TEN_HAZARD_EVENTS x.c)
      F.TEN_HAZARD_EVENTS_COUNT 1
    .fail Code.failHazard s
  else k

/-- TILE of a Tensor word (R245). -/
def tileOf (w : Nat) : Nat := I.imm w % 4

/-- The cycle by which `n` engine cycles of the instruction's engine have passed (R258, R583). -/
def afterTensor (x : Ctx) (s : State) (n : Nat) : Nat := afterCycles (holdOf s x.c .tensor) x.t n

/-! ## ZERO (R245, R258, R260) -/

/-- ZERO: every element of the tile becomes +0 or 0, and the tile takes the KIND named. -/
def zeroSpec : OpSpec :=
  { op := 0x00, bad := fun w => 31 < I.imm w, modOk := fun m => m = 0, notBefore := fun _ => 0,
    body := fun x s =>
      match handlesCheck s x.c (handleNeeds x.w .unused .unused .unused .unused) with
      | some code => .reject code
      | none =>
        let kind := I.imm x.w / 4
        let i := tileOf x.w
        if 2 < kind then .reject Code.rejFormat
        else hazard x s i <|
          .ok (Out.at (s.setTile x.c i { kind := kind, elems := List.replicate 1024 0, ready := afterTensor x s 2 })
            (afterTensor x s 2)) }

/-! ## MMA (R246 to R253, R256 to R258) -/

/-- K, M and N of an MMA (R246). -/
structure MmaShape where
  k : Nat
  m : Nat
  n : Nat
  bt : Bool
deriving DecidableEq, Repr

/-- The shape of an MMA from its operands and BT (R246). -/
def mmaShape (a b : Desc) (bt : Bool) : MmaShape := ⟨a.d0, a.d1, if bt then b.d1 else b.d0, bt⟩

/-- The chunk length of an operand format (R250). -/
def kChunkLen (fmt : Nat) : Nat := if fmt = 0x00 then 4 else if fmt = 0x01 || fmt = 0x02 then 16 else 32

/-- The format combinations of R247. -/
def mmaFmtOk (a b : Desc) (kind : Nat) : Bool :=
  let plain := a.blk = 0 && b.blk = 0
  let f := a.fmt
  f = b.fmt &&
    (if f ≤ 0x02 || (0x08 ≤ f && f ≤ 0x0C) then kind ≤ 1
     else if f = 0x06 || f = 0x07 then kind ≤ 1 || (kind = 2 && plain)
     else false)

/-- The checks of R246 to R248, in their order. -/
def mmaCheck (a b : Desc) (sh : MmaShape) (kind : Nat) : Option Nat :=
  firstCode [
    (2 < a.rank || 2 < b.rank, Code.rejFormat),
    (sh.k ≠ (if sh.bt then b.d0 else b.d1), Code.rejFormat),
    (16 < sh.m || 64 < sh.n, Code.rejRange),
    (!mmaFmtOk a b kind, Code.rejFormat),
    ((a.blk ≠ 0 && a.sdir ≠ 0) || (b.blk ≠ 0 && b.sdir ≠ (if sh.bt then 0 else 1)), Code.rejFormat)]

/-- TSUB reads this input element as a zero of its sign (R208). -/
def tsubHits (tsub : Bool) (fmt code : Nat) : Bool :=
  tsub && ((fmt = 0x01 && bits code 14 7 = 0 && bits code 6 0 ≠ 0) ||
           (fmt = 0x02 && bits code 14 10 = 0 && bits code 9 0 ≠ 0))

/-- The value of an MMA input element (R187, R208). -/
def mmaVal (s : State) (c : CoreId) (d : Desc) (tsub : Bool) (r i code : Nat) : Val :=
  if tsubHits tsub d.fmt code then .fin (bitAt code 15) 0 1 else elemVal s c d r i code

/-- The values of an MMA operand, and how many elements TSUB flushed. -/
def mmaOperand (s : State) (c : CoreId) (d : Desc) (tsub : Bool) : List (List Val) × Nat :=
  let codes := allCodes s c d
  (codes.zipIdx.map fun (row, r) => row.zipIdx.map fun (code, i) => mmaVal s c d tsub r i code,
   sumNat (codes.map fun row => row.countP (tsubHits tsub d.fmt)))

/-- The exact sum of the products of a chunk (R250, R252). -/
def chunkSum : List (Val × Val) → Val
  | [] => .fin false 0 1
  | [p] => p.1.mul p.2
  | p :: ps => (p.1.mul p.2).add (chunkSum ps)

/-- One chunk update of an accumulator code: the new code, saturated, flushed (R250, R252, R253). -/
def accUpdate (kind acc : Nat) (p : Val) : Rounded :=
  let a := decodeElem (tileFmt kind) acc
  let r := roundTo (tileFmt kind) (a.add p) 0 false
  let v := decodeElem (tileFmt kind) r.code
  let wasFinite := !a.isNan && !a.isInf
  let sat := r.sat || (wasFinite && (v.isNan || v.isInf))
  ⟨r.code, sat, r.flush && !sat⟩

/-- The chunks of a list of products. -/
def kChunks (n : Nat) (ps : List (Val × Val)) : List (List (Val × Val)) :=
  (List.range (ceilDiv ps.length n)).map fun c => (ps.drop (c * n)).take n

/-- One tile element through every chunk of an MMA: it counts at most once (R250, R253). -/
def mmaElement (kind chunk acc : Nat) (ps : List (Val × Val)) : Rounded :=
  (kChunks chunk ps).foldl (fun r q =>
    let u := accUpdate kind r.code (chunkSum q)
    ⟨u.code, r.sat || u.sat, r.flush || u.flush⟩) ⟨acc, false, false⟩

/-- The right operand's factor column of output column `j`. -/
def bColumn (sh : MmaShape) (b : List (List Val)) (j : Nat) : List Val :=
  if sh.bt then b.getD j [] else b.map fun row => row.getD j .nan

/-- The tile after an MMA, with the counts of its elements (R250). -/
def mmaTile (kind chunk : Nat) (sh : MmaShape) (elems : List Nat) (a b : List (List Val)) : List Rounded :=
  elems.zipIdx.map fun (acc, cell) =>
    let i := cell / 64
    let j := cell % 64
    if i < sh.m && j < sh.n then mmaElement kind chunk acc ((a.getD i []).zip (bColumn sh b j)) else ⟨acc, false, false⟩

/-- A mask of the aligned 64-byte granules that byte ranges occupy. -/
def granuleMask : List (Nat × Nat) → Nat
  | [] => 0
  | (a, n) :: rest =>
    if n = 0 then granuleMask rest
    else (2 ^ ((a + n - 1) / 64 + 1) - 2 ^ (a / 64)) ||| granuleMask rest

/-- How many granules operands occupy, each counted once (R257). -/
def granuleCount (rs : List (Nat × Nat)) : Nat :=
  let m := granuleMask rs
  (List.range 2048).countP (bitAt m)

/-- The cycles per step of K (R257). -/
def macFactor (fmt : Nat) : Nat :=
  match fmt with
  | 0x0C | 0x07 => 1
  | 0x01 | 0x02 => 16
  | 0x00 => 64
  | _ => 2

/-- The latency of an operand format (R258). -/
def macLatency (fmt : Nat) : Nat :=
  match fmt with
  | 0x01 | 0x02 => 12
  | 0x00 => 14
  | _ => 10

/-- The cells of rows below `m` and columns below `n`, as bits. -/
def cellMask (m n : Nat) : Nat := sumNat ((List.range m).map fun i => (2 ^ n - 1) * 2 ^ (64 * i))

/-- MMA (R246 to R253). -/
def mmaSpec (c : CoreId) : OpSpec :=
  { op := 0x01, bad := fun w => 3 < I.imm w, modOk := fun m => m < 2,
    notBefore := fun s => (s.core c).arrayFree,
    body := fun x s =>
      match handlesCheck s x.c (handleNeeds x.w .unused .required .required .unused) with
      | some code => .reject code
      | none =>
        let a := readDesc s x.c (I.a x.w)
        let b := readDesc s x.c (I.b x.w)
        match plainChecks [(some a, false), (some b, false)] with
        | some code => .reject code
        | none =>
          let i := tileOf x.w
          let t := s.tile x.c i
          let sh := mmaShape a b (I.mod x.w = 1)
          match mmaCheck a b sh t.kind with
          | some code => .reject code
          | none =>
            hazard x s i <|
              if sh.k = 0 || sh.m = 0 || sh.n = 0 then .ok (Out.at s x.t)
              else
                let rs := a.spans ++ b.spans
                let busy := Nat.max (sh.k * macFactor a.fmt) (granuleCount rs)
                let ready := afterTensor x s (busy + macLatency a.fmt + (if t.kind = 1 then 4 else 0))
                match readHearth s x.c rs with
                | (some h, s) =>
                  .ok { Out.at (s.setTile x.c i Tile.none) x.t with code := Code.failMemory, haddr := h }
                | (none, s) =>
                  let tsub := s.isOn Reg.VIG_REPRO_ID F.VIG_REPRO_ID_TSUB
                  let va := mmaOperand s x.c a tsub
                  let vb := mmaOperand s x.c b tsub
                  let out := mmaTile t.kind (kChunkLen a.fmt) sh t.elems va.1 vb.1
                  let sat := countSat out
                  let flush := out.countP (fun r => r.flush && !r.sat)
                  let s := s.setTile x.c i { t with elems := out.map Rounded.code, ready := ready }
                  let s := s.setCore x.c { s.core x.c with arrayFree := afterTensor x s busy }
                  let s := s.bump (Reg.TEN_ARRAY_BUSY x.c) F.TEN_ARRAY_BUSY_COUNT busy
                  .ok { Out.at s ready with
                        sat := sat, flush := flush + va.2 + vb.2, stages := cellMask sh.m sh.n,
                        macs := sh.m * sh.n * sh.k, busy := busy } }

/-! ## RD (R254, R255, R258 to R260) -/

/-- The formats that RD writes for a tile KIND (R254). -/
def rdFmtOk (kind fmt : Nat) : Bool := fmt ≤ 0x03 || (kind = 2 && (fmt = 0x04 || fmt = 0x05))

/-- RD (R254, R255). -/
def rdSpec : OpSpec :=
  { op := 0x02, bad := fun w => 0x1FFF < I.imm w, modOk := fun m => m < 8, notBefore := fun _ => 0,
    body := fun x s =>
      match handlesCheck s x.c (handleNeeds x.w .required .unused .unused .unused) with
      | some code => .reject code
      | none =>
        let d := readDesc s x.c (I.d x.w)
        let i := tileOf x.w
        let t := s.tile x.c i
        let row0 := bits (I.imm x.w) 5 2
        let col0 := bits (I.imm x.w) 11 6
        let clear := bitAt (I.imm x.w) 12
        match plainChecks [(some d, true)] with
        | some code => .reject code
        | none =>
          match firstCode [
              (16 < row0 + d.d1 || 64 < col0 + d.d0, Code.rejRange),
              (2 < d.rank || d.blk ≠ 0, Code.rejFormat),
              (t.kind = 7, Code.rejFormat),
              (!rdFmtOk t.kind d.fmt, Code.rejFormat)] with
          | some code => .reject code
          | none =>
            hazard x s i <|
              if d.empty then .ok (Out.at s x.t)
              else
                let m := I.mod x.w
                let out := (List.range d.d1).map fun r => (List.range d.d0).map fun k =>
                  let code := t.elems.getD (cellOf (row0 + r) (col0 + k)) 0
                  if d.fmt = tileFmt t.kind then (⟨code, false, false⟩ : Rounded)
                  else roundTo d.fmt (decodeElem (tileFmt t.kind) code) (m % 4) (bitAt m 2)
                let s := writeCodes s x.c d (out.map fun r => r.map Rounded.code)
                let cleared := t.elems.zipIdx.map fun (code, cell) =>
                  if row0 ≤ cell / 64 && cell / 64 < row0 + d.d1 && col0 ≤ cell % 64 && cell % 64 < col0 + d.d0
                  then 0 else code
                let s := if clear then s.setTile x.c i { t with elems := cleared, ready := afterTensor x s 2 } else s
                .ok { Out.at s (x.t + 4 + ceilDiv (d.rowBytes * d.d1) 64) with
                      sat := sumNat (out.map countSat), flush := sumNat (out.map countFlush), dst := d.spans } }

/-- ZERO: a tile is cleared and takes a KIND (R245). -/
def execZero (c : CoreId) (s : State) : Host.Outcome State Fault Refusal := runOp c .tensor zeroSpec s
/-- MMA: a tile accumulates a matrix product (R250). -/
def execMma (c : CoreId) (s : State) : Host.Outcome State Fault Refusal := runOp c .tensor (mmaSpec c) s
/-- RD: a rectangle of a tile is written to the hearth (R254). -/
def execRd (c : CoreId) (s : State) : Host.Outcome State Fault Refusal := runOp c .tensor rdSpec s

end Sys2Proof.Machine
end

