-- ==== Sys2Proof/Machine/Mgmt.lean ====
section
/-! DEFINITION. Management accesses: from an address to what it reaches (R30 to R38), what a read returns and what a
write does (R9 to R14 and the register tables of every chapter). -/
namespace Sys2Proof.Machine

/-! ## What an address reaches (R13, R32, R33, R37, R38, R410, R527) -/

/-- What a management access reaches: a register at its home address with its row; a word of an instruction bank; a
register of R527 at a Vigil that does not lead, or of a port at a lane that is no port's lowest (R410, R527). -/
inductive Spot where
  | reg (a : Nat) (r : Row)
  | instr (c : CoreId) (bank off : Nat)
  | silent
deriving DecidableEq, Repr

/-- The unit by which a core's registers are kept: a spare slot in use goes by the logical core it serves (R38, R45). -/
def State.homeUnit (s : State) (die region unit : Nat) : Nat :=
  if unit = 0x40 && slotState s die region 0 = 1 then slotCore s die region 0
  else if unit = 0x41 && slotState s die region 1 = 1 then slotCore s die region 1
  else unit

/-- The home of an address: spare slots by what they serve, the registers of the leading Vigil by site 0x40 (R32, R527). -/
def State.homeOf (s : State) (a : Nat) : Nat :=
  let site := siteOf a
  let block := blockOf a
  let unit := unitOf a
  if site < 0x40 && block < 80 && (unit = 0x40 || unit = 0x41) then
    unitBase site block (s.homeUnit site block unit) + offsetOf a
  else if site = s.leadSite && block = 0x20 && unit = 0 && 0x1000 ≤ offsetOf a then unitBase 0x40 0x20 0 + offsetOf a
  else a

/-- An address of R527's block at a Vigil that does not lead. -/
def State.atBackup (s : State) (a : Nat) : Bool :=
  (siteOf a = 0x40 || siteOf a = 0x48) && siteOf a ≠ s.leadSite && blockOf a = 0x20 && unitOf a = 0 && 0x1000 ≤ offsetOf a

/-- The lane of a lane register's address (R409). -/
def laneOf (a : Nat) : Nat := (siteOf a - 0x40) * 64 + (blockOf a - 1) * 32 + unitOf a

/-- An address in a lane's block. -/
def isLane (a : Nat) : Bool := 0x40 ≤ siteOf a && siteOf a < 0x50 && (blockOf a = 1 || blockOf a = 2) && unitOf a < 0x20

/-- A port register at a lane that is no port's lowest lane (R410). -/
def State.portless (s : State) (a : Nat) : Bool := isLane a && 0x108 ≤ offsetOf a && s.widthCode (laneOf a) = 0

/-- The die rails are down: COLD, or Kindling that has not passed stage 2 (R552, R577). -/
def State.railsDown (s : State) : Bool :=
  s.mstate = MState.cold || (s.mstate = MState.kindling && s.fld Reg.VIG_BOOT_STATUS F.VIG_BOOT_STATUS_STAGE < 3)

/-- The domain of a site is held in reset or powered down; a stack is reached only through its die (R22, R38, R551). -/
def State.siteDown (s : State) (site block : Nat) : Bool :=
  site ≠ 0xF0 && !(0x40 ≤ site && site < 0x50 && block = 0x20) &&
    (s.railsDown || s.inReset.contains site || (0x80 ≤ site && s.inReset.contains (site - 0x80)))

/-- Where an access leads, or the code that refuses it. -/
def State.spot (s : State) (a width : Nat) : Except Nat Spot :=
  let site := siteOf a
  let block := blockOf a
  let unit := unitOf a
  let off := offsetOf a
  let inCore := site < 0x40 && block < 80 && unit < 0x42
  if inCore && 0x8000 ≤ off && off < 0xE000 then
    if width ≠ 64 || off % 8 ≠ 0 then .error Code.rejRange
    else if s.siteDown site block then .error Code.rejState
    else .ok (.instr ⟨site, block, s.homeUnit site block unit⟩ ((off - 0x8000) / 0x3000) ((off - 0x8000) % 0x3000))
  else
    let h := s.homeOf a
    let same := if s.atBackup a then unitBase 0x40 0x20 0 + off else h
    match regRow same with
    | none => .error Code.rejRange
    | some (r, _) =>
      if r.width ≠ width then .error Code.rejRange
      else if s.siteDown site block then .error Code.rejState
      else if s.atBackup a || s.portless a then .ok .silent
      else .ok (.reg h r)

/-! ## Reading -/

/-- What a register shows: its kept word, a value computed from the state, or fixed bits with free ones. -/
inductive View where
  | kept
  | known (w : Word)
  | mixed (base mask : Word)
deriving DecidableEq, Repr

/-- A value computed from numbers. -/
def View.of (n : Nat) : View := .known (BitVec.ofNat 64 n)

/-- GANG of the held lanes (R210, R241). -/
def gangOf (l : Lanes) : Nat := if l.kind = 7 then 0 else (64 / Nat.max 1 (laneCount l.kind l.fmt)).log2 + 1

/-- KIND and PENDING of a tile, at its bits of TEN_TILE_STATE (R265). -/
def tileBits (s : State) (c : CoreId) (i : Nat) : Nat :=
  let t := s.tile c i
  (t.kind + (if s.now < t.ready then 8 else 0)) * 2 ^ (4 * i)

/-- Packets in a send queue that no port has taken (R310). -/
def sendDepth (s : State) (c : CoreId) (q : Nat) : Nat :=
  let mine (f : Flying) : Bool := f.sendq = some (coreKey c * 8 + q)
  s.origin.countP mine + s.flight.countP mine +
    sumNat (s.ports.map fun p => sumNat (p.2.outq.map fun o => o.2.countP mine))

/-- The registers of an engine window that are read from the state (R105, R241, R265, R310). -/
def State.viewEngine (s : State) (c : CoreId) (e : Cls) (off : Nat) : View :=
  if off = 8 then .known ((s.catchUp c).eng c e).status
  else if off = 0x48 then
    .known (s.reg (Reg.WAIT_CYCLES c e) + BitVec.ofNat 64 ((s.eng c e).waitFrom.elim 0 (s.now - ·)))
  else
    match e with
    | .reduce =>
      let l := s.lanes c
      if off = 0x100 then .known (wordOf [(F.RED_LANE_STATE_FMT, l.fmt), (F.RED_LANE_STATE_KIND, l.kind),
        (F.RED_LANE_STATE_GANG, gangOf l)]) else .kept
    | .tensor => if off = 0x100 then .of (sumNat ((List.range 4).map (tileBits s c))) else .kept
    | .move =>
      if 0x200 ≤ off then
        let q := (off - 0x200) / 8
        .of (Nat.min 64 (if q < 8 then sendDepth s c q else ((s.core c).queue (q - 8)).length))
      else .kept
    | _ => .kept

/-- The engine of a core window. -/
def engOfWindow : Nat → Option Cls
  | 1 => some .reduce | 2 => some .tensor | 3 => some .shape | 4 => some .sort | 5 => some .scale
  | 6 => some .move | 7 => some .tally | _ => none

/-- The counts of a core pool's four owners (R369). -/
def coreInUse (s : State) (p : Pool) : Nat :=
  sumNat ((List.range 4).map fun e =>
    let o := ownerEntryOf (s.reg (p.ownerAddr e))
    if o.valid then s.chargedTo p o.owner % 256 * 2 ^ (8 * e) else 0)

/-- The count of one owner entry (R352). -/
def entryInUse (s : State) (p : Pool) (e : Nat) : Nat :=
  let o := ownerEntryOf (s.reg (p.ownerAddr e))
  if o.valid then s.chargedTo p o.owner else 0

/-- The registers of a region's units that are read from the state (R146, R369 to R371). -/
def State.viewRegion (s : State) (r : RegionId) (unit off : Nat) : View :=
  if unit = 0xE0 then (if off = 0xF430 then .of (s.region r).out.length else .kept)
  else if unit = 0xE2 then
    let p : Pool := .region r
    if off = 0x10 then .known (wordOf [(F.GRT_RPOOL_STAT_LOST, s.lost p), (F.GRT_RPOOL_STAT_FREE, s.freeCount p)])
    else if off = 0x48 then .of (s.region r).waitq.length
    else if off = 0x58 then .known (s.queryBuffer (.region r) (s.reg (Reg.GRT_QUERY_LOC r)).toNat).1
    else if off = 0x60 then .known (s.queryBuffer (.region r) (s.reg (Reg.GRT_QUERY_LOC r)).toNat).2
    else if 0x800 ≤ off && off < 0x900 then .of (entryInUse s p ((off - 0x800) / 8))
    else if 0x1000 ≤ off then
      let c := (off - 0x1000) / 64
      let q : Pool := .core ⟨r.die, r.region, c⟩
      if off % 64 = 8 then
        let w := s.reg (Reg.GRT_CPOOL_STAT r c)
        .known (F.GRT_CPOOL_STAT_LOST.put (F.GRT_CPOOL_STAT_FREE.put w (s.freeCount q)) (s.lost q))
      else if off % 64 = 0x30 then .of (coreInUse s q)
      else .kept
    else .kept
  else .kept

/-- The registers of an I/O die that are read from the state (R408, R409, R569); received power, laser bias and the laser
source are free. -/
def State.viewIod (s : State) (n block unit off : Nat) : View :=
  let ports := (List.range 64).map (· + 64 * n)
  if block = 0 then
    if off = 0 then
      let eth := ports.countP fun p => s.isOn (Reg.LNK_PORT_CFG p) F.LNK_PORT_CFG_ENABLE && s.isEth p
      .known (wordOf [(F.LNK_IOD_STATUS_ETH_PORTS, eth), (F.LNK_IOD_STATUS_PORTS_UP, ports.countP s.isUp)])
    else .kept
  else if block = 1 || block = 2 then
    if unit = 0xFF then
      let lit := ((List.range 32).map (· + 64 * n + 32 * (block - 1))).any fun p =>
        s.isOn (Reg.LNK_PORT_CFG p) F.LNK_PORT_CFG_ENABLE
      if lit then .mixed (s.reg (Reg.LNK_OE_STATUS (2 * n + (block - 1)))) 1 else .kept
    else
      let p := 64 * n + 32 * (block - 1) + unit
      if off = 0x10 then .mixed 0 0xFFFFFFFF
      else if off = 0x110 then
        .known (F.LNK_PORT_STATUS_UNACKED.put (s.reg (Reg.LNK_PORT_STATUS p)) (s.port p).replay.length)
      else .kept
  else if block = 0x20 then
    if off = 0 then
      let lead8 := s.leadSite = 0x48
      let lost := if lead8 || s.vigil.spareLost then 3 else 2
      .of (if n = 0 then (if lead8 then 3 else 1) else if n = 8 then (if lead8 then 1 else lost) else 0)
    else if off = 8 && (n = 0 || n = 8) then .mixed 0 0x78000000
    else .kept
  else .kept

/-- Word `w` of an Ashpit entry (R497). -/
def AshEntry.word (e : AshEntry) (w : Nat) : Nat :=
  match w with
  | 0 => e.first
  | 1 => e.last
  | 2 => e.code * 2 ^ 56 + e.cls * 2 ^ 48 + e.site * 2 ^ 40 + e.block * 2 ^ 32 + e.unit * 2 ^ 24 + e.repeats
  | 3 => e.seq
  | _ => (e.details.getD (w - 4) 0).toNat

/-- The leading Vigil's registers that are read from the state: the ring entry INDEX, SEQ 1 standing at index 0, and the
late table (R508, R527). -/
def State.viewVigil (s : State) (off : Nat) : View :=
  if 0x1050 ≤ off && off < 0x1090 then
    match s.ash.find? (fun e => (e.seq - 1) % 4096 = s.fld Reg.VIG_ASH_SEL F.VIG_ASH_SEL_INDEX) with
    | some e => .of (e.word ((off - 0x1050) / 8))
    | none => .of 0
  else if off = 0x1130 then .of (AMap.get s.late (0, false) (s.fld Reg.VIG_LATE_SEL F.VIG_LATE_SEL_MODULE)).1
  else .kept

/-- Part number, stepping, grade, leading Vigil and records in force (R2, R568). -/
def State.ident (s : State) : Word :=
  F.VIG_IDENT_GRADE.put (F.VIG_IDENT_STEPPING.put (s.reg Reg.VIG_IDENT) (if Config.steppingB1 then 0xB1 else 0xB0))
    (if Config.gradeE then 0x45 else 0x50)

/-- The module-wide registers that are read from the state (R149, R370, R371, R568). -/
def State.viewModule (s : State) (block off : Nat) : View :=
  match block with
  | 0 => if off = 0 then .known s.ident else if off = 8 then .known Config.serial else .kept
  | 1 => if off = 0 then .of s.alm else .kept
  | 4 =>
    let loc := (s.reg Reg.GRT_FQUERY_LOC).toNat
    if off = 0x10 then .of (s.freeCount .fabric)
    else if off = 0x18 then .known (F.GRT_FPOOL_STATUS_LOST.put (s.reg Reg.GRT_FPOOL_STATUS) (s.lost .fabric))
    else if off = 0x38 then .known (s.queryBuffer .fabric loc).1
    else if off = 0x40 then .known (s.queryBuffer .fabric loc).2
    else if 0x1800 ≤ off then .of (entryInUse s .fabric ((off - 0x1800) / 8))
    else .kept
  | _ => .kept

/-- XOR of the 32 operation window words of a stack (R327). -/
def State.awinSum (s : State) (k : Nat) : Word :=
  xorAll ((List.range 16).flatMap fun w => [s.reg (Reg.MEM_AWIN_BASE k w), s.reg (Reg.MEM_AWIN_CTL k w)])

/-- What the register at a home address shows. -/
def State.view (s : State) (a : Nat) : View :=
  let site := siteOf a
  let block := blockOf a
  let unit := unitOf a
  let off := offsetOf a
  if site < 0x40 then
    if block < 80 then
      if unit < 0x42 then
        match engOfWindow (off / 0x1000) with
        | some e => s.viewEngine ⟨site, block, unit⟩ e (off % 0x1000)
        | none => if off = 0x128 then .mixed 0 (-1) else .kept
      else s.viewRegion ⟨site, block⟩ unit off
    else if block = 0xF1 && off < 0x20 && s.meshUsed then .mixed 0 (-1)
    else if block = 0xF1 && 0x100 ≤ off && off < 0x120 && !(OnLink.mesh site ((off - 0x100) / 8)).ok then .of 3
    else .kept
  else if site < 0x50 then
    if block = 0x20 && 0x1000 ≤ off then s.viewVigil off else s.viewIod (site - 0x40) block unit off
  else if site < 0xC0 then (if unit = 0xFF && off = 0x40 then .known (s.awinSum (site - 0x80)) else .kept)
  else s.viewModule block off

/-- The bits a read clears: those of RC fields (R9). -/
def Row.cleared (r : Row) (w : Word) : Word :=
  r.fields.foldl (fun w f => if f.acc = .rc then f.fld.put w 0 else w) w

/-- The register at a home address is read: its value, and its RC fields cleared (R9, R12). -/
def State.readReg (s : State) (a : Nat) (r : Row) : Word × State :=
  match s.view a with
  | .kept => (s.reg a, s.setReg a (r.cleared (s.reg a)))
  | .known w => (w, s)
  | .mixed base mask => let f := s.freeWord; (base ||| (f.1 &&& mask), f.2)

/-- A management read: its code, value and the state after it. RTE_EP_DATA moves its index (R451). -/
def State.mgmtRead (s : State) (a width : Nat) : Nat × Word × State :=
  match s.spot a width with
  | .error code => (code, 0, s)
  | .ok .silent => (Code.done, 0, s)
  | .ok (.instr c bank off) => (Code.done, BitVec.ofNat 64 (leNat (s.iread c bank off 8)), s)
  | .ok (.reg h r) =>
    if h = Reg.RTE_EP_DATA then (Code.done, s.readEpData) else (Code.done, s.readReg h r)

/-! ## Writing -/

/-- A register word after a write of `data`, field by field (R9, R10). -/
def Row.written (r : Row) (old data : Word) : Word :=
  r.fields.foldl (fun w f =>
    match f.acc with
    | .rw => f.fld.put w (f.fld.get data)
    | .w1c => f.fld.put w (f.fld.get (old &&& ~~~data))
    | .w1s => f.fld.put w (f.fld.get (old ||| data))
    | _ => w) old

/-- A write by the access codes alone (R9). -/
def State.plainWrite (s : State) (a : Nat) (r : Row) (w : Word) : Nat × State :=
  (Code.done, s.setReg a (r.written (s.reg a) w))

/-- A write by the access codes that the first failing check refuses (R599). -/
def State.guardedWrite (s : State) (checks : List (Bool × Nat)) (a : Nat) (r : Row) (w : Word) : Nat × State :=
  match firstCode checks with
  | some code => (code, s)
  | none => s.plainWrite a r w

/-- A value outside [lo, hi]. -/
def outside (lo hi n : Nat) : Bool := n < lo || hi < n

/-- VIG_REPRO_ID.INJECT is 1 (R242, R266, R309). -/
def State.injectOn (s : State) : Bool := s.isOn Reg.VIG_REPRO_ID F.VIG_REPRO_ID_INJECT

/-- A write of HTH_BANK_CTL: DISARM prevails over ARMED (R102, R103). -/
def State.writeBankCtl (s : State) (c : CoreId) (w : Word) : Nat × State :=
  let a := Reg.HTH_BANK_CTL c
  let s := if F.HTH_BANK_CTL_DISARM.on w then s.setFld a F.HTH_BANK_CTL_ARMED 0
           else if F.HTH_BANK_CTL_ARMED.on w then s.setFld a F.HTH_BANK_CTL_ARMED 1 else s
  (Code.done, s.watchSwap c)

/-- The area of records of 32 bytes from BASE on is misplaced (R104, R106). -/
def badArea (base count : Nat) : Bool := base % 32 ≠ 0 || 0x20000 < base + 32 * count

/-- A write of a core common register (R103, R104). -/
def State.writeCommon (s : State) (c : CoreId) (off : Nat) (r : Row) (w : Word) : Nat × State :=
  let a := coreBase c + off
  let busy := !(s.core c).halted
  if off = 0x100 then s.writeBankCtl c w
  else if off = 0x108 then
    s.guardedWrite [(busy, Code.rejState),
      (badArea (F.HTH_DESC_TABLE_BASE.get w) (F.HTH_DESC_TABLE_COUNT.get w), Code.rejRange)] a r w
  else if off = 0x110 then s.guardedWrite [(busy, Code.rejState)] a r w
  else s.plainWrite a r w

/-- A write of RED_INJECT (R242). -/
def State.writeRedInject (s : State) (c : CoreId) (r : Row) (w : Word) : Nat × State :=
  s.guardedWrite [(!s.injectOn, Code.rejState),
    (F.RED_INJECT_STAGE.get w = 3 || 79 < F.RED_INJECT_BIT.get w, Code.rejRange)] (Reg.RED_INJECT c) r w

/-- A write of TEN_INJECT (R266). -/
def State.writeTenInject (s : State) (c : CoreId) (r : Row) (w : Word) : Nat × State :=
  s.guardedWrite [(!s.injectOn, Code.rejState)] (Reg.TEN_INJECT c) r w

/-- The highest UNIT of a stream engine's INJECT register (R308). -/
def lastUnit : Cls → Nat
  | .shape => 1
  | .sort => 31
  | _ => 2

/-- A write of a stream engine's INJECT (R309). -/
def State.writeUnitInject (s : State) (c : CoreId) (e : Cls) (r : Row) (w : Word) : Nat × State :=
  s.guardedWrite [(!s.injectOn, Code.rejState), (lastUnit e < F.UNIT_INJECT_UNIT.get w, Code.rejRange)]
    (Reg.UNIT_INJECT c e) r w

/-- A MOV_QCFG word that R311 refuses, for entry `q`: 0 to 7 send, 8 to 15 receive. -/
def badQueueCfg (q : Nat) (w : Word) : Bool :=
  let vc := F.MOV_QCFG_VC.get w
  let depth := F.MOV_QCFG_DEPTH.get w
  1 < vc ||
  if q < 8 then depth ≠ 0 || F.MOV_QCFG_ARRIVE_EN.on w || F.MOV_QCFG_ARRIVE.get w ≠ 0
  else vc ≠ 0 || (F.MOV_QCFG_ENABLE.on w && outside 1 64 depth)

/-- A write of a Move engine's own register (R310, R311). -/
def State.writeMoveReg (s : State) (c : CoreId) (off : Nat) (r : Row) (w : Word) : Nat × State :=
  let a := engBase c .move + off
  let v := w.toNat % 2 ^ 32
  if off = 0x100 then s.guardedWrite [(v < 1000, Code.rejRange)] a r w
  else if off = 0x108 then s.guardedWrite [(outside 1000 1000000 v, Code.rejRange)] a r w
  else if 0x180 ≤ off && off < 0x200 then
    s.guardedWrite [((s.eng c .move).st ≠ .halted, Code.rejState), (badQueueCfg ((off - 0x180) / 8) w, Code.rejRange)] a r w
  else s.plainWrite a r w

/-- A write of an engine window's register (R105, R106). -/
def State.writeEngine (s : State) (c : CoreId) (e : Cls) (off : Nat) (r : Row) (w : Word) : Nat × State :=
  let a := engBase c e + off
  if off = 0 then seqCtlWrite c e w s
  else if off = 0x10 then s.guardedWrite [(767 < F.ENTRY_PC.get w, Code.rejRange)] a r w
  else if off = 0x20 then
    s.guardedWrite [(badArea (F.CR_BASE_BASE.get w) (F.CR_BASE_ENTRIES.get w), Code.rejRange)] a r w
  else if off < 0x100 then s.plainWrite a r w
  else
    match e with
    | .reduce => if off = 0x128 then s.writeRedInject c r w else s.plainWrite a r w
    | .tensor => if off = 0x138 then s.writeTenInject c r w else s.plainWrite a r w
    | .move => s.writeMoveReg c off r w
    | .tally => s.plainWrite a r w
    | e => if off = 0x120 then s.writeUnitInject c e r w else s.plainWrite a r w

/-- A queue identifier that no engine holds (R147). -/
def noQueue (q : Nat) : Bool := q % 8 = 7 || (q % 8 = 6 && !isTcore (q / 8)) || q = 511

/-- An entry of the translation array lies in the window of a context that an engine runs (R117). -/
def State.xlatLocked (s : State) (r : RegionId) (entry : Nat) : Bool :=
  (List.range 64).any fun ctx =>
    let w := s.reg (Reg.SYN_CTXMAP r ctx)
    F.SYN_CTXMAP_VALID.on w && F.SYN_CTXMAP_TBASE.get w ≤ entry &&
      entry < F.SYN_CTXMAP_TBASE.get w + F.SYN_CTXMAP_COUNT.get w && contextBusy s r ctx

/-- A write of a region sync file register (R117, R141, R146, R147). -/
def State.writeSync (s : State) (r : RegionId) (off : Nat) (row : Row) (w : Word) : Nat × State :=
  let a := unitBase r.die r.region 0xE0 + off
  if off < 0x8000 then (Code.done, s.writeObj r (off / 8) w)
  else if off < 0xC000 then s.guardedWrite [(s.xlatLocked r ((off - 0x8000) / 8), Code.rejState)] a row w
  else if off < 0xF000 then
    let word := (off - 0xC000) % 192 / 8
    s.guardedWrite [(word < 8 && (List.range 64).any (fun b => bitAt w.toNat b && noQueue (64 * word + b)), Code.rejRange)]
      a row w
  else if off < 0xF200 then
    s.guardedWrite [(contextBusy s r ((off - 0xF000) / 8), Code.rejState),
      (2048 < F.SYN_CTXMAP_TBASE.get w + F.SYN_CTXMAP_COUNT.get w, Code.rejRange)] a row w
  else if off = 0xF408 then s.writeSaveCtl r w
  else s.plainWrite a row w

/-- A write of a region's Grate register (R348, R352, R368, R370). -/
def State.writeGrate (s : State) (r : RegionId) (off : Nat) (row : Row) (w : Word) : Nat × State :=
  let a := unitBase r.die r.region 0xE2 + off
  if off = 0 then s.writePool (.region r) w
  else if off = 8 then s.writeReclaim (.region r) w
  else if off = 0x40 then s.guardedWrite [(outside 1000 100000000 (w.toNat % 2 ^ 32), Code.rejRange)] a row w
  else if 0x100 ≤ off && off < 0x200 then s.writeOwner (.region r) ((off - 0x100) / 8) w
  else if 0x1000 ≤ off then
    let c : CoreId := ⟨r.die, r.region, (off - 0x1000) / 64⟩
    if off % 64 = 0 then s.writePool (.core c) w
    else if 0x10 ≤ off % 64 && off % 64 < 0x30 then s.writeOwner (.core c) ((off % 64 - 0x10) / 8) w
    else s.plainWrite a row w
  else s.plainWrite a row w

/-- A write of a compute die's own register (R317, R322, R500, R501). -/
def State.writeDie (s : State) (die block off : Nat) (r : Row) (w : Word) : Nat × State :=
  let a := unitBase die block 0 + off
  if block = 0xF0 then
    if off = 0 then s.writeDsPart die w
    else if 0x100 ≤ off then s.writeCwin die ((off - 0x100) / 16) (off % 16 = 8) w
    else s.plainWrite a r w
  else if block = 0xFF then
    if off = 0x100 then s.writeSpareCmd die w
    else if 0x1400 ≤ off then (Code.done, s.setReg a (s.reg a ^^^ w))
    else s.plainWrite a r w
  else s.plainWrite a r w

/-- A write of a memory stack's register (R335, R338, R342). -/
def State.writeStack (s : State) (k unit off : Nat) (r : Row) (w : Word) : Nat × State :=
  let a := unitBase (0x80 + k) 0 unit + off
  if unit ≠ 0xFF then s.plainWrite a r w
  else if off = 8 then s.writeLinkCtl k w
  else if off = 0x10 then s.guardedWrite [(outside 1 168 (F.MEM_SCRUB_HOURS.get w), Code.rejRange)] a r w
  else if 0x100 ≤ off then s.writeAwin k ((off - 0x100) / 16) (off % 16 = 8) w
  else s.plainWrite a r w

/-- A write of an I/O die's register (R408 to R410). -/
def State.writeIod (s : State) (a : Nat) (r : Row) (w : Word) : Nat × State :=
  let off := offsetOf a
  if blockOf a = 0 then
    if off = 8 then s.guardedWrite [(F.LNK_HOP_LIMIT_LIMIT.get w = 0, Code.rejRange)] a r w else s.plainWrite a r w
  else if isLane a then
    if off = 0x100 then s.writePortCfg (laneOf a) w
    else if off = 0x108 then s.writePortCtl (laneOf a) w
    else if off = 0x128 then s.guardedWrite [(10000 < (toSigned 32 w.toNat).natAbs, Code.rejRange)] a r w
    else s.plainWrite a r w
  else s.plainWrite a r w

/-- The recorder's ring is misplaced (R528). -/
def State.badRing (s : State) : Bool :=
  let l := (s.reg Reg.VIG_REC_LOC).toNat
  bits l 63 60 ≠ 3 || bits l 59 41 ≠ 0 || l % 512 ≠ 0 || s.fld Reg.VIG_REC_SIZE F.VIG_REC_SIZE_GRANULES < 64

/-- A write of the leading Vigil's register (R522, R527, R528). -/
def State.writeVigil (s : State) (off : Nat) (r : Row) (w : Word) : Nat × State :=
  let a := unitBase 0x40 0x20 0 + off
  let banked := s.mstate = MState.banked
  if off = 0x1098 then s.guardedWrite [((s.reg Reg.VIG_ASH_HEAD).toNat ≤ w.toNat, Code.rejRange)] a r w
  else if off = 0x1100 then
    s.guardedWrite [(outside 20 30 (F.VIG_HEALTH_CTL_HK.get w) || F.VIG_HEALTH_CTL_DECAY.get w = 0, Code.rejRange)] a r w
  else if off = 0x1110 then
    s.guardedWrite [(F.VIG_HEALTH_THR_SUSPECT.get w ≤ F.VIG_HEALTH_THR_WARN.get w, Code.rejRange)] a r w
  else if off = 0x1200 || off = 0x1400 || off = 0x1408 || (0x1500 ≤ off && off < 0x1528) then
    s.guardedWrite [(!banked, Code.rejState)] a r w
  else if off = 0x1208 then
    s.guardedWrite [(!((s.shdMode = 1 || s.shdMode = 2) && (s.mstate = MState.lit || s.mstate = MState.shadow)),
      Code.rejState)] a r w
  else if off = 0x1220 then s.guardedWrite [(outside 1000 1000000 (w.toNat % 2 ^ 32), Code.rejRange)] a r w
  else if off = 0x1410 then
    let x := s.guardedWrite [(!s.isOn a F.VIG_REC_CTL_EN && F.VIG_REC_CTL_EN.on w && s.badRing, Code.rejRange)] a r w
    if x.1 = Code.done then (Code.done, x.2.setFld a F.VIG_REC_CTL_FROZEN 0) else x
  else if off = 0x1418 then (Code.done, s.writeMark w)
  else s.plainWrite a r w

/-- A write of the identity block (R570). -/
def State.writeIdent (s : State) (inband : Bool) (off : Nat) (r : Row) (w : Word) : Nat × State :=
  let a := unitBase 0xF0 0 0 + off
  if off = 0x18 then s.guardedWrite [(s.mstate ≠ MState.banked, Code.rejState)] a r w
  else if off = 0x28 then s.guardedWrite [(inband, Code.rejPriv)] a r w
  else s.plainWrite a r w

/-- A write of the Almanac and Calendar block (R158, R159, R168, R179, R180). -/
def State.writeAlm (s : State) (off : Nat) (r : Row) (w : Word) : Nat × State :=
  let a := unitBase 0xF0 1 0 + off
  if off = 8 then s.writeAlmCtl w
  else if off = 0x18 then s.writeAlmSet w
  else if off = 0x20 then s.writeAlmTrim w
  else if off = 0x58 then s.writeJobCtl w
  else if off = 0x40 || off = 0x48 || off = 0x50 || off = 0x68 || (0x100 ≤ off && off < 0x500) then
    s.guardedWrite [(!s.jobIdle, Code.rejState)] a r w
  else s.plainWrite a r w

/-- A write of the routing block (R431, R432, R435, R451, R452). -/
def State.writeRoute (s : State) (off : Nat) (r : Row) (w : Word) : Nat × State :=
  let a := unitBase 0xF0 2 0 + off
  if off = 0 then s.writeRteMode w
  else if off = 8 then s.writeEpoch w
  else if off = 0x68 then s.writeEpData w
  else if off = 0x70 then s.writePools true w
  else if off = 0x78 then s.writePools false w
  else if 0x2000 ≤ off && off < 0x6000 then s.writeMtab 0 ((off - 0x2000) / 8) w
  else if 0x6000 ≤ off && off < 0xA000 then s.writeMtab 1 ((off - 0x6000) / 8) w
  else if 0xA000 ≤ off then s.writeRtePort ((off - 0xA000) / 8) w
  else s.guardedWrite [(badRouteValue off w, Code.rejRange)] a r w

/-- Some Flue is RUNNING. -/
def State.anyRunning (s : State) : Bool := s.flues.any fun p => s.flueSt p.1 = FSt.running

/-- A write of the Flue block (R455, R490, R491). -/
def State.writeFlueReg (s : State) (off : Nat) (r : Row) (w : Word) : Nat × State :=
  let a := unitBase 0xF0 3 0 + off
  let v := w.toNat % 2 ^ 32
  let limit (lo hi : Nat) : Nat × State :=
    s.guardedWrite [(outside lo hi v, Code.rejRange), (s.anyRunning, Code.rejState)] a r w
  if off = 0 then s.writeFluCmd w
  else if off = 0x18 then limit 10000 100000000
  else if off = 0x20 then limit 2000 10000000
  else if off = 0x28 then limit 500 1000000
  else if off = 0x30 then limit 1000 100000000
  else s.plainWrite a r w

/-- A write of the fabric-memory pool block (R348, R352, R368). -/
def State.writeFpool (s : State) (off : Nat) (r : Row) (w : Word) : Nat × State :=
  if off = 0 then s.writePool .fabric w
  else if off = 8 then s.writeReclaim .fabric w
  else if 0x1000 ≤ off && off < 0x1800 then s.writeOwner .fabric ((off - 0x1000) / 8) w
  else s.plainWrite (unitBase 0xF0 4 0 + off) r w

/-- A write of the Damper block (R441 to R446, R453). -/
def State.writeDmp (s : State) (off : Nat) (r : Row) (w : Word) : Nat × State :=
  let tokens := 0x2000 ≤ off && off < 0x2800 && off % 16 = 8
  if off = 0 || (0x10 ≤ off && off < 0x1000) || (0x1800 ≤ off && off < 0x2000) || tokens then
    s.plainWrite (unitBase 0xF0 5 0 + off) r w
  else s.writeDamper off w

/-- A write of the power block; with throttling off no die is held (R583, R594). -/
def State.writePwr (s : State) (off : Nat) (r : Row) (w : Word) : Nat × State :=
  let a := unitBase 0xF0 6 0 + off
  if off = 8 then
    let stops := s.isOn a F.PWR_THERM_CTL_THROTTLE_EN && !F.PWR_THERM_CTL_THROTTLE_EN.on w
    let x := s.guardedWrite [(stops && s.mstate ≠ MState.banked, Code.rejState)] a r w
    if x.1 = Code.done && stops then
      (Code.done, (List.range 64).foldl (fun s d => s.setHold d 0) x.2)
    else x
  else s.plainWrite a r w

/-- A write of the register at a home address. -/
def State.writeReg (s : State) (inband : Bool) (a : Nat) (r : Row) (w : Word) : Nat × State :=
  let site := siteOf a
  let block := blockOf a
  let unit := unitOf a
  let off := offsetOf a
  if site < 0x40 then
    if block < 80 then
      if unit < 0x42 then
        let c : CoreId := ⟨site, block, unit⟩
        match engOfWindow (off / 0x1000) with
        | some e => s.writeEngine c e (off % 0x1000) r w
        | none => s.writeCommon c off r w
      else if unit = 0xE0 then s.writeSync ⟨site, block⟩ off r w
      else if unit = 0xE2 then s.writeGrate ⟨site, block⟩ off r w
      else s.plainWrite a r w
    else s.writeDie site block off r w
  else if site < 0x50 then
    if block = 0x20 then (if 0x1000 ≤ off then s.writeVigil off r w else s.plainWrite a r w) else s.writeIod a r w
  else if site < 0xC0 then s.writeStack (site - 0x80) unit off r w
  else
    match block with
    | 0 => s.writeIdent inband off r w
    | 1 => s.writeAlm off r w
    | 2 => s.writeRoute off r w
    | 3 => s.writeFlueReg off r w
    | 4 => s.writeFpool off r w
    | 5 => s.writeDmp off r w
    | _ => s.writePwr off r w

/-- A write of an instruction bank: refused for the active bank and for an armed one (R100). -/
def State.writeInstr (s : State) (c : CoreId) (bank off : Nat) (w : Word) : Nat × State :=
  let ctl := s.reg (Reg.HTH_BANK_CTL c)
  if bank = F.HTH_BANK_CTL_ACTIVE.get ctl || F.HTH_BANK_CTL_ARMED.on ctl then (Code.rejState, s)
  else (Code.done, (s.iwrite c bank off (leBytes 8 w.toNat)).setMark .istore (istoreAt c bank (off / 16 * 16)) 0)

/-- A management write: its code and the state after it. A 32-bit write uses the low half of the data (R539). -/
def State.mgmtWrite (s : State) (inband : Bool) (a width : Nat) (data : Word) : Nat × State :=
  let w : Word := if width = 64 then data else BitVec.ofNat 64 (data.toNat % 2 ^ 32)
  match s.spot a width with
  | .error code => (code, s)
  | .ok .silent => (Code.rejState, s)
  | .ok (.instr c bank off) => s.writeInstr c bank off w
  | .ok (.reg h r) => s.writeReg inband h r w

/-! ## The commands -/

/-- A management write as a command. -/
def mgmtCommand (a width : Nat) (data : Word) (s : State) : Host.Outcome State Fault Refusal :=
  let r := s.mgmtWrite false a width data
  .next (r.2.completed r.1 0)

/-- REGISTER_WRITE: a management write (R9, R13, R37, R38). -/
def execRegisterWrite (addr width : Nat) (data : Word) (s : State) : Host.Outcome State Fault Refusal :=
  mgmtCommand addr width data s

/-- INSTRUCTION_BANK_WRITE: a management write of an instruction bank window (R33, R100). -/
def execInstructionBankWrite (c : CoreId) (bank off width : Nat) (data : Word) (s : State) :
    Host.Outcome State Fault Refusal :=
  if c.ok && bank < 2 then
    if off < 0x3000 then mgmtCommand (coreBase c + 0x8000 + 0x3000 * bank + off) width data s
    else .next (s.completed Code.rejRange 0)
  else .refused .noSuchUnit

/-- BANK_ARM: ARMED is written (R102, R103). -/
def execBankArm (c : CoreId) (s : State) : Host.Outcome State Fault Refusal :=
  if c.ok then mgmtCommand (Reg.HTH_BANK_CTL c) 32 (F.HTH_BANK_CTL_ARMED.only 1) s else .refused .noSuchUnit

/-- BANK_DISARM: DISARM is written (R102, R103). -/
def execBankDisarm (c : CoreId) (s : State) : Host.Outcome State Fault Refusal :=
  if c.ok then mgmtCommand (Reg.HTH_BANK_CTL c) 32 (F.HTH_BANK_CTL_DISARM.only 1) s else .refused .noSuchUnit

/-- One bit of SEQ_CTL is written. -/
def seqCommand (c : CoreId) (e : Cls) (f : Fld) (s : State) : Host.Outcome State Fault Refusal :=
  if c.has e then mgmtCommand (Reg.SEQ_CTL c e) 32 (f.only 1) s else .refused .noSuchUnit

/-- START (R106, R108). -/
def execStart (c : CoreId) (e : Cls) (s : State) : Host.Outcome State Fault Refusal := seqCommand c e F.SEQ_CTL_START s
/-- STOP (R106). -/
def execStop (c : CoreId) (e : Cls) (s : State) : Host.Outcome State Fault Refusal := seqCommand c e F.SEQ_CTL_STOP s
/-- CLEAR_FAULT (R106, R107). -/
def execClearFault (c : CoreId) (e : Cls) (s : State) : Host.Outcome State Fault Refusal :=
  seqCommand c e F.SEQ_CTL_CLEAR_FAULT s
/-- RETRY (R106, R107). -/
def execRetry (c : CoreId) (e : Cls) (s : State) : Host.Outcome State Fault Refusal := seqCommand c e F.SEQ_CTL_RETRY s

/-- RED_INJECT: a write of RED_INJECT (R242). -/
def execRedInject (c : CoreId) (data : Word) (s : State) : Host.Outcome State Fault Refusal :=
  if c.ok then mgmtCommand (Reg.RED_INJECT c) 32 data s else .refused .noSuchUnit

/-- TEN_INJECT: a write of TEN_INJECT (R266). -/
def execTenInject (c : CoreId) (data : Word) (s : State) : Host.Outcome State Fault Refusal :=
  if c.has .tensor then mgmtCommand (Reg.TEN_INJECT c) 32 data s else .refused .noSuchUnit

/-- INJECT: a write of a Shape, Sort or Scale engine's INJECT (R309). -/
def execInject (c : CoreId) (e : Cls) (data : Word) (s : State) : Host.Outcome State Fault Refusal :=
  if c.ok && (e = .shape || e = .sort || e = .scale) then mgmtCommand (Reg.UNIT_INJECT c e) 32 data s
  else .refused .noSuchUnit

/-- DAMPER_CONFIG_WRITE: a write of the Damper block (R439 to R446). -/
def execDamperConfigWrite (addr width : Nat) (data : Word) (s : State) : Host.Outcome State Fault Refusal :=
  if siteOf addr = 0xF0 && blockOf addr = 5 then mgmtCommand addr width data s else .refused .noSuchUnit

end Sys2Proof.Machine
end

