-- ==== Sys2Proof/Machine/Vigil.lean ====
section
/-! DEFINITION. The control port: commands and responses, identity, status and attestation, register and memory
commands, and the I3C path (chapter 15). -/
namespace Sys2Proof.Machine

/-! ## Commands (R532, R537) -/

namespace Opc
def idRead : Nat := 0x01
def statusRead : Nat := 0x02
def almRead : Nat := 0x03
def lifeRead : Nat := 0x04
def fencePort : Nat := 0x05
def fenceModule : Nat := 0x06
def domainReset : Nat := 0x07
def powerDown : Nat := 0x08
def releasePort : Nat := 0x09
def releaseModule : Nat := 0x0A
def regRead : Nat := 0x10
def regWrite : Nat := 0x11
def memRead : Nat := 0x12
def memWrite : Nat := 0x13
def powerOn : Nat := 0x20
def damp : Nat := 0x21
def bank : Nat := 0x22
def resetModule : Nat := 0x23
def attest : Nat := 0x30
def certRead : Nat := 0x31
def cfgInstall : Nat := 0x32
def cfgRead : Nat := 0x33
def imgStage : Nat := 0x34
end Opc

namespace M
def tag : Fld := ⟨63, 48⟩
def opc : Fld := ⟨47, 40⟩
def resp : Fld := ⟨39, 39⟩
def status : Fld := ⟨31, 24⟩
end M

/-- The in-band rules of R538. -/
def inbandOk (s : State) (opc : Nat) : Bool :=
  let ctl := s.reg Reg.VIG_INBAND_CTL
  F.VIG_INBAND_CTL_EN.on ctl &&
    (opc ≤ Opc.fenceModule || opc = Opc.releasePort || opc = Opc.releaseModule || opc = Opc.attest || opc = Opc.certRead ||
      ((opc = Opc.regRead || opc = Opc.memRead) && F.VIG_INBAND_CTL_READ.on ctl))

/-- The states in which each command is accepted, in the order COLD, KINDLING, BANKED, SHADOW, LIT, DAMPED, FENCED (R543). -/
def acceptedIn (opc : Nat) : List Bool :=
  match opc with
  | 0x05 | 0x09 | 0x06 => [false, false, true, true, true, true, false]
  | 0x0A => [false, false, false, false, false, false, true]
  | 0x07 | 0x23 | 0x32 | 0x34 => [false, true, true, false, false, true, true]
  | 0x08 | 0x10 => [false, true, true, true, true, true, true]
  | 0x11 | 0x12 | 0x13 => [false, false, true, true, true, true, true]
  | 0x20 => [true, false, false, false, false, false, false]
  | 0x21 => [false, false, false, true, true, false, false]
  | 0x22 => [false, false, false, false, false, true, false]
  | _ => [true, true, true, true, true, true, true]

/-- What the Vigil ROM alone serves (R554). -/
def romServes (opc : Nat) (q : Req) : Bool :=
  opc = Opc.idRead || opc = Opc.statusRead || opc = Opc.resetModule || (opc = Opc.imgStage && leAt q.payload 0 1 = 1)

/-- The code that refuses a command before its own checks (R538, R543, R544, R566). -/
def State.gate (s : State) (opc : Nat) (q : Req) : Option Nat :=
  firstCode [
    (q.path = .inband && !inbandOk s opc, Code.rejPriv),
    (!(acceptedIn opc).getD s.mstate false, Code.rejState),
    (s.vigil.romOnly && !romServes opc q, Code.rejState),
    (q.path = .i3c && 240 < q.payload.length, Code.rejRange)]

/-! ## Responses (R532 to R534, R541, R566) -/

/-- A kept response answers a command (R534). -/
def Kept.answers (k : Kept) (q : Req) : Bool :=
  k.path = q.path && k.tag = q.tag % 65536 && (q.path ≠ .inband || (k.smod = q.smod && k.src = q.src % 65536))

/-- Word 1 of a response (R532). -/
def Kept.word1 (k : Kept) : Word := wordOf [(M.tag, k.tag), (M.opc, k.opc), (M.resp, 1), (M.status, k.status)]

/-- The header and payload of a response (R532). -/
def Kept.bytes (k : Kept) : List Byte :=
  leBytes 8 (wordOf [(P.ptype, 5), (P.dmod, 1), (P.length, k.payload.length)]).toNat ++ leBytes 8 k.word1.toNat ++ k.payload

/-- A response leaves on its path: in-band as a packet to the command's source, on I3C for the controller to read; on an
Ihlyel port it leaves at once (R532, R566). -/
def State.sendResponse (s : State) (k : Kept) : State :=
  match k.path with
  | .inband =>
    let w0 := s.originWord 5 0 (if k.smod then 1 else 0) k.src k.payload.length
    s.sendOut (Flying.of { w0 := w0, w1 := k.word1, payload := k.payload } none none s.now)
  | .i3c => { s with vigil := { s.vigil with i3cReady := s.vigil.i3cReady ++ [k] } }
  | _ => s

/-- Responses kept: the last 256 of each path (R534). -/
def keepLast (k : Kept) (l : List Kept) : List Kept :=
  k :: (l.filter (fun x => x.path = k.path)).take 255 ++ l.filter (fun x => x.path ≠ k.path)

/-- A command completes: its response is kept and sent, and a rejection is counted (R533, R534, R568). -/
def State.respond (s : State) (opc : Nat) (q : Req) (code : Nat) (payload : List Byte) : State :=
  let k : Kept := { path := q.path, tag := q.tag % 65536, smod := q.smod, src := q.src % 65536, opc := opc, status := code,
                    payload := payload }
  let s := if Code.family code = 2 then s.count Reg.VIG_CMD_REJECTS F.VIG_CMD_REJECTS_COUNT 1 else s
  ({ s with vigil := { s.vigil with kept := keepLast k s.vigil.kept } }).sendResponse k

/-- A MGMT packet carries a command (R532). -/
def carriesReq (opc : Nat) (q : Req) (p : Packet) : Bool :=
  h0 p P.ptype = 5 && M.tag.get p.w1 = q.tag % 65536 && M.opc.get p.w1 = opc && (h0 p P.smod = 1) = q.smod &&
    h0 p P.src = q.src % 65536 && p.payload = q.payload

/-- A command is taken from its path: an in-band packet leaves the queue, and an Ihlyel port counts it (R536, R569). -/
def State.takeReq (s : State) (opc : Nat) (q : Req) : State :=
  match q.path with
  | .inband =>
    match takeFirst (carriesReq opc q) s.vigil.mgmtQ with
    | some (_, rest) => { s with vigil := { s.vigil with mgmtQ := rest } }
    | none => s
  | .ihlyelA => s.bump (Reg.VIG_IHL_CMDS 0) F.VIG_IHL_CMDS_COUNT 1
  | .ihlyelB => s.bump (Reg.VIG_IHL_CMDS 8) F.VIG_IHL_CMDS_COUNT 1
  | .i3c => s

/-- How a command that passed its gate ends: with a response, with a response to come, or not yet because a unit it needs
cannot answer now. -/
inductive Ran where
  | done (code : Nat) (payload : List Byte) (s : State)
  | later (s : State)
  | waits

/-- A command ends with a code and no payload. -/
def Ran.code (c : Nat) (s : State) : Ran := .done c [] s

/-- The payload of a response that refuses a command: the count of completed entries, 0, for REG_READ and REG_WRITE
(R533, R539). -/
def refusalPayload (opc : Nat) : List Byte := if opc = Opc.regRead || opc = Opc.regWrite then leBytes 8 0 else []

/-- A command reaches the Vigil: a kept response is sent again; else it is judged and runs (R534, R544). Without 48 V nothing
is served (R531). -/
def State.command (s : State) (opc : Nat) (q : Req) (run : State → Ran) : State :=
  let t := s.takeReq opc q
  if !s.power.applied then s else
  match s.vigil.kept.find? (fun k => k.answers q) with
  | some k => t.sendResponse k
  | none =>
    match s.gate opc q with
    | some code => t.respond opc q code (refusalPayload opc)
    | none =>
      match run t with
      | .done code payload t => t.respond opc q code payload
      | .later t => t
      | .waits => s

/-- A payload of the wrong length completes with REJ_FORMAT (R537). -/
def sized (q : Req) (ok : Nat → Bool) (s : State) (run : State → Ran) : Ran :=
  if ok q.payload.length then run s else .code Code.rejFormat s

/-! ## Identity, status and lifetime (R537, R558 to R560, R590) -/

/-- The public device key of a Vigil (R558). -/
def vigilKey (n : Nat) : List Byte := (List.range 64).map (Config.deviceKey n)

/-- The identity digest of the module (R558). -/
def identityDigest : List Byte := sha256 (vigilKey 0)

/-- The stored record of a type (R562). -/
def State.record_ (s : State) (rtype : Nat) : List Byte := AMap.get s.vigil.records [] rtype

/-- The body of the stored record of a type. -/
def State.recordBody (s : State) (rtype : Nat) : List Byte :=
  let r := s.record_ rtype
  slice r 128 (leAt r 48 2)

/-- The digest of a stored record's body; zeros with none (R559). -/
def State.bodyDigest (s : State) (rtype : Nat) : List Byte :=
  if (s.record_ rtype).isEmpty then List.replicate 32 0 else sha256 (s.recordBody rtype)

/-- The active slot of an image type: 0 for A, 1 for B (R568). -/
def State.activeSlot (s : State) (type : Nat) : Nat :=
  if bitAt (s.fld Reg.VIG_BOOT_STATUS F.VIG_BOOT_STATUS_SLOT) (type - 1) then 1 else 0

/-- Header bytes of the active image of a type (R556). -/
def State.imageHead (s : State) (type off n : Nat) : List Byte :=
  let k := 2 * (type - 1) + s.activeSlot type
  let img := AMap.get s.vigil.images [] k
  if img.isEmpty then (List.range n).map fun i => Config.imageByte k (off + i) else slice img off n

/-- The number of the leading Vigil. -/
def State.leadNum (s : State) : Nat := s.fld Reg.VIG_IDENT F.VIG_IDENT_LEAD

/-- The identity record (R559). -/
def State.idRecord (s : State) : List Byte :=
  let m := s.reg Reg.VIG_MODULE_ID
  leBytes 2 0x4B01 ++ leBytes 1 (F.VIG_IDENT_STEPPING.get s.ident) ++ leBytes 1 (F.VIG_IDENT_GRADE.get s.ident) ++
  leBytes 1 s.leadNum ++ leBytes 1 s.mstate ++
  leBytes 2 (F.VIG_MODULE_ID_VALID.get m * 2 ^ 15 + F.VIG_MODULE_ID_ID.get m) ++
  leBytes 8 Config.serial.toNat ++ leBytes 8 (s.reg Reg.VIG_REPRO_ID).toNat ++
  identityDigest ++ sha256 (vigilKey 8) ++ s.bodyDigest 1 ++ s.bodyDigest 2 ++
  ([1, 2, 3, 4].flatMap fun t => s.imageHead t 16 8) ++ leBytes 8 (s.reg Reg.VIG_SECVER).toNat ++ List.replicate 64 0

/-- The 64 bytes of an Ashpit entry (R497). -/
def AshEntry.bytes (e : AshEntry) : List Byte := (List.range 8).flatMap fun w => leBytes 8 (e.word w)

/-- The payload of a STATUS_READ response (R537). -/
def State.statusBytes (s : State) (first : Nat) : List Byte :=
  let w (a : Nat) : List Byte := leBytes 8 (s.reg a).toNat
  w Reg.VIG_STATE ++ w Reg.VIG_BOOT_STATUS ++ w Reg.VIG_HEALTH ++ w Reg.VIG_ASH_HEAD ++
    (((s.ash.filter fun e => first ≤ e.seq).reverse).take 64).flatMap AshEntry.bytes

/-- A lifetime header word (R590). -/
def State.lifeWord (s : State) (w : Nat) : Nat := AMap.get s.life 0 w

/-- A PWR_STATUS flag is set and its setting counted (R11, R593). -/
def State.pwrFlag (s : State) (f : Fld) : State :=
  (s.flag Reg.PWR_STATUS f).count (Reg.PWR_EVENTS f.lo) F.PWR_EVENTS_COUNT 1

/-- A SUPPLY detection is logged (R604). -/
def State.logSupply (s : State) (code site : Nat) (details : List Nat) : State :=
  s.logAt AClass.supply code site (if site = 0xF0 then 6 else 0) 0 details

/-- The hottest compute die, in 0.1 °C (R590, R593). -/
def hottestDie (s : State) : Int :=
  (List.range 64).foldl (fun m d => max m (toSigned 16 (s.fld (Reg.PWR_DIE d) F.PWR_DIE_TEMP))) (-32768)

/-- Some die is held (R590). -/
def anyHeld (s : State) : Bool := (List.range 64).any fun d => s.fld (Reg.PWR_DIE d) F.PWR_DIE_HOLD ≠ 0

/-- The TEMP_S word that counts a second at a temperature (R590). -/
def tempWord (t : Int) : Nat := if t < 600 then 3 else if t < 750 then 4 else if t < 900 then 5 else if t < 1000 then 6 else 7

/-- The rated life in seconds (R591). -/
def ratedLife : Nat := 315360000

/-- The whole seconds since the last are counted in the lifetime record; outside COLD only (R590, R591). -/
def State.countSeconds (s : State) : State :=
  let p := s.power
  if s.mstate = MState.cold then { s with power := { p with countedTo := s.now, hotSecond := false } }
  else
    let n := (s.now - p.countedTo) / 1000000000
    if n = 0 then s
    else
      let before := s.lifeWord 2
      let hot := p.hotSecond || anyHeld s
      let s := { s with power := { p with countedTo := p.countedTo + n * 1000000000, hotSecond := false } }
      let s := ((s.lifeAdd 2 n).lifeAdd (tempWord (hottestDie s)) n).lifeAdd 15 (if hot then n else 0)
      if before < ratedLife && ratedLife ≤ s.lifeWord 2 then (s.pwrFlag F.PWR_STATUS_LIFE_END_SEEN).logSupply Code.done 0xF0 []
      else s

/-- The record of a stack (R590): writes in units of 2^20 slots. -/
def State.lifeStackBytes (s : State) (k : Nat) : List Byte :=
  let st := s.reg (Reg.MEM_STACK_STATUS k)
  leBytes 8 (s.lifeWord (lifeStack k 0)) ++ leBytes 8 (s.lifeWord (lifeStack k 1)) ++
  leBytes 8 (s.lifeWord (lifeStack k 2) / 2 ^ 20) ++
  leBytes 8 (Nat.min (s.lifeWord (lifeStack k 3)) (2 ^ 32 - 1) + F.MEM_STACK_STATUS_SPARES_USED.get st % 256 * 2 ^ 32 +
    F.MEM_STACK_STATUS_STATE.get st * 2 ^ 40)

/-- The lifetime record (R590). -/
def State.lifeBytes (s : State) : List Byte :=
  ((List.range 20).flatMap fun w => leBytes 8 (s.lifeWord w)) ++ List.replicate 96 0 ++
    (List.range 64).flatMap s.lifeStackBytes

/-- Bytes [296, 304) of an attestation report: the signer and what is in force (R560). -/
def State.attestFlags (s : State) : List Byte :=
  let bit (a : Nat) (f : Fld) : Nat := if s.isOn a f then 1 else 0
  leBytes 1 s.leadNum ++ leBytes 1 (bit Reg.VIG_IDENT F.VIG_IDENT_DEBUG + 2 * bit Reg.VIG_REPRO_ID F.VIG_REPRO_ID_INJECT +
    4 * bit Reg.VIG_REPRO_ID F.VIG_REPRO_ID_TSUB + 8 * bit Reg.VIG_BOOT_STATUS F.VIG_BOOT_STATUS_FALLBACK) ++
    List.replicate 6 0

/-- The attestation report over a nonce (R560). -/
def State.attestReport (s : State) (nonce : List Byte) : List Byte :=
  let body := s.idRecord ++ nonce ++ leBytes 8 s.alm ++ s.attestFlags ++
    sha256 ([1, 2, 3, 4, 5, 6].flatMap s.record_) ++ ([1, 2, 3, 4].flatMap fun t => s.imageHead t 32 32) ++
    List.replicate 48 0
  body ++ (List.range 64).map (Config.signByte s.leadNum (sha256 body))

/-- ID_READ (R537, R559). -/
def execIdRead (q : Req) (s : State) : Host.Outcome State Fault Refusal :=
  .next <| s.command Opc.idRead q fun s => sized q (· = 0) s fun s => .done Code.done s.idRecord s

/-- STATUS_READ (R537). -/
def execStatusRead (q : Req) (s : State) : Host.Outcome State Fault Refusal :=
  .next <| s.command Opc.statusRead q fun s => sized q (· = 8) s fun s =>
    .done Code.done (s.statusBytes (leAt q.payload 0 8)) s

/-- ALM_READ (R537). -/
def execAlmRead (q : Req) (s : State) : Host.Outcome State Fault Refusal :=
  .next <| s.command Opc.almRead q fun s => sized q (· = 0) s fun s =>
    .done Code.done (leBytes 8 s.alm ++ leBytes 8 (s.reg Reg.ALM_STATUS).toNat) s

/-- LIFE_READ (R537, R587, R590). -/
def execLifeRead (q : Req) (s : State) : Host.Outcome State Fault Refusal :=
  .next <| s.command Opc.lifeRead q fun s => sized q (· = 0) s fun s =>
    let s := s.countSeconds
    .done Code.done s.lifeBytes s

/-- ATTEST (R560). -/
def execAttest (q : Req) (s : State) : Host.Outcome State Fault Refusal :=
  .next <| s.command Opc.attest q fun s => sized q (· = 32) s fun s => .done Code.done (s.attestReport q.payload) s

/-- Bytes of a certificate, up to its end (R558). -/
def certBytes (i off len : Nat) : List Byte :=
  (List.range (Nat.min len (Config.certLen i - off))).map fun k => Config.certByte i (off + k)

/-- CERT_READ (R537, R558). -/
def execCertRead (q : Req) (s : State) : Host.Outcome State Fault Refusal :=
  .next <| s.command Opc.certRead q fun s => sized q (· = 8) s fun s =>
    let w := leAt q.payload 0 8
    let len := bits w 47 32
    if bits w 1 0 = 3 || outside 1 1000 len then .code Code.rejRange s
    else .done Code.done (certBytes (bits w 1 0) (bits w 31 8) len) s

/-- CFG_READ: the stored record of a type, or nothing (R537). -/
def execCfgRead (q : Req) (s : State) : Host.Outcome State Fault Refusal :=
  .next <| s.command Opc.cfgRead q fun s => sized q (· = 8) s fun s =>
    .done Code.done (s.record_ (leAt q.payload 0 1)) s

/-! ## REG_READ and REG_WRITE (R539) -/

/-- An entry's address word and data. -/
def regEntry (q : Req) (i : Nat) : Nat × Nat := (leAt q.payload (16 * i) 8, leAt q.payload (16 * i + 8) 8)

/-- One entry of a REG command runs: its code, the value read, and the state (R539). -/
def State.regAccess (s : State) (q : Req) (write : Bool) (i : Nat) : Nat × Word × State :=
  let (w, data) := regEntry q i
  let a := w % 2 ^ 40
  let width := if bitAt w 40 then 64 else 32
  if bits w 63 41 ≠ 0 then (Code.rejFormat, 0, s)
  else if write then
    let x := s.mgmtWrite (q.path = .inband) a width (BitVec.ofNat 64 data)
    (x.1, 0, x.2)
  else s.mgmtRead a width

/-- What entries do, in order, from the `i`th on: the code that stops them or DONE, the values of those completed, and the
state. -/
def State.regEntries (s : State) (q : Req) (write : Bool) (i : Nat) : Nat → Nat × List Word × State
  | 0 => (Code.done, [], s)
  | n + 1 =>
    let r := s.regAccess q write i
    if Code.family r.1 ≠ 0 then (r.1, [], r.2.2)
    else
      let rest := r.2.2.regEntries q write (i + 1) n
      (rest.1, r.2.1 :: rest.2.1, rest.2.2)

/-- 1 to 64 entries of 16 bytes (R537). -/
def regSize (n : Nat) : Bool := n % 16 = 0 && 1 ≤ n / 16 && n / 16 ≤ 64

/-- A REG command: the count of completed entries, and for a read their values (R539). -/
def State.regCommand (s : State) (q : Req) (write : Bool) : Ran :=
  if !regSize q.payload.length then .done Code.rejFormat (leBytes 8 0) s
  else
    let r := s.regEntries q write 0 (q.payload.length / 16)
    .done r.1 (leBytes 8 r.2.1.length ++ (if write then [] else r.2.1.flatMap fun v => leBytes 8 v.toNat)) r.2.2

/-- REG_READ (R539). -/
def execRegRead (q : Req) (s : State) : Host.Outcome State Fault Refusal :=
  .next <| s.command Opc.regRead q fun s => s.regCommand q false

/-- REG_WRITE (R539). -/
def execRegWrite (q : Req) (s : State) : Host.Outcome State Fault Refusal :=
  .next <| s.command Opc.regWrite q fun s => s.regCommand q true

/-! ## MEM_READ and MEM_WRITE (R540) -/

/-- A core that no locator of space 0x2 or 0x3 refers to. -/
def noCore : CoreId := ⟨64, 0, 0⟩

/-- The place a MEM command names, or the code that refuses it (R540). -/
def State.memPlace (s : State) (q : Req) (write : Bool) : Except Nat (Place × Nat) :=
  let l := leAt q.payload 0 8
  let n := if write then leAt q.payload 8 8 % 2 ^ 14 else leAt q.payload 8 8
  let badLen := n = 0 || n % 64 ≠ 0 || (if write then 8128 else 8192) < n ||
    q.payload.length ≠ (if write then 64 + n else 16)
  let space := bits l 63 60
  match placeOf s noCore l with
  | .ok p =>
    if (space ≠ 2 && space ≠ 3) || p.addr % 64 ≠ 0 || p.limit s < p.addr + n then .error Code.rejRange
    else if badLen then .error Code.rejFormat
    else .ok (p, n)
  | .error _ => .error Code.rejRange

/-- MEM_READ: bytes of a scratchpad or of fabric memory (R540). -/
def execMemRead (q : Req) (s : State) : Host.Outcome State Fault Refusal :=
  .next <| s.command Opc.memRead q fun s => sized q (· = 16) s fun s =>
    match s.memPlace q false with
    | .error code => .code code s
    | .ok (p, n) =>
      if silent s p n then .waits
      else
        let r := s.readNoting 64 p n
        .done r.1.1 (if Code.family r.1.1 = 0 then r.1.2 else []) r.2

/-- MEM_WRITE: bytes to a scratchpad or to fabric memory, where operation windows apply them (R328, R540). -/
def execMemWrite (q : Req) (s : State) : Host.Outcome State Fault Refusal :=
  .next <| s.command Opc.memWrite q fun s => sized q (64 ≤ ·) s fun s =>
    match s.memPlace q true with
    | .error code => .code code s
    | .ok (p, n) =>
      if silent s p n then .waits
      else let r := s.placeWrite 64 p (slice q.payload 64 n); .code r.1 r.2

/-! ## The I3C path (R565 to R567) -/

/-- An Ashpit report as an unsolicited response (R541). -/
def reportBytes (e : AshEntry) : List Byte :=
  (Kept.bytes { path := .i3c, tag := 0, smod := false, src := 0, opc := 0x80, status := 0, payload := e.bytes })

/-- What the next private read takes its bytes from: the rest of a response begun, else the oldest response that is ready,
else the oldest report (R566, R567). -/
def State.i3cNext (s : State) : List Byte × State :=
  if !s.vigil.i3cOut.isEmpty then (s.vigil.i3cOut, s)
  else
    match s.vigil.i3cReady, s.reports with
    | k :: rest, _ => (k.bytes, { s with vigil := { s.vigil with i3cReady := rest } })
    | [], e :: rest => (reportBytes e, { s with reports := rest })
    | [], [] => ([], s)

/-- I3C_RESPONSE_READ: a private read of `len` bytes takes the next bytes of a pending response, at most 1,024 (R566,
R567). -/
def execI3cResponseRead (len : Nat) (s : State) : Host.Outcome State Fault Refusal :=
  let (bs, s) := s.i3cNext
  let n := Nat.min len 1024
  .next { s with vigil := { s.vigil with i3cOut := bs.drop n, i3cReport := bs.take n } }

/-- I3C_CCC: a common command code sets the target's dynamic address or its interrupt enable; the reads of GETPID to GETMRL
change nothing (R565). -/
def execI3cCcc (c : Ccc) (s : State) : Host.Outcome State Fault Refusal :=
  let v := s.vigil
  let v : Vigil :=
    match c with
    | .enec m => if bitAt m 0 then { v with i3cIbi := true } else v
    | .disec m => if bitAt m 0 then { v with i3cIbi := false } else v
    | .rstdaa => { v with i3cAddr := none }
    | .entdaa a => if v.i3cAddr.isNone then { v with i3cAddr := some (a % 128) } else v
    | .setdasa st a => if st = 0x31 && v.i3cAddr.isNone then { v with i3cAddr := some (a % 128) } else v
    | _ => v
  .next { s with vigil := v }

end Sys2Proof.Machine
end

