-- ==== Sys2Proof/Machine/Trust.lean ====
section
/-! DEFINITION. Quorum requests and fencing, DAMP and BANK, configuration records and signed images (chapters 14 and
15). -/
namespace Sys2Proof.Machine

/-! ## Quorum requests (R517 to R519) -/

namespace Q
def op (b : List Byte) : Nat := leAt b 0 1
def nsig (b : List Byte) : Nat := leAt b 1 1
def port (b : List Byte) : Nat := leAt b 2 2
def module (b : List Byte) : Nat := leAt b 4 2
def nonce (b : List Byte) : Nat := leAt b 8 8
def expiry (b : List Byte) : Nat := leAt b 16 8
/-- Signature entry `i`. -/
def entry (b : List Byte) (i : Nat) : List Byte := slice b (32 + 72 * i) 72
/-- Key index of entry `i`. -/
def keyIndex (b : List Byte) (i : Nat) : Nat := leAt (entry b i) 0 1
end Q

/-- Any byte of a range is nonzero. -/
def anyByte (b : List Byte) (lo n : Nat) : Bool := (slice b lo n).any (· ≠ 0)

/-- Number of manager keys, and the quorum (R517). -/
def State.qn (s : State) : Nat := s.fld Reg.VIG_QKEYS F.VIG_QKEYS_N
def State.qk (s : State) : Nat := s.fld Reg.VIG_QKEYS F.VIG_QKEYS_K

/-- Manager key `i` of the stored MANAGERS body (R562). -/
def State.managerKey (s : State) (i : Nat) : List Byte := slice (s.recordBody 2) (8 + 64 * i) 64

/-- The format row of R519. -/
def badQuorum (s : State) (b : List Byte) : Bool :=
  let ks := (List.range (Q.nsig b)).map (Q.keyIndex b)
  Q.op b = 0 || 4 < Q.op b || Q.nsig b = 0 || 7 < Q.nsig b || 1023 < Q.port b ||
  ((Q.op b = 1 || Q.op b = 4) && Q.port b ≠ 0) || 4095 < Q.module b || anyByte b 6 2 || anyByte b 24 8 ||
  (List.range (Q.nsig b)).any (fun i => anyByte (Q.entry b i) 1 7) || ks.any (fun k => s.qn ≤ k) || ks.eraseDups.length ≠ ks.length

/-- Entries whose signature verifies over the body (R518). -/
def quorumVotes (s : State) (b : List Byte) : Nat :=
  let d := sha256 (slice b 0 32)
  (List.range (Q.nsig b)).countP fun i =>
    ecdsaVerify (s.managerKey (Q.keyIndex b i)) d (slice (Q.entry b i) 8 32) (slice (Q.entry b i) 40 32)

/-- The code that rejects a quorum request, if one does (R519). -/
def quorumCode (s : State) (b : List Byte) : Option Nat :=
  firstCode [
    (s.qn = 0, Code.rejSignature),
    (badQuorum s b, Code.rejFormat),
    (s.moduleId ≠ some (Q.module b) || ((Q.op b = 2 || Q.op b = 3) && s.widthCode (Q.port b) = 0), Code.rejRange),
    (Q.nonce b ≠ s.fld Reg.VIG_QNONCE F.VIG_QNONCE_NONCE || Q.expiry b < s.alm, Code.rejSignature),
    (quorumVotes s b < s.qk, Code.rejSignature)]

/-- A quorum command: its request is decided, and if it is accepted NONCE increments and the operation runs (R519, R537). -/
def State.quorum (s : State) (op : Nat) (q : Req) (run : State → State) : Ran :=
  let b := q.payload
  if b.length < 32 || b.length ≠ 32 + 72 * Q.nsig b || Q.op b ≠ op then .code Code.rejFormat s
  else
    match quorumCode s b with
    | some code =>
      .code code ((s.count Reg.VIG_QREJECTS F.VIG_QREJECTS_COUNT 1).logAt AClass.control code s.leadSite 0x20 0 [])
    | none => .code Code.done (run (s.bump Reg.VIG_QNONCE F.VIG_QNONCE_NONCE 1))

/-! ## Fencing the module (R547, R548) -/

/-- A RUNNING Flue completes with FAIL_ABORTED and sends no ABORT (R547). -/
def State.flueStop (s : State) (f : Nat) : State :=
  match (s.flue f).run with
  | none => s
  | some r =>
    let m := (s.flue f).image
    if Im.quick m then s.quickFail f r Code.failAborted
    else
      let s := (s.spoilDests m).flueRecord f m r Code.failAborted 0 |>.2
      (((s.freeHeld f r).closeRun f Code.failAborted 0).flueFlags Code.failAborted).logFlue Code.failAborted []

/-- Every engine receives STOP (R547). -/
def State.stopEngines (s : State) : State :=
  s.cores.foldl (fun s x => x.2.engs.foldl (fun s y => s.stopEngine (coreOfKey x.1) (engineOfCode y.1)) s) s
where
  /-- The engine class of a class code. -/
  engineOfCode (k : Nat) : Cls := (allCls.find? fun e => clsCode e = k).getD .tally

/-- Enabled ports of the Jorvief personality. -/
def State.jorviefPorts (s : State) : List Nat :=
  (List.range 1024).filter fun p => s.isOn (Reg.LNK_PORT_CFG p) F.LNK_PORT_CFG_ENABLE && !s.isEth p

/-- The module enters FENCED (R547). -/
def State.enterFenced (s : State) : State :=
  let s := s.jorviefPorts.foldl State.fencePort s
  let s := (s.stopAll).setMState MState.fenced
  let s := if 1 ≤ s.phase && s.phase ≤ 5 then s.setPhase 7 Code.failAborted else s
  let s := (s.flues.filter fun x => s.flueSt x.1 = FSt.running).foldl (fun s x => s.flueStop x.1) s
  s.stopEngines.freezeRec

/-- Ports that the module fence fenced enter DOWN; those of FENCE_PORT stay fenced (R548). -/
def State.releaseModule (s : State) : State :=
  let s := (s.setMState MState.banked).setFld Reg.VIG_STATE F.VIG_STATE_FENCE_CMD 0
  ((List.range 1024).filter fun p => s.portState p = 4 && !s.vigil.fencedPorts.contains p).foldl State.releasePort s

/-- FENCE_MODULE (R519, R547). -/
def execFenceModule (q : Req) (s : State) : Host.Outcome State Fault Refusal :=
  .next <| s.command Opc.fenceModule q fun s =>
    s.quorum 1 q fun s => s.enterFenced.setFld Reg.VIG_STATE F.VIG_STATE_FENCE_CMD 1

/-- FENCE_PORT (R396, R519). -/
def execFencePort (q : Req) (s : State) : Host.Outcome State Fault Refusal :=
  .next <| s.command Opc.fencePort q fun s =>
    s.quorum 2 q fun s =>
      let p := Q.port q.payload
      let s := s.fencePort p
      { s with vigil := { s.vigil with fencedPorts := if s.vigil.fencedPorts.contains p then s.vigil.fencedPorts
                                                       else p :: s.vigil.fencedPorts } }

/-- RELEASE_PORT (R396, R519). -/
def execReleasePort (q : Req) (s : State) : Host.Outcome State Fault Refusal :=
  .next <| s.command Opc.releasePort q fun s =>
    s.quorum 3 q fun s =>
      let p := Q.port q.payload
      let s := s.releasePort p
      { s with vigil := { s.vigil with fencedPorts := s.vigil.fencedPorts.filter (· ≠ p) } }

/-- RELEASE_MODULE: refused while FENCE_N is low (R519, R548). -/
def execReleaseModule (q : Req) (s : State) : Host.Outcome State Fault Refusal :=
  .next <| s.command Opc.releaseModule q fun s =>
    if s.isOn Reg.VIG_STATE F.VIG_STATE_FENCE_PIN then .code Code.rejState s else s.quorum 4 q State.releaseModule

/-- FENCE_N: the pin has been low for 1 µs, or has risen; low, it fences a module that may be fenced (R542, R547, R550). -/
def execFenceN (level : Bool) (s : State) : Host.Outcome State Fault Refusal :=
  let m := s.mstate
  let s := s.setFld Reg.VIG_STATE F.VIG_STATE_FENCE_PIN (if level then 0 else 1)
  .next (if !level && 2 ≤ m && m ≤ 5 then s.enterFenced else s)

/-! ## DAMP and BANK (R545, R546) -/

/-- DAMP: a module in SHADOW ends its shadowing with FAIL_ABORTED (R545). -/
def execDamp (q : Req) (s : State) : Host.Outcome State Fault Refusal :=
  .next <| s.command Opc.damp q fun s => sized q (· = 0) s fun s =>
    let s := if s.mstate = MState.shadow then
        (s.setShd Shd.ended).setFld Reg.VIG_SHD_STATUS F.VIG_SHD_STATUS_CODE Code.failAborted else s
    .code Code.done s.enterDamped

/-- The module is quiet enough for BANK (R546). -/
def bankReady (s : State) : Bool :=
  s.cores.all (fun x => x.2.engs.all fun y => y.2.st = .halted || y.2.st = .faulted) && !s.anyRunning &&
  s.regions.all fun x => x.2.save.isNone

/-- BANK (R546). -/
def execBankModule (q : Req) (s : State) : Host.Outcome State Fault Refusal :=
  .next <| s.command Opc.bank q fun s => sized q (· = 0) s fun s =>
    if bankReady s then .code Code.done (s.setMState MState.banked) else .code Code.rejState s

/-! ## Keys (R556, R557, R561) -/

/-- A public key is the unrevoked Ahnairy key of an index (R557, R563). -/
def romKey (s : State) (key : List Byte) (i : Nat) : Bool :=
  sha256 key = (List.range 32).map (Config.romDigest i) && !bitAt s.vigil.revoked i

/-! ## Configuration records (R561 to R563) -/

namespace Cr
def rtype (b : List Byte) : Nat := leAt b 4 1
def keysrc (b : List Byte) : Nat := leAt b 5 1
def keyidx (b : List Byte) : Nat := leAt b 6 1
def seq (b : List Byte) : Nat := leAt b 8 8
def bind (b : List Byte) : List Byte := slice b 16 32
def bodylen (b : List Byte) : Nat := leAt b 48 2
def pubkey (b : List Byte) : List Byte := slice b 64 64
def body (b : List Byte) : List Byte := slice b 128 (bodylen b)
end Cr

/-- The BODYLEN that a record type takes (R562). -/
def bodyLen (b : List Byte) : Nat :=
  match Cr.rtype b with
  | 1 => 64
  | 2 => ceilDiv (8 + 64 * leAt b 128 1) 16 * 16
  | _ => 16

/-- The format row of R563. -/
def badRecord (b : List Byte) : Bool :=
  b.length < 192 || leAt b 0 4 ≠ 0x31524341 || Cr.rtype b = 0 || 6 < Cr.rtype b || 2 < Cr.keysrc b ||
  (if Cr.keysrc b = 0 then decide (3 < Cr.keyidx b) else decide (Cr.keyidx b ≠ 0)) || anyByte b 7 1 || anyByte b 50 14 ||
  (Cr.keysrc b = 1 && anyByte b 64 64) || Cr.bodylen b ≠ bodyLen b || b.length ≠ 192 + Cr.bodylen b ||
  (Cr.rtype b = 2 && (anyByte b 130 6 ||
    anyByte b (136 + 64 * leAt b 128 1) (Cr.bodylen b - 8 - 64 * leAt b 128 1)))

/-- The range row of R563. -/
def rangeRecord (s : State) (b : List Byte) : Bool :=
  let bound := anyByte b 16 32
  let n := leAt b 128 1
  let k := leAt b 129 1
  (bound && Cr.bind b ≠ identityDigest) || (Cr.rtype b = 4 && !bound) ||
  (Cr.rtype b = 2 && (n = 0 || 7 < n || 2 * k ≤ n || n < k)) ||
  (Cr.rtype b = 6 && (List.range 4).all (fun i => bitAt s.vigil.revoked i || bitAt (leAt b 128 1) i))

/-- An owner key is installed (R562). -/
def State.owned (s : State) : Bool := !(s.record_ 1).isEmpty

/-- The key a record is to be verified under, if its KEYSRC is allowed for its type and the key is good (R562, R563). -/
def recordKey (s : State) (b : List Byte) : Option (List Byte) :=
  let src := Cr.keysrc b
  let owner : Option (List Byte) := if s.owned then some (s.recordBody 1) else none
  match Cr.rtype b with
  | 1 => if src = 1 then owner else if src = 2 && !s.owned && Cr.pubkey b = Cr.body b then some (Cr.pubkey b) else none
  | 2 | 3 => if src = 1 then owner else none
  | _ => if src = 0 && romKey s (Cr.pubkey b) (Cr.keyidx b) then some (Cr.pubkey b) else none

/-- The signature row of R563. -/
def recordSigned (s : State) (b : List Byte) : Bool :=
  let n := 128 + Cr.bodylen b
  (match recordKey s b with
   | some key => ecdsaVerify key (sha256 (slice b 0 n)) (slice b n 32) (slice b (n + 32) 32)
   | none => false) &&
  ((s.record_ (Cr.rtype b)).isEmpty || leAt (s.record_ (Cr.rtype b)) 8 8 < Cr.seq b)

/-- The larger of two minimum versions, by type (R562). -/
def joinSecver (old new : Nat) : Nat :=
  sumNat ((List.range 4).map fun t => Nat.max (bits old (16 * t + 15) (16 * t)) (bits new (16 * t + 15) (16 * t)) * 2 ^ (16 * t))

/-- What takes effect at once when a record is stored (R562). -/
def State.recordEffect (s : State) (b : List Byte) : State :=
  match Cr.rtype b with
  | 1 => s.setFld Reg.VIG_IDENT F.VIG_IDENT_OWNER 1
  | 2 => (s.setFld Reg.VIG_QKEYS F.VIG_QKEYS_N (leAt b 128 1)).setFld Reg.VIG_QKEYS F.VIG_QKEYS_K (leAt b 129 1)
  | 5 =>
    let a := Reg.VIG_SECVER
    s.setFld a F.VIG_SECVER_MIN (joinSecver (s.fld a F.VIG_SECVER_MIN) (leAt b 128 8))
  | 6 => { s with vigil := { s.vigil with revoked := s.vigil.revoked ||| (leAt b 128 1 % 16) } }
  | _ => s

/-- CFG_INSTALL: a configuration record is checked and stored in both Vigils (R561 to R563). -/
def execCfgInstall (q : Req) (s : State) : Host.Outcome State Fault Refusal :=
  .next <| s.command Opc.cfgInstall q fun s =>
    let b := q.payload
    match firstCode [
        (badRecord b, Code.rejFormat),
        (Cr.rtype b = 4 && !Config.gradeE, Code.rejState),
        (Cr.rtype b = 1 && Cr.keysrc b = 2 && (s.mstate ≠ MState.banked || q.path = .inband), Code.rejPriv),
        (rangeRecord s b, Code.rejRange),
        (!recordSigned s b, Code.rejSignature)] with
    | some code => .code code s
    | none =>
      .code Code.done
        ({ s with vigil := { s.vigil with records := AMap.set s.vigil.records [] (Cr.rtype b) b } }.recordEffect b)

/-! ## Signed images (R555 to R557) -/

/-- The format row of R557. -/
def badImage (type : Nat) (b : List Byte) : Bool :=
  let n := leAt b 12 4
  leAt b 0 4 ≠ 0x314B4E41 || leAt b 4 2 ≠ 1 || leAt b 6 1 ≠ type || 3 < leAt b 7 1 || 3 < leAt b 10 2 ||
  anyByte b 24 8 || anyByte b 128 32 || anyByte b 224 32 || n % 16 ≠ 0 || outside 16 0x800000 n || b.length ≠ 256 + n

/-- The check of an image, in order (R557). -/
def imageCode (s : State) (type : Nat) (b : List Byte) : Option Nat :=
  firstCode [
    (badImage type b, Code.rejFormat),
    (!bitAt (leAt b 10 2) (if Config.steppingB1 then 1 else 0), Code.rejRange),
    (!romKey s (slice b 64 64) (leAt b 7 1), Code.rejSignature),
    (!ecdsaVerify (slice b 64 64) (sha256 (slice b 0 160)) (slice b 160 32) (slice b 192 32) ||
      sha256 (b.drop 256) ≠ slice b 32 32, Code.rejSignature),
    (leAt b 8 2 < bits (s.fld Reg.VIG_SECVER F.VIG_SECVER_MIN) (16 * type - 1) (16 * type - 16), Code.rejSignature)]

/-- The bytes received so far are set. -/
def State.setStaging (s : State) (x : Option Staging) : State := { s with vigil := { s.vigil with staging := x } }

/-- An image that passes is written to the inactive slot of its type (R555). -/
def State.storeImage (s : State) (type : Nat) (b : List Byte) : State :=
  let k := 2 * (type - 1) + (1 - s.activeSlot type)
  let s := { s with vigil := { s.vigil with images := AMap.set s.vigil.images [] k b,
                                            staged := s.vigil.staged ||| 2 ^ (type - 1) } }
  s.logAt AClass.info Code.done s.leadSite 0x20 0 []

/-- A chunk whose arguments are well formed (R555). -/
def State.stageChunk (s : State) (b : List Byte) : Nat × State :=
  let type := leAt b 0 1
  let off := leAt b 8 4
  let total := leAt b 12 4
  let chunk := b.drop 64
  let before : List Byte :=
    match s.vigil.staging with
    | some x => if off ≠ 0 && x.type = type && x.total = total then x.bytes else []
    | none => []
  if before.length ≠ off then (Code.rejRange, s.setStaging none)
  else
    let bytes := before ++ chunk
    if leAt b 16 1 = 0 then (Code.done, s.setStaging (some ⟨type, total, bytes⟩))
    else
      let s := s.setStaging none
      match (if bytes.length = total then imageCode s type bytes else some Code.rejFormat) with
      | some code => (code, s)
      | none => (Code.done, s.storeImage type bytes)

/-- IMG_STAGE: a chunk of an image, verified and stored with its FINAL chunk (R555 to R557). -/
def execImgStage (q : Req) (s : State) : Host.Outcome State Fault Refusal :=
  .next <| s.command Opc.imgStage q fun s => sized q (64 ≤ ·) s fun s =>
    let b := q.payload
    if outside 1 4 (leAt b 0 1) || anyByte b 1 7 || 1 < leAt b 16 1 || anyByte b 17 47 then .code Code.rejFormat s
    else let r := s.stageChunk b; .code r.1 r.2

end Sys2Proof.Machine
end

