-- ==== Sys2Proof/Machine/Kindling.lean ====
section
/-! DEFINITION. Domain resets, power-down, Kindling and Vigil failover (chapters 15 and 16). -/
namespace Sys2Proof.Machine

/-! ## The lifetime record's stamps and commits (R588, R589) -/

/-- A stamp of the present Almanac (R588). -/
def State.lifeStamp (s : State) : Nat := s.alm % 2 ^ 63 + (if s.power.almMoved then 0 else 2 ^ 63)

/-- A lifetime word set. -/
def State.setLife (s : State) (w n : Nat) : State := { s with life := AMap.set s.life 0 w n }

/-- The lifetime record is committed: the store keeps two copies (R589). -/
def State.commitLife (s : State) : State :=
  let s := s.setLife 0 s.lifeStamp
  { s with lifeKept := (s.life :: s.lifeKept).take 2 }

/-- LIFE_COMMIT (R589). -/
def execLifeCommit (s : State) : Host.Outcome State Fault Refusal := .next s.countSeconds.commitLife

/-- LIFE_MIRROR: the lead Vigil mirrors the record to the backup (R587). -/
def execLifeMirror (s : State) : Host.Outcome State Fault Refusal :=
  let s := s.countSeconds
  .next { s with lifeMirror := s.life }

/-! ## Domain resets (R551) -/

/-- Bytes of a memory outside [lo, hi). -/
def Mem.without (m : List Host.Cell) (lo hi : Nat) : List Host.Cell := m.filter fun c => c.1 < lo || hi ≤ c.1

/-- Entries of a map whose key lies outside [lo, hi). -/
def AMap.without {β : Type} (m : AMap β) (lo hi : Nat) : AMap β := m.filter fun x => x.1 < lo || hi ≤ x.1

/-- A register that a reset of its domain leaves: the Vigil's own, and what training and self-tests found of links and
slots. -/
def resetKeeps (a : Nat) : Bool :=
  (0x40 ≤ siteOf a && siteOf a < 0x50 && (blockOf a = 0x20 || (blockOf a = 0x10 && 0x100 ≤ offsetOf a && offsetOf a < 0x110))) ||
  (siteOf a < 0x40 && blockOf a = 0xF1 && 0x100 ≤ offsetOf a && offsetOf a < 0x120) ||
  (0x80 ≤ siteOf a && unitOf a = 0xFF && offsetOf a = 0)

/-- The registers of a site take their reset values. -/
def State.resetRegs (s : State) (site : Nat) : State :=
  { s with regs := s.regs.filter fun x => siteOf x.1 ≠ site || resetKeeps x.1 }

/-- The spare slots of a die that failed their self-test (R525). -/
def failedSlots (s : State) (die : Nat) : List (Nat × Nat) :=
  (List.range 80).flatMap fun r => ([0, 1].filter fun k => slotState s die r k = 2).map fun k => (r, k)

/-- The die of a pool's key: none for the fabric-memory pool. -/
def poolDie (key : Nat) : Option Nat :=
  if key < 2 ^ 21 then some (key / 16384) else if key < 2 ^ 22 then some ((key - 2 ^ 21) / 128) else none

/-- A compute die is reset: cores, spare slots, sync files, die store and Calendar unit (R551, R583). -/
def State.resetDie (s : State) (d : Nat) : State :=
  let bad := failedSlots s d
  let k := 128 * 128 * d
  let k' := 128 * 128 * (d + 1)
  let s := s.resetRegs d
  let s := bad.foldl (fun s x => s.setSlot d x.1 x.2 2 0) s
  let s := { s with
    cores := AMap.without s.cores k k', regions := AMap.without s.regions (128 * d) (128 * (d + 1)),
    hearth := Mem.without s.hearth (k * 0x20000) (k' * 0x20000),
    istore := Mem.without s.istore (k * 0x8000) (k' * 0x8000),
    scratch := Mem.without s.scratch (d * 0x8000000) ((d + 1) * 0x8000000),
    cache := AMap.without s.cache (d * 2 ^ 32) ((d + 1) * 2 ^ 32),
    buffers := s.buffers.filter fun b => poolDie (b.1 / 2 ^ 22) ≠ some d,
    subst := AMap.set s.subst none d none,
    phaseB := ⟨0, false, []⟩, phaseC := ⟨0, []⟩,
    admitQ := s.admitQ.filter fun w => match w.core with | some c => c.die ≠ d | none => true,
    job := { s.job with checks := AMap.set s.job.checks [] d [] } }
  let s := s.unmark .hearth (k * 0x4000) (k' * 0x4000)
  let s := s.unmark .istore (k * 0x8000) (k' * 0x8000)
  let s := s.unmark .scratch (d * 0x1000000) ((d + 1) * 0x1000000)
  let s := s.unmark .sync (d * 0x80000) ((d + 1) * 0x80000)
  s.setFld (Reg.PWR_DIE d) F.PWR_DIE_HOLD 0

/-- A port's packets and link state are lost; its buffers and admission are freed (R551). -/
def State.losePort (s : State) (p : Nat) : State :=
  let x := s.port p
  let gone := x.stream.map Prod.fst ++ (x.outq.map Prod.snd).flatten
  (gone.foldl State.packetGone s).setPort p Port.idle

/-- An I/O die is reset but for its Vigil island: its ports stop, and the records it held in transit are lost (R149, R520,
R551). -/
def State.resetIod (s : State) (n : Nat) : State :=
  let ps := (s.ports.map Prod.fst).filter fun p => p / 64 = n
  let s := (ps.foldl State.losePort s).resetRegs (0x40 + n)
  let s := { s with times := AMap.without s.times (64 * n) (64 * (n + 1)), transit := s.transit.filter fun e => e.iod ≠ n }
  (if n = 0 then { s with refBackup := true } else s).follow

/-- A memory stack is reset: every granule reads as zero after release (R551). -/
def State.resetStack (s : State) (k : Nat) : State :=
  let s := s.resetRegs (0x80 + k)
  let s := if stackWaits s k then s.setFld (Reg.MEM_STACK_STATUS k) F.MEM_STACK_STATUS_STATE 1 else s
  { s with
    fabric := s.fabric.filter fun c => stackOf (c.1 / 512) ≠ k,
    marks := s.marks.filter fun m => m.1 < markKey .fabric 0 || markKey .sync 0 ≤ m.1 ||
      stackOf ((m.1 - markKey .fabric 0) / 8) ≠ k }

/-- The domain of a site takes its reset values (R551). -/
def State.resetSite (s : State) (site : Nat) : State :=
  if site < 0x40 then s.resetDie site
  else if site < 0x50 then s.resetIod (site - 0x40)
  else s.resetStack (site - 0x80)

/-- A DOMAIN_RESET that has had no response answers the same command (R534). -/
def pendingReset (s : State) (q : Req) : Bool :=
  s.vigil.resets.any fun x => x.2.1.path = q.path && x.2.1.tag % 65536 = q.tag % 65536 &&
    (q.path ≠ .inband || (x.2.1.smod = q.smod && x.2.1.src % 65536 = q.src % 65536))

/-- DOMAIN_RESET: a domain is held in reset; its response follows the release (R550, R551). -/
def execDomainReset (q : Req) (s : State) : Host.Outcome State Fault Refusal :=
  .next <| s.command Opc.domainReset q fun s => sized q (· = 8) s fun s =>
    let w := leAt q.payload 0 8
    let site := w % 256
    if 256 ≤ w then .code Code.rejFormat s
    else if !siteOk site then .code Code.rejRange s
    else if pendingReset s q then .later s
    else
      let s := s.resetSite site
      .later { s with inReset := if s.inReset.contains site then s.inReset else site :: s.inReset,
                      vigil := { s.vigil with resets := s.vigil.resets ++ [(site, q, s.now)] } }

/-- DOMAIN_RELEASE: a domain is released, with reset registers and zeroed memory, and the commands that reset it get their
response (R550, R551). -/
def execDomainRelease (site : Nat) (s : State) : Host.Outcome State Fault Refusal :=
  onUnit (siteOk site) <|
    let due := s.vigil.resets.filter fun x => x.1 = site
    let s := if s.inReset.contains site then { s.resetSite site with inReset := s.inReset.filter (· ≠ site) } else s
    let s := { s with vigil := { s.vigil with resets := s.vigil.resets.filter fun x => x.1 ≠ site } }
    due.foldl (fun s x => s.respond Opc.domainReset x.2.1 Code.done []) s

/-! ## Power-down (R577, R578) -/

/-- A register of the Vigils' islands: their own blocks, the identity block and the power block. -/
def islandReg (a : Nat) : Bool :=
  (siteOf a = 0xF0 && (blockOf a = 0 || blockOf a = 6)) || (0x40 ≤ siteOf a && siteOf a < 0x50 && blockOf a = 0x20)

/-- Everything but the Vigils' islands and the model's own fields is lost (R552, R577). -/
def State.wiped (s : State) : State :=
  { State.reset with
    pending := s.pending, now := s.now, alm := s.alm, freeCtr := s.freeCtr, access := s.access, answer := s.answer,
    regs := s.regs.filter fun x => islandReg x.1,
    ash := s.ash, reports := s.reports, reported := s.reported, vigil := { s.vigil with fencedPorts := [] }, power := s.power,
    life := s.life, lifeKept := s.lifeKept, lifeMirror := s.lifeMirror }

/-- The power-down sequence runs, with the bit mask of the triggers that started it: bit 0 POWER_DOWN or PWR_OFF_N, bit k
the supply fault of CAUSE k; the lifetime record is committed (R577, R589). -/
def State.goCold (s : State) (triggers : Nat) : State :=
  let s := s.countSeconds.wiped.setMState MState.cold
  { s with power := { s.power with triggers := triggers, holds := [] } }.commitLife

/-- POWER_DOWN (R550, R577). -/
def execPowerDown (q : Req) (s : State) : Host.Outcome State Fault Refusal :=
  .next <| s.command Opc.powerDown q fun s => sized q (· = 0) s fun s => .code Code.done (s.goCold 1)

/-- PWR_OFF_N: the pin has been low for 100 µs, or has risen; low, it powers down a module that is not COLD (R542, R550). -/
def execPwrOffN (level : Bool) (s : State) : Host.Outcome State Fault Refusal :=
  let s := s.setFld Reg.VIG_STATE F.VIG_STATE_PWROFF_PIN (if level then 0 else 1)
  .next (if !level && s.mstate ≠ MState.cold then s.goCold 1 else s)

/-! ## Kindling (R552 to R554) -/

/-- A stored record is in force from this Kindling on: bit 0 of the first body byte (R562). -/
def State.latched (s : State) (rtype : Nat) : Nat := if (s.record_ rtype).isEmpty then 0 else leAt (s.recordBody rtype) 0 1 % 2

/-- The slots that become active at this Kindling (R555). -/
def State.nextSlots (s : State) : Nat := s.fld Reg.VIG_BOOT_STATUS F.VIG_BOOT_STATUS_SLOT ^^^ s.vigil.staged

/-- Kindling begins: stage 1 (R552, R562, R588, R590). -/
def State.kindle (s : State) : State :=
  let cold := s.mstate = MState.cold
  let first := s.lifeWord 9 = 0
  let s := s.countSeconds.wiped.setMState MState.kindling
  let s := s.setReg Reg.VIG_BOOT_STATUS (wordOf [(F.VIG_BOOT_STATUS_SLOT, s.nextSlots), (F.VIG_BOOT_STATUS_STAGE, 1)])
  let a := Reg.VIG_REPRO_ID
  let s := (s.setFld a F.VIG_REPRO_ID_TSUB (s.latched 3)).setFld a F.VIG_REPRO_ID_INJECT (s.latched 4)
  let s := s.setFld Reg.VIG_IDENT F.VIG_IDENT_DEBUG (if (s.record_ 4).isEmpty then 0 else 1)
  let s := { s with vigil := { s.vigil with staged := 0, romOnly := false, spareLost := false, stageAt := s.now },
                    power := { s.power with triggers := 0, holds := [], almMoved := false } }
  let s := if first then s.setLife 1 s.lifeStamp else s
  (s.lifeAdd 9 1).lifeAdd 8 (if cold then 1 else 0)

/-- RESET_MODULE (R542, R552). -/
def execResetModule (q : Req) (s : State) : Host.Outcome State Fault Refusal :=
  .next <| s.command Opc.resetModule q fun s => sized q (· = 0) s fun s => .code Code.done s.kindle

/-- The coolant is inside the limits of R579. -/
def coolantOk (s : State) : Bool :=
  let w := s.reg Reg.PWR_COOLANT
  let inlet := toSigned 16 (F.PWR_COOLANT_INLET.get w)
  decide (150 ≤ inlet) && decide (inlet ≤ 280) && decide (3000 ≤ F.PWR_COOLANT_FLOW.get w)

/-- A POWER_ON leaves COLD: the strictest row of R578 among the triggers governs. -/
def mayPowerOn (s : State) : Bool :=
  let t := s.power.triggers
  if bitAt t 4 || bitAt t 5 then coolantOk s
  else if bitAt t 3 then true
  else if bitAt t 0 || t = 0 then !s.isOn Reg.VIG_STATE F.VIG_STATE_PWROFF_PIN
  else false

/-- POWER_ON (R578). -/
def execPowerOn (q : Req) (s : State) : Host.Outcome State Fault Refusal :=
  .next <| s.command Opc.powerOn q fun s => sized q (· = 0) s fun s =>
    if mayPowerOn s then .code Code.done s.kindle else .code Code.rejState s

/-- The Vigil islands power up: the Ashpit is empty, and what their stores hold is read back (R497, R499, R589). -/
def State.islandsUp (s : State) : State :=
  let v := s.vigil
  let s := { s with
    ash := [], reports := [], reported := none, life := s.lifeKept.headD s.life, power := { s.power with applied := true },
    vigil := { Vigil.fresh with images := v.images, staged := v.staged, records := v.records, revoked := v.revoked } }
  (s.setReg Reg.VIG_ASH_HEAD (regReset Reg.VIG_ASH_HEAD)).setReg Reg.VIG_ASH_ACK (regReset Reg.VIG_ASH_ACK)

/-- POWER_APPLY: 48 V is applied, or removed and applied again, to a module in COLD; with PWR_OFF_N high, and no supply fault
to recover from, Kindling begins (R552, R578). -/
def execPowerApply (s : State) : Host.Outcome State Fault Refusal :=
  if s.mstate ≠ MState.cold then .next s
  else
    let s := s.islandsUp
    .next (if s.power.triggers ≤ 1 && !s.isOn Reg.VIG_STATE F.VIG_STATE_PWROFF_PIN then s.kindle else s)

/-- SUPPLY_RECOVERY: after UNDERVOLT or OVERVOLT the input has stayed in range for 100 ms with PWR_OFF_N high (R578). -/
def execSupplyRecovery (s : State) : Host.Outcome State Fault Refusal :=
  let t := s.power.triggers
  let only := t ≠ 0 && t % 2 = 0 && !bitAt t 3 && !bitAt t 4 && !bitAt t 5
  if s.mstate = MState.cold && only && !s.isOn Reg.VIG_STATE F.VIG_STATE_PWROFF_PIN then
    .next (s.at (s.now + 100000000)).kindle
  else .next s

/-- Kindling is under way: it has begun and has not stopped. -/
def State.kindling (s : State) : Bool :=
  s.mstate = MState.kindling && !s.isOn Reg.VIG_BOOT_STATUS F.VIG_BOOT_STATUS_FAILED

/-- Kindling stops at a stage with a code (R554). -/
def State.stopKindling (s : State) (stage code : Nat) : State :=
  let a := Reg.VIG_BOOT_STATUS
  let s := (s.setFld a F.VIG_BOOT_STATUS_FAILED 1).setFld a F.VIG_BOOT_STATUS_STAGE stage
  (s.setFld a F.VIG_BOOT_STATUS_CODE code).logAt AClass.control code s.leadSite 0x20 0 []

/-- The bound of a stage in ns (R552). -/
def stageBound : Nat → Nat
  | 1 => 50000000 | 2 => 100000000 | 3 => 150000000 | 4 => 400000000 | _ => 100000000

/-- KINDLING_STAGE_TIMEOUT: a stage passes its bound (R554). -/
def execKindlingStageTimeout (stage : Nat) (s : State) : Host.Outcome State Fault Refusal :=
  onUnit (1 ≤ stage && stage ≤ 5) <|
    if s.kindling then (s.at (s.vigil.stageAt + stageBound stage)).stopKindling stage Code.failTimeout else s

/-- KINDLING_IMAGE_FAILURE: both slots of an image type fail; of the VIGIL image, on both Vigils (R554). -/
def execKindlingImageFailure (type : Nat) (s : State) : Host.Outcome State Fault Refusal :=
  onUnit (1 ≤ type && type ≤ 4) <|
    if s.kindling then
      let s := { s with vigil := { s.vigil with romOnly := s.vigil.romOnly || type = 1 } }
      s.stopKindling (if type = 1 then 1 else 3) Code.rejSignature
    else s

/-- The registers that Kindling leaves as they are: what is stored, latched at stage 1 or kept. -/
def keptRegs : List Nat :=
  [Reg.VIG_IDENT, Reg.VIG_STATE, Reg.VIG_BOOT_STATUS, Reg.VIG_REPRO_ID, Reg.VIG_SECVER, Reg.VIG_QKEYS, Reg.VIG_ASH_HEAD,
   Reg.VIG_ASH_ACK, Reg.PWR_LAST_FAULT]

/-- Stage 5: memories are zero, and every register takes its reset value (R552). -/
def State.clearAll (s : State) : State :=
  let s := s.wiped
  { s with alm := 0, regs := s.regs.filter fun x => keptRegs.contains x.1 }

/-- What stage 4 found of links and slots (R553). -/
def State.trainAll (s : State) (r : KindlingReport) : State :=
  let s := (r.stackLanes.filter fun x => x.1 < 64).foldl (fun s x => s.trainStack x.1 x.2) s
  let s := (r.linkLanes.filter fun x => x.1.ok).foldl (fun s x => s.trainLink x.1 x.2) s
  (r.failedSlots.filter fun x => x.1.ok && x.2 < 2).foldl (fun s x => s.setSlot x.1.die x.1.region x.2 2 0) s

/-- KINDLING_DONE: Kindling completes within 800 ms, and the module is BANKED, or FENCED with FENCE_N low (R542, R552 to
R554). -/
def execKindlingDone (r : KindlingReport) (s : State) : Host.Outcome State Fault Refusal :=
  if !s.kindling || 800 < r.milliseconds then .next s
  else
    let s := s.at (s.vigil.stageAt + r.milliseconds * 1000000)
    let types := [1, 2, 3, 4].filter r.fallback.contains
    let s := s.setFld Reg.VIG_IDENT F.VIG_IDENT_LEAD (if r.backupLeads then 8 else 0)
    let s := types.foldl (fun s _ => s.logAt AClass.info Code.done s.leadSite 0x20 0 []) s
    let s := s.clearAll.trainAll r
    let a := Reg.VIG_BOOT_STATUS
    let s := (s.setFld a F.VIG_BOOT_STATUS_STAGE 6).setFld a F.VIG_BOOT_STATUS_MS r.milliseconds
    let mask := sumNat (types.map fun t => 2 ^ (t - 1))
    let s := (s.setFld a F.VIG_BOOT_STATUS_FALLBACK mask).setFld a F.VIG_BOOT_STATUS_SLOT
      (s.fld a F.VIG_BOOT_STATUS_SLOT ^^^ mask)
    let s := s.setFld Reg.VIG_STATE F.VIG_STATE_FENCE_CMD 0
    let s := s.setMState (if s.isOn Reg.VIG_STATE F.VIG_STATE_FENCE_PIN then MState.fenced else MState.banked)
    .next (s.logAt AClass.info Code.done s.leadSite 0x20 0 [r.milliseconds])

/-! ## Vigil failover (R564) -/

/-- VIGIL_FAILOVER: the backup takes over; commands that had no response get none (R564). -/
def execVigilFailover (s : State) : Host.Outcome State Fault Refusal :=
  if s.leadSite = 0x48 || s.vigil.spareLost then .next s
  else
    let s := { s with vigil := { s.vigil with mgmtQ := [], resets := [] } }
    let s := (s.setFld Reg.VIG_IDENT F.VIG_IDENT_LEAD 8).count (Reg.VIG_FAILOVERS 8) F.VIG_FAILOVERS_COUNT 1
    .next (s.logAt AClass.info Code.done 0x48 0x20 0 [])

/-- BACKUP_VIGIL_LOST: the lead Vigil reports a failed backup, and no takeover is then possible (R564). -/
def execBackupVigilLost (s : State) : Host.Outcome State Fault Refusal :=
  if s.leadSite = 0x48 || s.vigil.spareLost then .next s
  else .next ({ s with vigil := { s.vigil with spareLost := true } }.logAt AClass.control Code.done 0x48 0x20 0 [])

end Sys2Proof.Machine
end

