-- ==== Sys2Proof/Machine/Power.lean ====
section
/-! DEFINITION. Supply, cooling and thermal samples, supply faults and throttling (chapter 16). -/
namespace Sys2Proof.Machine

/-! ## Conditions that must hold for a time -/

/-- Since when a condition has held, plus 1; 0 while it does not hold. -/
def State.heldSince (s : State) (k : Nat) : Nat := AMap.get s.power.holds 0 k

/-- The state after condition `k` is judged now: whether it has just held for `dur` ns. A condition has its result once
each time it holds. -/
def State.holding (s : State) (k dur : Nat) (cond : Bool) : Bool × State :=
  let set (s : State) (k v : Nat) : State := { s with power := { s.power with holds := AMap.set s.power.holds 0 k v } }
  let fired := 2 ^ 32 + k
  if !cond then (false, set (set s k 0) fired 0)
  else
    let t0 := s.heldSince k
    if t0 = 0 then (dur = 0, set (set s k (s.now + 1)) fired (if dur = 0 then 1 else 0))
    else if t0 + dur ≤ s.now + 1 && s.heldSince fired = 0 then (true, set s fired 1)
    else (false, s)

/-! ## Supply faults (R575, R578) -/

/-- A supply fault: its CAUSE, the site of the sensor, the pair, and the reading. -/
structure SupplyFault where
  cause : Nat
  site : Nat
  pair : Nat
  reading : Nat
deriving DecidableEq, Repr

/-- A supply fault is logged and counted (R574, R590). -/
def State.noteFault (s : State) (f : SupplyFault) : State :=
  let s := (s.logSupply Code.done f.site (if f.cause ≤ 3 then [f.pair, f.reading] else [])).lifeAdd 16 1
  if 4 ≤ f.cause then s.lifeAdd 17 1 else s

/-- Supply faults that coincide power the module down; the first is recorded (R575, R578). -/
def State.supplyFaults (s : State) (fs : List SupplyFault) : State :=
  match fs with
  | [] => s
  | f :: _ =>
    if s.mstate = MState.cold then s
    else
      let s := fs.foldl State.noteFault s
      let s := s.setReg Reg.PWR_LAST_FAULT (wordOf [(F.PWR_LAST_FAULT_CAUSE, f.cause), (F.PWR_LAST_FAULT_SITE, f.site),
        (F.PWR_LAST_FAULT_PAIR, f.pair)])
      s.goCold (sumNat ((fs.map SupplyFault.cause).eraseDups.map fun c => 2 ^ c))

/-! ## Supply samples (R574, R593) -/

/-- Input power of a sample in mW: volts in 10 mV, amps in 0.1 A. -/
def samplePower (x : List Nat × List Nat) : Nat := sumNat ((List.range 4).map fun p => x.1.getD p 0 * x.2.getD p 0)

/-- The measurement registers after a sample (R593). -/
def State.measure (s : State) (volts amps : List Nat) : State :=
  let s := { s with power := { s.power with samples := ((volts, amps) :: s.power.samples).take 1000 } }
  let xs := s.power.samples
  let mean (n : Nat) : Nat := sumNat ((xs.take n).map samplePower) / (1000 * Nat.max 1 (Nat.min n xs.length))
  let s := (List.range 4).foldl (fun s p => s.setReg (Reg.PWR_PAIR p)
    (wordOf [(F.PWR_PAIR_VOLTS, volts.getD p 0), (F.PWR_PAIR_AMPS, amps.getD p 0)])) s
  let s := s.setReg Reg.PWR_INPUT (wordOf [(F.PWR_INPUT_VOLTS, volts.foldl Nat.max 0), (F.PWR_INPUT_AMPS, sumNat amps),
    (F.PWR_INPUT_WATTS, mean 1000)])
  let peak (s : State) (f : Fld) (n : Nat) : State :=
    if xs.length < n then s else s.setFld Reg.PWR_PEAK f (Nat.max (s.fld Reg.PWR_PEAK f) (mean n))
  let s := peak (peak s F.PWR_PEAK_W10US 10) F.PWR_PEAK_W1MS 1000
  let e := s.power.energy + samplePower (volts, amps)
  { s with power := { s.power with energy := e % 10 ^ 12 } }.lifeAdd 10 (e / 10 ^ 12)

/-- The first pair whose reading satisfies a test. -/
def pairWhere (xs : List Nat) (p : Nat → Bool) : Option Nat := (List.range 4).find? fun i => p (xs.getD i 0)

/-- A supply warning: flagged, counted and logged with the pair and its voltage (R574). -/
def State.supplyWarn (s : State) (k : Nat) (f : Fld) (volts : List Nat) (low : Nat) (input : Nat) : State :=
  let pair := pairWhere volts (· < low)
  let r := s.holding k 10000 (pair.isSome && decide (4000 ≤ input))
  if r.1 then (r.2.pwrFlag f).logSupply Code.done 0xF0 [pair.getD 0, volts.getD (pair.getD 0) 0] else r.2

/-- SUPPLY_SAMPLE: the voltages, in 10 mV, and currents, in 0.1 A, of the four pairs at the next 1 µs (R574, R589). Below
30 V the Vigil islands lose power, and with 30 V again they power up (R575). -/
def execSupplySample (volts amps : List Nat) (s : State) : Host.Outcome State Fault Refusal :=
  onUnit (volts.length = 4 && amps.length = 4) <|
    let s := (s.at ((s.now / 1000 + 1) * 1000)).countSeconds
    let input := volts.foldl Nat.max 0
    if s.mstate = MState.cold && input < 3000 then { s with power := { s.power with applied := false, samples := [] } }
    else
      let s := if s.power.applied then s else s.islandsUp
      let s := s.measure volts amps
      let s := s.supplyWarn 0 F.PWR_STATUS_SUPPLY_WARN_SEEN volts 4400 input
      let s := s.supplyWarn 1 F.PWR_STATUS_PAIR_LOSS_SEEN volts 2000 input
      let u := s.holding 2 10000 (input < 4000)
      let high := pairWhere volts (6000 < ·)
      let o := u.2.holding 3 1000 high.isSome
      let xs := o.2.power.samples
      let hot := if xs.length < 1000 then none
        else (List.range 4).find? fun p => 1650 * 1000 < sumNat (xs.map fun x => x.2.getD p 0)
      let c := o.2.holding 4 0 hot.isSome
      c.2.supplyFaults (
        (if u.1 then [⟨1, 0xF0, 0, input⟩] else []) ++
        (if o.1 then [⟨2, 0xF0, high.getD 0, volts.getD (high.getD 0) 0⟩] else []) ++
        (if c.1 then [⟨3, 0xF0, hot.getD 0, amps.getD (hot.getD 0) 0⟩] else []))

/-! ## Coolant samples (R581, R593) -/

/-- COOLANT_SAMPLE: inlet and outlet temperatures, in 0.1 °C, and flow, in 0.01 L/min (R581). -/
def execCoolantSample (inlet outlet : Int) (flow : Nat) (s : State) : Host.Outcome State Fault Refusal :=
  let s := s.setReg Reg.PWR_COOLANT (wordOf [(F.PWR_COOLANT_INLET, ofSigned 16 inlet), (F.PWR_COOLANT_OUTLET,
    ofSigned 16 outlet), (F.PWR_COOLANT_FLOW, flow)])
  let w := s.holding 16 1000000000 (decide (280 < inlet) || decide (flow < 3000))
  let s := if w.1 then (w.2.pwrFlag F.PWR_STATUS_COOLANT_WARN_SEEN).logSupply Code.done 0xF0 [] else w.2
  let h := s.holding 17 1000000000 (350 < inlet)
  let l := h.2.holding 18 100000000 (flow < 1500)
  .next <| l.2.supplyFaults (
    (if h.1 then [⟨5, 0xF0, 0, ofSigned 16 inlet⟩] else []) ++ (if l.1 then [⟨5, 0xF0, 0, flow⟩] else []))

/-! ## Thermal samples (R582, R593) -/

/-- The sensors of a site: four per compute die, one per stack, and at an I/O die sensors 0 and 1 of the die and 2 and 3 of
its optical engines. -/
def sensorOk (r : TempReading) : Bool :=
  (r.site < 0x40 && r.unit < 4) || (0x40 ≤ r.site && r.site < 0x50 && r.unit < 4) ||
  (0x80 ≤ r.site && r.site < 0xC0 && r.unit = 0)

/-- WARN and CRIT of a sensor, in 0.1 °C (R582). -/
def sensorLimits (r : TempReading) : Int × Int :=
  if r.site < 0x40 then (950, 1100)
  else if r.site < 0x50 then (if r.unit < 2 then (950, 1100) else (700, 800))
  else (850, 950)

/-- The register field that reports a sensor, and whether it is in whole °C (R409, R593). -/
def sensorReg (r : TempReading) : Nat × Fld × Bool :=
  if r.site < 0x40 then (Reg.PWR_DIE r.site, F.PWR_DIE_TEMP, false)
  else if r.site < 0x50 then
    if r.unit < 2 then (Reg.PWR_IOD (r.site - 0x40), F.PWR_IOD_TEMP, false)
    else (Reg.LNK_OE_STATUS (2 * (r.site - 0x40) + (r.unit - 2)), F.LNK_OE_STATUS_TEMP, true)
  else (Reg.PWR_STACK (r.site - 0x80), F.PWR_STACK_TEMP, false)

/-- The value a reading's register shows: the highest of the sample's readings that it reports. -/
def shownValue (rs : List TempReading) (r : TempReading) : Int :=
  (rs.filter fun x => sensorReg x = sensorReg r).foldl (fun m x => max m x.value) r.value

/-- One reading is shown and judged for WARN (R582); the highest reading ever of a compute die is kept (R590). -/
def State.takeReading (rs : List TempReading) (s : State) (r : TempReading) : State :=
  let (a, f, whole) := sensorReg r
  let v := shownValue rs r
  let s := s.setFld a f (if whole then ofSigned 8 (Int.fdiv v 10) else ofSigned 16 v)
  let s := if r.site < 0x40 && decide (toSigned 16 (s.lifeWord 18) < r.value) then
      (s.setLife 18 (ofSigned 16 r.value)).setLife 19 s.lifeStamp else s
  let key := 4 * r.site + r.unit
  let warn := (sensorLimits r).1
  let h := s.holding (1024 + key) 1000000 (warn ≤ r.value)
  let warm := h.2.power.warm
  let set (s : State) (l : List Nat) : State := { s with power := { s.power with warm := l } }
  if h.1 && !warm.contains key then
    (set (h.2.pwrFlag F.PWR_STATUS_THERM_WARN_SEEN) (key :: warm)).logSupply Code.done r.site [r.site]
  else if r.value ≤ warn - 30 then set h.2 (warm.filter (· ≠ key))
  else h.2

/-- One reading is judged for CRIT: the fault it raises, if it does (R582). -/
def State.judgeCrit (x : List SupplyFault × State) (r : TempReading) : List SupplyFault × State :=
  let h := x.2.holding (4096 + 4 * r.site + r.unit) 100000 ((sensorLimits r).2 ≤ r.value)
  (if h.1 then x.1 ++ [⟨4, r.site, 0, ofSigned 16 r.value⟩] else x.1, h.2)

/-- THERMAL_SAMPLE: sensor readings at the next 10 µs (R582). The sensors of the dies have no power in COLD. -/
def execThermalSample (readings : List TempReading) (s : State) : Host.Outcome State Fault Refusal :=
  onUnit (readings.all sensorOk) <|
    let s := (s.at ((s.now / 10000 + 1) * 10000)).countSeconds
    if s.mstate = MState.cold then s
    else
      let s := readings.foldl (State.takeReading readings) s
      let x := readings.foldl State.judgeCrit ([], s)
      x.2.supplyFaults x.1

/-! ## Throttling (R583, R584) -/

/-- A die's next hold count (R583). -/
def nextHold (s : State) (d : Nat) : Nat :=
  let h := s.fld (Reg.PWR_DIE d) F.PWR_DIE_HOLD
  let t := toSigned 16 (s.fld (Reg.PWR_DIE d) F.PWR_DIE_TEMP)
  if 1000 ≤ t then Nat.min 12 (h + 1) else if t < 970 then h - 1 else h

/-- A die's hold count is updated (R583). -/
def State.holdDie (s : State) (d : Nat) : State :=
  let h := s.fld (Reg.PWR_DIE d) F.PWR_DIE_HOLD
  let h' := nextHold s d
  let s := s.bump Reg.PWR_THROTTLE_CYCLES F.PWR_THROTTLE_CYCLES_COUNT (6250 * h)
  if h' = h then s
  else
    let s := s.setHold d h'
    if h = 0 then (s.pwrFlag F.PWR_STATUS_THROTTLE_SEEN).logSupply Code.done d [] else s

/-- THROTTLE_UPDATE: at the next Almanac multiple of 100,000 ns each die's hold count rises or falls (R583). -/
def execThrottleUpdate (s : State) : Host.Outcome State Fault Refusal :=
  if !s.isOn Reg.PWR_THERM_CTL F.PWR_THERM_CTL_THROTTLE_EN then .next s
  else
    let s := (s.atAlm (nextMultiple 100000 (s.alm + 1))).countSeconds
    let s := (List.range 64).foldl State.holdDie s
    .next { s with power := { s.power with hotSecond := s.power.hotSecond || anyHeld s } }

end Sys2Proof.Machine
end

