-- ==== Sys2Proof/Machine/Tables.lean ====
section
/-! DEFINITION. The tables and constants of the fixed algorithms (R295), each entry worked out from its definition. -/
namespace Sys2Proof.Machine

/-- LOG2E = RN(log2 e × 2^62) (R295). -/
def LOG2E : Nat := 6653256548922161246

/-- LN2 = RN(ln 2 × 2^48) (R295). -/
def LN2 : Nat := 195103586505167

/-- T1[i] = RN(2^(i / 2^8) × 2^40), entries 0 to 31 (R295). -/
def T1_0 : List Nat :=
  [1099511627776, 1102492706220, 1105481867187, 1108479132592, 1111484524408, 1114498064668, 1117519775464, 1120549678949,
   1123587797336, 1126634152898, 1129688767967, 1132751664939, 1135822866266, 1138902394464, 1141990272111, 1145086521844,
   1148191166361, 1151304228423, 1154425730852, 1157555696534, 1160694148413, 1163841109499, 1166996602861, 1170160651634,
   1173333279014, 1176514508259, 1179704362691, 1182902865696, 1186110040723, 1189325911283, 1192550500953, 1195783833372]

/-- T1[i] = RN(2^(i / 2^8) × 2^40), entries 32 to 63 (R295). -/
def T1_1 : List Nat :=
  [1199025932245, 1202276821340, 1205536524489, 1208805065590, 1212082468605, 1215368757561, 1218663956550, 1221968089730,
   1225281181324, 1228603255620, 1231934336974, 1235274449805, 1238623618601, 1241981867915, 1245349222366, 1248725706641,
   1252111345494, 1255506163745, 1258910186282, 1262323438061, 1265745944104, 1269177729502, 1272618819414, 1276069239068,
   1279529013758, 1282998168849, 1286476729774, 1289964722034, 1293462171200, 1296969102913, 1300485542883, 1304011516889]

/-- T1[i] = RN(2^(i / 2^8) × 2^40), entries 64 to 95 (R295). -/
def T1_2 : List Nat :=
  [1307547050779, 1311092170475, 1314646901966, 1318211271311, 1321785304641, 1325369028160, 1328962468138, 1332565650921,
   1336178602923, 1339801350631, 1343433920606, 1347076339476, 1350728633946, 1354390830791, 1358062956859, 1361745039070,
   1365437104419, 1369139179973, 1372851292872, 1376573470330, 1380305739635, 1384048128148, 1387800663307, 1391563372620,
   1395336283673, 1399119424125, 1402912821712, 1406716504243, 1410530499604, 1414354835755, 1418189540733, 1422034642651]

/-- T1[i] = RN(2^(i / 2^8) × 2^40), entries 96 to 127 (R295). -/
def T1_3 : List Nat :=
  [1425890169699, 1429756150140, 1433632612318, 1437519584651, 1441417095635, 1445325173843, 1449243847926, 1453173146613,
   1457113098709, 1461063733099, 1465025078745, 1468997164689, 1472980020050, 1476973674028, 1480978155900, 1484993495024,
   1489019720837, 1493056862856, 1497104950676, 1501164013977, 1505234082514, 1509315186127, 1513407354734, 1517510618335,
   1521625007013, 1525750550931, 1529887280332, 1534035225545, 1538194416978, 1542364885123, 1546546660555, 1550739773929]

/-- T1[i] = RN(2^(i / 2^8) × 2^40), entries 128 to 159 (R295). -/
def T1_4 : List Nat :=
  [1554944255988, 1559160137553, 1563387449534, 1567626222919, 1571876488786, 1576138278292, 1580411622681, 1584696553283,
   1588993101510, 1593301298861, 1597621176920, 1601952767357, 1606296101926, 1610651212471, 1615018130918, 1619396889282,
   1623787519664, 1628190054253, 1632604525324, 1637030965240, 1641469406453, 1645919881500, 1650382423010, 1654857063696,
   1659343836365, 1663842773908, 1668353909308, 1672877275638, 1677412906057, 1681960833818, 1686521092262, 1691093714822]

/-- T1[i] = RN(2^(i / 2^8) × 2^40), entries 160 to 191 (R295). -/
def T1_5 : List Nat :=
  [1695678735018, 1700276186465, 1704886102868, 1709508518022, 1714143465815, 1718790980227, 1723451095328, 1728123845283,
   1732809264348, 1737507386874, 1742218247301, 1746941880167, 1751678320101, 1756427601826, 1761189760160, 1765964830016,
   1770752846399, 1775553844412, 1780367859250, 1785194926207, 1790035080670, 1794888358124, 1799754794147, 1804634424417,
   1809527284706, 1814433410886, 1819352838923, 1824285604883, 1829231744928, 1834191295319, 1839164292415, 1844150772674]

/-- T1[i] = RN(2^(i / 2^8) × 2^40), entries 192 to 223 (R295). -/
def T1_6 : List Nat :=
  [1849150772653, 1854164329007, 1859191478491, 1864232257961, 1869286704369, 1874354854773, 1879436746326, 1884532416284,
   1889641902006, 1894765240949, 1899902470672, 1905053628839, 1910218753212, 1915397881658, 1920591052146, 1925798302747,
   1931019671637, 1936255197094, 1941504917501, 1946768871344, 1952047097213, 1957339633805, 1962646519918, 1967967794460,
   1973303496441, 1978653664977, 1984018339292, 1989397558715, 1994791362681, 2000199790733, 2005622882521, 2011060677802]

/-- T1[i] = RN(2^(i / 2^8) × 2^40), entries 224 to 255 (R295). -/
def T1_7 : List Nat :=
  [2016513216442, 2021980538414, 2027462683800, 2032959692790, 2038471605683, 2043998462888, 2049540304923, 2055097172416,
   2060669106106, 2066256146840, 2071858335578, 2077475713391, 2083108321460, 2088756201079, 2094419393653, 2100097940699,
   2105791883849, 2111501264845, 2117226125542, 2122966507912, 2128722454038, 2134494006116, 2140281206460, 2146084097495,
   2151902721764, 2157737121924, 2163587340748, 2169453421124, 2175335406057, 2181233338669, 2187147262199, 2193077220002]

/-- T1[i] = RN(2^(i / 2^8) × 2^40) (R295). -/
def T1 : List Nat := T1_0 ++ T1_1 ++ T1_2 ++ T1_3 ++ T1_4 ++ T1_5 ++ T1_6 ++ T1_7

/-- T2[i] = RN(2^(i / 2^16) × 2^40), entries 0 to 31 (R295). -/
def T2_0 : List Nat :=
  [1099511627776, 1099523256917, 1099534886182, 1099546515569, 1099558145080, 1099569774713, 1099581404470, 1099593034349,
   1099604664352, 1099616294477, 1099627924726, 1099639555097, 1099651185592, 1099662816209, 1099674446950, 1099686077813,
   1099697708800, 1099709339909, 1099720971142, 1099732602498, 1099744233976, 1099755865578, 1099767497303, 1099779129150,
   1099790761121, 1099802393215, 1099814025432, 1099825657771, 1099837290234, 1099848922820, 1099860555529, 1099872188361]

/-- T2[i] = RN(2^(i / 2^16) × 2^40), entries 32 to 63 (R295). -/
def T2_1 : List Nat :=
  [1099883821316, 1099895454394, 1099907087595, 1099918720919, 1099930354366, 1099941987937, 1099953621630, 1099965255446,
   1099976889385, 1099988523448, 1100000157633, 1100011791942, 1100023426373, 1100035060928, 1100046695605, 1100058330406,
   1100069965330, 1100081600377, 1100093235546, 1100104870839, 1100116506255, 1100128141794, 1100139777457, 1100151413242,
   1100163049150, 1100174685181, 1100186321336, 1100197957613, 1100209594014, 1100221230537, 1100232867184, 1100244503954]

/-- T2[i] = RN(2^(i / 2^16) × 2^40), entries 64 to 95 (R295). -/
def T2_2 : List Nat :=
  [1100256140847, 1100267777862, 1100279415001, 1100291052264, 1100302689649, 1100314327157, 1100325964788, 1100337602543,
   1100349240420, 1100360878421, 1100372516544, 1100384154791, 1100395793161, 1100407431654, 1100419070270, 1100430709009,
   1100442347872, 1100453986857, 1100465625965, 1100477265197, 1100488904552, 1100500544029, 1100512183630, 1100523823354,
   1100535463201, 1100547103172, 1100558743265, 1100570383481, 1100582023821, 1100593664284, 1100605304869, 1100616945578]

/-- T2[i] = RN(2^(i / 2^16) × 2^40), entries 96 to 127 (R295). -/
def T2_3 : List Nat :=
  [1100628586410, 1100640227365, 1100651868444, 1100663509645, 1100675150970, 1100686792417, 1100698433988, 1100710075682,
   1100721717499, 1100733359439, 1100745001502, 1100756643689, 1100768285998, 1100779928431, 1100791570987, 1100803213666,
   1100814856468, 1100826499393, 1100838142441, 1100849785613, 1100861428908, 1100873072326, 1100884715867, 1100896359531,
   1100908003318, 1100919647228, 1100931291262, 1100942935419, 1100954579699, 1100966224102, 1100977868628, 1100989513277]

/-- T2[i] = RN(2^(i / 2^16) × 2^40), entries 128 to 159 (R295). -/
def T2_4 : List Nat :=
  [1101001158050, 1101012802945, 1101024447964, 1101036093106, 1101047738372, 1101059383760, 1101071029271, 1101082674906,
   1101094320664, 1101105966545, 1101117612549, 1101129258677, 1101140904927, 1101152551301, 1101164197798, 1101175844418,
   1101187491161, 1101199138028, 1101210785017, 1101222432130, 1101234079366, 1101245726726, 1101257374208, 1101269021814,
   1101280669542, 1101292317394, 1101303965369, 1101315613468, 1101327261689, 1101338910034, 1101350558502, 1101362207093]

/-- T2[i] = RN(2^(i / 2^16) × 2^40), entries 160 to 191 (R295). -/
def T2_5 : List Nat :=
  [1101373855808, 1101385504645, 1101397153606, 1101408802690, 1101420451897, 1101432101228, 1101443750681, 1101455400258,
   1101467049958, 1101478699782, 1101490349728, 1101501999798, 1101513649991, 1101525300307, 1101536950746, 1101548601309,
   1101560251995, 1101571902804, 1101583553736, 1101595204791, 1101606855970, 1101618507272, 1101630158697, 1101641810246,
   1101653461917, 1101665113712, 1101676765630, 1101688417672, 1101700069836, 1101711722124, 1101723374535, 1101735027069]

/-- T2[i] = RN(2^(i / 2^16) × 2^40), entries 192 to 223 (R295). -/
def T2_6 : List Nat :=
  [1101746679727, 1101758332508, 1101769985412, 1101781638439, 1101793291590, 1101804944864, 1101816598261, 1101828251781,
   1101839905424, 1101851559191, 1101863213081, 1101874867095, 1101886521231, 1101898175491, 1101909829874, 1101921484381,
   1101933139010, 1101944793763, 1101956448639, 1101968103639, 1101979758762, 1101991414008, 1102003069377, 1102014724870,
   1102026380485, 1102038036224, 1102049692087, 1102061348073, 1102073004181, 1102084660414, 1102096316769, 1102107973248]

/-- T2[i] = RN(2^(i / 2^16) × 2^40), entries 224 to 255 (R295). -/
def T2_7 : List Nat :=
  [1102119629850, 1102131286575, 1102142943424, 1102154600396, 1102166257491, 1102177914710, 1102189572052, 1102201229517,
   1102212887105, 1102224544817, 1102236202652, 1102247860610, 1102259518692, 1102271176897, 1102282835225, 1102294493677,
   1102306152251, 1102317810950, 1102329469771, 1102341128716, 1102352787784, 1102364446975, 1102376106290, 1102387765728,
   1102399425289, 1102411084974, 1102422744782, 1102434404713, 1102446064768, 1102457724946, 1102469385247, 1102481045672]

/-- T2[i] = RN(2^(i / 2^16) × 2^40) (R295). -/
def T2 : List Nat := T2_0 ++ T2_1 ++ T2_2 ++ T2_3 ++ T2_4 ++ T2_5 ++ T2_6 ++ T2_7

/-- T3[i] = RN(2^(i / 2^24) × 2^40), entries 0 to 31 (R295). -/
def T3_0 : List Nat :=
  [1099511627776, 1099511673202, 1099511718628, 1099511764054, 1099511809480, 1099511854906, 1099511900333, 1099511945759,
   1099511991185, 1099512036611, 1099512082037, 1099512127463, 1099512172889, 1099512218315, 1099512263741, 1099512309168,
   1099512354594, 1099512400020, 1099512445446, 1099512490872, 1099512536298, 1099512581724, 1099512627151, 1099512672577,
   1099512718003, 1099512763429, 1099512808855, 1099512854281, 1099512899707, 1099512945134, 1099512990560, 1099513035986]

/-- T3[i] = RN(2^(i / 2^24) × 2^40), entries 32 to 63 (R295). -/
def T3_1 : List Nat :=
  [1099513081412, 1099513126838, 1099513172264, 1099513217690, 1099513263117, 1099513308543, 1099513353969, 1099513399395,
   1099513444821, 1099513490247, 1099513535674, 1099513581100, 1099513626526, 1099513671952, 1099513717378, 1099513762804,
   1099513808231, 1099513853657, 1099513899083, 1099513944509, 1099513989935, 1099514035362, 1099514080788, 1099514126214,
   1099514171640, 1099514217066, 1099514262493, 1099514307919, 1099514353345, 1099514398771, 1099514444197, 1099514489624]

/-- T3[i] = RN(2^(i / 2^24) × 2^40), entries 64 to 95 (R295). -/
def T3_2 : List Nat :=
  [1099514535050, 1099514580476, 1099514625902, 1099514671328, 1099514716755, 1099514762181, 1099514807607, 1099514853033,
   1099514898460, 1099514943886, 1099514989312, 1099515034738, 1099515080165, 1099515125591, 1099515171017, 1099515216443,
   1099515261869, 1099515307296, 1099515352722, 1099515398148, 1099515443574, 1099515489001, 1099515534427, 1099515579853,
   1099515625280, 1099515670706, 1099515716132, 1099515761558, 1099515806985, 1099515852411, 1099515897837, 1099515943263]

/-- T3[i] = RN(2^(i / 2^24) × 2^40), entries 96 to 127 (R295). -/
def T3_3 : List Nat :=
  [1099515988690, 1099516034116, 1099516079542, 1099516124968, 1099516170395, 1099516215821, 1099516261247, 1099516306674,
   1099516352100, 1099516397526, 1099516442952, 1099516488379, 1099516533805, 1099516579231, 1099516624658, 1099516670084,
   1099516715510, 1099516760937, 1099516806363, 1099516851789, 1099516897215, 1099516942642, 1099516988068, 1099517033494,
   1099517078921, 1099517124347, 1099517169773, 1099517215200, 1099517260626, 1099517306052, 1099517351479, 1099517396905]

/-- T3[i] = RN(2^(i / 2^24) × 2^40), entries 128 to 159 (R295). -/
def T3_4 : List Nat :=
  [1099517442331, 1099517487758, 1099517533184, 1099517578610, 1099517624037, 1099517669463, 1099517714889, 1099517760316,
   1099517805742, 1099517851168, 1099517896595, 1099517942021, 1099517987447, 1099518032874, 1099518078300, 1099518123727,
   1099518169153, 1099518214579, 1099518260006, 1099518305432, 1099518350858, 1099518396285, 1099518441711, 1099518487138,
   1099518532564, 1099518577990, 1099518623417, 1099518668843, 1099518714269, 1099518759696, 1099518805122, 1099518850549]

/-- T3[i] = RN(2^(i / 2^24) × 2^40), entries 160 to 191 (R295). -/
def T3_5 : List Nat :=
  [1099518895975, 1099518941401, 1099518986828, 1099519032254, 1099519077681, 1099519123107, 1099519168533, 1099519213960,
   1099519259386, 1099519304813, 1099519350239, 1099519395665, 1099519441092, 1099519486518, 1099519531945, 1099519577371,
   1099519622798, 1099519668224, 1099519713650, 1099519759077, 1099519804503, 1099519849930, 1099519895356, 1099519940783,
   1099519986209, 1099520031635, 1099520077062, 1099520122488, 1099520167915, 1099520213341, 1099520258768, 1099520304194]

/-- T3[i] = RN(2^(i / 2^24) × 2^40), entries 192 to 223 (R295). -/
def T3_6 : List Nat :=
  [1099520349621, 1099520395047, 1099520440473, 1099520485900, 1099520531326, 1099520576753, 1099520622179, 1099520667606,
   1099520713032, 1099520758459, 1099520803885, 1099520849312, 1099520894738, 1099520940165, 1099520985591, 1099521031018,
   1099521076444, 1099521121871, 1099521167297, 1099521212724, 1099521258150, 1099521303577, 1099521349003, 1099521394430,
   1099521439856, 1099521485283, 1099521530709, 1099521576136, 1099521621562, 1099521666989, 1099521712415, 1099521757842]

/-- T3[i] = RN(2^(i / 2^24) × 2^40), entries 224 to 255 (R295). -/
def T3_7 : List Nat :=
  [1099521803268, 1099521848695, 1099521894121, 1099521939548, 1099521984974, 1099522030401, 1099522075827, 1099522121254,
   1099522166680, 1099522212107, 1099522257533, 1099522302960, 1099522348386, 1099522393813, 1099522439239, 1099522484666,
   1099522530093, 1099522575519, 1099522620946, 1099522666372, 1099522711799, 1099522757225, 1099522802652, 1099522848078,
   1099522893505, 1099522938931, 1099522984358, 1099523029785, 1099523075211, 1099523120638, 1099523166064, 1099523211491]

/-- T3[i] = RN(2^(i / 2^24) × 2^40) (R295). -/
def T3 : List Nat := T3_0 ++ T3_1 ++ T3_2 ++ T3_3 ++ T3_4 ++ T3_5 ++ T3_6 ++ T3_7

/-- −LC[i] = RN(−ln(RC[i] / 2^32) × 2^48), entries 0 to 31 (R295). -/
def negLC_0 : List Nat :=
  [0, 1097369719944, 2190477791494, 3279357214753, 4364040548224, 5444560017577, 6520947493228, 7593234400484,
   8661451898381, 9725630791661, 10785801441119, 11841993945714, 12894238054766, 13942563216242, 14986998488249, 16027572587654,
   17064314009777, 18097250871524, 19126410961787, 20151821863700, 21173510726610, 22191504529735, 23205829853720, 24216513076049,
   25223580284267, 26227057187603, 27226969387931, 28223342004788, 29216200092373, 30205568336110, 31191471182279, 32173932823731]

/-- −LC[i] = RN(−ln(RC[i] / 2^32) × 2^48), entries 32 to 63 (R295). -/
def negLC_1 : List Nat :=
  [33152977185523, 34128628058467, 35100908716011, 36069842491827, 37035452248349, 37997760809605, 38956790575311, 39912563957942,
   40865102843882, 41814429108224, 42760564377375, 43703530016652, 44643347194618, 45580036794796, 46513619712360, 47444116303681,
   48371547070248, 49295932029019, 50217291245476, 51135644355695, 52051010946482, 52963410310320, 53872861751186, 54779384259547,
   55682996500653, 56583717203447, 57481564753259, 58376557502558, 59268713440640, 60158050668651, 61044586744090, 61928339319602]

/-- −LC[i] = RN(−ln(RC[i] / 2^32) × 2^48), entries 64 to 95 (R295). -/
def negLC_2 : List Nat :=
  [62809325892916, 63687563716492, 64563069788023, 65435861088985, 66305954413030, 67173366440885, 68038113566386, 68900212221686,
   69759678452860, 70616528330048, 71470777773889, 72322442548324, 73171538168388, 74018080062173, 74862083650347, 75703563998371,
   76542536236696, 77379015212174, 78213015738984, 79044552507020, 79873639901670, 80700292431577, 81524524288539, 82346349602165,
   83165782434933, 83982836688902, 84797526010869, 85609864140129, 86419864638744, 87227540885212, 88032906157728, 88835973718944]

/-- −LC[i] = RN(−ln(RC[i] / 2^32) × 2^48), entries 96 to 127 (R295). -/
def negLC_3 : List Nat :=
  [89636756541819, 90435267663399, 91231519910371, 92025525983498, 92817298634721, 93606850207562, 94394193361258, 95179340244800,
   95962303131687, 96743094141263, 97521725233438, 98298208482184, 99072555514963, 99844778157649, 100614887965832, 101382896593993,
   102148815417152, 102912655713135, 103674428753183, 104434145704127, 105191817719487, 105947455745618, 106701070516268, 107452673123119,
   108202273959177, 108949883961554, 109695513454987, 110439173014433, 111180872979548, 111920623644229, 112658435253634, 113394318001186]

/-- −LC[i] = RN(−ln(RC[i] / 2^32) × 2^48), entries 128 to 159 (R295). -/
def negLC_4 : List Nat :=
  [114128281828961, 114860336816358, 115590492784364, 116318759686248, 117045147110433, 117769664771524, 118492322409954, 119213129389809,
   119932095294014, 120649229321421, 121364540985924, 122078039410612, 122789733726318, 123499633171393, 124207746683573, 124914083302848,
   125618651863657, 126321461093099, 127022519916496, 127721837045370, 128419420972975, 129115280384538, 129809423638205, 130501859384421,
   131192595836691, 131881641497431, 132569004320177, 133254692858588, 133938715006494, 134621078939784, 135301792588339, 135980864056440]

/-- −LC[i] = RN(−ln(RC[i] / 2^32) × 2^48), entries 160 to 191 (R295). -/
def negLC_5 : List Nat :=
  [136658301090844, 137334111715449, 138008303591075, 138680884545915, 139351862145996, 140021244121686, 140689037936082, 141355251213564,
   142019891414664, 142682965832730, 143344481917751, 144004447058221, 144662868359930, 145319753080616, 145975108300201, 146628941358759,
   147281259084116, 147932068560566, 148581376797284, 149229190614860, 149875516865125, 150520362430312, 151163734110078, 151805638506986,
   152446082473647, 153085072437040, 153722615184589, 154358717073272, 154993384705611, 155626624475669, 156258442908129, 156888846200960]

/-- −LC[i] = RN(−ln(RC[i] / 2^32) × 2^48), entries 192 to 223 (R295). -/
def negLC_6 : List Nat :=
  [157517840908807, 158145433026378, 158771629017947, 159396435013367, 160019857150458, 160641901574090, 161262574319038, 161881881424263,
   162499828931977, 163116422769724, 163731668865412, 164345573146373, 164958141302900, 165569379256805, 166179292808211, 166787887514794,
   167395169282182, 168001143652595, 168605816277228, 169209192557901, 169811278362383, 170412078947957, 171011599916606, 171609846614988,
   172206824493393, 172802538984944, 173396995383265, 173990198840208, 174582154851000, 175172868646523, 175762345189754, 176350589907943]

/-- −LC[i] = RN(−ln(RC[i] / 2^32) × 2^48), entries 224 to 255 (R295). -/
def negLC_7 : List Nat :=
  [176937607713685, 177523403983878, 178107983576691, 178691351567320, 179273513125622, 179854473019733, 180434236357703, 181012807842272,
   181590192640502, 182166395511572, 182741421178226, 183315274577128, 183887960356574, 184459483377719, 185029848210243, 185599059635618,
   186167122394669, 186734040932060, 187299820030117, 187864464045150, 188427977670557, 188990365426573, 189551631786444, 190111781175364,
   190670818098425, 191228746882276, 191785571931835, 192341297600713, 192895928320180, 193449468208457, 194001921719879, 194553293124387]

/-- −LC[i] = RN(−ln(RC[i] / 2^32) × 2^48) (R295). -/
def negLC : List Nat := negLC_0 ++ negLC_1 ++ negLC_2 ++ negLC_3 ++ negLC_4 ++ negLC_5 ++ negLC_6 ++ negLC_7

/-- The integer square root by digits: the largest `r` built from bits below `k` whose square is at most `n`. -/
def isqrtFrom (n : Nat) : Nat → Nat → Nat
  | 0, r => r
  | k + 1, r => let r' := r + 2 ^ k; isqrtFrom n k (if r' * r' ≤ n then r' else r)

/-- ⌊√n⌋. -/
def isqrt (n : Nat) : Nat := isqrtFrom n (n.log2 / 2 + 1) 0

/-- RC[i] = RN(2^32 / (1 + i / 256)) (R295); no entry lies on a tie. -/
def RC (i : Nat) : Nat := (2 ^ 41 / (256 + i) + 1) / 2

/-- RQ[i] = RN(2^40 / √((i + 64.5) / 64)) (R295): the nearest integer to √(2^87 / (2i + 129)). -/
def RQ (i : Nat) : Nat := (isqrt (2 ^ 89 / (2 * i + 129)) + 1) / 2

end Sys2Proof.Machine
end

