-- ==== Sys2Proof/Machine/Scale.lean ====
section
/-! DEFINITION. The Scale engine: quantizing, conversion, division, roots and the fixed algorithms of EXP, LOG and RSQRT
(chapter 08, R293 to R297). -/
namespace Sys2Proof.Machine

/-! ## The fixed algorithms (R295) -/

/-- T1, T2, T3, −LC by index. -/
def tabAt (t : List Nat) (i : Nat) : Nat := t.getD i 0

/-- exp(x) for a finite x: V (R295). Beyond |n| = 300 every V rounds alike in every format, so the power is held
there. -/
def expV (x : Val) : Val :=
  match x with
  | .fin neg num den =>
    let y : Int := ((if neg then -(num : Int) else num) * LOG2E).fdiv (den * 2 ^ 22 : Nat)
    let n := y.fdiv (2 ^ 40 : Nat)
    let f := (y - n * 2 ^ 40).toNat
    let p := tabAt T1 (f / 2 ^ 32) * tabAt T2 (f / 2 ^ 24 % 256) / 2 ^ 40
    let p := p * tabAt T3 (f / 2 ^ 16 % 256) / 2 ^ 40
    let p := p + p * (f % 2 ^ 16 * LN2 / 2 ^ 48) / 2 ^ 40
    Val.dyadic false p (max (-300) (min 300 n) - 40)
  | v => v

/-- log(x) for a finite x > 0: V (R295). -/
def logV (x : Val) : Val :=
  match x with
  | .fin _ num den =>
    let e := floorLog2 num den
    let m := num * 2 ^ (23 - e).toNat / (den * 2 ^ (e - 23).toNat)
    let i := m / 2 ^ 15 - 256
    let z : Int := (m * RC i / 2 ^ 7 : Nat) - (2 ^ 48 : Nat)
    let s := z - (z * z).fdiv (2 ^ 49 : Nat) + (z * z * z).fdiv (3 * 2 ^ 96 : Nat) - (z * z * z * z).fdiv (2 ^ 146 : Nat)
    let v := e * LN2 + tabAt negLC i + s
    .fin (decide (v < 0)) v.natAbs (2 ^ 48)
  | v => v

/-- rsqrt(x) for a finite x > 0: V (R295). -/
def rsqrtV (x : Val) : Val :=
  match x with
  | .fin _ num den =>
    let q := (floorLog2 num den).fdiv 2
    let m := num * 2 ^ (23 - 2 * q).toNat / (den * 2 ^ (2 * q - 23).toNat)
    let next (y : Nat) : Nat := y * (3 * 2 ^ 40 - m * y * y / 2 ^ 63) / 2 ^ 41
    Val.dyadic false (next (next (RQ (m / 2 ^ 17 - 64)))) (-q - 40)
  | v => v

/-! ## Division, roots and special sources (R294, R296) -/

/-- The exact quotient, with the special results of R294. -/
def divV : Val → Val → Val
  | .nan, _ | _, .nan => .nan
  | .inf _, .inf _ => .nan
  | .inf a, .fin b _ _ => .inf (a != b)
  | .fin a _ _, .inf b => .fin (a != b) 0 1
  | .fin a p d, .fin b q e =>
    if q = 0 then if p = 0 then .nan else .inf (a != b) else .fin (a != b) (p * e) (d * q)

/-- A value that rounds in every format as the root of a finite value does: the root itself where it is a multiple
of 2^−160, else the midpoint of the interval of 2^−160 that it lies in, which no rounding boundary cuts. -/
def rootV (num den : Nat) : Val :=
  let s := isqrt (num * 2 ^ 320 / den)
  if s * s * den = num * 2 ^ 320 then .fin false s (2 ^ 160) else .fin false (2 * s + 1) (2 ^ 161)

/-- The exact root for rounding, with the special results of R294. -/
def sqrtV : Val → Val
  | .nan => .nan
  | .inf neg => if neg then .nan else .inf false
  | .fin neg num den => if num = 0 then .fin neg 0 1 else if neg then .nan else rootV num den

/-- A special source of EXP, LOG or RSQRT (R296). -/
def specialOf (op : Nat) (v : Val) : Option Val :=
  match v with
  | .nan => some .nan
  | .inf neg =>
    some (if op = 0x05 then (if neg then .fin false 0 1 else .inf false)
          else if neg then .nan else if op = 0x06 then .inf false else .fin false 0 1)
  | .fin neg num _ =>
    if num = 0 then
      some (if op = 0x05 then .fin false 1 1 else if op = 0x06 then .inf true else .inf neg)
    else if op ≠ 0x05 && neg then some .nan else none

/-- EXP, LOG or RSQRT of a value, rounded once to a format (R295, R296). -/
def functionOf (op fmt : Nat) (v : Val) (mode : Nat) (sat : Bool) : Rounded :=
  match specialOf op v with
  | some x => ⟨(roundTo fmt x mode sat).code, false, false⟩
  | none => roundTo fmt (if op = 0x05 then expV v else if op = 0x06 then logV v else rsqrtV v) mode sat

/-- One element of an operation other than QUANT. -/
def scaleElem (op fmt : Nat) (a b : Val) (mode : Nat) (sat : Bool) : Rounded :=
  if op ≤ 0x02 then roundTo fmt a mode sat
  else if op = 0x03 then roundTo fmt (divV a b) mode sat
  else if op = 0x04 then roundTo fmt (sqrtV a) mode sat
  else functionOf op fmt a mode sat

/-! ## Formats and timing (R293, R297) -/

/-- FP32, BF16, FP16, FP32x2. -/
def wideFmt (f : Nat) : Bool := f ≤ 0x03

/-- The formats that QUANT writes and DEQUANT reads. -/
def scaledFmt (f : Nat) : Bool := 0x06 ≤ f && f ≤ 0x0C

/-- The format rules of R293 and R268. -/
def scaleFmtOk (op : Nat) (a d : Desc) : Bool :=
  match op with
  | 0x00 => wideFmt a.fmt && scaledFmt d.fmt && a.blk = 0 && d.blk ≠ 0
  | 0x01 => scaledFmt a.fmt && wideFmt d.fmt && a.blk ≠ 0 && d.blk = 0
  | _ => a.blk = 0 && d.blk = 0 &&
    (match op with
     | 0x02 => a.fmt ≤ 0x0D && d.fmt ≤ 0x0C
     | 0x03 | 0x04 => a.fmt = 0x00 && wideFmt d.fmt
     | _ => a.fmt ≤ 0x02 && d.fmt ≤ 0x02)

/-- Cycles of an operation (R297). -/
def scaleCycles (op : Nat) (d a : Desc) (b : Option Desc) : Nat :=
  let rate := if op ≤ 0x02 then Nat.min 64 (512 / Nat.max (fmtBits a.fmt) (fmtBits d.fmt)) else if op ≤ 0x04 then 4
              else 2
  let latency := if op ≤ 0x02 then 8 else if op ≤ 0x04 then 24 else 40
  let crooked := (List.range a.rows).countP fun r =>
    a.rowAddr r % 64 ≠ 0 || d.rowAddr r % 64 ≠ 0 || b.any fun b => b.rowAddr r % 64 ≠ 0
  ceilDiv a.count rate + crooked + latency

/-! ## QUANT (R198 to R202) -/

/-- The scale byte of every block of a destination, from the source rows. -/
def quantScales (d : Desc) (rows : List (List Val)) : List Nat :=
  let tagged := (rows.zipIdx.map fun (row, r) => row.zipIdx.map fun (v, i) => (d.blockOf i r, v)).flatten
  (List.range d.blocks).map fun b => quantScale d.fmt ((tagged.filter fun p => p.1 = b).map Prod.snd)

/-- The elements of a quantized operand. -/
def quantRows (d : Desc) (scales : List Nat) (rows : List (List Val)) (mode : Nat) : List (List Rounded) :=
  rows.zipIdx.map fun (row, r) => row.zipIdx.map fun (v, i) =>
    quantElem d.fmt (scales.getD (d.blockOf i r) 0) v mode

/-- The scale bytes of a destination stored. -/
def writeScales (s : State) (c : CoreId) (d : Desc) (scales : List Nat) : State :=
  s.hwrite c d.scaleBase (scales.map (BitVec.ofNat 8))

/-! ## The operations -/

/-- The effect of a Scale operation (R293, R294, R296, R297). -/
def scaleOp (op : Nat) (x : Ctx) (s : State) : Res :=
  match handlesCheck s x.c (handleNeeds x.w .required .required (if op = 0x03 then .required else .unused) .unused) with
  | some code => .reject code
  | none =>
    let d := readDesc s x.c (I.d x.w)
    let a := readDesc s x.c (I.a x.w)
    let b := operand s x.c (I.b x.w)
    match plainChecks [(some d, true), (some a, false), (b, false)] with
    | some code => .reject code
    | none =>
      if !scaleFmtOk op a d || !sameDims d a || (b.any fun b => !sameDims b a || b.fmt != a.fmt) ||
          !destOk d true (a :: b.toList) [] then .reject Code.rejFormat
      else if a.empty then .ok (Out.at s x.t)
      else
        withReads x.c x.t (a.spans ++ (b.map Desc.spans).getD []) d.spans s fun s =>
          let m := I.mod x.w
          let va := allVals s x.c a
          let t := x.t + scaleCycles op d a b
          let done (s : State) (out : List (List Rounded)) : Res :=
            .ok { Out.at (writeCodes s x.c d (out.map fun r => r.map Rounded.code)) t with
                  sat := sumNat (out.map countSat), flush := sumNat (out.map countFlush), dst := d.spans,
                  stages := if op ≤ 0x02 then 1 else if op ≤ 0x04 then 2 else 4 }
          if op = 0x00 then
            let scales := quantScales d va
            done (writeScales s x.c d scales) (quantRows d scales va (m % 4))
          else
            let vb := match b with | some b => allVals s x.c b | none => va
            done s (va.zipWith (fun ra rb => ra.zipWith (fun p q => scaleElem op d.fmt p q (m % 4) (bitAt m 2)) rb) vb)

/-- A Scale operation: IMM and MOD[3] must be 0 (R293). -/
def scaleSpec (op : Nat) : OpSpec :=
  { op := op, bad := fun w => I.imm w ≠ 0, modOk := fun m => m < 8, notBefore := fun _ => 0, body := scaleOp op }

/-- QUANT: elements under shared scales (R198). -/
def execQuant (c : CoreId) (s : State) : Host.Outcome State Fault Refusal := runOp c .scale (scaleSpec 0x00) s
/-- DEQUANT: block-scaled data decoded (R188). -/
def execDequant (c : CoreId) (s : State) : Host.Outcome State Fault Refusal := runOp c .scale (scaleSpec 0x01) s
/-- CVT: a format conversion (R294). -/
def execCvt (c : CoreId) (s : State) : Host.Outcome State Fault Refusal := runOp c .scale (scaleSpec 0x02) s
/-- DIV: the exact quotient rounded once (R294). -/
def execDiv (c : CoreId) (s : State) : Host.Outcome State Fault Refusal := runOp c .scale (scaleSpec 0x03) s
/-- SQRT: the exact root rounded once (R294). -/
def execSqrt (c : CoreId) (s : State) : Host.Outcome State Fault Refusal := runOp c .scale (scaleSpec 0x04) s
/-- EXP (R295). -/
def execExp (c : CoreId) (s : State) : Host.Outcome State Fault Refusal := runOp c .scale (scaleSpec 0x05) s
/-- LOG (R295). -/
def execLog (c : CoreId) (s : State) : Host.Outcome State Fault Refusal := runOp c .scale (scaleSpec 0x06) s
/-- RSQRT (R295). -/
def execRsqrt (c : CoreId) (s : State) : Host.Outcome State Fault Refusal := runOp c .scale (scaleSpec 0x07) s

end Sys2Proof.Machine
end

