-- ==== Sys2Proof/Machine/Shape.lean ====
section
/-! DEFINITION. The Shape engine: gather, scatter, compaction, filtering and counting (chapter 08, R272 to R281). -/
namespace Sys2Proof.Machine

/-! ## Indices (R273, R274) -/

/-- Index formats of R273. -/
def indexFmt (f : Nat) : Bool := f = 0x04 || f = 0x05 || f = 0x06

/-- The effective index of an index code, if it is below the extent it selects (R273). -/
def effIndex (fmt base extent code : Nat) : Option Nat :=
  let e : Int := toSigned (fmtBits fmt) code - base
  if 0 ≤ e && e < extent then some e.toNat else none

/-- Skipped indices are counted (R274). -/
def State.noteSkips (s : State) (c : CoreId) (n : Nat) : State :=
  if n = 0 then s
  else (s.flag (Reg.UNIT_STATUS c .shape) F.UNIT_STATUS_SKIP_SEEN).count (Reg.SHP_SKIPPED c .shape) F.SHP_SKIPPED_COUNT n

/-- Rows not written by COMPACT are counted (R277). -/
def State.noteLost (s : State) (c : CoreId) (n : Nat) : State :=
  if n = 0 then s
  else (s.flag (Reg.UNIT_STATUS c .shape) F.UNIT_STATUS_LOST_SEEN).count (Reg.SHP_LOST c .shape) F.SHP_LOST_COUNT n

/-! ## Rows that travel with their scales (R272) -/

/-- Scale bytes of one row. -/
def Desc.rowScales (d : Desc) : Nat := if d.blk = 0 then 0 else d.d0 / d.block

/-- Row operands agree: equal element width and extent of dimension 0, and equal BLK and FMT along rows where there is
a scale. -/
def rowsAlike (x y : Desc) : Bool :=
  fmtBits x.fmt = fmtBits y.fmt && x.d0 = y.d0 && x.blk = y.blk &&
  (x.blk = 0 || (x.fmt = y.fmt && x.sdir = 0 && y.sdir = 0))

/-- The bytes of a row and of its scales. -/
def rowOf (s : State) (c : CoreId) (d : Desc) (r : Nat) : List Byte × List Byte :=
  (s.hread c (d.rowAddr r) d.rowBytes, s.hread c (d.scaleBase + r * d.rowScales) d.rowScales)

/-- A row and its scales stored. -/
def putRow (s : State) (c : CoreId) (d : Desc) (r : Nat) (row : List Byte × List Byte) : State :=
  let s := s.hwrite c (d.rowAddr r) row.1
  if d.blk = 0 then s else s.hwrite c (d.scaleBase + r * d.rowScales) row.2

/-- A row of zero bytes (R274). -/
def zeroRow (d : Desc) : List Byte × List Byte := (List.replicate d.rowBytes 0, List.replicate d.rowScales 0)

/-- Cycles of row `r` (R281). -/
def rowCycles (d : Desc) (r : Nat) : Nat :=
  let n := Nat.max 1 (ceilDiv d.rowBytes 64)
  let a := d.rowAddr r
  let granules := if d.rowBytes = 0 then 0 else (a + d.rowBytes - 1) / 64 - a / 64 + 1
  n + (if n < granules then 1 else 0)

/-! ## GATHER and SCATTER (R275, R276) -/

/-- GATHER and SCATTER: `gather` says that A is the table. -/
def moveRows (gather : Bool) (x : Ctx) (s : State) : Res :=
  match handlesCheck s x.c (handleNeeds x.w .required .required .required .unused) with
  | some code => .reject code
  | none =>
    let d := readDesc s x.c (I.d x.w)
    let a := readDesc s x.c (I.a x.w)
    let b := readDesc s x.c (I.b x.w)
    let table := if gather then a else d
    let rows := if gather then d else a
    let skip := I.mod x.w = 1
    match plainChecks [(some d, true), (some a, false), (some b, false)] with
    | some code => .reject code
    | none =>
      if d.rank ≠ 2 || a.rank ≠ 2 || !rowsAlike d a || !indexFmt b.fmt || b.rank ≠ 1 || b.blk ≠ 0 ||
          rows.d1 ≠ b.d0 || !destOk d false [a, b] [] then .reject Code.rejFormat
      else
        withReads x.c x.t (a.spans ++ b.spans) d.spans s fun s =>
          let codes := (allCodes s x.c b).getD 0 []
          let es := codes.map (effIndex b.fmt (I.imm x.w) table.d1)
          if !skip && es.any Option.isNone then .reject Code.rejRange
          else
            let src := (List.range a.rows).map (rowOf s x.c a)
            let moved := es.zipIdx.foldl (fun s (e, r) =>
              match gather, e with
              | true, some e => putRow s x.c d r (src.getD e ([], []))
              | true, none => putRow s x.c d r (zeroRow d)
              | false, some e => putRow s x.c d e (src.getD r ([], []))
              | false, none => s) s
            let s := moved.noteSkips x.c (es.countP Option.isNone)
            let cycles := sumNat ((List.range rows.rows).map (rowCycles rows)) +
              (if skip then 0 else ceilDiv b.rowBytes 64)
            if b.empty then .ok (Out.at s x.t)
            else .ok { Out.at s (x.t + cycles + 10) with dst := d.spans, stages := 1 }

/-! ## COMPACT (R277) -/

/-- COMPACT (R277, R280). -/
def compactOp (x : Ctx) (s : State) : Res :=
  match handlesCheck s x.c (handleNeeds x.w .required .required .required .required) with
  | some code => .reject code
  | none =>
    let d := readDesc s x.c (I.d x.w)
    let a := readDesc s x.c (I.a x.w)
    let b := readDesc s x.c (I.b x.w)
    let c := readDesc s x.c (I.c x.w)
    match plainChecks [(some d, true), (some a, false), (some b, false), (some c, true)] with
    | some code => .reject code
    | none =>
      if d.rank ≠ 2 || a.rank ≠ 2 || !rowsAlike d a || b.fmt ≠ 0x06 || b.rank ≠ 1 || b.blk ≠ 0 || b.d0 ≠ a.d1 ||
          c.fmt ≠ 0x04 || c.rank ≠ 1 || c.d0 ≠ 1 || c.blk ≠ 0 ||
          !destOk d true [a, b] [c] || !destOk c true [a, b] [d] then .reject Code.rejFormat
      else
        withReads x.c x.t (a.spans ++ b.spans) (d.spans ++ c.spans) s fun s =>
          let mask := if a.empty then [] else (allCodes s x.c b).getD 0 []
          let picked := (mask.zipIdx.filter fun (m, _) => m ≠ 0).map Prod.snd
          let src := picked.map (rowOf s x.c a)
          let s := (src.take d.d1).zipIdx.foldl (fun s (row, r) => putRow s x.c d r row) s
          let s := s.noteLost x.c (src.length - d.d1)
          let s := writeCodes s x.c c [[src.length]]
          let t := if a.empty then x.t else x.t + Nat.max 1 (ceilDiv a.rowBytes 64) * a.rows + 10
          .ok { Out.at s t with dst := d.spans ++ c.spans, stages := if a.empty then 0 else 3 }

/-! ## FILTER and COUNT (R278) -/

/-- A condition of R278 holds of two values. -/
def shapeCond (cond : Nat) (x y : Val) : Bool :=
  if x.isNan || y.isNan then cond = 1
  else
    let zero := x.isZero && y.isZero
    let lt := x.below y && !zero
    let gt := y.below x && !zero
    match cond with
    | 0 => !lt && !gt
    | 1 => lt || gt
    | 2 => lt
    | 3 => !gt
    | 4 => gt
    | 5 => !lt
    | _ => false

/-- A and B of FILTER and COUNT agree (R278). -/
def comparandOk (a b : Desc) : Bool := a.blk = 0 && b.blk = 0 && b.rank = 1 && b.d0 = 1 && b.fmt = a.fmt

/-- The tests of every element of A against the comparand. -/
def shapeTests (s : State) (c : CoreId) (a b : Desc) (cond : Nat) : List (List Bool) :=
  let y := ((allVals s c b).getD 0 []).getD 0 .nan
  (allVals s c a).map fun row => row.map fun v => shapeCond cond v y

/-- FILTER (R278, R280). -/
def filterOp (x : Ctx) (s : State) : Res :=
  match handlesCheck s x.c (handleNeeds x.w .required .required .required .unused) with
  | some code => .reject code
  | none =>
    let d := readDesc s x.c (I.d x.w)
    let a := readDesc s x.c (I.a x.w)
    let b := readDesc s x.c (I.b x.w)
    match plainChecks [(some d, true), (some a, false), (some b, false)] with
    | some code => .reject code
    | none =>
      if 5 < I.mod x.w % 8 || d.fmt ≠ 0x06 || d.blk ≠ 0 || !sameDims d a || !comparandOk a b ||
          !destOk d true [a, b] [] then .reject Code.rejFormat
      else if a.empty then .ok (Out.at s x.t)
      else
        withReads x.c x.t (a.spans ++ b.spans) d.spans s fun s =>
          let tests := shapeTests s x.c a b (I.mod x.w % 8)
          let s := writeCodes s x.c d (tests.map fun row => row.map fun p => if p then 1 else 0)
          .ok { Out.at s (x.t + ceilDiv (a.rowBytes * a.rows) 64 + 6) with dst := d.spans, stages := 2 }

/-- COUNT (R278, R280): the sum saturates at 2^63 − 1. -/
def countOp (x : Ctx) (s : State) : Res :=
  match handlesCheck s x.c (handleNeeds x.w .required .required .required .unused) with
  | some code => .reject code
  | none =>
    let d := readDesc s x.c (I.d x.w)
    let a := readDesc s x.c (I.a x.w)
    let b := readDesc s x.c (I.b x.w)
    let acc := bitAt (I.mod x.w) 3
    match plainChecks [(some d, true), (some a, false), (some b, false)] with
    | some code => .reject code
    | none =>
      if 5 < I.mod x.w % 8 || d.fmt ≠ 0x05 || d.blk ≠ 0 || d.count ≠ 1 || !comparandOk a b ||
          !destOk d true [a, b] [] then .reject Code.rejFormat
      else
        withReads x.c x.t (a.spans ++ b.spans ++ (if acc then d.spans else [])) d.spans s fun s =>
          let tests := shapeTests s x.c a b (I.mod x.w % 8)
          let n := sumNat (tests.map fun row => row.countP id)
          let old : Int := if acc then toSigned 64 (s.hnat x.c d.base 8) else 0
          let top : Int := 2 ^ 63 - 1
          let v := min top (old + n)
          let s := writeCodes s x.c d [[ofSigned 64 v]]
          let t := if a.empty then x.t else x.t + ceilDiv (a.rowBytes * a.rows) 64 + 6
          .ok { Out.at s t with
                sat := if top < old + n then 1 else 0, dst := d.spans, stages := if a.empty then 0 else 2 }

/-! ## HIST (R279) -/

/-- A bin after `n` more hits, and whether a hit found it full or filled it. -/
def binAdd (old : Int) (n : Nat) : Int × Bool :=
  let top : Int := 2 ^ 31 - 1
  if n = 0 then (old, false) else (min top (old + n), decide (top ≤ old + n))

/-- HIST (R273, R274, R279, R280). -/
def histOp (x : Ctx) (s : State) : Res :=
  match handlesCheck s x.c (handleNeeds x.w .required .required .unused .unused) with
  | some code => .reject code
  | none =>
    let d := readDesc s x.c (I.d x.w)
    let a := readDesc s x.c (I.a x.w)
    let skip := bitAt (I.mod x.w) 0
    let acc := bitAt (I.mod x.w) 1
    match plainChecks [(some d, true), (some a, false)] with
    | some code => .reject code
    | none =>
      if d.fmt ≠ 0x04 || d.rank ≠ 1 || !indexFmt a.fmt || a.rank ≠ 1 || a.blk ≠ 0 || !destOk d false [a] [] then
        .reject Code.rejFormat
      else
        withReads x.c x.t (a.spans ++ (if acc then d.spans else [])) d.spans s fun s =>
          let es := ((allCodes s x.c a).getD 0 []).map (effIndex a.fmt (I.imm x.w) d.d0)
          if !skip && es.any Option.isNone then .reject Code.rejRange
          else
            let old := if acc then (allCodes s x.c d).getD 0 [] else List.replicate d.d0 0
            let bins := old.zipIdx.map fun (v, i) => binAdd (toSigned 32 v) (es.countP fun e => e = some i)
            let s := if d.empty then s else writeCodes s x.c d [bins.map fun p => ofSigned 32 p.1]
            let s := s.noteSkips x.c (es.countP Option.isNone)
            let t := if a.empty then x.t else x.t + ceilDiv a.d0 16 + 12
            .ok { Out.at s t with
                  sat := bins.countP Prod.snd, dst := d.spans, stages := if a.empty then 0 else 1 }

/-- A Shape operation with the MOD values it takes. -/
def shapeSpec (op : Nat) (bad : Nat → Bool) (modOk : Nat → Bool) (body : Ctx → State → Res) : OpSpec :=
  { op := op, bad := bad, modOk := modOk, notBefore := fun _ => 0, body := body }

/-- GATHER: rows are read from a table by index (R275). -/
def execGather (c : CoreId) (s : State) : Host.Outcome State Fault Refusal :=
  runOp c .shape (shapeSpec 0x00 (fun _ => false) (fun m => m < 2) (moveRows true)) s
/-- SCATTER: rows are written to a table by index (R276). -/
def execScatter (c : CoreId) (s : State) : Host.Outcome State Fault Refusal :=
  runOp c .shape (shapeSpec 0x01 (fun _ => false) (fun m => m < 2) (moveRows false)) s
/-- COMPACT: selected rows move together (R277). -/
def execCompact (c : CoreId) (s : State) : Host.Outcome State Fault Refusal :=
  runOp c .shape (shapeSpec 0x02 (fun w => I.imm w ≠ 0) (fun m => m = 0) compactOp) s
/-- FILTER: a mask of the elements that satisfy a condition (R278). -/
def execFilter (c : CoreId) (s : State) : Host.Outcome State Fault Refusal :=
  runOp c .shape (shapeSpec 0x03 (fun w => I.imm w ≠ 0) (fun m => m < 8) filterOp) s
/-- HIST: a histogram of bin indices (R279). -/
def execHist (c : CoreId) (s : State) : Host.Outcome State Fault Refusal :=
  runOp c .shape (shapeSpec 0x04 (fun _ => false) (fun m => m < 4) histOp) s
/-- COUNT: how many elements satisfy a condition (R278). -/
def execCount (c : CoreId) (s : State) : Host.Outcome State Fault Refusal :=
  runOp c .shape (shapeSpec 0x05 (fun w => I.imm w ≠ 0) (fun _ => true) countOp) s

end Sys2Proof.Machine
end

