-- ==== Sys2Proof/Machine/Sort.lean ====
section
/-! DEFINITION. The Sort engine: sorting, top-k lists and merging (chapter 08, R282 to R292). -/
namespace Sys2Proof.Machine

/-- An entry of a sort: key code, value or position code, whether it is present (R288), and whether its position was
saturated (R286). -/
structure Entry where
  key : Nat
  val : Nat
  real : Bool
  sat : Bool
deriving DecidableEq, Repr

/-- Key formats of R283. -/
def keyFmt (f : Nat) : Bool := f ≤ 0x06 || f = 0x08 || f = 0x09 || f = 0x0D
/-- Value formats of R283. -/
def valueFmt (f : Nat) : Bool := f = 0x00 || f = 0x03 || f = 0x04 || f = 0x05
/-- Position formats of R283. -/
def posFmt (f : Nat) : Bool := f = 0x04 || f = 0x05
/-- Integer key formats. -/
def intKey (f : Nat) : Bool := f = 0x04 || f = 0x05 || f = 0x06

/-- Key `x` ranks below key `y` (R229, R284): a NaN ranks above every value. -/
def rankBelow (fmt : Nat) (uns : Bool) (x y : Nat) : Bool :=
  if uns then decide (x < y)
  else if codeNan fmt x then false
  else if codeNan fmt y then true
  else (decodeElem fmt x).below (decodeElem fmt y)

/-- Key `x` comes strictly ahead of key `y` in run order (R284). -/
def ahead (fmt : Nat) (uns desc : Bool) (x y : Nat) : Bool :=
  if desc then rankBelow fmt uns y x else rankBelow fmt uns x y

/-- An entry comes strictly ahead of another; an absent entry comes behind every other (R288). -/
def Entry.ahead (fmt : Nat) (uns desc : Bool) (x y : Entry) : Bool :=
  if x.real && y.real then Sys2Proof.Machine.ahead fmt uns desc x.key y.key else x.real && !y.real

/-- A stable insertion of an entry behind every entry that it is not ahead of. -/
def insertEntry (lt : Entry → Entry → Bool) (e : Entry) : List Entry → List Entry
  | [] => [e]
  | x :: xs => if lt e x then e :: x :: xs else x :: insertEntry lt e xs

/-- Two runs merged, ties from the first (R290). -/
def mergeRuns (lt : Entry → Entry → Bool) : Nat → List Entry → List Entry → List Entry
  | 0, xs, ys => xs ++ ys
  | _ + 1, [], ys => ys
  | _ + 1, xs, [] => xs
  | n + 1, x :: xs, y :: ys =>
    if lt y x then y :: mergeRuns lt n (x :: xs) ys else x :: mergeRuns lt n xs (y :: ys)

/-- Neighbouring runs merged in pairs. -/
def mergePairs (lt : Entry → Entry → Bool) : List (List Entry) → List (List Entry)
  | x :: y :: rest => mergeRuns lt (x.length + y.length) x y :: mergePairs lt rest
  | runs => runs

/-- A stable sort by repeated pairwise merging. -/
def mergeAll (lt : Entry → Entry → Bool) : Nat → List (List Entry) → List Entry
  | 0, runs => runs.flatten
  | n + 1, runs => match runs with
    | [] => []
    | [r] => r
    | rs => mergeAll lt n (mergePairs lt rs)

/-- The entries in run order, equal ranks in source order (R284). -/
def sortEntries (lt : Entry → Entry → Bool) (xs : List Entry) : List Entry :=
  mergeAll lt (xs.length.log2 + 2) (xs.map fun x => [x])

/-- A position in a position format: beyond its range the range end, counted as saturated (R286). -/
def posCode (fmt base i : Nat) : Rounded :=
  let top := 2 ^ (fmtBits fmt - 1) - 1
  if top < base + i then ⟨top, true, false⟩ else ⟨base + i, false, false⟩

/-- The key a filler writes (R289). -/
def fillerKey (fmt : Nat) (uns small : Bool) : Nat :=
  if uns then if small then 2 ^ fmtBits fmt - 1 else 0 else emptyCode (!small) fmt

/-- The checks of a Sort operand: a position destination may carry an ENGINE_PARAM (R267, R286). -/
def sortChecks : List (Option Desc × Bool × Bool) → Option Nat
  | [] => none
  | (none, _) :: rest => sortChecks rest
  | (some d, dest, pos) :: rest =>
    match (if pos then descCheck d dest 0 else plainCheck d dest) with
    | some code => some code
    | none => sortChecks rest

/-- ⌈log2 n⌉. -/
def clog2 (n : Nat) : Nat := if n ≤ 1 then 0 else (n - 1).log2 + 1

/-- Bytes of an element of a key, value or position format. -/
def elemBytes (f : Nat) : Nat := fmtBits f / 8

/-- The row of source entries: keys with their values. -/
def withVals (keys vals : List Nat) : List Entry :=
  keys.zipIdx.map fun (k, i) => ⟨k, vals.getD i 0, true, false⟩

/-- The row of source entries: keys with their positions from `i0` on in the position destination (R286). -/
def withPos (c : Option Desc) (i0 : Nat) (keys : List Nat) : List Entry :=
  keys.zipIdx.map fun (k, i) =>
    match c with
    | some c => let p := posCode c.fmt c.param (i0 + i); ⟨k, p.code, true, p.sat⟩
    | none => ⟨k, 0, true, false⟩

/-- Saturated positions among entries written. -/
def satEntries (es : List Entry) : Nat := es.countP Entry.sat

/-- Two operands have the extents of rank-1 or rank-2 rows alike (R285). -/
def lowRank (d : Desc) : Bool := d.rank ≤ 2

/-- SORT and SORTKV (R283 to R286, R291, R292). -/
def sortOp (kv : Bool) (x : Ctx) (s : State) : Res :=
  let nd : Need := if kv then .optional else .required
  let nb : Need := if kv then .optional else .unused
  let nc : Need := if kv then .required else .unused
  match handlesCheck s x.c (handleNeeds x.w nd .required nb nc) with
  | some code => .reject code
  | none =>
    let d := operand s x.c (I.d x.w)
    let a := readDesc s x.c (I.a x.w)
    let b := operand s x.c (I.b x.w)
    let c := operand s x.c (I.c x.w)
    let pos := kv && b.isNone
    let m := I.mod x.w
    let desc := bitAt m 0
    let uns := bitAt m 3
    match sortChecks [(d, true, false), (some a, false, false), (b, false, false), (c, true, pos)] with
    | some code => .reject code
    | none =>
      let others := d.toList ++ b.toList ++ c.toList
      match firstCode [
          (a.blk ≠ 0 || others.any fun o => o.blk ≠ 0, Code.rejFormat),
          (!keyFmt a.fmt || (d.any fun d => d.fmt ≠ a.fmt) || (b.any fun b => !valueFmt b.fmt) ||
            (c.any fun c => if pos then !posFmt c.fmt else !valueFmt c.fmt), Code.rejFormat),
          (uns && !intKey a.fmt, Code.rejFormat),
          (!pos && ((b.map Desc.fmt) != (c.map Desc.fmt)), Code.rejFormat),
          (!lowRank a, Code.rejFormat),
          (1024 < a.d0, Code.rejRange),
          (others.any fun o => !sameDims o a, Code.rejFormat),
          ((d.any fun d => !destOk d true (a :: b.toList) c.toList) ||
            (c.any fun c => !destOk c true (a :: b.toList) d.toList), Code.rejFormat)] with
      | some code => .reject code
      | none =>
        if a.empty then .ok (Out.at s x.t)
        else
          let dst := (d.map Desc.spans).getD [] ++ (c.map Desc.spans).getD []
          withReads x.c x.t (a.spans ++ (b.map Desc.spans).getD []) dst s fun s =>
            let keys := allCodes s x.c a
            let vals := b.map fun b => allCodes s x.c b
            let rows := keys.zipIdx.map fun (row, r) =>
              sortEntries (Entry.ahead a.fmt uns desc)
                (match vals with | some v => withVals row (v.getD r []) | none => withPos c 0 row)
            let s := match d with
              | some d => writeCodes s x.c d (rows.map fun r => r.map Entry.key)
              | none => s
            let s := match c with
              | some c => writeCodes s x.c c (rows.map fun r => r.map Entry.val)
              | none => s
            let w := elemBytes a.fmt
            let v := match c with | some c => elemBytes c.fmt | none => 0
            let n := a.d0
            let perRow := ceilDiv (n * w) 64 + Nat.max 1 (clog2 n - 4) * ceilDiv n 32 +
              ceilDiv (n * ((if d.isSome then w else 0) + v)) 64
            .ok { Out.at s (x.t + perRow * a.rows + 12) with
                  sat := sumNat (rows.map satEntries), dst := dst, stages := 2 ^ 32 - 1 }

/-- The list that TOPK makes of held entries and a new row: the best `k`, filled up (R287 to R289). -/
def topList (fmt : Nat) (uns small : Bool) (k fill : Nat) (es : List Entry) : List Entry :=
  let best := ((sortEntries (Entry.ahead fmt uns (!small)) es).filter Entry.real).take k
  best ++ List.replicate (k - best.length) ⟨fillerKey fmt uns small, fill, false, false⟩

/-- TOPK (R283, R284, R286 to R289, R291, R292). -/
def topkOp (x : Ctx) (s : State) : Res :=
  match handlesCheck s x.c (handleNeeds x.w .required .required .optional .required) with
  | some code => .reject code
  | none =>
    let d := readDesc s x.c (I.d x.w)
    let a := readDesc s x.c (I.a x.w)
    let b := operand s x.c (I.b x.w)
    let c := readDesc s x.c (I.c x.w)
    let pos := b.isNone
    let m := I.mod x.w
    let small := bitAt m 0
    let acc := bitAt m 1
    let uns := bitAt m 3
    let k := I.imm x.w
    match sortChecks [(some d, true, false), (some a, false, false), (b, false, false), (some c, true, pos)] with
    | some code => .reject code
    | none =>
      match firstCode [
          (a.blk ≠ 0 || d.blk ≠ 0 || c.blk ≠ 0 || (b.any fun b => b.blk ≠ 0), Code.rejFormat),
          (!keyFmt a.fmt || d.fmt ≠ a.fmt || (b.any fun b => !valueFmt b.fmt) ||
            (if pos then !posFmt c.fmt else !valueFmt c.fmt), Code.rejFormat),
          (uns && !intKey a.fmt, Code.rejFormat),
          (b.any fun b => b.fmt ≠ c.fmt, Code.rejFormat),
          (!lowRank a || (b.any fun b => !sameDims b a), Code.rejFormat),
          (k = 0 || 1024 < k, Code.rejRange),
          (!lowRank d || !lowRank c || d.d0 ≠ k || c.d0 ≠ k || d.d1 ≠ a.d1 || c.d1 ≠ a.d1, Code.rejFormat),
          (!destOk d true (a :: b.toList) [c] || !destOk c true (a :: b.toList) [d], Code.rejFormat)] with
      | some code => .reject code
      | none =>
        if d.empty || (a.empty && acc) then .ok (Out.at s x.t)
        else
          let dst := d.spans ++ c.spans
          let held := if acc then dst else []
          withReads x.c x.t (a.spans ++ (b.map Desc.spans).getD [] ++ held) dst s fun s =>
            let ones := 2 ^ fmtBits c.fmt - 1
            let out := (List.range d.rows).map fun r =>
              let row := if a.empty then [] else rowCodes s x.c a r
              let fresh := match b with
                | some b => withVals row (if a.empty then [] else rowCodes s x.c b r)
                | none => withPos (some c) 0 row
              let old := if acc then
                  ((rowCodes s x.c d r).zip (rowCodes s x.c c r)).map fun (k, v) => (⟨k, v, v ≠ ones, false⟩ : Entry)
                else []
              topList a.fmt uns small k ones (old ++ fresh)
            let s := writeCodes s x.c d (out.map fun best => best.map Entry.key)
            let s := writeCodes s x.c c (out.map fun best => best.map Entry.val)
            let w := elemBytes a.fmt
            let v := elemBytes c.fmt
            let list := ceilDiv (k * (w + v)) 64
            let perRow := ceilDiv (a.d0 * w) 64 + list + (if acc then list else 0)
            .ok { Out.at s (x.t + perRow * d.rows + 12) with
                  sat := sumNat (out.map satEntries), dst := dst, stages := 2 ^ 32 - 1 }

/-- MERGE (R283, R286, R290 to R292). -/
def mergeOp (x : Ctx) (s : State) : Res :=
  match handlesCheck s x.c (handleNeeds x.w .required .required .required .required) with
  | some code => .reject code
  | none =>
    let d := readDesc s x.c (I.d x.w)
    let a := readDesc s x.c (I.a x.w)
    let b := readDesc s x.c (I.b x.w)
    let c := readDesc s x.c (I.c x.w)
    let m := I.mod x.w
    let uns := bitAt m 3
    let n := a.d0 + b.d0
    match sortChecks [(some d, true, false), (some a, false, false), (some b, false, false), (some c, true, true)] with
    | some code => .reject code
    | none =>
      match firstCode [
          (a.blk ≠ 0 || b.blk ≠ 0 || d.blk ≠ 0 || c.blk ≠ 0, Code.rejFormat),
          (!keyFmt a.fmt || b.fmt ≠ a.fmt || d.fmt ≠ a.fmt || !posFmt c.fmt, Code.rejFormat),
          (uns && !intKey a.fmt, Code.rejFormat),
          (a.rank ≠ 1 || b.rank ≠ 1, Code.rejFormat),
          (65535 < n, Code.rejRange),
          (d.rank ≠ 1 || c.rank ≠ 1 || d.d0 ≠ n || c.d0 ≠ n, Code.rejFormat),
          (!destOk d true [a, b] [c] || !destOk c true [a, b] [d], Code.rejFormat)] with
      | some code => .reject code
      | none =>
        if n = 0 then .ok (Out.at s x.t)
        else
          let dst := d.spans ++ c.spans
          withReads x.c x.t (a.spans ++ b.spans) dst s fun s =>
            let xs := withPos (some c) 0 ((allCodes s x.c a).getD 0 [])
            let ys := withPos (some c) a.d0 ((allCodes s x.c b).getD 0 [])
            let es := mergeRuns (Entry.ahead a.fmt uns (bitAt m 0)) n xs ys
            let s := writeCodes s x.c d [es.map Entry.key]
            let s := writeCodes s x.c c [es.map Entry.val]
            .ok { Out.at s (x.t + ceilDiv (n * (elemBytes a.fmt + elemBytes c.fmt)) 64 + 12) with
                  sat := satEntries es, dst := dst, stages := 2 ^ 32 - 1 }

/-- A Sort operation whose MOD uses the bits of a mask. -/
def sortSpec (op : Nat) (bad : Nat → Bool) (mask : Nat) (body : Ctx → State → Res) : OpSpec :=
  { op := op, bad := bad, modOk := fun m => m &&& mask = m, notBefore := fun _ => 0, body := body }

/-- SORT: each row of keys is sorted (R285). -/
def execSort (c : CoreId) (s : State) : Host.Outcome State Fault Refusal :=
  runOp c .sort (sortSpec 0x00 (fun w => I.imm w ≠ 0) 9 (sortOp false)) s
/-- SORTKV: each row of keys is sorted with its values or positions (R285). -/
def execSortkv (c : CoreId) (s : State) : Host.Outcome State Fault Refusal :=
  runOp c .sort (sortSpec 0x01 (fun w => I.imm w ≠ 0) 9 (sortOp true)) s
/-- TOPK: the best k keys of each row (R287). -/
def execTopk (c : CoreId) (s : State) : Host.Outcome State Fault Refusal :=
  runOp c .sort (sortSpec 0x02 (fun w => 2047 < I.imm w) 11 topkOp) s
/-- MERGE: two runs are merged (R290). -/
def execMerge (c : CoreId) (s : State) : Host.Outcome State Fault Refusal :=
  runOp c .sort (sortSpec 0x03 (fun w => I.imm w ≠ 0) 9 mergeOp) s

end Sys2Proof.Machine
end

