-- ==== Sys2Proof/Machine/Flags.lean ====
section
/-! DEFINITION. Conditions that set one-bit results: the Tally comparators (R83, R84). -/
namespace Sys2Proof.Machine

/-- A Tally condition code of R84 holds of two 48-bit values. -/
def tallyCond (cond : Nat) (a b : BitVec 48) : Bool :=
  match cond with
  | 0 => a = b
  | 1 => a ≠ b
  | 2 => a.slt b
  | 3 => !a.slt b
  | 4 => a.ult b
  | 5 => !a.ult b
  | _ => false

end Sys2Proof.Machine
end

