-- ==== Sys2Proof/Machine/Tally.lean ====
section
/-! DEFINITION. The Tally unit: counters, comparators, loads, stores and branches (R83 to R85). -/
namespace Sys2Proof.Machine

/-- A Tally counter. -/
def State.ctr (s : State) (c : CoreId) (i : Nat) : BitVec 48 := AMap.get (s.core c).ctrs 0 i

/-- A Tally counter set. -/
def State.setCtr (s : State) (c : CoreId) (i : Nat) (v : BitVec 48) : State :=
  s.setCore c { s.core c with ctrs := AMap.set (s.core c).ctrs 0 i v }

/-- A Tally comparator. -/
def State.cmpBit (s : State) (c : CoreId) (i : Nat) : Bool := AMap.get (s.core c).cmps false i

/-- A Tally comparator set. -/
def State.setCmp (s : State) (c : CoreId) (i : Nat) (v : Bool) : State :=
  s.setCore c { s.core c with cmps := AMap.set (s.core c).cmps false i v }

/-- A Tally operation: its OP, operand fields, the MOD values it takes and its effect. -/
def tally (op : Nat) (used : List (Nat × Nat)) (modOk : Nat → Bool) (body : Ctx → State → Res) : OpSpec :=
  { op := op, bad := strayBits used, modOk := modOk, notBefore := fun _ => 0, body := body }

/-- MOD must be 0 (R83). -/
def mod0 (m : Nat) : Bool := m = 0

/-- MOD is a condition of R84. -/
def modCond (m : Nat) : Bool := m < 6

/-- Cd, Ca, Cb and Kk of a Tally word (R83). -/
def fd (x : Ctx) : Nat := bits x.w 3 0
def fa (x : Ctx) : Nat := bits x.w 7 4
def fb (x : Ctx) : Nat := bits x.w 11 8
def fk (x : Ctx) : Nat := bits x.w 14 12
/-- The hearth address of LD, ST and STF. -/
def fh (x : Ctx) : Nat := bits x.w 20 4

def setiSpec : OpSpec := tally 0x00 [(3, 0), (51, 4)] mod0 fun x s =>
  .ok (Out.at (s.setCtr x.c (fd x) (BitVec.ofNat 48 (bits x.w 51 4))) x.t)

def addiSpec : OpSpec := tally 0x01 [(3, 0), (51, 4)] mod0 fun x s =>
  .ok (Out.at (s.setCtr x.c (fd x) (s.ctr x.c (fd x) + BitVec.ofNat 48 (bits x.w 51 4))) x.t)

def addSpec : OpSpec := tally 0x02 [(3, 0), (7, 4), (11, 8)] mod0 fun x s =>
  .ok (Out.at (s.setCtr x.c (fd x) (s.ctr x.c (fa x) + s.ctr x.c (fb x))) x.t)

def subSpec : OpSpec := tally 0x03 [(3, 0), (7, 4), (11, 8)] mod0 fun x s =>
  .ok (Out.at (s.setCtr x.c (fd x) (s.ctr x.c (fa x) - s.ctr x.c (fb x))) x.t)

/-- LD: the low 48 bits of the 8 bytes at h (R83, R85). -/
def ldSpec : OpSpec := tally 0x04 [(3, 0), (20, 4)] mod0 fun x s =>
  if fh x % 8 ≠ 0 then .reject Code.rejRange
  else withReads x.c x.t [(fh x, 8)] [] s fun s =>
    .ok (Out.at (s.setCtr x.c (fd x) (BitVec.ofNat 48 (s.hnat x.c (fh x) 8))) x.t)

/-- The 8 bytes that ST writes: the counter sign-extended (R83). -/
def stBytes (v : BitVec 48) : List Byte := leBytes 8 (v.signExtend 64).toNat

def stSpec : OpSpec := tally 0x05 [(3, 0), (20, 4)] mod0 fun x s =>
  if fh x % 8 ≠ 0 then .reject Code.rejRange
  else .ok { Out.at (s.hwrite x.c (fh x) (stBytes (s.ctr x.c (fd x)))) x.t with dst := [(fh x, 8)] }

/-- STF: bits [lo + w − 1 : lo] of the 8 bytes at h become Cd[w − 1 : 0] (R83, R85). -/
def stfSpec : OpSpec := tally 0x06 [(3, 0), (20, 4), (26, 21), (32, 27)] mod0 fun x s =>
  let lo := bits x.w 26 21
  let w := bits x.w 32 27 + 1
  if 48 < w || 64 < lo + w || fh x % 8 ≠ 0 then .reject Code.rejRange
  else withReads x.c x.t [(fh x, 8)] [(fh x, 8)] s fun s =>
    .ok { Out.at (s.hwrite x.c (fh x)
            (leBytes 8 (setBits (s.hnat x.c (fh x) 8) (lo + w - 1) lo (s.ctr x.c (fd x)).toNat))) x.t with
          dst := [(fh x, 8)] }

def cmpSpec : OpSpec := tally 0x07 [(7, 4), (11, 8), (14, 12)] modCond fun x s =>
  .ok (Out.at (s.setCmp x.c (fk x) (tallyCond (I.mod x.w) (s.ctr x.c (fa x)) (s.ctr x.c (fb x)))) x.t)

/-- CMPI: the 32-bit immediate is sign-extended to 48 bits (R83). -/
def cmpiSpec : OpSpec := tally 0x08 [(7, 4), (14, 12), (55, 24)] modCond fun x s =>
  .ok (Out.at (s.setCmp x.c (fk x) (tallyCond (I.mod x.w) (s.ctr x.c (fa x))
    ((BitVec.ofNat 32 (bits x.w 55 24)).signExtend 48))) x.t)

/-- SKIPK: the next n instructions are removed if the comparator holds the chosen value (R51, R83, R89, R91). -/
def skipkSpec : OpSpec := tally 0x09 [(14, 12), (21, 16)] (fun m => m < 2) fun x s =>
  let n := bits x.w 21 16
  if skipRange (s.eng x.c x.e) x.pc n then .reject Code.rejRange
  else
    .ok { Out.at s x.t with
          flow := if s.cmpBit x.c (fk x) = (I.mod x.w = 0) && n ≠ 0 then .removed (x.pc + 1 + n) else .seq }

/-- DJNZ: the counter falls by 1, and execution goes to pc unless it is then 0 (R83, R85, R89). -/
def djnzSpec : OpSpec := tally 0x0A [(3, 0), (25, 16)] mod0 fun x s =>
  let pc := bits x.w 25 16
  if s.inLoop x then .reject Code.rejFormat
  else if 767 < pc then .reject Code.rejRange
  else
    let v := s.ctr x.c (fd x) - 1
    .ok { Out.at (s.setCtr x.c (fd x) v) x.t with
          flow := if v = 0 then .seq else .removed pc }

/-- SETI: Cd = imm (R83). -/
def execSeti (c : CoreId) (s : State) : Host.Outcome State Fault Refusal := runOp c .tally setiSpec s
/-- ADDI: Cd = Cd + imm (R83). -/
def execAddi (c : CoreId) (s : State) : Host.Outcome State Fault Refusal := runOp c .tally addiSpec s
/-- ADD: Cd = Ca + Cb (R83). -/
def execAdd (c : CoreId) (s : State) : Host.Outcome State Fault Refusal := runOp c .tally addSpec s
/-- SUB: Cd = Ca − Cb (R83). -/
def execSub (c : CoreId) (s : State) : Host.Outcome State Fault Refusal := runOp c .tally subSpec s
/-- LD: a counter is loaded from the hearth (R83). -/
def execLd (c : CoreId) (s : State) : Host.Outcome State Fault Refusal := runOp c .tally ldSpec s
/-- ST: a counter is stored to the hearth (R83). -/
def execSt (c : CoreId) (s : State) : Host.Outcome State Fault Refusal := runOp c .tally stSpec s
/-- STF: a bit field of a hearth word is rewritten from a counter (R83, R85). -/
def execStf (c : CoreId) (s : State) : Host.Outcome State Fault Refusal := runOp c .tally stfSpec s
/-- CMP: a comparator takes a comparison of two counters (R83, R84). -/
def execCmp (c : CoreId) (s : State) : Host.Outcome State Fault Refusal := runOp c .tally cmpSpec s
/-- CMPI: a comparator takes a comparison with an immediate (R83, R84). -/
def execCmpi (c : CoreId) (s : State) : Host.Outcome State Fault Refusal := runOp c .tally cmpiSpec s
/-- SKIPK: a conditional skip on a comparator (R83). -/
def execSkipk (c : CoreId) (s : State) : Host.Outcome State Fault Refusal := runOp c .tally skipkSpec s
/-- DJNZ: decrement and jump if not zero (R83). -/
def execDjnz (c : CoreId) (s : State) : Host.Outcome State Fault Refusal := runOp c .tally djnzSpec s

end Sys2Proof.Machine
end

