-- ==== Sys2Proof/Machine/Dispatch.lean ====
section
/-! DEFINITION. The dispatch: one arm per command, each a direct call of its meaning. -/
namespace Sys2Proof.Machine

/-- The effect of a command on everything but the queue. -/
def exec (i : Instr) (s : State) : Host.Outcome State Fault Refusal :=
  match i with
  | .registerWrite addr width data => Sys2Proof.Machine.execRegisterWrite addr width data s
  | .instructionBankWrite c bank off width data => Sys2Proof.Machine.execInstructionBankWrite c bank off width data s
  | .bankArm c => Sys2Proof.Machine.execBankArm c s
  | .bankDisarm c => Sys2Proof.Machine.execBankDisarm c s
  | .bankSwap c => Sys2Proof.Machine.execBankSwap c s
  | .start c e => Sys2Proof.Machine.execStart c e s
  | .stop c e => Sys2Proof.Machine.execStop c e s
  | .clearFault c e => Sys2Proof.Machine.execClearFault c e s
  | .retry c e => Sys2Proof.Machine.execRetry c e s
  | .instructionComplete c e => Sys2Proof.Machine.execInstructionComplete c e s
  | .waitTimeout c e => Sys2Proof.Machine.execWaitTimeout c e s
  | .fetchPastEnd c e => Sys2Proof.Machine.execFetchPastEnd c e s
  | .seti c => Sys2Proof.Machine.execSeti c s
  | .addi c => Sys2Proof.Machine.execAddi c s
  | .add c => Sys2Proof.Machine.execAdd c s
  | .sub c => Sys2Proof.Machine.execSub c s
  | .ld c => Sys2Proof.Machine.execLd c s
  | .st c => Sys2Proof.Machine.execSt c s
  | .stf c => Sys2Proof.Machine.execStf c s
  | .cmp c => Sys2Proof.Machine.execCmp c s
  | .cmpi c => Sys2Proof.Machine.execCmpi c s
  | .skipk c => Sys2Proof.Machine.execSkipk c s
  | .djnz c => Sys2Proof.Machine.execDjnz c s
  | .nop c e => Sys2Proof.Machine.execNop c e s
  | .halt c e => Sys2Proof.Machine.execHalt c e s
  | .bank c e => Sys2Proof.Machine.execBank c e s
  | .jump c e => Sys2Proof.Machine.execJump c e s
  | .loop c e => Sys2Proof.Machine.execLoop c e s
  | .skip c e => Sys2Proof.Machine.execSkip c e s
  | .dadv c e => Sys2Proof.Machine.execDadv c e s
  | .get c => Sys2Proof.Machine.execGet c s
  | .put c => Sys2Proof.Machine.execPut c s
  | .setloc c => Sys2Proof.Machine.execSetloc c s
  | .alloc c => Sys2Proof.Machine.execAlloc c s
  | .free c => Sys2Proof.Machine.execFree c s
  | .share c => Sys2Proof.Machine.execShare c s
  | .give c => Sys2Proof.Machine.execGive c s
  | .qsend c => Sys2Proof.Machine.execQsend c s
  | .qrecv c => Sys2Proof.Machine.execQrecv c s
  | .qdrop c => Sys2Proof.Machine.execQdrop c s
  | .moveRequestTimeout c => Sys2Proof.Machine.execMoveRequestTimeout c s
  | .clr c => Sys2Proof.Machine.execClr c s
  | .sum c => Sys2Proof.Machine.execSum c s
  | .iadd c => Sys2Proof.Machine.execIadd c s
  | .max c => Sys2Proof.Machine.execMax c s
  | .min c => Sys2Proof.Machine.execMin c s
  | .argmax c => Sys2Proof.Machine.execArgmax c s
  | .argmin c => Sys2Proof.Machine.execArgmin c s
  | .and c => Sys2Proof.Machine.execAnd c s
  | .or c => Sys2Proof.Machine.execOr c s
  | .xor c => Sys2Proof.Machine.execXor c s
  | .out c => Sys2Proof.Machine.execOut c s
  | .spill c => Sys2Proof.Machine.execSpill c s
  | .fill c => Sys2Proof.Machine.execFill c s
  | .gather c => Sys2Proof.Machine.execGather c s
  | .scatter c => Sys2Proof.Machine.execScatter c s
  | .compact c => Sys2Proof.Machine.execCompact c s
  | .filter c => Sys2Proof.Machine.execFilter c s
  | .hist c => Sys2Proof.Machine.execHist c s
  | .count c => Sys2Proof.Machine.execCount c s
  | .sort c => Sys2Proof.Machine.execSort c s
  | .sortkv c => Sys2Proof.Machine.execSortkv c s
  | .topk c => Sys2Proof.Machine.execTopk c s
  | .merge c => Sys2Proof.Machine.execMerge c s
  | .quant c => Sys2Proof.Machine.execQuant c s
  | .dequant c => Sys2Proof.Machine.execDequant c s
  | .cvt c => Sys2Proof.Machine.execCvt c s
  | .div c => Sys2Proof.Machine.execDiv c s
  | .sqrt c => Sys2Proof.Machine.execSqrt c s
  | .exp c => Sys2Proof.Machine.execExp c s
  | .log c => Sys2Proof.Machine.execLog c s
  | .rsqrt c => Sys2Proof.Machine.execRsqrt c s
  | .zero c => Sys2Proof.Machine.execZero c s
  | .mma c => Sys2Proof.Machine.execMma c s
  | .rd c => Sys2Proof.Machine.execRd c s
  | .redInject c data => Sys2Proof.Machine.execRedInject c data s
  | .tenInject c data => Sys2Proof.Machine.execTenInject c data s
  | .inject c e data => Sys2Proof.Machine.execInject c e data s
  | .packetArrival p => Sys2Proof.Machine.execPacketArrival p s
  | .rxHoldDrop c => Sys2Proof.Machine.execRxHoldDrop c s
  | .remoteSignal p => Sys2Proof.Machine.execRemoteSignal p s
  | .sigack p => Sys2Proof.Machine.execSigack p s
  | .remoteSignalLost r token => Sys2Proof.Machine.execRemoteSignalLost r token s
  | .barrierCarry r obj => Sys2Proof.Machine.execBarrierCarry r obj s
  | .syncSave r data => Sys2Proof.Machine.execSyncSave r data s
  | .syncRestore r data => Sys2Proof.Machine.execSyncRestore r data s
  | .syncSaveFinish r => Sys2Proof.Machine.execSyncSaveFinish r s
  | .timeMessageSend port => Sys2Proof.Machine.execTimeMessageSend port s
  | .time port f => Sys2Proof.Machine.execTime port f s
  | .holdoverTimeout => Sys2Proof.Machine.execHoldoverTimeout s
  | .relock => Sys2Proof.Machine.execRelock s
  | .almSet count => Sys2Proof.Machine.execAlmSet count s
  | .arm => Sys2Proof.Machine.execArm s
  | .armValidationDone => Sys2Proof.Machine.execArmValidationDone s
  | .handshakeOpen => Sys2Proof.Machine.execHandshakeOpen s
  | .handshakeResult => Sys2Proof.Machine.execHandshakeResult s
  | .handshakeTimeout => Sys2Proof.Machine.execHandshakeTimeout s
  | .jobStart => Sys2Proof.Machine.execJobStart s
  | .jobAbort => Sys2Proof.Machine.execJobAbort s
  | .jobEnd => Sys2Proof.Machine.execJobEnd s
  | .calendarLaunch die => Sys2Proof.Machine.execCalendarLaunch die s
  | .calendarLateLaunch die => Sys2Proof.Machine.execCalendarLateLaunch die s
  | .calendarCheck die => Sys2Proof.Machine.execCalendarCheck die s
  | .dsPartWrite die data => Sys2Proof.Machine.execDsPartWrite die data s
  | .cacheWindowWrite die w ctl data => Sys2Proof.Machine.execCacheWindowWrite die w ctl data s
  | .cacheInvalidateDone die w => Sys2Proof.Machine.execCacheInvalidateDone die w s
  | .stackReadRequest addr len => Sys2Proof.Machine.execStackReadRequest addr len s
  | .stackWriteRequest addr data => Sys2Proof.Machine.execStackWriteRequest addr data s
  | .scrub stack => Sys2Proof.Machine.execScrub stack s
  | .stackRetrain stack byWrite => Sys2Proof.Machine.execStackRetrain stack byWrite s
  | .stackRetrainDone stack failing => Sys2Proof.Machine.execStackRetrainDone stack failing s
  | .onmodLinkRetrain l failing => Sys2Proof.Machine.execOnmodLinkRetrain l failing s
  | .allocWaitGrant r => Sys2Proof.Machine.execAllocWaitGrant r s
  | .allocWaitTimeout r => Sys2Proof.Machine.execAllocWaitTimeout r s
  | .reclaim sp owner => Sys2Proof.Machine.execReclaim sp owner s
  | .reclaimDone sp => Sys2Proof.Machine.execReclaimDone sp s
  | .frameSend port => Sys2Proof.Machine.execFrameSend port s
  | .dataFrame port f => Sys2Proof.Machine.execDataFrame port f s
  | .replayFrame port f => Sys2Proof.Machine.execReplayFrame port f s
  | .idleFrame port f => Sys2Proof.Machine.execIdleFrame port f s
  | .badFrame port undecoded replayed => Sys2Proof.Machine.execBadFrame port undecoded replayed s
  | .trainFrame port lane body => Sys2Proof.Machine.execTrainFrame port lane body s
  | .trainTimeout port => Sys2Proof.Machine.execTrainTimeout port s
  | .trainRetry port => Sys2Proof.Machine.execTrainRetry port s
  | .down port f => Sys2Proof.Machine.execDown port f s
  | .laneSignalLoss port lane => Sys2Proof.Machine.execLaneSignalLoss port lane s
  | .silentTimeout port => Sys2Proof.Machine.execSilentTimeout port s
  | .stallTimeout port => Sys2Proof.Machine.execStallTimeout port s
  | .portEnable port => Sys2Proof.Machine.execPortEnable port s
  | .portDisable port => Sys2Proof.Machine.execPortDisable port s
  | .portRetrain port => Sys2Proof.Machine.execPortRetrain port s
  | .packetAccept port => Sys2Proof.Machine.execPacketAccept port s
  | .packetRoute src => Sys2Proof.Machine.execPacketRoute src s
  | .escapeRoute src => Sys2Proof.Machine.execEscapeRoute src s
  | .portPacketStart port => Sys2Proof.Machine.execPortPacketStart port s
  | .memrd port p => Sys2Proof.Machine.execMemrd port p s
  | .memwr port p => Sys2Proof.Machine.execMemwr port p s
  | .ethFrame port frame => Sys2Proof.Machine.execEthFrame port frame s
  | .ethHoldDrop port => Sys2Proof.Machine.execEthHoldDrop port s
  | .flipArm => Sys2Proof.Machine.execFlipArm s
  | .equinoxFlip => Sys2Proof.Machine.execEquinoxFlip s
  | .drainEnd => Sys2Proof.Machine.execDrainEnd s
  | .epDataAccess write data => Sys2Proof.Machine.execEpDataAccess write data s
  | .congestionMap => Sys2Proof.Machine.execCongestionMap s
  | .damperRefill level d => Sys2Proof.Machine.execDamperRefill level d s
  | .damperConfigWrite addr width data => Sys2Proof.Machine.execDamperConfigWrite addr width data s
  | .admissionGrant owner => Sys2Proof.Machine.execAdmissionGrant owner s
  | .admissionTimeout owner => Sys2Proof.Machine.execAdmissionTimeout owner s
  | .load f => Sys2Proof.Machine.execLoad f s
  | .unload f => Sys2Proof.Machine.execUnload f s
  | .flueAbortCmd f => Sys2Proof.Machine.execFlueAbortCmd f s
  | .clear f => Sys2Proof.Machine.execClear f s
  | .flueLoadDone => Sys2Proof.Machine.execFlueLoadDone s
  | .flueLaunch f => Sys2Proof.Machine.execFlueLaunch f s
  | .quickLaunch f => Sys2Proof.Machine.execQuickLaunch f s
  | .flueBufferGrant f => Sys2Proof.Machine.execFlueBufferGrant f s
  | .flueBufferTimeout f => Sys2Proof.Machine.execFlueBufferTimeout f s
  | .grant p => Sys2Proof.Machine.execGrant p s
  | .grantRepeat f => Sys2Proof.Machine.execGrantRepeat f s
  | .resend p => Sys2Proof.Machine.execResend p s
  | .pieceResendTimeout f peer seg down => Sys2Proof.Machine.execPieceResendTimeout f peer seg down s
  | .abort p => Sys2Proof.Machine.execAbort p s
  | .flueTimeout f => Sys2Proof.Machine.execFlueTimeout f s
  | .flueUnlaunchedMismatch f => Sys2Proof.Machine.execFlueUnlaunchedMismatch f s
  | .flueChunk p => Sys2Proof.Machine.execFlueChunk p s
  | .countMessage p => Sys2Proof.Machine.execCountMessage p s
  | .hubTask f hub => Sys2Proof.Machine.execHubTask f hub s
  | .taskTakeback f hub upd => Sys2Proof.Machine.execTaskTakeback f hub upd s
  | .flueComplete f => Sys2Proof.Machine.execFlueComplete f s
  | .quickValue p => Sys2Proof.Machine.execQuickValue p s
  | .quickDown p => Sys2Proof.Machine.execQuickDown p s
  | .quickResend f => Sys2Proof.Machine.execQuickResend f s
  | .heartbeat site stuck => Sys2Proof.Machine.execHeartbeat site stuck s
  | .heartbeatTimeout site => Sys2Proof.Machine.execHeartbeatTimeout site s
  | .spareSubstitute die data => Sys2Proof.Machine.execSpareSubstitute die data s
  | .autoSubstitute c => Sys2Proof.Machine.execAutoSubstitute c s
  | .substitutionDone die => Sys2Proof.Machine.execSubstitutionDone die s
  | .healthUpdate => Sys2Proof.Machine.execHealthUpdate s
  | .mirrorPacket p => Sys2Proof.Machine.execMirrorPacket p s
  | .mirrorHoldTimeout => Sys2Proof.Machine.execMirrorHoldTimeout s
  | .mirrorStop port f => Sys2Proof.Machine.execMirrorStop port f s
  | .digest port f => Sys2Proof.Machine.execDigest port f s
  | .digestTimeout tick => Sys2Proof.Machine.execDigestTimeout tick s
  | .takeoverJudge => Sys2Proof.Machine.execTakeoverJudge s
  | .verdict port f => Sys2Proof.Machine.execVerdict port f s
  | .verdictTimeout => Sys2Proof.Machine.execVerdictTimeout s
  | .relayEnd => Sys2Proof.Machine.execRelayEnd s
  | .recMark id => Sys2Proof.Machine.execRecMark id s
  | .recGap => Sys2Proof.Machine.execRecGap s
  | .replayInject => Sys2Proof.Machine.execReplayInject s
  | .replayEnd => Sys2Proof.Machine.execReplayEnd s
  | .vigilFailover => Sys2Proof.Machine.execVigilFailover s
  | .idRead q => Sys2Proof.Machine.execIdRead q s
  | .statusRead q => Sys2Proof.Machine.execStatusRead q s
  | .almRead q => Sys2Proof.Machine.execAlmRead q s
  | .lifeRead q => Sys2Proof.Machine.execLifeRead q s
  | .fencePort q => Sys2Proof.Machine.execFencePort q s
  | .fenceModule q => Sys2Proof.Machine.execFenceModule q s
  | .releasePort q => Sys2Proof.Machine.execReleasePort q s
  | .releaseModule q => Sys2Proof.Machine.execReleaseModule q s
  | .domainReset q => Sys2Proof.Machine.execDomainReset q s
  | .domainRelease site => Sys2Proof.Machine.execDomainRelease site s
  | .powerDown q => Sys2Proof.Machine.execPowerDown q s
  | .powerOn q => Sys2Proof.Machine.execPowerOn q s
  | .damp q => Sys2Proof.Machine.execDamp q s
  | .bankModule q => Sys2Proof.Machine.execBankModule q s
  | .resetModule q => Sys2Proof.Machine.execResetModule q s
  | .regRead q => Sys2Proof.Machine.execRegRead q s
  | .regWrite q => Sys2Proof.Machine.execRegWrite q s
  | .memRead q => Sys2Proof.Machine.execMemRead q s
  | .memWrite q => Sys2Proof.Machine.execMemWrite q s
  | .attest q => Sys2Proof.Machine.execAttest q s
  | .certRead q => Sys2Proof.Machine.execCertRead q s
  | .cfgInstall q => Sys2Proof.Machine.execCfgInstall q s
  | .cfgRead q => Sys2Proof.Machine.execCfgRead q s
  | .imgStage q => Sys2Proof.Machine.execImgStage q s
  | .i3cResponseRead len => Sys2Proof.Machine.execI3cResponseRead len s
  | .fenceN level => Sys2Proof.Machine.execFenceN level s
  | .pwrOffN level => Sys2Proof.Machine.execPwrOffN level s
  | .powerApply => Sys2Proof.Machine.execPowerApply s
  | .kindlingDone r => Sys2Proof.Machine.execKindlingDone r s
  | .kindlingStageTimeout stage => Sys2Proof.Machine.execKindlingStageTimeout stage s
  | .supplySample volts amps => Sys2Proof.Machine.execSupplySample volts amps s
  | .coolantSample inlet outlet flow => Sys2Proof.Machine.execCoolantSample inlet outlet flow s
  | .thermalSample readings => Sys2Proof.Machine.execThermalSample readings s
  | .throttleUpdate => Sys2Proof.Machine.execThrottleUpdate s
  | .lifeCommit => Sys2Proof.Machine.execLifeCommit s
  | .lifeMirror => Sys2Proof.Machine.execLifeMirror s
  | .referenceTakeover => Sys2Proof.Machine.execReferenceTakeover s
  | .codewordLock port => Sys2Proof.Machine.execCodewordLock port s
  | .rateMeasurementEnd port => Sys2Proof.Machine.execRateMeasurementEnd port s
  | .ethAlignmentLock port => Sys2Proof.Machine.execEthAlignmentLock port s
  | .backupVigilLost => Sys2Proof.Machine.execBackupVigilLost s
  | .kindlingImageFailure type => Sys2Proof.Machine.execKindlingImageFailure type s
  | .supplyRecovery => Sys2Proof.Machine.execSupplyRecovery s
  | .i3cCcc c => Sys2Proof.Machine.execI3cCcc c s

end Sys2Proof.Machine
end

