-- ==== Sys2Proof/Machine/Idle.lean ====
section
/-! DEFINITION. What a step does with no command waiting: one core cycle passes. -/
namespace Sys2Proof.Machine

/-- With no command waiting, one core cycle passes: every Almanac copy counts one (R148), and tick digests that have
become final are reported or compared (R513). What the fetch units do in it is accounted for when a queue is next used
(R50). -/
def State.idle (s : State) : State := (s.at (s.now + 1)).sweepDigs

end Sys2Proof.Machine
end

