-- ==== Sys2Proof/Safety.lean ====
section
/-! DEFINITION. What counts as a sound state of the block: every byte memory and the register file in canonical form,
and the Ashpit within its size; and the point at which an engine's head instruction issues. -/
namespace Sys2Proof.Machine

/-- The register file is in canonical form: addresses strictly rising, no entry equal to its register's reset value. -/
def regsOk (m : AMap Word) : Prop := m.Pairwise (fun x y => x.1 < y.1) ∧ ∀ x ∈ m, x.2 ≠ regReset x.1

/-- A sound state: the four byte memories and the register file are in canonical form, and the Ashpit stores at most
4,096 entries (R497). -/
def State.Sound (s : State) : Prop :=
  Memory.wf s.hearth ∧ Memory.wf s.istore ∧ Memory.wf s.scratch ∧ Memory.wf s.fabric ∧ regsOk s.regs ∧ s.ash.length ≤ 4096

/-- The instruction word at the head of an engine's queue. -/
def State.headWord (s : State) (c : CoreId) (e : Cls) : Nat := s.instrWord c (s.eng c e).pc

/-- An engine's head instruction is this operation and nothing of its form or fetch stops it (R59, R97). -/
def State.headOk (s : State) (c : CoreId) (e : Cls) (sp : OpSpec) : Bool :=
  let w := s.headWord c e
  c.has e && (s.eng c e).live && I.op w = sp.op && !illFormed e sp w && sp.modOk (I.mod w) &&
    (s.toHead c e).mark .istore ((s.toHead c e).instrPlace c (s.eng c e).pc) ≠ 2

/-- The issue point of an engine's head instruction: the state that its effect meets, its identifiers as translated, and the
signal that would undo its take; none where the head is not this operation, a check of R59 or R116 fails, or its wait does
not pass (R61). -/
def State.issuePoint (s : State) (c : CoreId) (e : Cls) (sp : OpSpec) : Option (State × Heads × Option Sig) :=
  if s.headOk c e sp then
    let s1 := (s.toHead c e).toIssue c e sp
    match translateHead s1 c (s.headWord c e) with
    | .error _ => none
    | .ok h =>
      match s1.judgeWait c e (s.headWord c e) sp h with
      | (.passes take, s2) => some ((s2.endWait c e).catchUp c, h, take)
      | _ => none
  else none

/-- What becomes of an instruction at its issue point, by its effect's verdict. -/
def State.verdict (s1 : State) (c : CoreId) (e : Cls) (w : Nat) (h : Heads) (take : Option Sig) : Res → State
  | .reject code => s1.rejectAt c e w (s1.eng c e).pc code take
  | .refuse code st => st.rejectAt c e w (s1.eng c e).pc code (if Code.family code = 3 then none else take)
  | .fail code st => st.engineFault c e w (s1.eng c e).pc code st.alm 0 0
  | .ok o => s1.issued c e w h take o

/-- The core, the engine and the operation of an engine command. -/
def engineOp : Instr → Option (CoreId × Cls × OpSpec)
  | .seti c => some (c, .tally, setiSpec)
  | .addi c => some (c, .tally, addiSpec)
  | .add c => some (c, .tally, addSpec)
  | .sub c => some (c, .tally, subSpec)
  | .ld c => some (c, .tally, ldSpec)
  | .st c => some (c, .tally, stSpec)
  | .stf c => some (c, .tally, stfSpec)
  | .cmp c => some (c, .tally, cmpSpec)
  | .cmpi c => some (c, .tally, cmpiSpec)
  | .skipk c => some (c, .tally, skipkSpec)
  | .djnz c => some (c, .tally, djnzSpec)
  | .nop c e => some (c, e, nopSpec)
  | .halt c e => some (c, e, haltSpec)
  | .bank c e => some (c, e, bankSpec)
  | .jump c e => some (c, e, jumpSpec)
  | .loop c e => some (c, e, loopSpec)
  | .skip c e => some (c, e, skipSpec)
  | .dadv c e => some (c, e, dadvSpec e)
  | .get c => some (c, .move, moveSpec 0x00 [(50, 0)] 1 (moveOp false))
  | .put c => some (c, .move, moveSpec 0x01 [(50, 0)] 1 (moveOp true))
  | .setloc c => some (c, .move, moveSpec 0x02 [(20, 0)] 0 setlocOp)
  | .alloc c => some (c, .move, grateSpec 0x10 [(16, 0), (20, 17), (22, 21), (24, 23)] true allocOp)
  | .free c => some (c, .move, grateSpec 0x11 [(16, 0), (20, 17)] false (ownersOp .free))
  | .share c => some (c, .move, grateSpec 0x12 [(16, 0), (20, 17), (37, 25)] false (ownersOp .share))
  | .give c => some (c, .move, grateSpec 0x13 [(16, 0), (20, 17), (37, 25)] false (ownersOp .give))
  | .qsend c => some (c, .move, moveSpec 0x20 [(19, 0)] 0 qsendOp)
  | .qrecv c => some (c, .move, moveSpec 0x21 [(19, 0)] 0 qrecvOp)
  | .qdrop c => some (c, .move, moveSpec 0x22 [(26, 17)] 0 qdropOp)
  | .clr c => some (c, .reduce, clrSpec)
  | .sum c => some (c, .reduce, sumSpec)
  | .iadd c => some (c, .reduce, iaddSpec)
  | .max c => some (c, .reduce, maxSpec)
  | .min c => some (c, .reduce, minSpec)
  | .argmax c => some (c, .reduce, argmaxSpec)
  | .argmin c => some (c, .reduce, argminSpec)
  | .and c => some (c, .reduce, andSpec)
  | .or c => some (c, .reduce, orSpec)
  | .xor c => some (c, .reduce, xorSpec)
  | .out c => some (c, .reduce, outSpec)
  | .spill c => some (c, .reduce, spillSpec)
  | .fill c => some (c, .reduce, fillSpec)
  | .gather c => some (c, .shape, shapeSpec 0x00 (fun _ => false) (fun m => m < 2) (moveRows true))
  | .scatter c => some (c, .shape, shapeSpec 0x01 (fun _ => false) (fun m => m < 2) (moveRows false))
  | .compact c => some (c, .shape, shapeSpec 0x02 (fun w => I.imm w ≠ 0) (fun m => m = 0) compactOp)
  | .filter c => some (c, .shape, shapeSpec 0x03 (fun w => I.imm w ≠ 0) (fun m => m < 8) filterOp)
  | .hist c => some (c, .shape, shapeSpec 0x04 (fun _ => false) (fun m => m < 4) histOp)
  | .count c => some (c, .shape, shapeSpec 0x05 (fun w => I.imm w ≠ 0) (fun _ => true) countOp)
  | .sort c => some (c, .sort, sortSpec 0x00 (fun w => I.imm w ≠ 0) 9 (sortOp false))
  | .sortkv c => some (c, .sort, sortSpec 0x01 (fun w => I.imm w ≠ 0) 9 (sortOp true))
  | .topk c => some (c, .sort, sortSpec 0x02 (fun w => 2047 < I.imm w) 11 topkOp)
  | .merge c => some (c, .sort, sortSpec 0x03 (fun w => I.imm w ≠ 0) 9 mergeOp)
  | .quant c => some (c, .scale, scaleSpec 0x00)
  | .dequant c => some (c, .scale, scaleSpec 0x01)
  | .cvt c => some (c, .scale, scaleSpec 0x02)
  | .div c => some (c, .scale, scaleSpec 0x03)
  | .sqrt c => some (c, .scale, scaleSpec 0x04)
  | .exp c => some (c, .scale, scaleSpec 0x05)
  | .log c => some (c, .scale, scaleSpec 0x06)
  | .rsqrt c => some (c, .scale, scaleSpec 0x07)
  | .zero c => some (c, .tensor, zeroSpec)
  | .mma c => some (c, .tensor, mmaSpec c)
  | .rd c => some (c, .tensor, rdSpec)
  | _ => none

end Sys2Proof.Machine
end

