-- ==== Sys2Proof/Certificates/Slice0/Obligations.lean ====
section
/-! DEFINITION. The statements for the provers. -/
section
open Sys2Proof Sys2Proof.Machine

/-! ## The block as a whole -/

/-- A step with a command at the front of the queue is that command's effect on the state with the queue's rest.
With no command waiting a step always answers a next state, and where no tick digest is outstanding it only lets one core
cycle pass: the clock and every Almanac copy count one (R148; that an idle step is one cycle is the model's choice, log entry
4). -/
def Obligations.StepServesQueue : Prop :=
  (∀ (s : State) (i : Instr), step { s with pending := i :: s.pending } = exec i s) ∧
  (∀ s : State, s.pending = [] → (∃ t, step s = .next t) ∧
     (s.digs = [] → s.peerDigs = [] → step s = .next { s with now := s.now + 1, alm := s.alm + 1 }))

/-- The state after reset is sound: memories and registers in canonical form, an empty Ashpit.
What Kindling leaves (R552): the module is BANKED, every register reads as its table's reset value, every byte of every
memory is 0, and no engine runs. -/
def Obligations.MachineAtReset : Prop :=
  (State.reset.Sound) ∧
  (State.reset.mstate = MState.banked ∧ (∀ a, State.reset.reg a = regReset a) ∧
   (∀ c a n, State.reset.hread c a n = List.replicate n 0) ∧ (∀ a n, State.reset.fread a n = List.replicate n 0) ∧
   (∀ d a n, State.reset.sread d a n = List.replicate n 0) ∧ (∀ c b a n, State.reset.iread c b a n = List.replicate n 0) ∧
   (∀ c e, (State.reset.eng c e).st = .halted ∧ (State.reset.eng c e).inflight = []) ∧ State.reset.ash = [])

/-- Every step keeps a sound state sound: whatever the command, the four memories and the register file stay in canonical
form and the Ashpit stores at most 4,096 entries (R497). -/
def Obligations.StepKeepsSound : Prop :=
  ∀ s t : State, s.Sound → step s = .next t → t.Sound

/-! ## Engine commands (chapter 02) -/

/-- At the issue point of its head instruction every engine command answers a next state, by its effect's verdict: a refusal,
rejection or failure puts the engine in FAULTED, and an outcome joins the instructions that have not completed. -/
def Obligations.EngineVerdict : Prop :=
  ∀ (i : Instr) (s s1 : State) (c : CoreId) (e : Cls) (sp : OpSpec) (h : Heads) (take : Option Sig),
    engineOp i = some (c, e, sp) → s.issuePoint c e sp = some (s1, h, take) →
    exec i s = .next (s1.verdict c e (s.headWord c e) h take
      (sp.body ⟨c, e, s.headWord c e, (s1.eng c e).pc, s1.now⟩ s1))

/-- A head instruction with a fault of form completes with REJ_FORMAT and has no effect (R59); and every instruction that ends with a
rejection leaves its engine FAULTED with the code and its program counter, its queue discarded, and every byte of memory outside
its completion ring unchanged (R95, R98). -/
def Obligations.RejectionFaults : Prop :=
  (∀ (i : Instr) (s : State) (c : CoreId) (e : Cls) (sp : OpSpec),
    engineOp i = some (c, e, sp) → c.has e = true → (s.eng c e).live = true →
    headIs e sp.op (s.headWord c e) = true → illFormed e sp (s.headWord c e) = true →
    (s.toHead c e).mark .istore ((s.toHead c e).instrPlace c (s.eng c e).pc) ≠ 2 →
    exec i s = .next (((s.toHead c e).endWait c e).rejectAt c e (s.headWord c e) (s.eng c e).pc Code.rejFormat none)) ∧
  (∀ (s : State) (c : CoreId) (e : Cls) (w pc code : Nat),
    let t := s.rejectAt c e w pc code none
    (t.eng c e).st = .faulted ∧ (t.eng c e).lastFault = code ∧ (t.eng c e).faultPc = pc ∧ (t.eng c e).queued = 0 ∧
    t.istore = s.istore ∧ t.scratch = s.scratch ∧ t.fabric = s.fabric ∧
    (s.fld (Reg.CR_BASE c e) F.CR_BASE_ENTRIES = 0 → t.hearth = s.hearth))

/-- Reaching an issue point changes no byte of any memory, no counter, comparator, locator, lane, tile or receive queue of the
core, and no other core; where the instruction has no wait, no register but the core's fetch-error and wait-cycle counters.
Issuing changes nothing beyond the effect but the engine's own sequencer: every register, every byte of memory, every other
engine and every other core stay as the effect left them, and the instruction stands last among those not completed. -/
def Obligations.IssueFrames : Prop :=
  (∀ (s s1 : State) (c : CoreId) (e : Cls) (sp : OpSpec) (h : Heads) (take : Option Sig),
     s.issuePoint c e sp = some (s1, h, take) →
     s1.hearth = s.hearth ∧ s1.istore = s.istore ∧ s1.scratch = s.scratch ∧ s1.fabric = s.fabric ∧ s1.marks = s.marks ∧
     s1.pending = s.pending ∧ s1.flight = s.flight ∧ s1.origin = s.origin ∧ s1.ports = s.ports ∧ s1.flues = s.flues ∧
     s1.buffers = s.buffers ∧ (∀ c', coreKey c' ≠ coreKey c → s1.core c' = s.core c') ∧
     (s1.core c).ctrs = (s.core c).ctrs ∧ (s1.core c).cmps = (s.core c).cmps ∧ (s1.core c).locs = (s.core c).locs ∧
     (s1.core c).lanes = (s.core c).lanes ∧ (s1.core c).tiles = (s.core c).tiles ∧ (s1.core c).recv = (s.core c).recv ∧
     (h.wait = none → ∀ a, a ≠ Reg.HTH_ISTORE_ECC c → a ≠ Reg.WAIT_CYCLES c e → s1.reg a = s.reg a)) ∧
  (∀ (s : State) (c : CoreId) (e : Cls) (w : Nat) (h : Heads) (take : Option Sig) (o : Out),
     let t := s.issued c e w h take o
     (∀ a, t.reg a = o.st.reg a) ∧ t.hearth = o.st.hearth ∧ t.istore = o.st.istore ∧ t.scratch = o.st.scratch ∧
     t.fabric = o.st.fabric ∧ t.regions = o.st.regions ∧ t.buffers = o.st.buffers ∧ t.flight = o.st.flight ∧
     (∀ c', coreKey c' ≠ coreKey c → t.core c' = o.st.core c') ∧
     (∀ e', clsCode e' ≠ clsCode e → t.eng c e' = o.st.eng c e') ∧
     (t.core c).ctrs = (o.st.core c).ctrs ∧ (t.core c).cmps = (o.st.core c).cmps ∧ (t.core c).locs = (o.st.core c).locs ∧
     (t.core c).lanes = (o.st.core c).lanes ∧ (t.core c).tiles = (o.st.core c).tiles ∧
     (t.core c).recv = (o.st.core c).recv ∧
     ∃ i, (t.eng c e).inflight = (o.st.eng c e).inflight ++ [i] ∧ i.word = w ∧ i.pc = (s.eng c e).pc ∧ i.issued = s.now ∧
       i.doneAt = o.doneAt ∧ i.code = o.code ∧ i.awaits = o.awaits)

/-- Where execution goes (R51, R88 to R90): outside a loop to the next instruction one cycle later; at the end of a loop body back
to its first instruction while iterations are left, and past it after the last; to a jump's target one cycle later, and past
removed instructions four cycles later; into a loop body; nowhere after HALT or BANK. -/
def Obligations.FlowRules : Prop :=
  ∀ (g : Engine) (pc t p : Nat) (l : LoopFrame) (ls : List LoopFrame) (k : Ending),
    (g.loops = [] → (g.advance pc t .seq).pc = pc + 1 ∧ (g.advance pc t .seq).issueAt = t + 1 ∧
      (g.advance pc t .seq).loops = []) ∧
    (g.loops = l :: ls → pc + 1 ≠ l.first + l.len → (g.advance pc t .seq).pc = pc + 1 ∧
      (g.advance pc t .seq).loops = g.loops) ∧
    (g.loops = l :: ls → pc + 1 = l.first + l.len → 1 < l.remaining → (g.advance pc t .seq).pc = l.first ∧
      (g.advance pc t .seq).loops = { l with remaining := l.remaining - 1 } :: ls) ∧
    (g.loops = [l] → pc + 1 = l.first + l.len → l.remaining ≤ 1 → (g.advance pc t .seq).pc = pc + 1 ∧
      (g.advance pc t .seq).loops = []) ∧
    (g.loops = [] → (g.advance pc t (.jump p)).pc = p ∧ (g.advance pc t (.jump p)).issueAt = t + 1) ∧
    (g.loops = [] → (g.advance pc t (.removed p)).pc = p ∧ (g.advance pc t (.removed p)).issueAt = t + 4) ∧
    (pc + 1 ≠ l.first + l.len → (g.advance pc t (.enter l)).pc = pc + 1 ∧
      (g.advance pc t (.enter l)).loops = l :: g.loops) ∧
    ((g.advance pc t (.stop k)).ending = k ∧ (g.advance pc t (.stop k)).queued = 0)

/-- SETI, ADDI, ADD and SUB (R83, R85): Cd takes the immediate or the sum or difference modulo 2^48, and the instruction completes
in its issue cycle.
LD, ST and STF (R83, R85): with h a multiple of 8 and no uncorrectable word read, LD loads the low 48 bits of the 8 bytes at h,
ST stores the counter sign-extended in 8 bytes at h, STF replaces a field of those 8 bytes; every other byte is unchanged.
CMP and CMPI set comparator Kk to a condition of R84; SKIPK removes the next n instructions if Kk holds the chosen value; DJNZ
takes 1 from its counter and goes to pc unless it is then 0 (R83 to R85, R89). -/
def Obligations.TallyCommands : Prop :=
  (∀ (s s1 : State) (c : CoreId) (h : Heads) (take : Option Sig),
     let w := s.headWord c .tally
     let imm := BitVec.ofNat 48 (bits w 51 4)
     let d := bits w 3 0
     let a := s1.ctr c (bits w 7 4)
     let b := s1.ctr c (bits w 11 8)
     let sets (v : BitVec 48) := s1.issued c .tally w h take (Out.at (s1.setCtr c d v) s1.now)
     (s.issuePoint c .tally setiSpec = some (s1, h, take) → exec (.seti c) s = .next (sets imm)) ∧
     (s.issuePoint c .tally addiSpec = some (s1, h, take) → exec (.addi c) s = .next (sets (s1.ctr c d + imm))) ∧
     (s.issuePoint c .tally addSpec = some (s1, h, take) → exec (.add c) s = .next (sets (a + b))) ∧
     (s.issuePoint c .tally subSpec = some (s1, h, take) → exec (.sub c) s = .next (sets (a - b))) ∧
     (∀ v j, (sets v).ctr c j = if j = d then v else s1.ctr c j)) ∧
  (∀ (s s1 s2 : State) (c : CoreId) (h : Heads) (take : Option Sig),
     let w := s.headWord c .tally
     let d := bits w 3 0
     let a := bits w 20 4
     let lo := bits w 26 21
     let n := bits w 32 27 + 1
     let stores (u : State) (bs : List Byte) : Out := { Out.at (u.hwrite c a bs) s1.now with dst := [(a, 8)] }
     a % 8 = 0 →
     (s.issuePoint c .tally ldSpec = some (s1, h, take) → readHearth s1 c [(a, 8)] = (none, s2) →
       exec (.ld c) s = .next (s1.issued c .tally w h take (Out.at (s2.setCtr c d (BitVec.ofNat 48 (s2.hnat c a 8))) s1.now))) ∧
     (s.issuePoint c .tally stSpec = some (s1, h, take) →
       exec (.st c) s = .next (s1.issued c .tally w h take (stores s1 (leBytes 8 ((s1.ctr c d).signExtend 64).toNat)))) ∧
     (s.issuePoint c .tally stfSpec = some (s1, h, take) → n ≤ 48 → lo + n ≤ 64 → readHearth s1 c [(a, 8)] = (none, s2) →
       exec (.stf c) s = .next (s1.issued c .tally w h take
         (stores s2 (leBytes 8 (setBits (s2.hnat c a 8) (lo + n - 1) lo (s2.ctr c d).toNat))))) ∧
     (∀ u bs k, bs.length = 8 → (k < hearthAt c a ∨ hearthAt c a + 8 ≤ k) →
       Mem.get (s1.issued c .tally w h take (stores u bs)).hearth k = Mem.get u.hearth k)) ∧
  (∀ (s s1 : State) (c : CoreId) (h : Heads) (take : Option Sig),
     let w := s.headWord c .tally
     let k := bits w 14 12
     let a := s1.ctr c (bits w 7 4)
     let v := s1.ctr c (bits w 3 0) - 1
     let n := bits w 21 16
     let pc := (s1.eng c .tally).pc
     let goes (u : State) (f : Flow) := s1.issued c .tally w h take { Out.at u s1.now with flow := f }
     (s.issuePoint c .tally cmpSpec = some (s1, h, take) →
       exec (.cmp c) s = .next (goes (s1.setCmp c k (tallyCond (I.mod w) a (s1.ctr c (bits w 11 8)))) .seq)) ∧
     (s.issuePoint c .tally cmpiSpec = some (s1, h, take) →
       exec (.cmpi c) s = .next (goes (s1.setCmp c k
         (tallyCond (I.mod w) a ((BitVec.ofNat 32 (bits w 55 24)).signExtend 48))) .seq)) ∧
     (s.issuePoint c .tally skipkSpec = some (s1, h, take) → skipRange (s1.eng c .tally) pc n = false →
       exec (.skipk c) s = .next (goes s1
         (if s1.cmpBit c k = decide (I.mod w = 0) ∧ n ≠ 0 then .removed (pc + 1 + n) else .seq))) ∧
     (s.issuePoint c .tally djnzSpec = some (s1, h, take) → (s1.eng c .tally).loops = [] → bits w 25 16 ≤ 767 →
       exec (.djnz c) s = .next (goes (s1.setCtr c (bits w 3 0) v) (if v = 0 then .seq else .removed (bits w 25 16)))))

/-- NOP, HALT, BANK, JUMP, LOOP, SKIP and DADV (R87 to R92): each has only the effect that R87 gives it, where the checks of R89, R91
and R92 pass. -/
def Obligations.CommonOperations : Prop :=
  ∀ (s s1 : State) (c : CoreId) (e : Cls) (h : Heads) (take : Option Sig),
    let w := s.headWord c e
    let g := s1.eng c e
    let goes (u : State) (f : Flow) := s1.issued c e w h take { Out.at u s1.now with flow := f }
    let n := bits w 15 0
    let len := bits w 25 16
    (s.issuePoint c e nopSpec = some (s1, h, take) → exec (.nop c e) s = .next (goes s1 .seq)) ∧
    (s.issuePoint c e haltSpec = some (s1, h, take) → g.loops = [] → exec (.halt c e) s = .next (goes s1 (.stop .halt))) ∧
    (s.issuePoint c e bankSpec = some (s1, h, take) → g.loops = [] → exec (.bank c e) s = .next (goes s1 (.stop .bank))) ∧
    (s.issuePoint c e jumpSpec = some (s1, h, take) → g.loops = [] → bits w 9 0 ≤ 767 →
      exec (.jump c e) s = .next (goes s1 (.jump (bits w 9 0)))) ∧
    (s.issuePoint c e loopSpec = some (s1, h, take) → 1 ≤ len → len ≤ 64 → g.pc + len ≤ 767 → g.loops.length < 2 →
      (∀ l ∈ g.loops.head?, g.pc + 1 + len ≤ l.first + l.len) →
      exec (.loop c e) s = .next (goes s1 (if n = 0 then .removed (g.pc + 1 + len) else .enter ⟨g.pc + 1, len, n⟩))) ∧
    (∀ t, s.issuePoint c e skipSpec = some (s1, h, take) → skipRange g g.pc (bits w 5 0) = false →
      translate s1 (regionOf c) (s1.fld (Reg.HTH_CTX c) F.HTH_CTX_CONTEXT) (I.wid w) true (waitKind (I.wcond w)) = .ok t →
      exec (.skip c e) s = .next (goes s1
        (if waitHolds (I.wcond w) (I.wval w) (s1.v0 (Reg.SYN_OBJ (regionOf c) t.obj)) = true ∧ bits w 5 0 ≠ 0
         then .removed (g.pc + 1 + bits w 5 0) else .seq))) ∧
    (s.issuePoint c e (dadvSpec e) = some (s1, h, take) → handleCheck s1 c true (bits w 7 0) = none →
      let a := descAddr s1 c (bits w 7 0)
      let d0 := s1.hnat c a 8
      let f := if bitAt w 8 then ((63, 47) : Nat × Nat) else (32, 16)
      let v : Int := (bits d0 f.1 f.2 : Int) + toSigned 24 (bits w 55 32)
      0 ≤ v → v ≤ 0x1FFFF →
      exec (.dadv c e) s = .next (goes (s1.hwrite c a (leBytes 8 (setBits d0 f.1 f.2 v.toNat))) .seq))

/-! ## The Move engine (chapters 02, 08 and 10) -/

/-- SETLOC, QRECV and QDROP (R79, R305): SETLOC loads a locator register from a 16-byte record whose last word is 0; QRECV stores the
head packet's header words and buffer locator at a record and removes the packet; QDROP removes the n head packets and frees
their buffers. On a misaligned record or an empty queue each is rejected and has none of its effect (R81, R305). -/
def Obligations.MoveRecords : Prop :=
  ∀ (s s1 s2 : State) (c : CoreId) (h : Heads) (take : Option Sig),
    let w := s.headWord c .move
    let a := bits w 16 0
    let q := bits w 19 17
    let n := bits w 26 20 + 1
    let ps := (s1.core c).queue q
    let goes (o : Out) := s1.issued c .move w h take o
    let rejected (code : Nat) := s1.rejectAt c .move w (s1.eng c .move).pc code take
    (s.issuePoint c .move (moveSpec 0x02 [(20, 0)] 0 setlocOp) = some (s1, h, take) → a % 16 = 0 →
      readHearth s1 c [(a, 16)] = (none, s2) → s2.hnat c (a + 12) 4 = 0 →
      exec (.setloc c) s = .next (goes (Out.at (s2.setLocator c (bits w 20 17)
        { loc := BitVec.ofNat 64 (s2.hnat c a 8), rstride := s2.hnat c (a + 8) 4 }) s1.now))) ∧
    (∀ p rest, s.issuePoint c .move (moveSpec 0x21 [(19, 0)] 0 qrecvOp) = some (s1, h, take) → a % 32 = 0 →
      s1.hnat c (a + 24) 8 = 0 → ps = p :: rest →
      exec (.qrecv c) s = .next (goes
        { Out.at ((s1.setQueue c q rest).hwrite c a (leBytes 8 p.w0.toNat ++ leBytes 8 p.w1.toNat ++ leBytes 8 p.buf))
            (s1.now + 6) with dst := [(a, 24)] })) ∧
    (s.issuePoint c .move (moveSpec 0x22 [(26, 17)] 0 qdropOp) = some (s1, h, take) → n ≤ ps.length →
      exec (.qdrop c) s = .next (goes (Out.at ((ps.take n).foldl (fun u p => u.freePacket c p)
        (s1.setQueue c q (ps.drop n))) (s1.now + 6)))) ∧
    (s.issuePoint c .move (moveSpec 0x02 [(20, 0)] 0 setlocOp) = some (s1, h, take) → a % 16 ≠ 0 →
      exec (.setloc c) s = .next (rejected Code.rejRange)) ∧
    (s.issuePoint c .move (moveSpec 0x21 [(19, 0)] 0 qrecvOp) = some (s1, h, take) → a % 32 = 0 →
      s1.hnat c (a + 24) 8 = 0 → ps = [] → exec (.qrecv c) s = .next (rejected Code.rejState)) ∧
    (s.issuePoint c .move (moveSpec 0x22 [(26, 17)] 0 qdropOp) = some (s1, h, take) → ps = [] →
      exec (.qdrop c) s = .next (rejected Code.rejState))

/-- GET and PUT between the hearth and another place (R78 to R82, R298, R301): a transfer that passes the checks of R81 and R300, that
moves something and whose requests can all be acknowledged copies its rows, counts its bytes, adds INC's step to the locator and
takes the first-data latency and one cycle per 64 bytes; one that moves nothing completes at once.
A row of a transfer between the hearth and a scratchpad, where no stored word shows an error, arrives whole: the bytes at the
destination become those of the source, and every hearth and scratchpad byte outside the destination keeps its value (R80).
QSEND (R305, R361): with an aligned record that reads without an error and whose last word is 0, a queue that is enabled, a
length of at most 8,192, a Grate buffer that the context owns and that reads, and a packet that is admitted, the packet is sent
with the buffer's bytes and the instruction completes six cycles later. -/
def Obligations.MoveCommands : Prop :=
  (∀ (s s1 s3 : State) (c : CoreId) (h : Heads) (take : Option Sig) (p : Place) (put : Bool) (code : Nat),
     let w := s.headWord c .move
     let x : Ctx := ⟨c, .move, w, (s1.eng c .move).pc, s1.now⟩
     let l := (s1.core c).locator (bits w 14 11)
     let m := xferOf put w l.loc.toNat l.rstride
     let cmd : Instr := if put then .put c else .get c
     let s2 := s1.incLocator x m.rows
     s.issuePoint c .move (moveSpec (if put then 0x01 else 0x00) [(50, 0)] 1 (moveOp put)) = some (s1, h, take) →
     m.hearthBad = false → placeOf s1 c m.loc = .ok p → (∀ k, p ≠ .queue k) → xferChecks s1 c m p = none →
     (m.empty = true → exec cmd s = .next (s1.issued c .move w h take (Out.at s2 s1.now))) ∧
     (m.empty = false → xferSilent s2 m p = false → (∀ i ∈ (s2.eng c .move).inflight, i.awaits ≠ .requests) →
       s2.transfer c m p = (code, s3) →
       exec cmd s = .next (s1.issued c .move w h take
         { Out.at s3 (s1.now + xferTime c m p) with
           code := code, dst := if code = Code.failMemory ∧ put = false then m.hearthRows else [] }))) ∧
  (∀ (s : State) (c : CoreId) (x : Xfer) (d a r : Nat),
     let from_ := x.haddr + r * x.hstride
     let far := a + r * x.rstride
     let t := (s.moveRow c x (.scratch d a) r).2
     s.marks = [] →
     (x.put = false → t.hread c from_ x.len = s.sread d far x.len ∧ t.scratch = s.scratch ∧
       ∀ k, (k < hearthAt c from_ ∨ hearthAt c from_ + x.len ≤ k) → Mem.get t.hearth k = Mem.get s.hearth k) ∧
     (x.put = true → t.sread d far x.len = s.hread c from_ x.len ∧ t.hearth = s.hearth ∧
       ∀ k, (k < d * 0x8000000 + far ∨ d * 0x8000000 + far + x.len ≤ k) → Mem.get t.scratch k = Mem.get s.scratch k)) ∧
  (∀ (s s1 s2 s3 s4 : State) (c : CoreId) (h : Heads) (take : Option Sig) (pl : Place) (code k : Nat) (bs : List Byte),
     let w := s.headWord c .move
     let a := bits w 16 0
     let q := bits w 19 17
     let w0 : Word := BitVec.ofNat 64 (s2.hnat c a 8)
     let buf := s2.hnat c (a + 16) 8
     let x : Ctx := ⟨c, .move, w, (s1.eng c .move).pc, s1.now⟩
     s.issuePoint c .move (moveSpec 0x20 [(19, 0)] 0 qsendOp) = some (s1, h, take) → a % 32 = 0 →
     readHearth s1 c [(a, 32)] = (none, s2) → s2.hnat c (a + 24) 8 = 0 →
     F.MOV_QCFG_ENABLE.on (queueCfg s2 c q) = true → P.length.get w0 ≤ 8192 →
     grateCheck s2 c .free (s2.contextOf c) 0 [] 0 buf = none → placeOf s2 c buf = .ok pl →
     s2.readNoting c.die pl (P.length.get w0) = ((code, bs), s3) → code ≠ Code.failMemory →
     s3.tryInject (s3.contextOf c) (some c) x.pc false
       [s3.queued c q (s3.contextOf c) w0 (BitVec.ofNat 64 (s3.hnat c (a + 8) 8)) bs buf] = (some k, s4) →
     Code.family k = 0 →
     exec (.qsend c) s = .next (s1.issued c .move w h take { Out.at s4 (s1.now + 6) with code := mergeSuccess code k }))

/-- ALLOC, FREE, SHARE and GIVE (R354 to R362): ALLOC whose levels and list are well formed and whose chain serves all its buffers stores
their locators in the hearth list; FREE, SHARE and GIVE whose owner code and list are well formed and whose listed buffers all pass
R361 change the owners of each listed buffer.
What FREE, SHARE and GIVE do to one buffer (R362): GIVE puts the new owner in the context's slot, SHARE in the lowest empty
slot, FREE empties the context's slot and returns the buffer to its pool when it was the last; no other buffer, no byte of
memory and no register changes. -/
def Obligations.GrateCommands : Prop :=
  (∀ (s s1 s2 : State) (c : CoreId) (h : Heads) (take : Option Sig) (ls : List Nat) (op : GrateOp),
     let w := s.headWord c .move
     let n := gCount w
     let ctx := s1.contextOf c
     let cmd : Instr := match op with | .free => .free c | .share => .share c | .give => .give c
     let spec := match op with
       | .free => grateSpec 0x11 [(16, 0), (20, 17)] false (ownersOp .free)
       | .share => grateSpec 0x12 [(16, 0), (20, 17), (37, 25)] false (ownersOp .share)
       | .give => grateSpec 0x13 [(16, 0), (20, 17), (37, 25)] false (ownersOp .give)
     let locs := (List.range n).map fun i => s2.hnat c (gList w + 8 * i) 8
     listBad w = false →
     (s.issuePoint c .move (grateSpec 0x10 [(16, 0), (20, 17), (22, 21), (24, 23)] true allocOp) = some (s1, h, take) →
       gLast w < 3 → gFirst w ≤ gLast w → s1.request ctx (chainOf c (gFirst w) (gLast w)) n true = (some ls, s2) →
       exec (.alloc c) s = .next (s1.issued c .move w h take
         { Out.at (s2.storeList c (gList w) ls) (s1.now + grateTime ls) with dst := [(gList w, 8 * n)] })) ∧
     (s.issuePoint c .move spec = some (s1, h, take) → (op = .free ∨ ownerOk (gOwner w) = true) →
       readHearth s1 c [(gList w, 8 * n)] = (none, s2) →
       grateChecks s2 c op ctx (gOwner w) locs.zipIdx locs.zipIdx = none →
       exec cmd s = .next (s1.issued c .move w h take
         (Out.at (locs.foldl (fun u l => u.grateApply c op ctx (gOwner w) l) s2) (s1.now + grateTime locs))))) ∧
  (∀ (s : State) (c : CoreId) (op : GrateOp) (ctx o l i : Nat) (pl : Place) (p : Pool),
     let b := s.buffer p i
     let t := s.grateApply c op ctx o l
     placeOf s c l = .ok pl → s.bufferAt pl = some (p, i) →
     (op = .give → t.buffer p i = { b with slots := b.slots.map fun x => if x = some ctx then some o else x }) ∧
     (op = .share → t.buffer p i = { b with slots := addOwner o b.slots }) ∧
     (op = .free → b.withdrawn = false → (∀ x ∈ b.slots, x = none ∨ x = some ctx) → t.buffer p i = BufRec.free) ∧
     (op = .free → (∃ x ∈ b.slots, x ≠ none ∧ x ≠ some ctx) →
       t.buffer p i = { b with slots := b.slots.map fun x => if x = some ctx then none else x }) ∧
     (∀ p' k, p'.bufKey k ≠ p.bufKey i → t.buffer p' k = s.buffer p' k) ∧
     t.hearth = s.hearth ∧ t.scratch = s.scratch ∧ t.fabric = s.fabric ∧ t.regs = s.regs)

/-! ## The compute engines (chapters 05 to 08) -/

/-- CLR, OUT, SPILL and FILL (R223, R224): CLR empties every lane for a KIND and FMT; OUT writes the lanes' elements, or all lanes
joined into one, and leaves the lanes; SPILL writes the lanes' long images; FILL replaces the accumulators of the first lanes by
images. -/
def Obligations.ReduceLanes : Prop :=
  ∀ (s s1 s2 : State) (c : CoreId) (h : Heads) (take : Option Sig) (k : LaneClass),
    let w := s.headWord c .reduce
    let m := I.mod w
    let kind := I.imm w % 8
    let fmt := I.imm w / 8
    let d := readDesc s1 c (I.d w)
    let a := readDesc s1 c (I.a w)
    let l := s1.lanes c
    let fold := I.imm w = 1
    let outs := (if fold then [l.fold] else l.lanes.take d.d0).map fun e => e.emit l.kind l.fmt d.fmt (m % 4) (bitAt m 2)
    let images := (rowsAs s2 c a a.elemBits).getD 0 []
    let goes (o : Out) := s1.issued c .reduce w h take o
    (s.issuePoint c .reduce clrSpec = some (s1, h, take) →
      handlesCheck s1 c (handleNeeds w .unused .unused .unused .unused) = none →
      (kind = 0 ∧ sumFmt fmt = true ∨ (kind = 2 ∨ kind = 3) ∧ fmt ≤ 0x0D ∨
        (kind = 1 ∨ kind = 4 ∨ kind = 5 ∨ kind = 6) ∧ intFmt fmt = true) →
      exec (.clr c) s = .next (goes (Out.at (s1.setLanes c (Lanes.fresh kind fmt)) s1.now))) ∧
    (s.issuePoint c .reduce outSpec = some (s1, h, take) →
      handlesCheck s1 c (handleNeeds w .required .unused .unused .unused) = none →
      redChecks [(some d, true, false, false)] = none → l.kind < 7 → (l.kind = 0 ∨ m = 0) →
      (if l.kind = 0 then sumFmt d.fmt else if l.kind = 1 then intFmt d.fmt else d.fmt = l.fmt) = true →
      d.rank = 1 → (fold → d.d0 = 1) → d.d0 ≤ l.lanes.length → d.empty = false →
      exec (.out c) s = .next (goes
        { Out.at (storeRounded s1 c d [outs]) (s1.now + 10 + ceilDiv d.rowBytes 64 + (if fold then 6 else 0)) with
          sat := countSat outs, flush := countFlush outs, dst := d.redRanges,
          stages := (if fold ∧ l.kind ≤ 1 then 1 else 0) + (if l.kind = 0 then 4 else 0) })) ∧
    (s.issuePoint c .reduce spillSpec = some (s1, h, take) →
      handlesCheck s1 c (handleNeeds w .required .unused .unused .unused) = none →
      redChecks [(some d, true, true, true)] = none → l.kind ≤ 1 → d.fmt = l.fmt → d.rank = 1 →
      d.d0 ≤ l.lanes.length → d.empty = false → laneClass l.fmt = some k →
      exec (.spill c) s = .next (goes
        { Out.at (writeRowsAs s1 c d d.elemBits [(l.lanes.take d.d0).map fun e => e.acc.image k l.fmt])
            (s1.now + ceilDiv d.redRow 64) with dst := d.redRanges })) ∧
    (s.issuePoint c .reduce fillSpec = some (s1, h, take) →
      handlesCheck s1 c (handleNeeds w .unused .required .unused .unused) = none →
      redChecks [(some a, false, true, true)] = none → l.kind ≤ 1 → a.fmt = l.fmt → a.rank = 1 →
      a.d0 ≤ l.lanes.length → a.empty = false → laneClass l.fmt = some k → readHearth s1 c a.redRanges = (none, s2) →
      exec (.fill c) s = .next (goes
        (Out.at (s2.setLanes c { l with lanes := l.lanes.zipIdx.map fun x =>
            if x.2 < a.d0 then { x.1 with acc := Accum.ofImage k (images.getD x.2 0) } else x.1 })
          (s1.now + ceilDiv a.redRow 64))))

/-- A long image holds a lane exactly, in R225's layout: VALUE from byte 0, zero padding, then the side word with FMT, the five flags and
TERMS; padding, reserved bits and FMT are ignored on read; and an accumulator within its ranges comes back from its image with its VALUE, TERMS and
flags. -/
def Obligations.LongImage : Prop :=
  ∀ (k : LaneClass) (fmt f n m : Nat) (x : Accum),
    let size := imageSize k
    let im := x.image k f
    let side (i : Nat) : Nat := bits i (8 * size - 1) (8 * size - 64)
    laneClass fmt = some k →
    size = (if k.slices = 1 then 24 else if k.slices = 2 then 32 else 48) ∧
    (x.value < 2 ^ k.width → x.terms < 2 ^ 43 → f < 32 →
      im < 2 ^ (8 * size) ∧ bits im (k.width - 1) 0 = x.value ∧ bits im (8 * size - 65) k.width = 0 ∧
      bits (side im) 63 61 = 0 ∧ bits (side im) 60 56 = f ∧ bits (side im) 55 53 = 0 ∧ bitAt (side im) 52 = x.notPos0 ∧
      bitAt (side im) 51 = x.notNeg0 ∧ bitAt (side im) 50 = x.ninf ∧ bitAt (side im) 49 = x.pinf ∧
      bitAt (side im) 48 = x.nan ∧ bits (side im) 47 43 = 0 ∧ bits (side im) 42 0 = x.terms) ∧
    (n < 2 ^ (8 * size) → m < 2 ^ (8 * size) → bits n (k.width - 1) 0 = bits m (k.width - 1) 0 →
      bits (side n) 52 48 = bits (side m) 52 48 → bits (side n) 42 0 = bits (side m) 42 0 →
      Accum.ofImage k n = Accum.ofImage k m) ∧
    (x.value < 2 ^ k.width → x.terms < 2 ^ 43 → (2 ^ 42 < x.terms → x.nan = true) → Accum.ofImage k im = x)

/-- An exact sum does not depend on the order of its terms: added to one lane in any two orders, the same terms leave the same
VALUE, TERMS and flags (R212 to R214). -/
def Obligations.SumOrderFree : Prop :=
  ∀ (k : LaneClass) (fmt : Nat) (long : Bool) (x : Accum) (ts us : List Nat),
    ts.Perm us → ts.foldl (addTerm k fmt long) x = us.foldl (addTerm k fmt long) x

/-- SUM and IADD (R212 to R222, R226, R227): where the operand checks pass, the held form adds each row of A to the lanes; the streamed
form gives every output the exact sum of its terms, with the image of B where there is one, rounded once, or its image where D
is LONG, and clears the lanes. -/
def Obligations.ReduceSums : Prop :=
  ∀ (s s1 s2 : State) (c : CoreId) (h : Heads) (take : Option Sig) (int : Bool) (k : LaneClass),
    let w := s.headWord c .reduce
    let m := I.mod w
    let cmd : Instr := if int then .iadd c else .sum c
    let kind := if int then 1 else 0
    let okFmt := if int then intFmt else sumFmt
    let d := readDesc s1 c (I.d w)
    let a := readDesc s1 c (I.a w)
    let b := operand s1 c (I.b w)
    let l := s1.lanes c
    let reads := a.redRanges ++ (b.map Desc.redRanges).getD []
    let lanes := streamLanes kind a (rowsAs s2 c a a.elemBits) (b.map fun b => rowsAs s2 c b b.elemBits)
    let s3 := s2.setLanes c (s2.lanes c).cleared
    let t := s1.now + streamCycles d a b (laneCount kind a.fmt) + 10
    let adds := if a.d1 = 0 ∧ b = none then 0 else if int then 1 else 3
    let outs := lanes.map fun r => r.map fun l => l.emit kind a.fmt d.fmt (m % 4) (bitAt m 2)
    let goes (o : Out) := s1.issued c .reduce w h take o
    s.issuePoint c .reduce (if int then iaddSpec else sumSpec) = some (s1, h, take) →
    handlesCheck s1 c (handleNeeds w .optional .required .optional .unused) = none →
    redChecks [(operand s1 c (I.d w), true, true, false), (some a, false, true, false), (b, false, true, true)] = none →
    okFmt a.fmt = true → (∀ b' ∈ b, b'.fmt = a.fmt) →
    (I.d w = 0xFF → b = none → l.kind = kind → l.fmt = a.fmt → a.d0 ≤ l.lanes.length →
      readHearth s1 c a.redRanges = (none, s2) →
      exec cmd s = .next (goes
        { Out.at (s2.setLanes c (heldLanes l a (rowsAs s2 c a a.elemBits))) (s1.now + heldCycles a + 10) with
          stages := if a.empty then 0 else if int then 1 else 3 })) ∧
    (I.d w ≠ 0xFF → streamShapes d a b false = true → d.empty = false → readHearth s1 c reads = (none, s2) →
      (d.long = false → okFmt d.fmt = true →
        exec cmd s = .next (goes
          { Out.at (storeRounded s3 c d outs) t with
            sat := sumNat (outs.map countSat), flush := sumNat (outs.map countFlush),
            stages := if int then adds else adds + 4, dst := d.redRanges })) ∧
      (d.long = true → d.fmt = a.fmt → laneClass a.fmt = some k →
        exec cmd s = .next (goes
          { Out.at (writeRowsAs s3 c d d.elemBits (lanes.map fun r => r.map fun l => l.acc.image k a.fmt)) t with
            stages := adds, dst := d.redRanges })))

/-- MAX, MIN, AND, OR and XOR (R220 to R222, R228 to R233): where the operand checks pass, the held form combines each row of A into
the lanes; the streamed form writes every output's winner or combination and clears the lanes.
ARGMAX and ARGMIN (R230, R231, R233): where the operand checks pass, D takes IMM plus the position of every output's winner modulo
2^32, all ones where there is no term, B the winner's code, and the lanes are cleared. -/
def Obligations.ReduceCompareCommands : Prop :=
  (∀ (s s1 s2 : State) (c : CoreId) (h : Heads) (take : Option Sig) (cmd : Instr) (spec : OpSpec) (kind : Nat),
     let w := s.headWord c .reduce
     let d := readDesc s1 c (I.d w)
     let a := readDesc s1 c (I.a w)
     let l := s1.lanes c
     let lanes := streamLanes kind a (rowsAs s2 c a a.elemBits) none
     let goes (o : Out) := s1.issued c .reduce w h take o
     (cmd, spec, kind) ∈ [(Instr.max c, maxSpec, 2), (.min c, minSpec, 3), (.and c, andSpec, 4), (.or c, orSpec, 5),
       (.xor c, xorSpec, 6)] →
     s.issuePoint c .reduce spec = some (s1, h, take) →
     handlesCheck s1 c (handleNeeds w .optional .required .unused .unused) = none →
     redChecks [(operand s1 c (I.d w), true, false, false), (some a, false, false, false)] = none →
     (4 ≤ kind → intFmt a.fmt = true) → readHearth s1 c a.redRanges = (none, s2) →
     (I.d w = 0xFF → l.kind = kind → l.fmt = a.fmt → a.d0 ≤ l.lanes.length →
       exec cmd s = .next (goes
         (Out.at (s2.setLanes c (heldLanes l a (rowsAs s2 c a a.elemBits))) (s1.now + heldCycles a + 10)))) ∧
     (I.d w ≠ 0xFF → d.fmt = a.fmt → streamShapes d a none false = true → d.empty = false →
       exec cmd s = .next (goes
         { Out.at (storeRounded (s2.setLanes c (s2.lanes c).cleared) c d
               (lanes.map fun r => r.map fun l => l.emit kind a.fmt d.fmt 0 false))
             (s1.now + streamCycles d a none 64 + 10) with dst := d.redRanges }))) ∧
  (∀ (s s1 s2 : State) (c : CoreId) (h : Heads) (take : Option Sig) (isMax : Bool),
     let w := s.headWord c .reduce
     let cmd : Instr := if isMax then .argmax c else .argmin c
     let d := readDesc s1 c (I.d w)
     let a := readDesc s1 c (I.a w)
     let b := operand s1 c (I.b w)
     let dst := d.redRanges ++ (b.map Desc.redRanges).getD []
     let src := rowsAs s2 c a a.elemBits
     let wins := (List.range (a.d2 * a.d3)).map fun o => (List.range a.d0).map fun i =>
       argWin isMax a.fmt (((src.drop (a.d1 * o)).take a.d1).map fun r => r.getD i 0) 0 none
     let s3 := writeRowsAs (s2.setLanes c (s2.lanes c).cleared) c d 32 (wins.map fun r => r.map fun x =>
       match x with | some (_, i) => (I.imm w + i) % 2 ^ 32 | none => 0xFFFFFFFF)
     let s4 := match b with
       | some b => writeRowsAs s3 c b (fmtBits b.fmt) (wins.map fun r => r.map fun x =>
           winnerCode isMax a.fmt (x.map Prod.fst))
       | none => s3
     s.issuePoint c .reduce (if isMax then argmaxSpec else argminSpec) = some (s1, h, take) →
     handlesCheck s1 c (handleNeeds w .required .required .optional .unused) = none →
     redChecks [(some d, true, false, false), (some a, false, false, false), (b, true, false, false)] = none →
     d.fmt = 0x04 → (∀ b' ∈ b, b'.fmt = a.fmt) → streamShapes d a b true = true → d.empty = false →
     readHearth s1 c a.redRanges = (none, s2) →
     exec cmd s = .next (s1.issued c .reduce w h take
       { Out.at s4 (s1.now + streamCycles d a b 64 + 10) with dst := dst }))

/-- GATHER and SCATTER (R272 to R276, R281): where the operand checks pass and every index selects a row of the table, or MOD 1 skips
those that do not, each row goes whole, with its scales, to the place that its index gives; GATHER writes zeros for a skipped
index, SCATTER nothing, and skipped indices are counted.
COMPACT, FILTER, COUNT and HIST (R273, R274, R277 to R280): where the operand checks pass, COMPACT writes the rows that the mask picks in
order, as many as fit, and their number; FILTER writes a mask of the elements that satisfy a condition; COUNT their number, added to
D with ACC, at most 2^63 − 1; HIST each bin's hits, added with ACC, at most 2^31 − 1. -/
def Obligations.ShapeCommands : Prop :=
  (∀ (s s1 s2 : State) (c : CoreId) (h : Heads) (take : Option Sig) (gather : Bool),
     let w := s.headWord c .shape
     let cmd : Instr := if gather then .gather c else .scatter c
     let d := readDesc s1 c (I.d w)
     let a := readDesc s1 c (I.a w)
     let b := readDesc s1 c (I.b w)
     let table := if gather then a else d
     let rows := if gather then d else a
     let es := ((allCodes s2 c b).getD 0 []).map (effIndex b.fmt (I.imm w) table.d1)
     let src := (List.range a.rows).map (rowOf s2 c a)
     let moved := es.zipIdx.foldl (fun u x =>
       match gather, x.1 with
       | true, some e => putRow u c d x.2 (src.getD e ([], []))
       | true, none => putRow u c d x.2 (zeroRow d)
       | false, some e => putRow u c d e (src.getD x.2 ([], []))
       | false, none => u) s2
     s.issuePoint c .shape (shapeSpec (if gather then 0x00 else 0x01) (fun _ => false) (fun m => m < 2) (moveRows gather)) =
       some (s1, h, take) →
     handlesCheck s1 c (handleNeeds w .required .required .required .unused) = none →
     plainChecks [(some d, true), (some a, false), (some b, false)] = none →
     d.rank = 2 → a.rank = 2 → rowsAlike d a = true → indexFmt b.fmt = true → b.rank = 1 → b.blk = 0 → rows.d1 = b.d0 →
     destOk d false [a, b] [] = true → readHearth s1 c (a.spans ++ b.spans) = (none, s2) →
     (I.mod w = 1 ∨ ∀ e ∈ es, e ≠ none) → b.empty = false →
     exec cmd s = .next (s1.issued c .shape w h take
       { Out.at (moved.noteSkips c (es.countP Option.isNone))
           (s1.now + (sumNat ((List.range rows.rows).map (rowCycles rows)) +
             (if I.mod w = 1 then 0 else ceilDiv b.rowBytes 64)) + 10) with dst := d.spans, stages := 1 })) ∧
  (∀ (s s1 s2 : State) (c : CoreId) (h : Heads) (take : Option Sig),
     let w := s.headWord c .shape
     let md := I.mod w
     let d := readDesc s1 c (I.d w)
     let a := readDesc s1 c (I.a w)
     let b := readDesc s1 c (I.b w)
     let n := readDesc s1 c (I.c w)
     let goes (o : Out) := s1.issued c .shape w h take o
     let three := handlesCheck s1 c (handleNeeds w .required .required .required .unused) = none ∧
       plainChecks [(some d, true), (some a, false), (some b, false)] = none ∧ md % 8 ≤ 5 ∧ d.blk = 0 ∧
       comparandOk a b = true ∧ destOk d true [a, b] [] = true
     let tests := shapeTests s2 c a b (md % 8)
     let stream := ceilDiv (a.rowBytes * a.rows) 64
     (s.issuePoint c .shape (shapeSpec 0x02 (fun w => I.imm w ≠ 0) (fun m => m = 0) compactOp) = some (s1, h, take) →
       handlesCheck s1 c (handleNeeds w .required .required .required .required) = none →
       plainChecks [(some d, true), (some a, false), (some b, false), (some n, true)] = none →
       d.rank = 2 → a.rank = 2 → rowsAlike d a = true → b.fmt = 0x06 → b.rank = 1 → b.blk = 0 → b.d0 = a.d1 →
       n.fmt = 0x04 → n.rank = 1 → n.d0 = 1 → n.blk = 0 →
       destOk d true [a, b] [n] = true → destOk n true [a, b] [d] = true → a.empty = false →
       readHearth s1 c (a.spans ++ b.spans) = (none, s2) →
       let picked := ((((allCodes s2 c b).getD 0 []).zipIdx.filter fun x => x.1 ≠ 0).map Prod.snd).map (rowOf s2 c a)
       exec (.compact c) s = .next (goes
         { Out.at (writeCodes (((picked.take d.d1).zipIdx.foldl (fun u x => putRow u c d x.2 x.1) s2).noteLost c
               (picked.length - d.d1)) c n [[picked.length]])
             (s1.now + Nat.max 1 (ceilDiv a.rowBytes 64) * a.rows + 10) with dst := d.spans ++ n.spans, stages := 3 })) ∧
     (s.issuePoint c .shape (shapeSpec 0x03 (fun w => I.imm w ≠ 0) (fun m => m < 8) filterOp) = some (s1, h, take) → three →
       d.fmt = 0x06 → sameDims d a = true → a.empty = false → readHearth s1 c (a.spans ++ b.spans) = (none, s2) →
       exec (.filter c) s = .next (goes
         { Out.at (writeCodes s2 c d (tests.map fun row => row.map fun p => if p then 1 else 0)) (s1.now + stream + 6) with
           dst := d.spans, stages := 2 })) ∧
     (s.issuePoint c .shape (shapeSpec 0x05 (fun w => I.imm w ≠ 0) (fun _ => true) countOp) = some (s1, h, take) → three →
       d.fmt = 0x05 → d.count = 1 → a.empty = false →
       readHearth s1 c (a.spans ++ b.spans ++ (if bitAt md 3 then d.spans else [])) = (none, s2) →
       let old : Int := if bitAt md 3 then toSigned 64 (s2.hnat c d.base 8) else 0
       let sum : Int := old + (sumNat (tests.map fun row => row.countP id) : Nat)
       exec (.count c) s = .next (goes
         { Out.at (writeCodes s2 c d [[ofSigned 64 (min (2 ^ 63 - 1) sum)]]) (s1.now + stream + 6) with
           sat := if 2 ^ 63 - 1 < sum then 1 else 0, dst := d.spans, stages := 2 })) ∧
     (s.issuePoint c .shape (shapeSpec 0x04 (fun _ => false) (fun m => m < 4) histOp) = some (s1, h, take) →
       handlesCheck s1 c (handleNeeds w .required .required .unused .unused) = none →
       plainChecks [(some d, true), (some a, false)] = none →
       d.fmt = 0x04 → d.rank = 1 → indexFmt a.fmt = true → a.rank = 1 → a.blk = 0 → destOk d false [a] [] = true →
       readHearth s1 c (a.spans ++ (if bitAt md 1 then d.spans else [])) = (none, s2) →
       let es := ((allCodes s2 c a).getD 0 []).map (effIndex a.fmt (I.imm w) d.d0)
       let old := if bitAt md 1 then (allCodes s2 c d).getD 0 [] else List.replicate d.d0 0
       let bins := old.zipIdx.map fun x => binAdd (toSigned 32 x.1) (es.countP fun e => e = some x.2)
       (bitAt md 0 = true ∨ ∀ e ∈ es, e ≠ none) → a.empty = false → d.empty = false →
       exec (.hist c) s = .next (goes
         { Out.at ((writeCodes s2 c d [bins.map fun p => ofSigned 32 p.1]).noteSkips c (es.countP Option.isNone))
             (s1.now + ceilDiv a.d0 16 + 12) with sat := bins.countP Prod.snd, dst := d.spans, stages := 1 })))

/-- The run order of a row of unsigned keys (R284, R285): the sorted row holds the same entries, its keys rise, or fall with DESC, and
entries of equal keys stay in source order.
SORT and SORTKV (R283 to R286): where the operand checks pass, each row of keys, with its values or the positions of its elements, is
written in run order. -/
def Obligations.SortOrder : Prop :=
  (∀ (fmt : Nat) (desc : Bool) (xs : List Entry),
     let ys := sortEntries (Entry.ahead fmt true desc) xs
     (∀ e ∈ xs, e.real = true) →
     ys.Perm xs ∧ ys.Pairwise (fun x y => if desc then y.key ≤ x.key else x.key ≤ y.key) ∧
     ∀ k, ys.filter (fun e => e.key = k) = xs.filter (fun e => e.key = k)) ∧
  (∀ (s s1 s2 : State) (c : CoreId) (h : Heads) (take : Option Sig) (kv : Bool),
     let w := s.headWord c .sort
     let cmd : Instr := if kv then .sortkv c else .sort c
     let need (p q : Need) : Need := if kv then p else q
     let d := operand s1 c (I.d w)
     let a := readDesc s1 c (I.a w)
     let b := operand s1 c (I.b w)
     let v := operand s1 c (I.c w)
     let pos := kv && b.isNone
     let uns := bitAt (I.mod w) 3
     let others := d.toList ++ b.toList ++ v.toList
     let dst := (d.map Desc.spans).getD [] ++ (v.map Desc.spans).getD []
     let vals := b.map fun b => allCodes s2 c b
     let rows := (allCodes s2 c a).zipIdx.map fun x => sortEntries (Entry.ahead a.fmt uns (bitAt (I.mod w) 0))
       (match vals with | some y => withVals x.1 (y.getD x.2 []) | none => withPos v 0 x.1)
     let s3 := match d with | some d => writeCodes s2 c d (rows.map fun r => r.map Entry.key) | none => s2
     let s4 := match v with | some v => writeCodes s3 c v (rows.map fun r => r.map Entry.val) | none => s3
     let kb := elemBytes a.fmt
     let vb := match v with | some v => elemBytes v.fmt | none => 0
     let perRow := ceilDiv (a.d0 * kb) 64 + Nat.max 1 (clog2 a.d0 - 4) * ceilDiv a.d0 32 +
       ceilDiv (a.d0 * ((if d.isSome then kb else 0) + vb)) 64
     s.issuePoint c .sort (sortSpec (if kv then 0x01 else 0x00) (fun w => I.imm w ≠ 0) 9 (sortOp kv)) = some (s1, h, take) →
     handlesCheck s1 c (handleNeeds w (need .optional .required) .required (need .optional .unused)
       (need .required .unused)) = none →
     sortChecks [(d, true, false), (some a, false, false), (b, false, false), (v, true, pos)] = none →
     a.blk = 0 → (∀ o ∈ others, o.blk = 0 ∧ sameDims o a = true) → keyFmt a.fmt = true → (∀ x ∈ d, x.fmt = a.fmt) →
     (∀ x ∈ b, valueFmt x.fmt = true) → (∀ x ∈ v, (if pos then posFmt x.fmt else valueFmt x.fmt) = true) →
     (uns = true → intKey a.fmt = true) → (pos = false → b.map Desc.fmt = v.map Desc.fmt) → a.rank ≤ 2 → a.d0 ≤ 1024 →
     (∀ x ∈ d, destOk x true (a :: b.toList) v.toList = true) → (∀ x ∈ v, destOk x true (a :: b.toList) d.toList = true) →
     a.empty = false → readHearth s1 c (a.spans ++ (b.map Desc.spans).getD []) = (none, s2) →
     exec cmd s = .next (s1.issued c .sort w h take
       { Out.at s4 (s1.now + perRow * a.rows + 12) with
         sat := sumNat (rows.map satEntries), dst := dst, stages := 2 ^ 32 - 1 }))

/-- TOPK and MERGE (R283, R286 to R291): where the operand checks pass, TOPK writes each row's best k entries, with those already in D and
C under ACC, filled up; MERGE writes the two runs as one. -/
def Obligations.SortSelects : Prop :=
  ∀ (s s1 s2 : State) (c : CoreId) (h : Heads) (take : Option Sig),
    let w := s.headWord c .sort
    let md := I.mod w
    let d := readDesc s1 c (I.d w)
    let a := readDesc s1 c (I.a w)
    let bo := operand s1 c (I.b w)
    let b := readDesc s1 c (I.b w)
    let v := readDesc s1 c (I.c w)
    let uns := bitAt md 3
    let acc := bitAt md 1
    let k := I.imm w
    let n := a.d0 + b.d0
    let dst := d.spans ++ v.spans
    let ones := 2 ^ fmtBits v.fmt - 1
    let old (r : Nat) : List Entry := if acc then
      ((rowCodes s2 c d r).zip (rowCodes s2 c v r)).map fun x => ⟨x.1, x.2, x.2 ≠ ones, false⟩ else []
    let fresh (r : Nat) : List Entry :=
      let row := if a.empty then [] else rowCodes s2 c a r
      match bo with
      | some b => withVals row (if a.empty then [] else rowCodes s2 c b r)
      | none => withPos (some v) 0 row
    let best := (List.range d.rows).map fun r => topList a.fmt uns (bitAt md 0) k ones (old r ++ fresh r)
    let list := ceilDiv (k * (elemBytes a.fmt + elemBytes v.fmt)) 64
    let es := mergeRuns (Entry.ahead a.fmt uns (bitAt md 0)) n (withPos (some v) 0 ((allCodes s2 c a).getD 0 []))
      (withPos (some v) a.d0 ((allCodes s2 c b).getD 0 []))
    let goes (o : Out) := s1.issued c .sort w h take o
    a.blk = 0 → d.blk = 0 → v.blk = 0 → keyFmt a.fmt = true → d.fmt = a.fmt → (uns = true → intKey a.fmt = true) →
    (s.issuePoint c .sort (sortSpec 0x02 (fun w => 2047 < I.imm w) 11 topkOp) = some (s1, h, take) →
      handlesCheck s1 c (handleNeeds w .required .required .optional .required) = none →
      sortChecks [(some d, true, false), (some a, false, false), (bo, false, false), (some v, true, bo.isNone)] = none →
      (∀ x ∈ bo, x.blk = 0 ∧ valueFmt x.fmt = true ∧ x.fmt = v.fmt ∧ sameDims x a = true) →
      (if bo.isNone then posFmt v.fmt else valueFmt v.fmt) = true → a.rank ≤ 2 → 1 ≤ k → k ≤ 1024 →
      d.rank ≤ 2 → v.rank ≤ 2 → d.d0 = k → v.d0 = k → d.d1 = a.d1 → v.d1 = a.d1 →
      destOk d true (a :: bo.toList) [v] = true → destOk v true (a :: bo.toList) [d] = true →
      d.empty = false → (acc = true → a.empty = false) →
      readHearth s1 c (a.spans ++ (bo.map Desc.spans).getD [] ++ (if acc then dst else [])) = (none, s2) →
      exec (.topk c) s = .next (goes
        { Out.at (writeCodes (writeCodes s2 c d (best.map fun x => x.map Entry.key)) c v (best.map fun x => x.map Entry.val))
            (s1.now + (ceilDiv (a.d0 * elemBytes a.fmt) 64 + list + (if acc then list else 0)) * d.rows + 12) with
          sat := sumNat (best.map satEntries), dst := dst, stages := 2 ^ 32 - 1 })) ∧
    (s.issuePoint c .sort (sortSpec 0x03 (fun w => I.imm w ≠ 0) 9 mergeOp) = some (s1, h, take) →
      handlesCheck s1 c (handleNeeds w .required .required .required .required) = none →
      sortChecks [(some d, true, false), (some a, false, false), (some b, false, false), (some v, true, true)] = none →
      b.blk = 0 → b.fmt = a.fmt → posFmt v.fmt = true → a.rank = 1 → b.rank = 1 → 1 ≤ n → n ≤ 65535 →
      d.rank = 1 → v.rank = 1 → d.d0 = n → v.d0 = n →
      destOk d true [a, b] [v] = true → destOk v true [a, b] [d] = true →
      readHearth s1 c (a.spans ++ b.spans) = (none, s2) →
      exec (.merge c) s = .next (goes
        { Out.at (writeCodes (writeCodes s2 c d [es.map Entry.key]) c v [es.map Entry.val])
            (s1.now + ceilDiv (n * (elemBytes a.fmt + elemBytes v.fmt)) 64 + 12) with
          sat := satEntries es, dst := dst, stages := 2 ^ 32 - 1 }))

/-- QUANT, DEQUANT, CVT, DIV, SQRT, EXP, LOG and RSQRT (R293 to R297): where the operand checks pass, D takes the results element by
element, each rounded once, under scales of its own for QUANT, with its saturated and flushed elements counted. -/
def Obligations.ScaleOperations : Prop :=
  ∀ (s s1 s2 : State) (c : CoreId) (h : Heads) (take : Option Sig) (cmd : Instr) (op : Nat),
    let w := s.headWord c .scale
    let m := I.mod w
    let d := readDesc s1 c (I.d w)
    let a := readDesc s1 c (I.a w)
    let b := operand s1 c (I.b w)
    let va := allVals s2 c a
    let vb := match b with | some b => allVals s2 c b | none => va
    let scales := quantScales d va
    let outs := if op = 0x00 then quantRows d scales va (m % 4)
      else va.zipWith (fun ra rb => ra.zipWith (fun p q => scaleElem op d.fmt p q (m % 4) (bitAt m 2)) rb) vb
    let s3 := if op = 0x00 then writeScales s2 c d scales else s2
    (cmd, op) ∈ [(Instr.quant c, 0x00), (.dequant c, 0x01), (.cvt c, 0x02), (.div c, 0x03), (.sqrt c, 0x04), (.exp c, 0x05),
      (.log c, 0x06), (.rsqrt c, 0x07)] →
    s.issuePoint c .scale (scaleSpec op) = some (s1, h, take) →
    handlesCheck s1 c (handleNeeds w .required .required (if op = 0x03 then .required else .unused) .unused) = none →
    plainChecks [(some d, true), (some a, false), (b, false)] = none →
    scaleFmtOk op a d = true → sameDims d a = true → (∀ x ∈ b, sameDims x a = true ∧ x.fmt = a.fmt) →
    destOk d true (a :: b.toList) [] = true → a.empty = false →
    readHearth s1 c (a.spans ++ (b.map Desc.spans).getD []) = (none, s2) →
    exec cmd s = .next (s1.issued c .scale w h take
      { Out.at (writeCodes s3 c d (outs.map fun r => r.map Rounded.code)) (s1.now + scaleCycles op d a b) with
        sat := sumNat (outs.map countSat), flush := sumNat (outs.map countFlush), dst := d.spans,
        stages := if op ≤ 0x02 then 1 else if op ≤ 0x04 then 2 else 4 })

/-- ZERO, MMA and RD on a tile that is ready (R245 to R255, R257 to R260): ZERO clears the tile and gives it a KIND; MMA adds the product of A and
B to the tile chunk by chunk; RD writes a rectangle of the tile to the hearth, rounded, and clears it where asked. On a tile that
is not ready ZERO fails FAIL_HAZARD and writes no memory outside its completion ring's hearth. -/
def Obligations.TensorOperations : Prop :=
  ∀ (s s1 s2 : State) (c : CoreId) (h : Heads) (take : Option Sig),
    let w := s.headWord c .tensor
    let x : Ctx := ⟨c, .tensor, w, (s1.eng c .tensor).pc, s1.now⟩
    let m := I.mod w
    let i := tileOf w
    let t := s1.tile c i
    let d := readDesc s1 c (I.d w)
    let a := readDesc s1 c (I.a w)
    let b := readDesc s1 c (I.b w)
    let goes (o : Out) := s1.issued c .tensor w h take o
    (t.ready ≤ s1.now → s.issuePoint c .tensor zeroSpec = some (s1, h, take) →
      handlesCheck s1 c (handleNeeds w .unused .unused .unused .unused) = none → I.imm w / 4 ≤ 2 →
      exec (.zero c) s = .next (goes (Out.at
        (s1.setTile c i { kind := I.imm w / 4, elems := List.replicate 1024 0, ready := afterTensor x s1 2 })
        (afterTensor x s1 2)))) ∧
    (t.ready ≤ s1.now → s.issuePoint c .tensor (mmaSpec c) = some (s1, h, take) →
      handlesCheck s1 c (handleNeeds w .unused .required .required .unused) = none →
      plainChecks [(some a, false), (some b, false)] = none →
      let sh := mmaShape a b (m = 1)
      let busy := Nat.max (sh.k * macFactor a.fmt) (granuleCount (a.spans ++ b.spans))
      let ready := afterTensor x s1 (busy + macLatency a.fmt + (if t.kind = 1 then 4 else 0))
      let tsub := s2.isOn Reg.VIG_REPRO_ID F.VIG_REPRO_ID_TSUB
      let va := mmaOperand s2 c a tsub
      let vb := mmaOperand s2 c b tsub
      let outs := mmaTile t.kind (kChunkLen a.fmt) sh t.elems va.1 vb.1
      let s3 := s2.setTile c i { t with elems := outs.map Rounded.code, ready := ready }
      let s4 := s3.setCore c { s3.core c with arrayFree := afterTensor x s3 busy }
      mmaCheck a b sh t.kind = none → sh.k ≠ 0 → sh.m ≠ 0 → sh.n ≠ 0 →
      readHearth s1 c (a.spans ++ b.spans) = (none, s2) →
      exec (.mma c) s = .next (goes
        { Out.at (s4.bump (Reg.TEN_ARRAY_BUSY c) F.TEN_ARRAY_BUSY_COUNT busy) ready with
          sat := countSat outs, flush := outs.countP (fun r => r.flush && !r.sat) + va.2 + vb.2,
          stages := cellMask sh.m sh.n, macs := sh.m * sh.n * sh.k, busy := busy })) ∧
    (t.ready ≤ s1.now → s.issuePoint c .tensor rdSpec = some (s1, h, take) →
      handlesCheck s1 c (handleNeeds w .required .unused .unused .unused) = none →
      plainChecks [(some d, true)] = none →
      let row0 := bits (I.imm w) 5 2
      let col0 := bits (I.imm w) 11 6
      let outs := (List.range d.d1).map fun r => (List.range d.d0).map fun k =>
        let code := t.elems.getD (cellOf (row0 + r) (col0 + k)) 0
        if d.fmt = tileFmt t.kind then (⟨code, false, false⟩ : Rounded)
        else roundTo d.fmt (decodeElem (tileFmt t.kind) code) (m % 4) (bitAt m 2)
      let s3 := writeCodes s1 c d (outs.map fun r => r.map Rounded.code)
      let cleared := t.elems.zipIdx.map fun y =>
        if row0 ≤ y.2 / 64 ∧ y.2 / 64 < row0 + d.d1 ∧ col0 ≤ y.2 % 64 ∧ y.2 % 64 < col0 + d.d0 then 0 else y.1
      row0 + d.d1 ≤ 16 → col0 + d.d0 ≤ 64 → d.rank ≤ 2 → d.blk = 0 → t.kind ≠ 7 → rdFmtOk t.kind d.fmt = true →
      d.empty = false →
      exec (.rd c) s = .next (goes
        { Out.at (if bitAt (I.imm w) 12 then s3.setTile c i { t with elems := cleared, ready := afterTensor x s3 2 } else s3)
            (s1.now + 4 + ceilDiv (d.rowBytes * d.d1) 64) with
          sat := sumNat (outs.map countSat), flush := sumNat (outs.map countFlush), dst := d.spans })) ∧
    (s1.now < t.ready → s.issuePoint c .tensor zeroSpec = some (s1, h, take) →
      handlesCheck s1 c (handleNeeds w .unused .unused .unused .unused) = none → I.imm w / 4 ≤ 2 →
      ∃ u, exec (.zero c) s = .next u ∧ (u.eng c .tensor).st = .faulted ∧ (u.eng c .tensor).lastFault = Code.failHazard ∧
        u.scratch = s.scratch ∧ u.fabric = s.fabric ∧ u.istore = s.istore)

/-! ## Management writes and sequencer commands (chapters 01 and 02) -/

/-- What a write does to a register field by field (R9, R10): an RW field takes the written bits; a W1C field loses the bits written
as 1; a W1S field gains them; any other field, and every bit that no field names, keeps its value.
REGISTER_WRITE (R13, R37, R38): an access that no register takes, at the wrong width or to a domain that is down, completes with the
code of its first failing check and changes nothing; any other completes with the code that its register's rules give; and a
write that the access codes alone rule changes its register and nothing else (R9). -/
def Obligations.RegisterAccess : Prop :=
  (∀ (r : Row) (old data : Word),
     (∀ f ∈ r.fields, f.fld.lo ≤ f.fld.hi ∧ f.fld.hi < 64) →
     r.fields.Pairwise (fun f g => f.fld.hi < g.fld.lo ∨ g.fld.hi < f.fld.lo) →
     (∀ f ∈ r.fields, f.fld.get (r.written old data) =
       match f.acc with
       | .rw => f.fld.get data
       | .w1c => f.fld.get (old &&& ~~~data)
       | .w1s => f.fld.get (old ||| data)
       | _ => f.fld.get old) ∧
     (∀ i, i < 64 → (∀ f ∈ r.fields, i < f.fld.lo ∨ f.fld.hi < i) →
       bitAt (r.written old data).toNat i = bitAt old.toNat i)) ∧
  (∀ (s : State) (a width : Nat) (data : Word),
     let w : Word := if width = 64 then data else BitVec.ofNat 64 (data.toNat % 2 ^ 32)
     (∀ code, s.spot a width = .error code → exec (.registerWrite a width data) s = .next (s.completed code 0)) ∧
     (regRow (s.homeOf a) = none → s.atBackup a = false →
       (0x40 ≤ siteOf a ∨ 80 ≤ blockOf a ∨ 0x42 ≤ unitOf a ∨ offsetOf a < 0x8000 ∨ 0xE000 ≤ offsetOf a) →
       exec (.registerWrite a width data) s = .next (s.completed Code.rejRange 0)) ∧
     (∀ h r, s.spot a width = .ok (.reg h r) →
       exec (.registerWrite a width data) s = .next ((s.writeReg false h r w).2.completed (s.writeReg false h r w).1 0)) ∧
     (∀ b r x, let t := (s.plainWrite b r x).2
       t.reg b = r.written (s.reg b) x ∧ (∀ b', b' ≠ b → t.reg b' = s.reg b') ∧
       t.hearth = s.hearth ∧ t.istore = s.istore ∧ t.scratch = s.scratch ∧ t.fabric = s.fabric ∧ t.cores = s.cores))

/-- An access of another width than its register's, or of an instruction bank's window at another width than 64 bits, completes with
REJ_RANGE and has no side effect (R13). -/
def Obligations.AccessWidth : Prop :=
  ∀ (s : State) (a width : Nat) (data : Word) (inband : Bool) (r : Row) (ps : List Nat),
    let same := if s.atBackup a then unitBase 0x40 0x20 0 + offsetOf a else s.homeOf a
    let window := siteOf a < 0x40 ∧ blockOf a < 80 ∧ unitOf a < 0x42 ∧ 0x8000 ≤ offsetOf a ∧ offsetOf a < 0xE000
    (¬ window ∧ regRow same = some (r, ps) ∧ r.width ≠ width) ∨ (window ∧ width ≠ 64) →
      exec (.registerWrite a width data) s = .next (s.completed Code.rejRange 0) ∧
      s.mgmtWrite inband a width data = (Code.rejRange, s) ∧ s.mgmtRead a width = (Code.rejRange, 0, s)

/-- Instruction banks (R100 to R103): BANK_ARM, BANK_DISARM and BANK_SWAP: arming sets ARMED, disarming clears it; two cycles after the swap condition first
holds the other bank becomes active, ARMED clears, and every engine of the core starts at its ENTRY if that is valid and is
HALTED otherwise. INSTRUCTION_BANK_WRITE (R33, R100) stores 8 aligned bytes of the bank that is not active, while no swap is armed, and
changes no other byte; otherwise it is refused REJ_STATE and changes nothing. -/
def Obligations.BankControl : Prop :=
  ∀ (s : State) (c : CoreId),
    let a := Reg.HTH_BANK_CTL c
    c.ok = true →
    (s.siteDown c.die c.region = false →
      (∃ t, exec (.bankArm c) s = .next t ∧ t.isOn a F.HTH_BANK_CTL_ARMED = true ∧ t.access.code = Code.done ∧
        t.fld a F.HTH_BANK_CTL_ACTIVE = s.fld a F.HTH_BANK_CTL_ACTIVE ∧ (∀ b, b ≠ a → t.reg b = s.reg b)) ∧
      (∃ t, exec (.bankDisarm c) s = .next t ∧ t.isOn a F.HTH_BANK_CTL_ARMED = false ∧ t.access.code = Code.done ∧
        t.fld a F.HTH_BANK_CTL_ACTIVE = s.fld a F.HTH_BANK_CTL_ACTIVE ∧ (∀ b, b ≠ a → t.reg b = s.reg b))) ∧
    (∀ f, s.swapReady c = true → (s.core c).swapFrom = some f →
      ∃ t, exec (.bankSwap c) s = .next t ∧ t.now = Nat.max s.now (f + 2) ∧
        t.fld a F.HTH_BANK_CTL_ACTIVE = 1 - s.fld a F.HTH_BANK_CTL_ACTIVE ∧ t.isOn a F.HTH_BANK_CTL_ARMED = false ∧
        ∀ e, c.has e = true →
          (s.isOn (Reg.ENTRY c e) F.ENTRY_VALID = true → (t.eng c e).st = .running ∧
            (t.eng c e).pc = s.fld (Reg.ENTRY c e) F.ENTRY_PC ∧ (t.eng c e).issueAt = t.now + 4) ∧
          (s.isOn (Reg.ENTRY c e) F.ENTRY_VALID = false → (t.eng c e).st = .halted)) ∧
    (s.swapReady c = false → exec (.bankSwap c) s = .next s) ∧
    (∀ (bank off : Nat) (data : Word), bank < 2 → off < 0x3000 → off % 8 = 0 → s.siteDown c.die c.region = false →
      (bank ≠ F.HTH_BANK_CTL_ACTIVE.get (s.reg a) → F.HTH_BANK_CTL_ARMED.on (s.reg a) = false →
        ∃ t, exec (.instructionBankWrite c bank off 64 data) s = .next t ∧ t.access.code = Code.done ∧
          t.iread c bank off 8 = leBytes 8 data.toNat ∧
          (∀ k, (k < istoreAt c bank off ∨ istoreAt c bank off + 8 ≤ k) → Mem.get t.istore k = Mem.get s.istore k) ∧
          t.regs = s.regs ∧ t.cores = s.cores ∧ t.hearth = s.hearth ∧ t.scratch = s.scratch ∧ t.fabric = s.fabric) ∧
      (bank = F.HTH_BANK_CTL_ACTIVE.get (s.reg a) ∨ F.HTH_BANK_CTL_ARMED.on (s.reg a) = true →
        exec (.instructionBankWrite c bank off 64 data) s = .next (s.completed Code.rejState 0)))

/-- START, STOP, CLEAR_FAULT and RETRY (R51, R102, R106 to R108, R223, R244): each has its effect where R106 allows it, and is refused REJ_STATE with
no effect where it does not. A started engine runs at ENTRY.PC with an empty queue and no loop, can issue four cycles later, and
ENTRY.VALID is 0; Tally counters, locators, held lanes and tiles are cleared by the start of their engine; a stopped engine is
HALTED with an empty queue.
INSTRUCTION_COMPLETE, WAIT_TIMEOUT and FETCH_PAST_END (R64, R66, R67, R91, R99): the oldest issued instruction of an engine that awaits nothing and meets no injection leaves the
engine: a success without a signal retires it, a failure faults the engine, and with none issued nothing happens. A wait that has
failed for WAIT_LIMIT cycles faults its engine with FAIL_TIMEOUT; an engine that runs past instruction 767 with nothing left faults
with REJ_RANGE, without a record. -/
def Obligations.SequencerCommands : Prop :=
  (∀ (s : State) (c : CoreId) (e : Cls),
     let g := s.eng c e
     let u := s.catchUp c
     let t := s.startEngine c e
     let v := s.stopEngine c e
     c.has e = true → s.siteDown c.die c.region = false →
     (g.st = .halted → s.isOn (Reg.ENTRY c e) F.ENTRY_VALID = true →
       exec (.start c e) s = .next (((s.startEngine c e).watchSwap c).completed Code.done 0)) ∧
     (g.st ≠ .halted ∨ s.isOn (Reg.ENTRY c e) F.ENTRY_VALID = false →
       exec (.start c e) s = .next (s.completed Code.rejState 0)) ∧
     exec (.stop c e) s = .next ((s.stopEngine c e).completed Code.done 0) ∧
     (g.st = .faulted → exec (.clearFault c e) s =
       .next (((s.setEng c e { g with st := .halted, loops := [] }).watchSwap c).completed Code.done 0)) ∧
     (g.st ≠ .faulted → exec (.clearFault c e) s = .next (s.completed Code.rejState 0)) ∧
     (g.st = .faulted → Code.family g.lastFault = 1 → exec (.retry c e) s =
       .next (((u.setEng c e
         { g with
           st := .running, pc := g.faultPc, queued := 0, fetchPc := some g.faultPc, fetchLoops := g.loops,
           issueAt := s.now + 4, waitFrom := none }).watchSwap c).completed Code.done 0)) ∧
     (g.st ≠ .faulted ∨ Code.family g.lastFault ≠ 1 → exec (.retry c e) s = .next (s.completed Code.rejState 0)) ∧
     (t.eng c e).st = .running ∧ (t.eng c e).pc = s.fld (Reg.ENTRY c e) F.ENTRY_PC ∧ (t.eng c e).queued = 0 ∧
     (t.eng c e).loops = [] ∧ (t.eng c e).issueAt = s.now + 4 ∧ t.fld (Reg.ENTRY c e) F.ENTRY_VALID = 0 ∧
     (∀ b, b ≠ Reg.ENTRY c e → t.reg b = s.reg b) ∧
     (e = .tally → ∀ j, t.ctr c j = 0) ∧ (e = .move → ∀ j, (t.core c).locator j = ⟨0, 0⟩) ∧
     (e = .reduce → (t.lanes c).kind = 7 ∧ (t.lanes c).lanes = []) ∧ (e = .tensor → ∀ j, t.tile c j = Tile.none) ∧
     (v.eng c e).st = .halted ∧ (v.eng c e).queued = 0 ∧ (v.eng c e).loops = [] ∧
     (v.eng c e).inflight = (s.eng c e).inflight) ∧
  (∀ (s : State) (c : CoreId) (e : Cls) (i : Inflight) (rest : List Inflight) (x : Target) (y : Option Target) (f : Nat),
     let g := s.eng c e
     let w := s.headWord c e
     let limit := s.fld (Reg.WAIT_LIMIT c e) F.WAIT_LIMIT_LIMIT
     c.has e = true → g.held = none →
     ((s.eng c e).inflight = [] → exec (.instructionComplete c e) s = .next s) ∧
     ((s.eng c e).inflight = i :: rest → i.awaits = .time → i.mismatches = 0 → s.meetInject c e i = none →
       (Code.family i.code = 0 → i.sig = none → i.macs = 0 → ∃ t, exec (.instructionComplete c e) s = .next t ∧
         (t.eng c e).inflight = rest ∧
         t.fld (Reg.RETIRED c e) F.RETIRED_COUNT = (s.fld (Reg.RETIRED c e) F.RETIRED_COUNT + 1) % 2 ^ 64 ∧
         (I.cr i.word = false → t.hearth = s.hearth)) ∧
       (Code.family i.code ≠ 0 → ∃ t, exec (.instructionComplete c e) s = .next t ∧ (t.eng c e).st = .faulted ∧
         (t.eng c e).lastFault = i.code ∧ (t.eng c e).faultPc = i.pc)) ∧
     (g.st = .waiting → g.waitFrom = some f → translateHead s c w = .ok ⟨some x, y⟩ → limit ≠ 0 →
       waitHolds (I.wcond w) (I.wval w) (s.reg (Reg.SYN_OBJ (regionOf c) x.obj)) = false →
       ∃ t, exec (.waitTimeout c e) s = .next t ∧ t.now = Nat.max s.now (f + limit) ∧ (t.eng c e).st = .faulted ∧
         (t.eng c e).lastFault = Code.failTimeout ∧ (t.eng c e).faultPc = g.pc) ∧
     (limit = 0 → exec (.waitTimeout c e) s = .next s) ∧
     ((g.st = .running ∨ g.st = .waiting) → g.ending = .none → 768 ≤ g.pc → g.inflight = [] →
       ∃ t, exec (.fetchPastEnd c e) s = .next t ∧ (t.eng c e).st = .faulted ∧ (t.eng c e).lastFault = Code.rejRange ∧
         (t.eng c e).faultPc = 767 ∧ t.hearth = s.hearth ∧ t.reg (Reg.CR_SEQ c e) = s.reg (Reg.CR_SEQ c e)) ∧
     (g.pc < 768 → exec (.fetchPastEnd c e) s = .next s))

/-- RED_INJECT, TEN_INJECT and INJECT (R242, R266, R309): with VIG_REPRO_ID.INJECT 1 a write whose stage, bit and unit exist is taken by the
engine's register; with INJECT 0 it is refused REJ_STATE. -/
def Obligations.Injections : Prop :=
  ∀ (s : State) (c : CoreId) (e : Cls) (data : Word) (r : Row) (ix : List Nat),
    let w : Word := BitVec.ofNat 64 (data.toNat % 2 ^ 32)
    let takes (a : Nat) : State := (s.setReg a (r.written (s.reg a) w)).completed Code.done 0
    c.ok = true → s.siteDown c.die c.region = false →
    (s.injectOn = true →
      (regRow (Reg.RED_INJECT c) = some (r, ix) → r.width = 32 → F.RED_INJECT_STAGE.get w ≠ 3 → F.RED_INJECT_BIT.get w ≤ 79 →
        exec (.redInject c data) s = .next (takes (Reg.RED_INJECT c))) ∧
      (c.has .tensor = true → regRow (Reg.TEN_INJECT c) = some (r, ix) → r.width = 32 →
        exec (.tenInject c data) s = .next (takes (Reg.TEN_INJECT c))) ∧
      ((e = .shape ∨ e = .sort ∨ e = .scale) → regRow (Reg.UNIT_INJECT c e) = some (r, ix) → r.width = 32 →
        F.UNIT_INJECT_UNIT.get w ≤ lastUnit e → exec (.inject c e data) s = .next (takes (Reg.UNIT_INJECT c e)))) ∧
    (s.injectOn = false →
      exec (.redInject c data) s = .next (s.completed Code.rejState 0) ∧
      (c.has .tensor = true → exec (.tenInject c data) s = .next (s.completed Code.rejState 0)) ∧
      ((e = .shape ∨ e = .sort ∨ e = .scale) → exec (.inject c e data) s = .next (s.completed Code.rejState 0)))

/-- PACKET_ARRIVAL, RX_HOLD_DROP and MOVE_REQUEST_TIMEOUT (R301, R306, R307): a packet for a core that is not being substituted, with no
packet waiting for its queue before it, enters its queue where there is room and waits at the router port where there is not; the
oldest packet that waits for a core is dropped after MOV_HOLD; a transfer not acknowledged in MOV_TIMEOUT fails FAIL_TIMEOUT. -/
def Obligations.PacketsForCores : Prop :=
  ∀ (s : State) (c : CoreId) (p : Packet) (f : Flying) (u v : State) (i : Inflight) (rest : List Inflight),
    (forCore p = true → s.arrivalOf p = (f, u) → u.substituting (dataCore p) = false →
      (∀ g ∈ u.flight, g.held.isSome = true → sameQueue g.pkt p = false) →
      (∀ x, u.enterQueue f = (some v, x) →
        let t := (v.land p).2.countRouter (some (regionOf (dataCore p))) false p
        exec (.packetArrival p) s = .next (match f.buf with | some (l, o) => t.dropBuffer l o | none => t)) ∧
      (u.enterQueue f = (none, v) → exec (.packetArrival p) s = .next (v.holdPacket f))) ∧
    (c.ok = true → s.substituting c = false →
      s.flight.find? (fun g => g.held.isSome && dataCore g.pkt = c) = some f →
      ∃ t, exec (.rxHoldDrop c) s = .next t ∧
        t.now = Nat.max s.now (f.held.getD 0 + s.fld (Reg.MOV_HOLD c) F.MOV_HOLD_NS) ∧ t.flight = removeOne f s.flight ∧
        t.isOn (Reg.MOV_STATUS c) F.MOV_STATUS_RXDROP_SEEN = true ∧ t.core c = s.core c) ∧
    (c.ok = true → (s.eng c .move).inflight = i :: rest → i.awaits = .requests → (s.eng c .move).held = none →
      ∃ t, exec (.moveRequestTimeout c) s = .next t ∧ (t.eng c .move).st = .faulted ∧
        (t.eng c .move).lastFault = Code.failTimeout ∧ (t.eng c .move).faultPc = i.pc ∧
        t.isOn (Reg.MOV_STATUS c) F.MOV_STATUS_TIMEOUT_SEEN = true)

/-- ALLOC_WAIT_GRANT, ALLOC_WAIT_TIMEOUT, RECLAIM and RECLAIM_DONE (R350, R357, R367, R368): the oldest waiting ALLOC that its chain now serves leaves
the queue with its buffers and completes DEFERRED; the oldest waiting ALLOC is refused after GRT_WAIT_LIMIT; a reclaim takes an owner
out of every buffer of its pools and keeps BUSY set until it is done. -/
def Obligations.GrateWaiting : Prop :=
  ∀ (s u : State) (r : RegionId) (e : AllocWait) (ls : List Nat) (rest : List AllocWait) (sp : PoolSpace) (owner : Nat),
    (r.ok = true → s.serveWait r (s.region r).waitq = some (e, ls, u) →
      let t := ((u.setRegion r { u.region r with waitq := removeOne e (u.region r).waitq }).storeList (e.coreId r) e.list
        ls).count (Reg.GRT_DEFERRALS r) F.GRT_DEFERRALS_COUNT 1
      exec (.allocWaitGrant r) s = .next (t.resolveWait (e.coreId r) e.pc fun i =>
        { i with awaits := .time, code := Code.deferred, doneAt := t.now + grateTime ls })) ∧
    (r.ok = true → (s.region r).waitq = e :: rest →
      let v := (s.at (e.joined + s.fld (Reg.GRT_WAIT_LIMIT r) F.GRT_WAIT_LIMIT_NS)).setRegion r
        { s.region r with waitq := rest }
      exec (.allocWaitTimeout r) s = .next ((v.refused r).resolveWait (e.coreId r) e.pc fun i =>
        { i with awaits := .time, code := Code.refusedPool, doneAt := v.now })) ∧
    (spaceOk sp = true → owner < 8192 →
      (s.isOn (reclaimReg sp) F.GRT_RCTL_BUSY = false → ownerOk owner = true →
        ∃ t, exec (.reclaim sp owner) s = .next t ∧ t.access.code = Code.done ∧
          t.isOn (reclaimReg sp) F.GRT_RCTL_BUSY = true ∧ t.hearth = s.hearth ∧ t.scratch = s.scratch ∧
          t.fabric = s.fabric ∧ ∀ b, b ≠ reclaimReg sp → t.reg b = s.reg b) ∧
      (s.isOn (reclaimReg sp) F.GRT_RCTL_BUSY = true →
        exec (.reclaim sp owner) s = .next (s.completed Code.rejState 0)) ∧
      exec (.reclaimDone sp) s = .next (s.setFld (reclaimReg sp) F.GRT_RCTL_BUSY 0))

/-! ## Sync files, the Almanac and Calendars (chapters 03 and 04) -/

/-- What a signal does to its object (R63, R112, R120): a set makes a flag 1 and counts in SETS; a reset makes it 0 unless a set has
reached it in the same cycle; an add raises a counter, which stops at 2^24 − 1 with ERR set; and no register but the object's, the
region's error registers and the Ashpit's changes. REMOTE_SIGNAL, SIGACK, REMOTE_SIGNAL_LOST and BARRIER_CARRY (R130, R135 to R139): an arriving signal
lands and is acknowledged; an acknowledgement or 20 µs without one frees the signal's entry; a carried completion takes effect.
SYNC_SAVE, SYNC_RESTORE and SYNC_SAVE_FINISH (R141 to R145): a save or restore of a valid context that no running engine uses, to an
aligned scratchpad or fabric memory place, is accepted and sets BUSY; while BUSY another is refused; at its end BUSY clears and STATUS
takes the code of the save or restore. -/
def Obligations.SignalsAndSaves : Prop :=
  (∀ (s s1 s3 : State) (r : RegionId) (obj l n tok : Nat) (q : Option Nat) (p : Packet) (f : Flying) (src : RegionId) (place : Word)
     (o : OutSig) (rest : List OutSig) (cy : Nat × Nat),
     let a := Reg.SYN_OBJ r obj
     let rp : RegionId := ⟨h1 p P.die, h1 p P.region⟩
     let sameWay (g : Flying) (x : Option RegionId) : Bool :=
       g.src = x && h0 g.pkt P.ptype = 1 && h1 g.pkt P.die = rp.die && h1 g.pkt P.region = rp.region
     let s2 := s1.landSig rp (h1 p P.object) (h1 p P.tag) (h1 p P.sact) (h1 p P.sval + 1) none (h1 p P.qid)
       (s1.landing (s1.now - 1))
     let ack (u : State) (smod dest : Nat) (at_ : RegionId) : Packet :=
       { w0 := u.originWord 2 1 smod dest 0,
         w1 := wordOf [(P.die, at_.die), (P.region, at_.region), (P.token, h1 p P.token)], payload := [] }
     ((s.applySig r obj l 1 n q).fld a F.SYN_OBJ_FLAG_VALUE = 1 ∧
       (s.applySig r obj l 1 n q).fld a F.SYN_OBJ_FLAG_SETS = (s.fld a F.SYN_OBJ_FLAG_SETS + 1) % 2 ^ 32 ∧
       (a ∉ s.setsIn l → (s.applySig r obj l 2 n q).fld a F.SYN_OBJ_FLAG_VALUE = 0) ∧
       (a ∈ s.setsIn l → s.applySig r obj l 2 n q = s) ∧
       (s.fld a F.SYN_OBJ_COUNTER_VALUE + n < 2 ^ 24 →
         (s.applySig r obj l 3 n q).fld a F.SYN_OBJ_COUNTER_VALUE = s.fld a F.SYN_OBJ_COUNTER_VALUE + n) ∧
       (2 ^ 24 ≤ s.fld a F.SYN_OBJ_COUNTER_VALUE + n → r.ok = true → obj < 4096 →
         (s.applySig r obj l 3 n q).fld a F.SYN_OBJ_COUNTER_VALUE = 2 ^ 24 - 1 ∧
         (s.applySig r obj l 3 n q).isOn a F.SYN_OBJ_FLAG_ERR = true) ∧
       (∀ act b, act = 1 ∨ act = 2 → b ≠ a → (s.applySig r obj l act n q).reg b = s.reg b)) ∧
     (h0 p P.ptype = 1 → rp.ok = true → s.land p = (some f, s1) → f.src = some src →
       s.flight.find? (fun g => sameWay g (some src)) = some f →
       exec (.remoteSignal p) s = .next ((s2.countRouter (some rp) false p).fly
         (.of (ack s2 1 (s2.moduleId.getD 0) src) (some rp) none s2.now))) ∧
     (h0 p P.ptype = 1 → rp.ok = true → s.land p = (none, s1) → s2.freeWord = (place, s3) →
       exec (.remoteSignal p) s = .next ((s3.countRouter (some rp) false p).originate
         (.of (ack s3 (h0 p P.smod) (h0 p P.src) ⟨P.die.get place, P.region.get place⟩) (some rp) none s3.now))) ∧
     (h0 p P.ptype = 2 → rp.ok = true →
       let u := (s.land p).2.countRouter (some rp) false p
       exec (.sigack p) s = .next ((u.setRegion rp
         { u.region rp with out := (u.region rp).out.filter fun x => x.token ≠ h1 p P.token }).releaseHeld rp)) ∧
     (r.ok = true → takeFirst (fun x : OutSig => x.token = tok) (s.region r).out = some (o, rest) →
       let u := (s.at (o.left + 20000)).setRegion r { s.region r with out := rest }
       exec (.remoteSignalLost r tok) s = .next ((((u.flag (Reg.SYN_STATUS r) F.SYN_STATUS_LOST_SEEN).count
         (Reg.SYN_LOST r) F.SYN_LOST_COUNT 1).logSync r 0 []).releaseHeld r)) ∧
     (r.ok = true → obj < 4096 → (s.region r).carry.find? (fun x => x.1 = obj) = some cy →
       exec (.barrierCarry r obj) s = .next ((s.settle r obj cy.2).at (cy.2 + 1)))) ∧
  (∀ (s u : State) (r : RegionId) (data : Word) (j : SaveJob) (p : Place) (code : Nat) (restore : Bool),
     let a := Reg.SYN_SAVE_CTL r
     let cmd : Instr := if restore then .syncRestore r data else .syncSave r data
     let ctx := F.SYN_SAVE_CTL_CONTEXT.get data
     let v := s.setRegion r { s.region r with save := none }
     r.ok = true →
     (placeOf s ⟨r.die, r.region, 0⟩ (s.reg (Reg.SYN_SAVE_LOC r)).toNat = .ok p → (∀ c k, p ≠ .hearth c k) →
       (∀ k, p ≠ .queue k) → (s.reg (Reg.SYN_SAVE_LOC r)).toNat % 64 = 0 → s.isOn a F.SYN_SAVE_CTL_BUSY = false →
       s.isOn (Reg.SYN_CTXMAP r ctx) F.SYN_CTXMAP_VALID = true → contextBusy s r ctx = false →
       ∃ t, exec cmd s = .next t ∧ t.access.code = Code.done ∧ t.isOn a F.SYN_SAVE_CTL_BUSY = true ∧
         (t.region r).save = some ⟨if restore then 2 else 1, ctx, F.SYN_SAVE_CTL_FREE.on data,
           s.reg (Reg.SYN_SAVE_LOC r), s.now, 0⟩ ∧ ∀ b, b ≠ a → t.reg b = s.reg b) ∧
     (placeOf s ⟨r.die, r.region, 0⟩ (s.reg (Reg.SYN_SAVE_LOC r)).toNat = .ok p → (∀ c k, p ≠ .hearth c k) →
       (∀ k, p ≠ .queue k) → (s.reg (Reg.SYN_SAVE_LOC r)).toNat % 64 = 0 → s.isOn a F.SYN_SAVE_CTL_BUSY = true →
       exec cmd s = .next (s.completed Code.rejState 0)) ∧
     ((s.region r).save = some j → placeOf v ⟨r.die, r.region, 0⟩ j.loc.toNat = .ok p →
       (if j.op = 1 then v.saveCtx r j p else v.restoreCtx r j p) = (code, u) →
       exec (.syncSaveFinish r) s =
         .next ((u.setFld a F.SYN_SAVE_CTL_BUSY 0).setFld a F.SYN_SAVE_CTL_STATUS code)) ∧
     ((s.region r).save = none → exec (.syncSaveFinish r) s = .next s))

/-- TIME_MESSAGE_SEND, TIME, HOLDOVER_TIMEOUT, REFERENCE_TAKEOVER, RELOCK and ALM_SET (R149 to R159): an UP Jorvief port sends a 48-byte time
message; a received one is kept for the echo and its offset moves the servo, or checks a neighbour; HOLDOVER after 1 ms is out of step;
RELOCK lets a follower that is BANKED acquire again; ALM_SET sets the Almanac of a root that runs no job. -/
def Obligations.TimeKeeping : Prop :=
  ∀ (s u : State) (port : Nat) (f : Frame) (m : List Byte) (t : Nat) (count : Word),
    let x := s.portTime port
    let v := u.stamp.2.setPortTime port { u.stamp.2.portTime port with seen := slice m 0 12 ++ u.stamp.1 }
    let echoed := (u.stamp.2.portTime port).sent.any fun k => k.1 = leAt m 12 2 && decide (v.now ≤ k.2.1 + 4000)
    let theta := offsetOfMsg (stampNat (slice m 14 10)) (stampNat (slice m 24 10)) (stampNat (slice m 2 10))
      (stampNat u.stamp.1) (toSigned 32 (v.fld (Reg.LNK_ASYM port) F.LNK_ASYM_PS))
    let ctl := s.reg Reg.ALM_CTL
    (port < 1024 → s.isUp port = true → s.isEth port = false →
      ∃ w body, exec (.timeMessageSend port) s = .next w ∧ body.length = 48 ∧
        (w.port port).ctrl = (s.port port).ctrl ++ [ctrlBody 1 body] ∧ (w.portTime port).seq = (x.seq + 1) % 65536 ∧
        w.now = if x.last = 0 then s.now else Nat.max s.now (x.last - 1 + 1000)) ∧
    (port < 1024 → s.isUp port = false → exec (.timeMessageSend port) s = .next s) ∧
    (port < 1024 → s.hear port f = none → exec (.time port f) s = .next s) ∧
    (port < 1024 → s.hearCtrl port 1 f = some (u, m) →
      (echoed = false → exec (.time port f) s = .next v) ∧
      (echoed = true → (followed v).map Prod.fst = some port → isParent (v.servo theta (leAt m 35 1)) port = true →
        exec (.time port f) s = .next (v.servo theta (leAt m 35 1))) ∧
      (echoed = true → (followed v).map Prod.fst ≠ some port → isParent v port = false →
        exec (.time port f) s = .next (v.crossCheck port theta))) ∧
    (s.almState = 3 → s.lock.holdAt = some t →
      exec .holdoverTimeout s = .next { (s.at (t + 1000000)).outOfStep with
        lock := { (s.at (t + 1000000)).outOfStep.lock with holdAt := none } }) ∧
    exec .referenceTakeover s = .next { s with refBackup := true } ∧
    (s.mstate = MState.banked → freeRuns s = false → 8 ≤ F.ALM_CTL_K.get ctl → F.ALM_CTL_K.get ctl ≤ 20 →
      trained s (F.ALM_CTL_PARENT_PORT.get ctl) = true →
      (F.ALM_CTL_BACKUP_VALID.on ctl = true → trained s (F.ALM_CTL_BACKUP_PORT.get ctl) = true) →
      ∃ w, exec .relock s = .next w ∧ w.access.code = Code.done ∧ w.almState = 1 ∧ w.lock.step = true) ∧
    (s.mstate ≠ MState.banked → exec .relock s = .next (s.completed Code.rejState 0)) ∧
    (s.isOn Reg.ALM_CTL F.ALM_CTL_ROOT = true → s.mstate ≠ MState.lit → s.mstate ≠ MState.shadow → s.jobIdle = true →
      ∃ w, exec (.almSet count) s = .next w ∧ w.alm = count.toNat ∧ w.regs = s.regs ∧ w.now = s.now ∧
        w.access.code = Code.done) ∧
    (s.isOn Reg.ALM_CTL F.ALM_CTL_ROOT = false ∨ s.mstate = MState.lit ∨ s.mstate = MState.shadow ∨ s.jobIdle = false →
      exec (.almSet count) s = .next (s.completed Code.rejState 0))

/-- A job from ARM to its end (R168 to R171, R174): ARM on a BANKED module with no job validates, or aborts with REFUSED_CALENDAR where the Almanac
is not locked; validation arms the job; the handshake opens at EPOCH − 100 µs, commits on an agreed result received by EPOCH − 10 µs
and otherwise aborts; a committed job enters LIT at EPOCH; ABORT stops every Calendar; the job ends when every die is done. -/
def Obligations.JobCommands : Prop :=
  ∀ (s : State) (at_ : Nat) (v : List Nat) (code : Nat),
    let u := s.recordEvent 3 (s.fld Reg.ALM_JOB F.ALM_JOB_JOB_ID * 2 ^ 32)
      (leBytes 8 (s.reg Reg.ALM_EPOCH).toNat ++ leBytes 8 (s.reg Reg.ALM_DIGEST).toNat)
    let x := s.at (s.job.armedAt + validationTime s)
    let o := { (s.atAlm (s.epochAt - 100000)).setFld Reg.ALM_JOB_STATUS F.ALM_JOB_STATUS_PHASE 3 with
      job := { (s.atAlm (s.epochAt - 100000)).job with result := none } }
    (s.mstate ≠ MState.banked ∨ s.jobIdle = false → exec .arm s = .next (s.completed Code.rejState 0)) ∧
    (s.mstate = MState.banked → s.jobIdle = true → u.fld Reg.ALM_EPOCH F.ALM_EPOCH_EPOCH % 2 ^ tickK u = 0 →
      handshakeReady u (hsFlue u) = true → (u.replayArmed = true → replayReady u = true) →
      (u.isLocked = true → ∃ t, exec .arm s = .next t ∧ t.phase = 1 ∧ t.access.code = Code.done ∧
        t.job.armedAt = u.now ∧ t.job.stopped = [] ∧ t.job.checks = []) ∧
      (u.isLocked = false → ∃ t, exec .arm s = .next t ∧ t.phase = 7 ∧
        t.fld Reg.ALM_JOB_STATUS F.ALM_JOB_STATUS_STATUS = Code.refusedCalendar)) ∧
    (s.phase = 1 →
      (validation x = some code → exec .armValidationDone s = .next (x.jobFails code)) ∧
      (validation x = none → x.alm + 100000 ≤ x.epochAt → x.shdMode ≠ 2 → x.replay = none →
        exec .armValidationDone s = .next (x.setPhase 2 Code.done))) ∧
    (s.phase = 2 → handshakeReady o (hsFlue o) = true → o.flueSt (hsFlue o) = FSt.idle →
      exec .handshakeOpen s = .next (o.quickOpen (hsFlue o) (some (handshakeWords o)))) ∧
    (s.phase = 3 → s.job.result = some (at_, v) → at_ + 10000 ≤ s.epochAt →
      (handshakeAgrees v = true →
        exec .handshakeResult s = .next (s.setFld Reg.ALM_JOB_STATUS F.ALM_JOB_STATUS_PHASE 4)) ∧
      (handshakeAgrees v = false → exec .handshakeResult s = .next (s.jobFails Code.failMismatch)) ∧
      exec .handshakeTimeout s = .next s) ∧
    (s.phase = 3 → s.job.result = none →
      exec .handshakeTimeout s = .next ((s.atAlm (s.epochAt - 10000)).jobFails Code.failTimeout)) ∧
    (s.phase = 4 → s.mstate = MState.banked → s.shdMode ≠ 2 → s.replay = none →
      ∃ t, exec .jobStart s = .next t ∧ t.mstate = MState.lit ∧ t.phase = 5 ∧ t.alm = Nat.max s.alm s.epochAt ∧
        t.job.stopped = [] ∧ t.digs = [] ∧
        ∀ d, d < 64 → t.fld (Reg.ALM_CAL_POS d) F.ALM_CAL_POS_NEXT = 0) ∧
    (s.jobIdle = true → exec .jobAbort s = .next (s.completed Code.rejState 0)) ∧
    (s.jobIdle = false → ∃ t, exec .jobAbort s = .next t ∧ t.phase = 7 ∧
      t.fld Reg.ALM_JOB_STATUS F.ALM_JOB_STATUS_STATUS = Code.failAborted ∧ t.job.stopped = List.range 64 ∧
      t.job.checks = []) ∧
    (s.phase = 5 → (∀ d, d < 64 → dieDone s d = true) → exec .jobEnd s = .next (s.setPhase 6 Code.done)) ∧
    (s.phase ≠ 5 → exec .jobEnd s = .next s)

/-- CALENDAR_LAUNCH, CALENDAR_LATE_LAUNCH and CALENDAR_CHECK (R164 to R167): the next entry of a running Calendar launches in its cycle; read too late, it
launches when it has been read and is an overrun; the checks whose DEADLINE comes next are judged at that boundary and those that
fail are overruns; a Calendar with no entry left, and a die with no check pending, do nothing. -/
def Obligations.CalendarCommands : Prop :=
  ∀ (s : State) (die i : Nat) (e : CalEntry) (k : CalCheck) (ks : List CalCheck),
    let late := (s.atAlm (launchAt s die i e + 1)).launchEntry die i e (s.atAlm (launchAt s die i e + 1)).alm
    let d := ks.foldl (fun m x => Nat.min m x.deadline) k.deadline
    let u := s.atAlm (tickAt s d)
    let v := { u with job := { u.job with
      checks := AMap.set u.job.checks [] die ((k :: ks).filter fun x => x.deadline ≠ d) } }
    die < 64 →
    (nextEntry s die = some (i, e) →
      exec (.calendarLaunch die) s =
        .next ((s.atAlm (launchAt s die i e)).launchEntry die i e (launchAt s die i e)) ∧
      exec (.calendarLateLaunch die) s = .next (late.overrun die i e.region e.qid 1
        (match calTarget late die e e.cvid (waitKind e.ccond) with
         | .ok t => late.reg (Reg.SYN_OBJ ⟨die, e.region⟩ t.obj)
         | .error _ => 0))) ∧
    (nextEntry s die = none →
      exec (.calendarLaunch die) s = .next s ∧ exec (.calendarLateLaunch die) s = .next s) ∧
    (AMap.get s.job.checks [] die = k :: ks → s.phase = 5 →
      exec (.calendarCheck die) s = .next ((((k :: ks).filter fun x => x.deadline = d).map fun x =>
          (x, v.v0 (Reg.SYN_OBJ ⟨die, x.region⟩ x.obj))).foldl (fun w y =>
        if checkHolds y.1 y.2 || w.job.stopped.contains die then w
        else w.overrun die y.1.entry y.1.region y.1.qid 0 y.2) v)) ∧
    (AMap.get s.job.checks [] die = [] → exec (.calendarCheck die) s = .next s)

/-! ## Fabric memory, die stores and on-module links (chapter 09) -/

/-- DS_PART_WRITE, CACHE_WINDOW_WRITE and CACHE_INVALIDATE_DONE (R317, R322): a legal partition write takes effect, keeps the scratchpad
bytes below the smaller partition and drops every cache line; a legal cache window write sets its fields and, where it
shrinks or moves an enabled window, sets BUSY and drops the lines of the old range; BUSY clears when the invalidation ends. What R317
and R322 refuse completes with their code and changes nothing. -/
def Obligations.CacheCommands : Prop :=
  ∀ (s : State) (die w : Nat) (ctl : Bool) (data : Word),
    let p := Reg.MEM_DS_PART die
    let new := F.MEM_DS_PART_SCRATCH.get data
    let old := s.fld p F.MEM_DS_PART_SCRATCH
    let ab := Reg.MEM_CWIN_BASE die w
    let ac := Reg.MEM_CWIN_CTL die w
    let base := if ctl then s.fld ab F.MEM_CWIN_BASE_BASE else F.MEM_CWIN_BASE_BASE.get data
    let word := if ctl then data else s.reg ac
    let on := F.MEM_CWIN_CTL_ENABLE.on word
    let size := F.MEM_CWIN_CTL_SIZE.get word
    let oldBase := s.fld ab F.MEM_CWIN_BASE_BASE / 512
    let oldSize := s.fld ac F.MEM_CWIN_CTL_SIZE
    let clears := s.isOn ac F.MEM_CWIN_CTL_ENABLE && (!ctl || !on || size ≠ oldSize)
    die < 64 →
    (s.mstate = MState.banked → new ≤ 8 → poolsFit s die (new * 0x1000000) = true →
      ∃ t, exec (.dsPartWrite die data) s = .next t ∧ t.access.code = Code.done ∧
        t.fld p F.MEM_DS_PART_SCRATCH = new ∧ (∀ b, b ≠ p → t.reg b = s.reg b) ∧ t.fabric = s.fabric ∧
        (∀ k, (k < die * 0x8000000 + Nat.min old new * 0x1000000 ∨ die * 0x8000000 + Nat.max old new * 0x1000000 ≤ k) →
          Mem.get t.scratch k = Mem.get s.scratch k) ∧
        (new ≠ old → ∀ g, g < 2 ^ 32 → AMap.get t.cache [] (cacheKey die g) = [])) ∧
    (s.mstate ≠ MState.banked → exec (.dsPartWrite die data) s = .next (s.completed Code.rejState 0)) ∧
    (s.mstate = MState.banked → 8 < new → exec (.dsPartWrite die data) s = .next (s.completed Code.rejRange 0)) ∧
    (w < 8 →
      (s.isOn ac F.MEM_CWIN_CTL_BUSY = false → base % 512 = 0 → base + 512 * size ≤ 2 ^ 41 →
        (on = true → ∀ v, v < 8 → v ≠ w → s.isOn (Reg.MEM_CWIN_CTL die v) F.MEM_CWIN_CTL_ENABLE = true →
          rangesTouch (base / 512) size (s.fld (Reg.MEM_CWIN_BASE die v) F.MEM_CWIN_BASE_BASE / 512)
            (s.fld (Reg.MEM_CWIN_CTL die v) F.MEM_CWIN_CTL_SIZE) = false) →
        ∃ t, exec (.cacheWindowWrite die w ctl data) s = .next t ∧ t.access.code = Code.done ∧
          t.fld ab F.MEM_CWIN_BASE_BASE = base ∧ t.isOn ac F.MEM_CWIN_CTL_ENABLE = on ∧
          t.fld ac F.MEM_CWIN_CTL_SIZE = size ∧ t.isOn ac F.MEM_CWIN_CTL_BUSY = clears ∧
          (∀ b, b ≠ ab → b ≠ ac → t.reg b = s.reg b) ∧ t.fabric = s.fabric ∧ t.scratch = s.scratch ∧
          (clears = true → ∀ g, oldBase ≤ g → g < oldBase + oldSize → AMap.get t.cache [] (cacheKey die g) = []) ∧
          (clears = false → t.cache = s.cache)) ∧
      (s.isOn ac F.MEM_CWIN_CTL_BUSY = true →
        exec (.cacheWindowWrite die w ctl data) s = .next (s.completed Code.rejState 0)) ∧
      (s.isOn ac F.MEM_CWIN_CTL_BUSY = false → base % 512 ≠ 0 ∨ 2 ^ 41 < base + 512 * size →
        exec (.cacheWindowWrite die w ctl data) s = .next (s.completed Code.rejRange 0)) ∧
      exec (.cacheInvalidateDone die w) s = .next (s.setFld ac F.MEM_CWIN_CTL_BUSY 0))

/-- STACK_READ_REQUEST and STACK_WRITE_REQUEST (R324, R326, R328, R330, R331, R338, R339): a request below 2^41 completes; it waits while a stack it touches
trains, and fails at a FAILED stack with no effect. A part of one granule that no window governs reads the stored bytes, or stores
the written ones, in one slot of its channel; a write that an operation window governs leaves what the operation makes of each whole
element; a part that covers no whole elements fails, changes no byte and counts in MEM_PARTIAL. -/
def Obligations.StackRequests : Prop :=
  ∀ (s : State) (addr len : Nat) (bs : List Byte) (x : Window),
    let g := addr / 512
    let k := stackOf g
    let slotsReg := Reg.MEM_CH_SLOTS k (stackChannel g)
    let clean := ∀ m ∈ s.marks, m.1 < markKey .fabric (g * 8) ∨ markKey .fabric (g * 8 + 8) ≤ m.1
    (2 ^ 41 < addr + len → exec (.stackReadRequest addr len) s = .fault (.noSuchAddress addr)) ∧
    (addr + len ≤ 2 ^ 41 → ∃ t, exec (.stackReadRequest addr len) s = .next t ∧ t.hearth = s.hearth ∧ t.istore = s.istore ∧
      t.scratch = s.scratch ∧ t.cores = s.cores ∧ t.now = s.now) ∧
    (2 ^ 41 < addr + bs.length → exec (.stackWriteRequest addr bs) s = .fault (.noSuchAddress addr)) ∧
    (addr + bs.length ≤ 2 ^ 41 → ∃ t, exec (.stackWriteRequest addr bs) s = .next t ∧ t.hearth = s.hearth ∧
      t.istore = s.istore ∧ t.scratch = s.scratch ∧ t.cores = s.cores ∧ t.now = s.now ∧
      ∀ j, j < g * 512 ∨ (addr + bs.length + 511) / 512 * 512 ≤ j → Mem.get t.fabric j = Mem.get s.fabric j) ∧
    (addr + len ≤ 2 ^ 41 → fabWaits s addr len = true → exec (.stackReadRequest addr len) s = .next s) ∧
    (0 < len → addr % 512 + len ≤ 512 → addr + len ≤ 2 ^ 41 → stackWaits s k = false →
      (stackFailed s k = true → exec (.stackReadRequest addr len) s = .next { s with answer := ⟨Code.failMemory, []⟩ }) ∧
      (stackFailed s k = false → windowOf s k g = none → clean →
        ∃ t, exec (.stackReadRequest addr len) s = .next t ∧ t.answer = ⟨Code.done, s.fread addr len⟩ ∧
          t.fabric = s.fabric ∧ t.fld slotsReg F.MEM_CH_SLOTS_COUNT = (s.fld slotsReg F.MEM_CH_SLOTS_COUNT + 1) % 2 ^ 64 ∧
          ∀ b, b ≠ slotsReg → t.reg b = s.reg b)) ∧
    (0 < bs.length → addr % 512 + bs.length ≤ 512 → addr + bs.length ≤ 2 ^ 41 → stackWaits s k = false →
      (stackFailed s k = true → exec (.stackWriteRequest addr bs) s = .next { s with answer := ⟨Code.failMemory, []⟩ }) ∧
      (stackFailed s k = false → windowOf s k g = none →
        ∃ t, exec (.stackWriteRequest addr bs) s = .next t ∧ t.answer = ⟨Code.done, []⟩ ∧ t.fread addr bs.length = bs ∧
          (∀ j, j < addr ∨ addr + bs.length ≤ j → Mem.get t.fabric j = Mem.get s.fabric j) ∧
          t.fld slotsReg F.MEM_CH_SLOTS_COUNT = (s.fld slotsReg F.MEM_CH_SLOTS_COUNT + 1) % 2 ^ 64) ∧
      (stackFailed s k = false → windowOf s k g = some x → clean → x.whole (addr % 512) bs.length = true →
        ∃ t, exec (.stackWriteRequest addr bs) s = .next t ∧ t.answer = ⟨Code.done, []⟩ ∧
          t.fabric = Mem.write s.fabric addr (x.applyAll (s.fread addr bs.length) bs) ∧
          t.fld slotsReg F.MEM_CH_SLOTS_COUNT = (s.fld slotsReg F.MEM_CH_SLOTS_COUNT + 2) % 2 ^ 64) ∧
      (stackFailed s k = false → windowOf s k g = some x → x.whole (addr % 512) bs.length = false →
        ∃ t, exec (.stackWriteRequest addr bs) s = .next t ∧ t.answer = ⟨Code.failMemory, []⟩ ∧ t.fabric = s.fabric ∧
          t.isOn (Reg.MEM_ATOMIC_STATUS k) F.MEM_ATOMIC_STATUS_PARTIAL_SEEN = true ∧
          t.fld (Reg.MEM_PARTIAL k) F.MEM_PARTIAL_COUNT = satAdd 32 (s.fld (Reg.MEM_PARTIAL k) F.MEM_PARTIAL_COUNT) 1))

/-- SCRUB, STACK_RETRAIN, STACK_RETRAIN_DONE and ONMOD_LINK_RETRAIN (R337 to R339, R505): a patrol pass changes no data and corrects what it can of its
stack; a retrain puts the stack in training and counts, and its end places the spares, with more than two failing lanes in a group
FAILED; a mesh link or attachment that has not failed counts a retrain and takes the state its lanes give, at each of its ends. -/
def Obligations.LinkRetrains : Prop :=
  ∀ (s : State) (k : Nat) (failing : List Nat) (l : OnLink),
    let a := Reg.MEM_STACK_STATUS k
    let retrains := satAdd 32 (s.fld (Reg.MEM_RETRAINS k) F.MEM_RETRAINS_COUNT) 1
    let started (t : State) := t.fld a F.MEM_STACK_STATUS_STATE = 0 ∧
      t.fld (Reg.MEM_RETRAINS k) F.MEM_RETRAINS_COUNT = retrains ∧ t.fabric = s.fabric
    (k < 64 →
      (∃ t, exec (.scrub k) s = .next t ∧ t.fabric = s.fabric ∧ t.hearth = s.hearth ∧ t.scratch = s.scratch ∧
        t.cores = s.cores ∧ (∀ m ∈ t.marks, m ∈ s.marks) ∧
        ((∀ m ∈ s.marks, m.2 = 1) → ∀ m ∈ t.marks,
          ¬ (markKey .fabric 0 ≤ m.1 ∧ m.1 < markKey .sync 0 ∧ stackOf ((m.1 - markKey .fabric 0) / 8) = k))) ∧
      (s.mstate = MState.banked → ∃ t, exec (.stackRetrain k true) s = .next t ∧ t.access.code = Code.done ∧ started t) ∧
      (s.mstate ≠ MState.banked → exec (.stackRetrain k true) s = .next (s.completed Code.rejState 0)) ∧
      (stackFailed s k = false → ∃ t, exec (.stackRetrain k false) s = .next t ∧ started t) ∧
      (stackFailed s k = true → exec (.stackRetrain k false) s = .next s) ∧
      (stackWaits s k = true → ∃ t, exec (.stackRetrainDone k failing) s = .next t ∧ t.fabric = s.fabric ∧
        t.fld a F.MEM_STACK_STATUS_STATE = (if linkLost failing 128 8 then 2 else 1) ∧
        t.fld a F.MEM_STACK_STATUS_SPARES_USED = sparesUsed failing 128 8 ∧
        t.reg (Reg.MEM_RETRAINS k) = s.reg (Reg.MEM_RETRAINS k)) ∧
      (stackWaits s k = false → exec (.stackRetrainDone k failing) s = .next s)) ∧
    (l.ok = true →
      ((∀ r ∈ linkRegs l, s.fld r.1 F.RTE_MESH_LINK_STATE ≠ 2) →
        ∃ t, exec (.onmodLinkRetrain l failing) s = .next t ∧ t.fabric = s.fabric ∧
          ∀ r ∈ linkRegs l, t.reg r.1 = trainedLink (linkGroups l) failing ∧
            t.fld r.2.1 F.RTE_MESH_RETRAINS_COUNT = satAdd 32 (s.fld r.2.1 F.RTE_MESH_RETRAINS_COUNT) 1) ∧
      ((∃ r ∈ linkRegs l, s.fld r.1 F.RTE_MESH_LINK_STATE = 2) → exec (.onmodLinkRetrain l failing) s = .next s))

/-! ## Jorvief Link (chapter 11) -/

/-- DATA_FRAME, REPLAY_FRAME, IDLE_FRAME and BAD_FRAME (R383 to R386, R396, R415, R416): a good frame at an UP Jorvief port honours its credit
counts and its ACK, which frees the frames up to it; a DATA or REPLAY frame with the expected FSEQ joins the received bytes and ends a discard episode, another
FSEQ opens one with the next NAKID; a frame that fails is counted and discarded. A port that is not UP takes no frame. -/
def Obligations.ReceivedFrames : Prop :=
  ∀ (s : State) (port : Nat) (f : Frame) (undecoded replay : Bool) (fseq : Option Nat),
    let x := s.port port
    let cmd : Instr := if replay then .replayFrame port f else .dataFrame port f
    let y := (s.honour port f).port port
    let body := (slice f.body 0 620).take (4 * L.fill.get f.hdr)
    let new := if x.part.isEmpty then (if L.first.get f.hdr = 255 then [] else body.drop (4 * L.first.get f.hdr)) else body
    let cut := cutPackets (x.part ++ new) 160
    let n := (L.ack.get f.hdr + 1 + 4096 - (x.replay.map TxFrame.seq).headD 0) % 4096
    let counted := if undecoded then s.count (Reg.LNK_FEC_UNCORR port) F.LNK_FEC_UNCORR_COUNT 1
      else s.count (Reg.LNK_CRC_ERRS port) F.LNK_CRC_ERRS_COUNT 1
    port < 1024 →
    (s.isUp port = false ∨ s.isEth port = true →
      exec cmd s = .next s ∧ exec (.idleFrame port f) s = .next s) ∧
    (s.isUp port = true → s.isEth port = false →
      exec (.idleFrame port f) s = .next (s.honour port f) ∧
      y.lastGood = s.now ∧ y.expect = x.expect ∧ y.part = x.part ∧ y.arrived = x.arrived ∧ y.stream = x.stream ∧
      (L.poola.get f.credit < 10 → L.poola.get f.credit ≠ L.poolb.get f.credit →
        AMap.get y.limit 0 (L.poola.get f.credit) = L.limita.get f.credit + 1) ∧
      (L.poolb.get f.credit < 10 → AMap.get y.limit 0 (L.poolb.get f.credit) = L.limitb.get f.credit + 1) ∧
      (n ≤ x.replay.length → y.replay = x.replay.drop n) ∧
      (x.replay.length < n → y.replay = x.replay) ∧
      (L.nak.on f.hdr = true → L.nakid.get f.hdr ≠ x.acted → y.toReplay = y.replay.length ∧ y.acted = L.nakid.get f.hdr) ∧
      (L.ftype.get f.hdr = (if replay then 3 else 1) →
        (L.fseq.get f.hdr = x.expect → ∃ t, exec cmd s = .next t ∧
          (t.port port).expect = (x.expect + 1) % 4096 ∧ (t.port port).nakOpen = false ∧
          (t.port port).arrived = x.arrived ++ cut.1 ∧ (t.port port).part = cut.2 ∧ (t.port port).replay = y.replay ∧
          t.hearth = s.hearth ∧ t.fabric = s.fabric ∧ t.cores = s.cores) ∧
        (L.fseq.get f.hdr ≠ x.expect → ∃ t, exec cmd s = .next t ∧
          (t.port port).expect = x.expect ∧ (t.port port).nakOpen = true ∧
          (t.port port).nakId = (if x.nakOpen then x.nakId else (x.nakId + 1) % 4) ∧
          (t.port port).arrived = x.arrived ∧ (t.port port).part = x.part ∧ t.hearth = s.hearth))) ∧
    (s.isUp port = true → s.isEth port = false →
      exec (.badFrame port undecoded fseq) s =
        .next (counted.setPort port (if x.nakOpen = true ∧ fseq ≠ some x.expect then x
          else { x with nakOpen := true, nakId := (x.nakId + 1) % 4 }))) ∧
    (s.isUp port = false → x.train = none → exec (.badFrame port undecoded fseq) s = .next counted)

/-- FRAME_SEND (R378, R380, R383, R385, R386, R396): an UP Jorvief port sends, in this order, the next frame of a replay, a CTRL message, a DATA frame with the next
packet bytes while its replay buffer has room, or an IDLE frame; each carries the ACK of the last frame accepted and the NAK state; a training port
sends its TRAIN frame. The order of the kinds is the model's choice (log entry 31). -/
def Obligations.SentFrames : Prop :=
  ∀ (s : State) (port : Nat) (b : List Byte) (rest : List (List Byte)) (g : TxFrame) (tr : Train),
    let x := s.port port
    let sent (t : State) (ftype fseq : Nat) (body : List Byte) : Prop := ∃ f : Frame, (t.port port).lastTx = some f ∧
      L.ftype.get f.hdr = ftype ∧ L.fseq.get f.hdr = fseq % 4096 ∧ f.body = body ∧
      L.ack.get f.hdr = (x.expect + 4095) % 4096 ∧ L.nakid.get f.hdr = x.nakId % 4 ∧ f.credit = s.creditWord port
    let cut := cutStream x.stream 620 0
    let room := x.stream ≠ [] ∧ x.replay.length < 256 * s.width port
    port < 1024 → s.isEth port = false →
    (∃ t, exec (.frameSend port) s = .next t ∧ t.now = s.now ∧ t.cores = s.cores ∧ t.hearth = s.hearth) ∧
    (s.portState port = 3 →
      (x.toReplay ≠ 0 → x.replay[x.replay.length - x.toReplay]? = some g →
        (g.replays + 1 < 8 → ∃ t, exec (.frameSend port) s = .next t ∧ sent t 3 g.seq g.body ∧
          (t.port port).toReplay = x.toReplay - 1 ∧ t.portState port = 3) ∧
        (8 ≤ g.replays + 1 → ∃ t, exec (.frameSend port) s = .next t ∧ sent t 3 g.seq g.body ∧ t.portState port ≠ 3 ∧
          t.fld (Reg.LNK_PORT_STATUS port) F.LNK_PORT_STATUS_DOWN_REASON = 3)) ∧
      (x.toReplay = 0 → x.ctrl = b :: rest → ∃ t, exec (.frameSend port) s = .next t ∧ sent t 2 x.txSeq b ∧
        (t.port port).ctrl = rest ∧ (t.port port).txSeq = x.txSeq) ∧
      (x.toReplay = 0 → x.ctrl = [] → room →
        ∃ t, exec (.frameSend port) s = .next t ∧ sent t 1 x.txSeq (slice cut.1 0 620) ∧
          (t.port port).stream = cut.2.2.2 ∧ (t.port port).txSeq = (x.txSeq + 1) % 4096 ∧
          ∃ k : TxFrame, (t.port port).replay = x.replay ++ [k] ∧ k.seq = x.txSeq ∧ k.body = slice cut.1 0 620) ∧
      (x.toReplay = 0 → x.ctrl = [] → ¬ room →
        ∃ t, exec (.frameSend port) s = .next t ∧ sent t 0 x.txSeq (List.replicate 620 0) ∧
          (t.port port).stream = x.stream ∧ (t.port port).replay = x.replay ∧ (t.port port).txSeq = x.txSeq)) ∧
    (s.portState port = 2 → x.ctrl = [] → x.train = some tr →
      exec (.frameSend port) s = .next ((s.emit port 4 0 255 0 (s.trainBody port tr)).finishTraining port
        { tr with told := tr.told || tr.step = 5 }))

/-- What a port that leaves UP for a reason does (R394, R395), and the causes: DOWN, LANE_SIGNAL_LOSS, SILENT_TIMEOUT and STALL_TIMEOUT: it is DOWN, or
DISABLED by software, or trains at once where AUTO_RETRAIN or RETRAIN says so; its replay buffer, partial packets and queue are empty; the reason is
recorded, counted, and sent in a DOWN message. -/
def Obligations.PortsGoingDown : Prop :=
  ∀ (s u : State) (port lane reason : Nat) (f : Frame) (m : List Byte),
    let st := Reg.LNK_PORT_STATUS port
    let t := s.portDown port reason
    let cfg := s.reg (Reg.LNK_PORT_CFG port)
    let again := F.LNK_PORT_CFG_ENABLE.on cfg && (reason = 6 || F.LNK_PORT_CFG_AUTO_RETRAIN.on cfg)
    let a := Reg.LNK_LANE_STATUS (port + lane)
    let lost := (s.setFld a F.LNK_LANE_STATUS_SIGNAL 0).setFld a F.LNK_LANE_STATUS_LOCK 0
    let off := s.fld st F.LNK_PORT_STATUS_TOFFSET
    let trained := off ≤ lane ∧ lane < off + lanesOf (s.fld st F.LNK_PORT_STATUS_TWIDTH)
    port < 1024 →
    (s.isUp port = true → reason < 16 →
      t.portState port = (if reason = 7 then 0 else if again then 2 else 1) ∧
      t.fld st F.LNK_PORT_STATUS_DOWN_REASON = reason ∧ t.fld st F.LNK_PORT_STATUS_VERSION = 0 ∧
      (t.port port).replay = [] ∧ (t.port port).stream = [] ∧ (t.port port).part = [] ∧ (t.port port).outq = [] ∧
      ctrlBody 2 [BitVec.ofNat 8 reason] ∈ (t.port port).ctrl ∧
      t.fld (Reg.LNK_DOWNS port) F.LNK_DOWNS_COUNT = satAdd 32 (s.fld (Reg.LNK_DOWNS port) F.LNK_DOWNS_COUNT) 1 ∧
      t.isOn (Reg.LNK_PORT_FLAGS port) F.LNK_PORT_FLAGS_DOWN_SEEN = true ∧ t.hearth = s.hearth ∧ t.fabric = s.fabric) ∧
    (s.hearCtrl port 2 f = some (u, m) → exec (.down port f) s = .next (u.portDown port 5)) ∧
    (s.isUp port = false → exec (.down port f) s = .next s) ∧
    (lane < s.width port → lane < 8 →
      (trained → exec (.laneSignalLoss port lane) s = .next (lost.portDown port 1)) ∧
      (¬ trained → exec (.laneSignalLoss port lane) s = .next lost)) ∧
    (s.isUp port = true → s.isEth port = false →
      exec (.silentTimeout port) s = .next ((s.at ((s.port port).lastGood + 500)).portDown port 2)) ∧
    (s.isUp port = true → (s.port port).replay ≠ [] →
      exec (.stallTimeout port) s = .next ((s.at ((s.port port).ackAt + 10000)).portDown port 4)) ∧
    (s.isUp port = false → exec (.silentTimeout port) s = .next s ∧ exec (.stallTimeout port) s = .next s)

/-- PORT_ENABLE, PORT_DISABLE and PORT_RETRAIN (R394, R396, R410): a legal enable starts training, a disable takes the port to DISABLED, a
retrain takes an enabled port that is not FENCED down with reason 6 and into training; what R410 refuses completes with REJ_STATE and changes nothing. -/
def Obligations.PortControl : Prop :=
  ∀ (s : State) (port : Nat),
    let a := Reg.LNK_PORT_CFG port
    let on := F.LNK_PORT_CFG_ENABLE.put (s.reg a) 1 &&& 0xFFFC000000000000
    let off := F.LNK_PORT_CFG_ENABLE.put (s.reg a) 0 &&& 0xFFFC000000000000
    let mayStop := s.mstate = MState.banked ∨ s.mstate = MState.damped ∨ s.mstate = MState.fenced
    let fenced := s.portState port = 4
    port < 1024 →
    (s.isOn a F.LNK_PORT_CFG_ENABLE = false →
      (s.mstate = MState.banked → ¬ fenced → s.badPortCfg port on = false →
        ∃ t, exec (.portEnable port) s = .next t ∧ t.access.code = Code.done ∧ t.reg a = on ∧ t.portState port = 2 ∧
          ∃ tr, (t.port port).train = some tr ∧ tr.step = 1 ∧ tr.start = s.now) ∧
      (s.mstate ≠ MState.banked ∨ fenced → exec (.portEnable port) s = .next (s.completed Code.rejState 0)) ∧
      exec (.portRetrain port) s = .next (s.completed Code.rejState 0)) ∧
    (s.isOn a F.LNK_PORT_CFG_ENABLE = true →
      (mayStop → ¬ fenced → s.badPortCfg port off = false →
        ∃ t, exec (.portDisable port) s = .next t ∧ t.access.code = Code.done ∧ t.reg a = off ∧ t.portState port = 0 ∧
          t.fld (Reg.LNK_PORT_STATUS port) F.LNK_PORT_STATUS_DOWN_REASON = 7) ∧
      (¬ mayStop ∨ fenced → exec (.portDisable port) s = .next (s.completed Code.rejState 0)) ∧
      (s.widthCode port ≠ 0 → ¬ fenced →
        ∃ t, exec (.portRetrain port) s = .next t ∧ t.access.code = Code.done ∧ t.portState port = 2 ∧
          t.fld (Reg.LNK_PORT_STATUS port) F.LNK_PORT_STATUS_DOWN_REASON = 6) ∧
      (s.widthCode port = 0 ∨ fenced → exec (.portRetrain port) s = .next (s.completed Code.rejState 0)))

/-- Training (R389 to R393, R404): CODEWORD_LOCK leads to step 2; 16 good TRAIN frames on every lane from a peer of the same width to the rates;
each rate is measured for 1 ms, down to one at which all lanes pass at both ends, and the choice has the highest bandwidth of those that
qualify; equal results lead to step 5, and the exchange of delays to UP. TRAIN_TIMEOUT fails the attempt after 10 ms, TRAIN_RETRY
starts another 100 ms later; an Ethernet port is UP at alignment lock. -/
def Obligations.PortTraining : Prop :=
  ∀ (s : State) (port lane : Nat) (tr : Train) (body : List Byte) (r failed : Nat) (cs : List (Nat × Nat × Nat))
    (b : Nat × Nat × Nat),
    let x := s.port port
    let st := Reg.LNK_PORT_STATUS port
    let bw (c : Nat × Nat × Nat) : Nat := rateUnits c.1 * lanesOf c.2.1
    let good := AMap.set tr.good 0 lane (if 2 ≤ leAt body 8 1 then AMap.get tr.good 0 lane + 1 else 0)
    let cap : Word := BitVec.ofNat 64 (leAt body 0 8)
    let u := s.setReg (Reg.LNK_PEER port) (F.LNK_PEER_VALID.put cap 1)
    let v := s.at (tr.rateAt + 1000000)
    let all := AMap.get tr.own 0 tr.rate &&& AMap.get tr.peer 0 tr.rate &&& s.laneMask port = s.laneMask port
    let full := ∀ i, i < s.width port → 16 ≤ AMap.get good 0 i
    let delays := some (leAt body 10 2, leAt body 12 2)
    port < 1024 →
    (bestChoice cs = some b → b ∈ cs ∧ ∀ c ∈ cs, bw c ≤ bw b) ∧
    (x.train = none → exec (.codewordLock port) s = .next s ∧ exec (.rateMeasurementEnd port) s = .next s ∧
      exec (.trainTimeout port) s = .next s ∧ (lane < 8 → exec (.trainFrame port lane body) s = .next s)) ∧
    (x.train = some tr →
      (tr.step = 1 → s.isEth port = false → ∃ t, exec (.codewordLock port) s = .next t ∧
        (t.port port).train = some { tr with step := 2 } ∧
        ∀ i, i < s.width port → t.isOn (Reg.LNK_LANE_STATUS (port + i)) F.LNK_LANE_STATUS_SIGNAL = true ∧
          t.isOn (Reg.LNK_LANE_STATUS (port + i)) F.LNK_LANE_STATUS_LOCK = true) ∧
      (tr.step = 3 →
        (all → exec (.rateMeasurementEnd port) s = .next (v.choose port tr)) ∧
        (¬ all → (s.commonRates port).find? (fun q => q < tr.rate) = some r →
          exec (.rateMeasurementEnd port) s = .next (v.testRate port tr r)) ∧
        (¬ all → (∀ q ∈ s.commonRates port, tr.rate ≤ q) →
          exec (.rateMeasurementEnd port) s = .next (v.choose port tr))) ∧
      (lane < s.width port → lane < 8 → s.isEth port = false →
        (tr.step = 2 →
          (F.LNK_PEER_WIDTH.get cap ≠ s.widthCode port →
            exec (.trainFrame port lane body) s = .next (u.trainFail port)) ∧
          (F.LNK_PEER_WIDTH.get cap = s.widthCode port → full →
            exec (.trainFrame port lane body) s = .next (u.beginRates port { tr with good := good })) ∧
          (F.LNK_PEER_WIDTH.get cap = s.widthCode port → ¬ full →
            exec (.trainFrame port lane body) s = .next (u.setTrain port { tr with good := good }))) ∧
        (tr.step = 3 → exec (.trainFrame port lane body) s =
          .next (s.setTrain port { tr with peer := AMap.set tr.peer 0 tr.rate (leAt body 9 1) })) ∧
        (tr.step = 4 → 5 ≤ leAt body 8 1 → leAt body 14 1 = tr.result → leAt body 15 1 = tr.offset →
          exec (.trainFrame port lane body) s = .next (s.setTrain port { tr with step := 5, heard := delays })) ∧
        (tr.step = 5 → 5 ≤ leAt body 8 1 → tr.told = true → ∃ t, exec (.trainFrame port lane body) s = .next t ∧
          t.portState port = 3 ∧ t.fld st F.LNK_PORT_STATUS_RATE = bits tr.result 3 2 ∧
          t.fld st F.LNK_PORT_STATUS_VERSION = bits tr.result 1 0 ∧ (t.port port).train = none ∧
          (t.port port).replay = [] ∧ (t.port port).expect = 0 ∧ (t.port port).txSeq = 0)) ∧
      ∃ t, exec (.trainTimeout port) s = .next t ∧ t.now = Nat.max s.now (tr.start + 10000000) ∧ t.portState port = 1 ∧
        t.fld st F.LNK_PORT_STATUS_DOWN_REASON = 9 ∧ (t.port port).train = none ∧ (t.port port).failedAt = some t.now) ∧
    (x.failedAt = some failed → s.portState port = 1 → s.isOn (Reg.LNK_PORT_CFG port) F.LNK_PORT_CFG_ENABLE = true →
      ∃ t, exec (.trainRetry port) s = .next t ∧ t.now = Nat.max s.now (failed + 100000000) ∧ t.portState port = 2) ∧
    (x.failedAt = none → exec (.trainRetry port) s = .next s) ∧
    (s.isEth port = true → s.portState port = 2 → ∃ t, exec (.ethAlignmentLock port) s = .next t ∧ t.portState port = 3 ∧
      t.fld st F.LNK_PORT_STATUS_VERSION = 0 ∧ t.fld st F.LNK_PORT_STATUS_TOFFSET = 0)

/-! ## Routing, flow control and scheduling (chapter 12) -/

/-- PACKET_ROUTE, ESCAPE_ROUTE and PORT_PACKET_START (R416, R424 to R426, R436, R437, R510, R514): the first offered packet that routing decides is assigned its
port, or dropped; no packet is assigned without credit for all its cells, a candidate is taken only if none that qualifies scores
higher, and none climbs twice to an UPWARD port by escape; after RTE_ESC_DELAY a packet may take the escape port on VC7; an UP port with
room starts the head its scheduler picks. Everything is held while a takeover is decided. -/
def Obligations.PacketRouting : Prop :=
  ∀ (s : State) (src : PktSource) (f : Flying) (p vc port : Nat) (e : Word) (g h : Head) (hs : List Head),
    let pool := poolOf vc (h0 f.pkt P.ptype)
    let score (q : Nat) : Int := (credit s q pool : Int) - ((s.port q).waiting : Nat)
    let u := s.retag port
    let soon := hs.foldl (fun m k => Nat.min m k.delay) h.delay
    let v := u.at (u.now + soon)
    let x := v.port port
    sourceOk src = true → port < 1024 →
    (routeNow s f = .to p vc → s.carries p = true ∧ cellsOf f.pkt ≤ credit s p pool ∧
      (look s f.pkt = .entry e → escapeOnly f.pkt = true → p = escPort e ∧ climbs s f p = false) ∧
      (look s f.pkt = .entry e → escapeOnly f.pkt = false → p ∈ candidates e ∧
        ∀ q ∈ candidates e, s.carries q = true → cellsOf f.pkt ≤ credit s q pool → score q ≤ score p)) ∧
    (s.shdState = Shd.deciding → exec (.packetRoute src) s = .next s ∧ exec (.escapeRoute src) s = .next s) ∧
    (s.shdState ≠ Shd.deciding → s.shadow.copies = [] →
      ((s.offered src).find? (fun k => routeNow s k ≠ .wait) = some f →
        exec (.packetRoute src) s = .next (match routeNow s f with
          | .to q c => (s.leaveSource f src).assign f q c
          | .noRoute => (s.leaveSource f src).dropPacket f false
          | .violation => (s.leaveSource f src).dropPacket f true
          | .wait => s)) ∧
      ((∀ k ∈ s.offered src, routeNow s k = .wait) → exec (.packetRoute src) s = .next s)) ∧
    (s.shdState ≠ Shd.deciding → (s.offered src).find? (fun k => routeEscape s k ≠ .wait) = some f →
      routeEscape s f = .to p vc →
      vc = 7 ∧ s.carries p = true ∧ cellsOf f.pkt ≤ credit s p (poolOf 7 (h0 f.pkt P.ptype)) ∧
        ∃ t, exec (.escapeRoute src) s = .next t ∧
          t.now = Nat.max s.now (f.since + s.fld Reg.RTE_ESC_DELAY F.RTE_ESC_DELAY_NS) ∧
          t.fld Reg.RTE_ESC_PKTS F.RTE_ESC_PKTS_COUNT = (s.fld Reg.RTE_ESC_PKTS F.RTE_ESC_PKTS_COUNT + 1) % 2 ^ 64 ∧
          ∃ k ∈ AMap.get (t.port p).outq [] 7, k.pkt = { f.pkt with w0 := P.vc.put f.pkt.w0 7 }) ∧
    (s.shdState ≠ Shd.deciding → (∀ k ∈ s.offered src, routeEscape s k = .wait) →
      exec (.escapeRoute src) s = .next s) ∧
    (s.carries port = true → sumNat ((s.port port).stream.map fun k => k.2.length) < 620 → u.heads port = h :: hs →
      pickHead v port ((h :: hs).filter fun k => k.delay = soon) = some g →
      exec (.portPacketStart port) s = .next (v.startHead port g) ∧
        ((v.startHead port g).port port).stream = x.stream ++ [(g.pkt, packetBytes g.pkt.pkt)] ∧
        AMap.get ((v.startHead port g).port port).outq [] g.vc = (AMap.get x.outq [] g.vc).drop 1) ∧
    (s.carries port = false → exec (.portPacketStart port) s = .next s)

/-- PACKET_ACCEPT (R398, R401, R423, R424, R428, R511, R514): a whole packet accepted at a port of a module that is no shadow is dropped and counted if its header is
bad; counts this module in HOPS; joins its input pool if it is for another module, or goes to its sink. -/
def Obligations.PacketAcceptance : Prop :=
  ∀ (s : State) (port : Nat) (p : Packet) (rest : List Packet),
    let x := s.port port
    let u := s.setPort port { x with arrived := rest }
    let q := entered p
    port < 1024 →
    (x.arrived = [] → exec (.packetAccept port) s = .next s) ∧
    (x.arrived = p :: rest →
      (s.shdState = Shd.deciding → exec (.packetAccept port) s = .next s) ∧
      (s.shdState ≠ Shd.deciding → s.mstate ≠ MState.shadow →
        (badHeader u port q = true → ∃ t, exec (.packetAccept port) s = .next t ∧ (t.port port).arrived = rest ∧
          (t.port port).inq = x.inq ∧ t.flight = s.flight ∧
          t.isOn (Reg.LNK_PORT_FLAGS port) F.LNK_PORT_FLAGS_BADHDR_SEEN = true ∧
          t.fld (Reg.LNK_BADHDR port) F.LNK_BADHDR_COUNT =
            satAdd 32 (s.fld (Reg.LNK_BADHDR port) F.LNK_BADHDR_COUNT) 1) ∧
        (badHeader u port q = false → u.isMine q = false → ∃ t, exec (.packetAccept port) s = .next t ∧
          (t.port port).arrived = rest ∧ t.regs = s.regs ∧ t.hearth = s.hearth ∧
          ∃ k, AMap.get (t.port port).inq [] (packetPool q) = AMap.get x.inq [] (packetPool q) ++ [k] ∧
            k.pkt = q ∧ k.since = s.now) ∧
        (badHeader u port q = false → u.isMine q = true → ¬ (s.shdMode = 1 ∧ s.shdState = Shd.relaying) →
          exec (.packetAccept port) s = .next (u.acceptMine port q))) ∧
      (s.shdState ≠ Shd.deciding → ∃ t, exec (.packetAccept port) s = .next t ∧ t.now = s.now))

/-- FLIP_ARM, EQUINOX_FLIP, DRAIN_END and EP_DATA_ACCESS (R422, R431, R432, R435, R451): a legal arm sets ARMED; the flip at FLIP_AT changes CUR, counts, clears
ARMED and sets DRAINING, which clears RTE_DRAIN later; RTE_EP_DATA reads and writes the entry at INDEX, which rises under INC; the bank
in use cannot be written. -/
def Obligations.EquinoxFlip : Prop :=
  ∀ (s : State) (data : Word),
    let a := Reg.RTE_EPOCH
    let split := s.isOn Reg.RTE_MODE F.RTE_MODE_SPLIT
    let index := s.fld Reg.RTE_EP_SEL F.RTE_EP_SEL_INDEX
    let stored : Word := data &&& 0xFFFFFF00FFFFFF00
    let old := AMap.get s.endpoints 0 index
    let stepped (t : State) : Prop := t.fld Reg.RTE_EP_SEL F.RTE_EP_SEL_INDEX =
      if s.isOn Reg.RTE_EP_SEL F.RTE_EP_SEL_INC then (index + 1) % 65536 else index
    (split = false → s.isOn a F.RTE_EPOCH_ARMED = false → s.isOn a F.RTE_EPOCH_DRAINING = false →
      s.alm + 10000 ≤ s.fld Reg.RTE_FLIP_AT F.RTE_FLIP_AT_COUNT →
      exec .flipArm s = .next ((s.setFld a F.RTE_EPOCH_ARMED 1).completed Code.done 0)) ∧
    (split = true ∨ s.isOn a F.RTE_EPOCH_ARMED = true ∨ s.isOn a F.RTE_EPOCH_DRAINING = true →
      exec .flipArm s = .next (s.completed Code.rejState 0)) ∧
    (s.isOn a F.RTE_EPOCH_ARMED = true → ∃ t, exec .equinoxFlip s = .next t ∧
      t.alm = Nat.max s.alm (s.fld Reg.RTE_FLIP_AT F.RTE_FLIP_AT_COUNT) ∧
      t.fld a F.RTE_EPOCH_CUR = 1 - s.fld a F.RTE_EPOCH_CUR ∧ t.isOn a F.RTE_EPOCH_ARMED = false ∧
      t.isOn a F.RTE_EPOCH_DRAINING = true ∧
      t.fld a F.RTE_EPOCH_FLIPS = (s.fld a F.RTE_EPOCH_FLIPS + 1) % 65536 ∧
      t.drainEnd = t.alm + s.fld Reg.RTE_DRAIN F.RTE_DRAIN_NS ∧ (∀ b, b ≠ a → t.reg b = s.reg b)) ∧
    (s.isOn a F.RTE_EPOCH_ARMED = false → exec .equinoxFlip s = .next s) ∧
    (s.isOn a F.RTE_EPOCH_DRAINING = true →
      exec .drainEnd s = .next ((s.atAlm s.drainEnd).setFld a F.RTE_EPOCH_DRAINING 0)) ∧
    (s.isOn a F.RTE_EPOCH_DRAINING = false → exec .drainEnd s = .next s) ∧
    (∃ t, exec (.epDataAccess false data) s = .next t ∧ t.access = ⟨Code.done, old⟩ ∧ t.endpoints = s.endpoints ∧ stepped t) ∧
    (bankLocked s 0 = false → bankLocked s 1 = false → ∃ t, exec (.epDataAccess true data) s = .next t ∧
      t.access.code = Code.done ∧ AMap.get t.endpoints 0 index = stored ∧
      (∀ i, i ≠ index → AMap.get t.endpoints 0 i = AMap.get s.endpoints 0 i) ∧ stepped t) ∧
    (bankLocked s 0 = true → bits stored.toNat 31 0 ≠ bits old.toNat 31 0 →
      exec (.epDataAccess true data) s = .next (s.completed Code.rejState 0))

/-- MEMRD and MEMWR (R402, R403): a request at a port with MEM_EN and in range, to stacks that can answer, is served and answered with a MEMRSP packet; one
without MEM_EN is answered REJ_PRIV, and one out of range REJ_RANGE, with no effect on memory.
ETH_FRAME and ETH_HOLD_DROP (R405 to R407, R428): a frame of a supported size with a good FCS at an UP Ethernet port is counted and acts by
the first table entry that matches: dropped, queued at an UP Ethernet port, or sent as an ETH packet to another module; one that no
entry matches is counted and dropped; a bad one is dropped; a frame held 1 ms in a transmit queue is dropped. -/
def Obligations.RequestsAndFrames : Prop :=
  (∀ (s : State) (port : Nat) (p : Packet),
     let addr := 64 * h1 p P.maddr
     let n := h1 p P.rdlen
     let len := p.payload.length
     let enabled := s.isOn (Reg.LNK_PORT_CFG (s.entryPort port p)) F.LNK_PORT_CFG_MEM_EN
     let r := s.fabRead addr (64 * n)
     let w := s.fabWrite addr p.payload
     let answer (u : State) (wr : Bool) (code : Nat) (data : List Byte) : State :=
       (u.land p).2.sendOut (.of ((u.land p).2.memResponse p wr code data) none none (u.land p).2.now)
     let q := s.memResponse p false 0 []
     port < 1024 →
     (h0 q P.ptype = 8 ∧ h1 q P.mtoken = h1 p P.mtoken ∧ h1 q P.maddr = h1 p P.maddr ∧ h1 q P.rdlen = n) ∧
     (h0 p P.ptype = 6 →
       (enabled = false → exec (.memrd port p) s = .next (answer s false Code.rejPriv [])) ∧
       (enabled = true → n = 0 ∨ 128 < n ∨ 2 ^ 41 < addr + 64 * n →
         exec (.memrd port p) s = .next (answer s false Code.rejRange [])) ∧
       (enabled = true → 0 < n → n ≤ 128 → addr + 64 * n ≤ 2 ^ 41 → fabSilent s addr (64 * n) = false →
         exec (.memrd port p) s =
           .next (answer r.2 false r.1.1 (if r.1.1 = Code.failMemory then [] else r.1.2)))) ∧
     (h0 p P.ptype = 7 →
       (enabled = false → exec (.memwr port p) s = .next (answer s true Code.rejPriv [])) ∧
       (enabled = true → 2 ^ 41 < addr + len → exec (.memwr port p) s = .next (answer s true Code.rejRange [])) ∧
       (enabled = true → addr + len ≤ 2 ^ 41 → fabSilent s addr len = false →
         exec (.memwr port p) s = .next (answer w.2 true w.1 [])))) ∧
  (∀ (s : State) (port e held : Nat) (frame old : List Byte) (rest : List (Nat × List Byte)),
     let iod := port / 64
     let u := s.bump (Reg.LNK_RX_BYTES port) F.LNK_RX_BYTES_COUNT frame.length
     let w1 := u.reg (Reg.LNK_ETH_FIB_W1 iod e)
     let out := F.LNK_ETH_FIB_W1_PORT.get w1
     let v := u.count (Reg.LNK_ETH_FIB_W1 iod e) F.LNK_ETH_FIB_W1_HITS 1
     let queued := if s.isUp out && s.isEth out then v.ethQueue out frame else v
     let m := F.LNK_ETH_FIB_W1_MODULE.get w1
     let sent : Packet :=
       { w0 := v.originWord 9 4 1 m frame.length, w1 := wordOf [(P.ethPort, out)], payload := frame }
     let d := s.at (held + 1000000)
     port < 1024 →
     (s.isUp port = false ∨ s.isEth port = false ∨ s.mstate = MState.fenced → exec (.ethFrame port frame) s = .next s) ∧
     (s.isUp port = true → s.isEth port = true → s.mstate ≠ MState.fenced →
       (ethOk frame = false →
         exec (.ethFrame port frame) s = .next (s.count (Reg.LNK_ETH_DROPS port) F.LNK_ETH_DROPS_COUNT 1)) ∧
       (ethOk frame = true → beAt frame 12 2 = 0x8808 → exec (.ethFrame port frame) s = .next (u.macControl port frame)) ∧
       (ethOk frame = true → beAt frame 12 2 ≠ 0x8808 →
         (fibMatch u iod frame = none →
           exec (.ethFrame port frame) s = .next (u.count (Reg.LNK_ETH_NOMATCH iod) F.LNK_ETH_NOMATCH_COUNT 1)) ∧
         (fibMatch u iod frame = some e →
           (fibHit u iod frame e = true ∧ ∀ k, k < e → fibHit u iod frame k = false) ∧
           (F.LNK_ETH_FIB_W1_ACTION.get w1 = 0 → exec (.ethFrame port frame) s = .next v) ∧
           (F.LNK_ETH_FIB_W1_ACTION.get w1 = 1 → exec (.ethFrame port frame) s = .next queued) ∧
           (F.LNK_ETH_FIB_W1_ACTION.get w1 = 2 → s.moduleId = some m → exec (.ethFrame port frame) s = .next queued) ∧
           (F.LNK_ETH_FIB_W1_ACTION.get w1 = 2 → s.moduleId ≠ some m → exec (.ethFrame port frame) s =
             .next (v.originate (.of sent none none v.now)))))) ∧
     ((s.port port).ethTx = (held, old) :: rest → ∃ t, exec (.ethHoldDrop port) s = .next t ∧
       t.now = Nat.max s.now (held + 1000000) ∧ (t.port port).ethTx = rest ∧
       t.fld (Reg.RTE_IOD_HOLD_DROPS iod) F.RTE_IOD_HOLD_DROPS_COUNT =
         satAdd 32 (d.fld (Reg.RTE_IOD_HOLD_DROPS iod) F.RTE_IOD_HOLD_DROPS_COUNT) 1) ∧
     ((s.port port).ethTx = [] → exec (.ethHoldDrop port) s = .next s))

/-- DAMPER_REFILL, DAMPER_CONFIG_WRITE and CONGESTION_MAP (R439 to R442, R449 to R451): at the next multiple of its period a Damper's tokens rise by RATE, at most to
BURST; a legal level-0 configuration is stored, and one that is enabled starts with full tokens; a placement change of an enabled Damper and a
period outside 2^4 to 2^20 are refused; an enabled map is written at the next multiple of 2^K and SEQ rises by 1. -/
def Obligations.DampersAndMaps : Prop :=
  ∀ (s : State) (level d : Nat) (data : Word) (r : Row),
    let zero := level = 0
    let cfg := if zero then s.reg (Reg.DMP_L0_CFG d) else s.reg (Reg.DMP_L1_CFG d)
    let tok := if zero then Reg.DMP_L0_TOK d else Reg.DMP_L1_TOK d
    let burst := if zero then s.fld tok F.DMP_L0_TOK_BURST else F.DMP_L1_CFG_BURST.get cfg
    let former := if zero then AMap.get s.damperOld 0 d else 0
    let period := 2 ^ (if former = 0 then F.DMP_L0_CFG_PSHIFT.get cfg else former - 1)
    let a := Reg.DMP_L0_CFG d
    let was := s.isOn a F.DMP_L0_CFG_EN
    let same (f : Fld) : Prop := f.get data = s.fld a f
    let placed := same F.DMP_L0_CFG_EGRESS ∧ same F.DMP_L0_CFG_PORT ∧ same F.DMP_L0_CFG_VCMASK ∧ same F.DMP_L0_CFG_PEN ∧
      same F.DMP_L0_CFG_PARENT
    let shift := F.DMP_L0_CFG_PSHIFT.get data
    let scope := F.DMP_L0_CFG_EGRESS.on data = true ∨
      (F.DMP_L0_CFG_PORT.get data = 0 ∧ F.DMP_L0_CFG_VCMASK.get data = 0)
    let ctl := s.reg Reg.RTE_CMAP_CTL
    ((zero ∧ d < 1024) ∨ (level = 1 ∧ d < 128) → ∃ t, exec (.damperRefill level d) s = .next t ∧
      s.alm ≤ t.alm ∧ t.alm % period = 0 ∧
      (AMap.get s.damperNext 0 (level * 1024 + d) ≤ s.alm → t.alm < s.alm + period) ∧
      t.fld tok F.DMP_L1_TOK_TOKENS = ofSigned 24 (min (burst : Int) (tokensAt s tok + F.DMP_L0_CFG_RATE.get cfg)) ∧
      (∀ b, b ≠ tok → t.reg b = s.reg b) ∧ t.cores = s.cores ∧ t.hearth = s.hearth) ∧
    (d < 1024 → s.spot a 64 = .ok (.reg a r) →
      (¬ was ∨ placed → 4 ≤ shift → shift ≤ 20 → egressClash s d data = false → scope →
        ∃ t, exec (.damperConfigWrite a 64 data) s = .next t ∧ t.access.code = Code.done ∧
          t.reg a = BitVec.ofNat 64 (bits data.toNat 63 36 * 2 ^ 36 + bits data.toNat 20 0) ∧
          (F.DMP_L0_CFG_EN.on data = true → ¬ was →
            t.fld (Reg.DMP_L0_TOK d) F.DMP_L0_TOK_TOKENS = s.fld (Reg.DMP_L0_TOK d) F.DMP_L0_TOK_BURST) ∧
          ∀ b, b ≠ a → b ≠ Reg.DMP_L0_TOK d → t.reg b = s.reg b) ∧
      (was → ¬ placed → exec (.damperConfigWrite a 64 data) s = .next (s.completed Code.rejState 0)) ∧
      (¬ was ∨ placed → shift < 4 ∨ 20 < shift →
        exec (.damperConfigWrite a 64 data) s = .next (s.completed Code.rejRange 0))) ∧
    (F.RTE_CMAP_CTL_EN.on ctl = true → ∃ t, exec .congestionMap s = .next t ∧
      s.alm ≤ t.alm ∧ t.alm % 2 ^ F.RTE_CMAP_CTL_K.get ctl = 0 ∧
      t.fld Reg.RTE_CMAP_SEQ F.RTE_CMAP_SEQ_SEQ = (s.fld Reg.RTE_CMAP_SEQ F.RTE_CMAP_SEQ_SEQ + 1) % 2 ^ 32 ∧
      t.hearth = s.hearth ∧ t.scratch = s.scratch ∧
      ∀ p, p < 1024 → s.isOn (Reg.LNK_PORT_CFG p) F.LNK_PORT_CFG_ENABLE = true → (t.port p).slots = 0) ∧
    (F.RTE_CMAP_CTL_EN.on ctl = false → exec .congestionMap s = .next s)

/-- ADMISSION_GRANT and ADMISSION_TIMEOUT (R447, R448): the oldest waiting injection of an owner whose entry has room and whose Damper passes is
admitted, THROTTLED if its Damper had held it and DEFERRED otherwise; one not admitted within DMP_ADMIT_WAIT is refused; with none waiting
nothing happens. -/
def Obligations.Admission : Prop :=
  ∀ (s : State) (owner a : Nat) (w : AdmitWait) (rest : List AdmitWait),
    let n := cellsIn w.pkts
    let free := admitEntry s owner = some a ∧ admitRoom s a n = true ∧ admitDamper s a = true
    let u := { s with admitQ := rest }.inject owner w.pkts
    let late := { s.at (w.issued + s.fld Reg.DMP_ADMIT_WAIT F.DMP_ADMIT_WAIT_NS) with admitQ := rest }
    (takeFirst (fun x : AdmitWait => x.owner = owner) s.admitQ = none →
      exec (.admissionGrant owner) s = .next s ∧ exec (.admissionTimeout owner) s = .next s) ∧
    (takeFirst (fun x : AdmitWait => x.owner = owner) s.admitQ = some (w, rest) →
      (free ∨ admitEntry s owner = none →
        exec (.admissionGrant owner) s = .next (if w.damped
          then (u.count Reg.DMP_THROTTLES F.DMP_THROTTLES_COUNT 1).tellAdmission w Code.throttled
          else (u.count Reg.DMP_DEFERRALS F.DMP_DEFERRALS_COUNT 1).tellAdmission w Code.deferred)) ∧
      (admitEntry s owner = some a → admitRoom s a n = false → exec (.admissionGrant owner) s = .next s) ∧
      (admitEntry s owner = some a → admitRoom s a n = true → admitDamper s a = false →
        ∃ t, exec (.admissionGrant owner) s = .next t ∧ t.regs = s.regs ∧ t.origin = s.origin ∧
          t.admitQ.map AdmitWait.pkts = s.admitQ.map AdmitWait.pkts) ∧
      exec (.admissionTimeout owner) s =
        .next ((if w.took then late.dropBuffers w.pkts else late).admitRefused.tellAdmission w Code.refusedAdmission))

/-! ## Flues (chapter 13) -/

/-- LOAD, UNLOAD, FLUE_ABORT_CMD, CLEAR, FLUE_LOAD_DONE, FLUE_LAUNCH, QUICK_LAUNCH, FLUE_BUFFER_GRANT, FLUE_BUFFER_TIMEOUT and FLUE_TIMEOUT (R454, R455, R464, R475, R476, R479, R612,
R613): a command that R455 accepts starts or has its effect, and one it does not is refused REJ_STATE; a load ends IDLE with the image
checked, or EMPTY with a code; a judged take of GO that passes opens the next instance, one that fails the check faults the Flue; a failure leaves the Flue FAULTED with its code
and closes the instance. -/
def Obligations.FlueControl : Prop :=
  ∀ (s u v w : State) (f cause code : Nat) (r : FlueRun) (c : FlueCmd) (m : List Byte) (ls : List Nat),
    let cmd := Reg.FLU_CMD
    let a := Reg.FLU_ENTRY f
    let st := s.flueSt f
    let busy := s.isOn cmd F.FLU_CMD_BUSY
    let mode := s.mstate = MState.banked ∨ s.mstate = MState.lit
    let image := (s.flue f).image
    let quick := Im.quick image
    let idle := st = FSt.idle ∧ ∀ x, s.flueCmd = some x → x.flue ≠ f
    let fail := s.flueFail f r code cause
    let go := Reg.SYN_OBJ (goRegion image) (goObj image)
    let b := s.beforeWait (goRegion image) (goObj image) 5 512
    let base := { s.setFld cmd F.FLU_CMD_BUSY 0 with flueCmd := none }
    f < 4096 → code < 256 → cause < 256 →
    (busy = false → st = FSt.empty → mode → ∃ t, exec (.load f) s = .next t ∧ t.access.code = Code.done ∧
      t.flueSt f = FSt.loading ∧ t.isOn cmd F.FLU_CMD_BUSY = true ∧ ∃ x, t.flueCmd = some x ∧ x.flue = f ∧
        x.isLoad = true ∧ x.loc = s.fld Reg.FLU_CMD_LOC F.FLU_CMD_LOC_LOCATOR) ∧
    (busy = true ∨ st ≠ FSt.empty ∨ ¬ mode → exec (.load f) s = .next (s.completed Code.rejState 0)) ∧
    (busy = false → st = FSt.idle ∨ st = FSt.faulted → ∃ t, exec (.unload f) s = .next t ∧ t.access.code = Code.done ∧
      t.isOn cmd F.FLU_CMD_BUSY = true ∧ t.flueCmd = some ⟨f, false, 0, []⟩) ∧
    (busy = true ∨ (st ≠ FSt.idle ∧ st ≠ FSt.faulted) → exec (.unload f) s = .next (s.completed Code.rejState 0)) ∧
    (busy = false → st = FSt.running → (s.flue f).run = some r → ∃ t, exec (.flueAbortCmd f) s = .next t ∧
      t.access.code = Code.done ∧ t.flueSt f = FSt.faulted ∧ (t.flue f).run = none ∧
      t.fld a F.FLU_ENTRY_LAST_STATUS = Code.failAborted) ∧
    (busy = true ∨ st ≠ FSt.running → exec (.flueAbortCmd f) s = .next (s.completed Code.rejState 0)) ∧
    (busy = false → st = FSt.faulted → ∃ t, exec (.clear f) s = .next t ∧ t.access.code = Code.done ∧
      t.flueSt f = FSt.idle ∧ (t.flue f).image = image) ∧
    (busy = true ∨ st ≠ FSt.faulted → exec (.clear f) s = .next (s.completed Code.rejState 0)) ∧
    (s.flueCmd = none → exec .flueLoadDone s = .next s) ∧
    (s.flueCmd = some c → c.flue = f →
      (c.isLoad = true → base.readImage c = ((code, m), v) → ∃ t, exec .flueLoadDone s = .next t ∧ t.flueCmd = v.flueCmd ∧
        t.isOn cmd F.FLU_CMD_BUSY = false ∧ t.fld cmd F.FLU_CMD_STATUS = code ∧
        t.flueSt f = (if Code.family code = 0 then FSt.idle else FSt.empty) ∧
        (Code.family code = 0 → (t.flue f).image = m ∧ (t.flue f).run = none)) ∧
      (c.isLoad = false → ∃ t, exec .flueLoadDone s = .next t ∧ t.flueSt f = FSt.empty ∧ t.flue f = FlueRec.empty ∧
        t.isOn cmd F.FLU_CMD_BUSY = false ∧ t.fld cmd F.FLU_CMD_STATUS = Code.done)) ∧
    (s.takeGo image = (.passes, u) → kindOf (b.reg go) = 2 ∧ tagOf (b.reg go) = bits (Im.go image) 28 25 ∧
      F.SYN_OBJ_FLAG_ERR.on (b.reg go) = false ∧ waitHolds 5 (Im.goVal image) (b.reg go) = true ∧
      u.reg go = takeFrom 5 (Im.goVal image) (b.reg go)) ∧
    (u.openRun f = (r, v) → v.flueSt f = FSt.running ∧ v.instance_ f = (u.instance_ f + 1) % 65536 ∧ r.tick = u.tickNow) ∧
    (idle → quick = false → s.mstate = MState.lit ∨ s.mstate = MState.shadow →
      (s.takeGo image = (.fails, u) → ∃ t, exec (.flueLaunch f) s = .next t ∧ t.flueSt f = FSt.faulted ∧
        t.fld a F.FLU_ENTRY_LAST_STATUS = Code.failMismatch ∧ t.isOn Reg.FLU_STATUS F.FLU_STATUS_MISMATCH_SEEN = true) ∧
      (s.takeGo image = (.waits, u) → exec (.flueLaunch f) s = .next u) ∧
      (s.takeGo image = (.passes, u) → u.openRun f = (r, v) →
        (v.request (flueOwner f) (flueChain image) (Im.minBuf image) true = (some ls, w) →
          exec (.flueLaunch f) s = .next ((w.setRun f { r with held := ls, free := ls }).flueBegin f)) ∧
        (v.request (flueOwner f) (flueChain image) (Im.minBuf image) true = (none, w) →
          exec (.flueLaunch f) s = .next (w.setRun f { r with waiting := true })))) ∧
    (st ≠ FSt.idle → exec (.flueLaunch f) s = .next s ∧ exec (.quickLaunch f) s = .next s) ∧
    (idle → quick = true → mode ∨ s.mstate = MState.shadow ∨ s.mstate = MState.damped →
      ¬ (f = hsFlue s ∧ handshakeReady s f = true) →
      (s.takeGo image = (.fails, u) → ∃ t, exec (.quickLaunch f) s = .next t ∧ t.flueSt f = FSt.faulted ∧
        t.fld a F.FLU_ENTRY_LAST_STATUS = Code.failMismatch) ∧
      (s.takeGo image = (.waits, u) → exec (.quickLaunch f) s = .next u) ∧
      (s.takeGo image = (.passes, u) → exec (.quickLaunch f) s = .next (u.quickOpen f none))) ∧
    ((s.flue f).run = none → exec (.flueBufferGrant f) s = .next s ∧ exec (.flueBufferTimeout f) s = .next s ∧
      exec (.flueTimeout f) s = .next s) ∧
    ((s.flue f).run = some r →
      (earlierDraw s f image r = false → r.waiting = true ∨ r.drawing = true →
        s.request (flueOwner f) (flueChain image) (if r.waiting then Im.minBuf image else 1) false = (some ls, u) →
        exec (.flueBufferGrant f) s =
          .next (if r.waiting
            then (u.setRun f { r with held := r.held ++ ls, free := r.free ++ ls, waited := true, waiting := false,
                                      drawing := false }).flueBegin f
            else (u.setRun f { r with held := r.held ++ ls, free := r.free ++ ls, waited := true, waiting := false,
                                      drawing := false }).flueWork f)) ∧
      (r.waiting = true → exec (.flueBufferTimeout f) s =
        .next ((s.at (r.opened + s.fld Reg.FLU_WAIT F.FLU_WAIT_NS)).flueFail f r Code.refusedPool 0)) ∧
      (r.waiting = false → exec (.flueBufferTimeout f) s = .next s) ∧
      exec (.flueTimeout f) s =
        .next (if quick then (s.at (r.heard + s.fld Reg.FLU_TIMEOUT F.FLU_TIMEOUT_NS)).quickFail f r Code.failTimeout
          else (s.at (r.heard + s.fld Reg.FLU_TIMEOUT F.FLU_TIMEOUT_NS)).flueFail f r Code.failTimeout 0)) ∧
    (Code.family code ≠ 0 → fail.flueSt f = FSt.faulted ∧ fail.fld a F.FLU_ENTRY_LAST_STATUS = code ∧
      fail.fld a F.FLU_ENTRY_CAUSE = cause ∧ (fail.flue f).run = none ∧ (fail.flue f).image = image)

/-- GRANT, RESEND, ABORT, COUNT_MESSAGE, GRANT_REPEAT, PIECE_RESEND_TIMEOUT and FLUE_UNLAUNCHED_MISMATCH (R466, R467, R476 to R479, R488): a message for an open data
instance is acted on, and ends it with FAIL_MISMATCH if it does not match; one for the next instance is held; ABORT ends the instance
with FAIL_ABORTED and its code as CAUSE; a GRANT raises the limit and releases pieces; a piece open for FLU_RESEND is asked for again, three times at most; a
held message whose instance never launches faults the Flue. -/
def Obligations.FlueMessages : Prop :=
  ∀ (s : State) (p : Packet) (r : FlueRun) (l : FLink) (cmd : Instr) (msg g peer seg len : Nat) (down : Bool) (x : FPiece)
    (held : List Packet),
    let f := h1 p P.flue
    let u := (s.land p).2
    let m := (s.flue f).image
    let inst := s.instance_ f
    let c := r.chan l
    let acked := Nat.max c.acked (leAt p.payload 24 8)
    let r1 := { r with heard := s.now }
    let matched := msgGroup p = Im.group m ∧ msgInst p = inst ∧ msgTick p = r.tick
    let t := s.hearMessage f p
    (cmd, msg) ∈ [(Instr.grant p, Msg.grant), (.resend p, Msg.resend), (.abort p, Msg.abort), (.countMessage p, Msg.count)] →
    g < 4096 →
    (h0 p P.ptype = 4 → msgCode p = msg → Im.quick m = false →
      ((s.flue f).run = some r → exec cmd s = .next (u.hearMessage f p)) ∧
      ((s.flue f).run = none → s.flueSt f = FSt.idle → notLaunched s f p = true → ∃ w, exec cmd s = .next w ∧
        (w.flue f).early = (s.flue f).early ++ [p] ∧ (w.flue f).run = none ∧ w.now = s.now) ∧
      ((s.flue f).run = none → s.flueSt f ≠ FSt.idle ∨ notLaunched s f p = false → exec cmd s = .next u)) ∧
    (h0 p P.ptype ≠ 4 ∨ msgCode p ≠ msg ∨ Im.quick m = true → exec cmd s = .next s) ∧
    ((s.flue f).run = some r →
      (msgCode p ≠ Msg.abort → ¬ matched → t = s.flueFail f r Code.failMismatch 0) ∧
      (matched → senderOf m p = none → t = s.flueFail f r Code.failMismatch 0) ∧
      (msgCode p = Msg.abort → msgInst p ≠ inst → (inst + 65536 - msgInst p) % 65536 < 32768 → t = s) ∧
      (matched → senderOf m p = some l →
        (msgCode p = Msg.abort → t = ((s.flag Reg.FLU_STATUS F.FLU_STATUS_ABORT_SEEN).count Reg.FLU_ABORTS
          F.FLU_ABORTS_COUNT 1).flueFail f r1 Code.failAborted (msgStatus p)) ∧
        (msgCode p = Msg.grant → t = (s.setRun f (FlueRun.release s m
          (r1.setChan { c with got := Nat.max c.got (msgLow p), acked := acked }) l acked)).flueWork f) ∧
        (msgCode p = Msg.resend → t = (s.setRun f { r1 with mended := true }).sendAgain f m { r1 with mended := true } l
          (msgLow p)) ∧
        (msgCode p = Msg.count →
          t = (s.setRun f { r1 with counts := AMap.insert r.counts (l.pos + 1) (countsOf m p) }).flueWork f))) ∧
    ((s.flue g).run = none → exec (.grantRepeat g) s = .next s ∧ exec (.pieceResendTimeout g peer seg down) s = .next s) ∧
    ((s.flue g).run = some r → Im.quick (s.flue g).image = false →
      let at_ := s.at (r.grantAt + s.fld Reg.FLU_RESEND F.FLU_RESEND_NS)
      exec (.grantRepeat g) s = .next ((flueLinks (s.flue g).image).foldl (fun w k =>
        if (((w.flue g).run.getD r).chan k).said.isSome then w.sendGrant g k else w)
        (at_.setRun g { r with grantAt := at_.now }))) ∧
    ((s.flue g).run = some r → s.mstate ≠ MState.shadow →
      (flueLinks (s.flue g).image).find? (fun k => k.module = peer && k.down = down && (r.piece k seg).isSome) = some l →
      r.piece l seg = some x → (linkPieces s (s.flue g).image r l false).find? (fun y => y.1 = seg) = some (seg, len) →
      x.bytes < len →
      let at_ := s.at (x.since + s.fld Reg.FLU_RESEND F.FLU_RESEND_NS)
      (3 ≤ x.resends → exec (.pieceResendTimeout g peer seg down) s = .next (at_.flueFail g r Code.failLink 0)) ∧
      (x.resends < 3 → ∃ w, exec (.pieceResendTimeout g peer seg down) s = .next w ∧
        w.isOn Reg.FLU_STATUS F.FLU_STATUS_RESEND_SEEN = true ∧
        w.fld Reg.FLU_RESENDS F.FLU_RESENDS_COUNT = satAdd 32 (s.fld Reg.FLU_RESENDS F.FLU_RESENDS_COUNT) 1 ∧
        ∃ r2, (w.flue g).run = some r2 ∧ r2.piece l seg = some { x with since := at_.now, resends := x.resends + 1 })) ∧
    ((s.flue g).early = p :: held → (s.flue g).run = none → s.flueSt g = FSt.idle →
      ∃ w, exec (.flueUnlaunchedMismatch g) s = .next w ∧ w.flueSt g = FSt.faulted ∧ (w.flue g).early = held ∧
        w.fld (Reg.FLU_ENTRY g) F.FLU_ENTRY_LAST_STATUS = Code.failMismatch ∧
        w.isOn Reg.FLU_STATUS F.FLU_STATUS_MISMATCH_SEEN = true) ∧
    ((s.flue g).early = [] → exec (.flueUnlaunchedMismatch g) s = .next s)

/-- FLUE_CHUNK, HUB_TASK, TASK_TAKEBACK and FLUE_COMPLETE (R465, R467 to R473, R480, R488): a chunk that fits its piece is stored, counted and recorded once, one that does not fit
ends the instance with FAIL_MISMATCH; a hub with a free slot is given its next ready task, once; a task whose output the engine
has signalled is taken back and its output joins the instance; a finished instance completes, and one with a packet refused
admission ends with REFUSED_ADMISSION. -/
def Obligations.FlueWork : Prop :=
  ∀ (s u v : State) (p : Packet) (r : FlueRun) (l : FLink) (f hub seg len idx t q code b : Nat) (st : HubStep) (k : FTask)
    (rest : List FTask) (free : List Nat) (upd : Bool) (parts : List (Nat × List Byte)),
    let m := (s.flue f).image
    let off := 64 * h1 p P.offset
    let cb := chunkBytes m l.down
    let i := off / cb
    let n := p.payload.length
    let x := (r.piece l seg).getD { stage := l.stage, down := l.down, pos := l.pos, seg := seg, got := [],
                                    since := s.now, resends := 0 }
    let again := x.got.any fun g => g.1 = i
    let bad := off % cb ≠ 0 ∨ len < off + n ∨ h1 p P.segLen ≠ len ∨ (again = true ∧ x.resends = 0)
    let mismatch := (s.land p).2.flueFail f r Code.failMismatch 0
    let ps := taskPositions m st
    let addr := Im.stageBase m + q * Im.sStride m
    let out := Im.outBase m + k.slot * Im.oStride m
    let last := k.step + 1 = (hubSteps m).length
    let taken := u.hubRead (Im.hubCore m hub) (if upd then Im.uoutBase m + k.slot * Im.uoStride m else out)
      (chunkElems m k.seg k.idx * (if last then Im.downBytes m else Im.wireBytes m))
    let refused := bitAt (AMap.get s.flueNotes 0 f) 2
    let done := Im.quick m = false ∧ r.waiting = false ∧ mayGrant m r = true ∧ tasksDone m r = true ∧
      ∀ l ∈ flueLinks m, linkDone s m r l = true
    f < 4096 →
    ((s.flue f).run = none → exec (.hubTask f hub) s = .next s ∧ exec (.taskTakeback f hub upd) s = .next s ∧
      exec (.flueComplete f) s = .next s) ∧
    (h1 p P.flue = f → h0 p P.ptype = 3 →
      ((s.flue f).run = none → exec (.flueChunk p) s = .next (s.land p).2) ∧
      ((s.flue f).run = some r → pieceOf s m r p = none → exec (.flueChunk p) s = .next mismatch) ∧
      ((s.flue f).run = some r → pieceOf s m r p = some (l, seg, len) →
        (bad → exec (.flueChunk p) s = .next mismatch) ∧
        (¬ bad → again = true → exec (.flueChunk p) s = .next ((s.land p).2.setRun f { r with heard := s.now })) ∧
        (¬ bad → again = false → s.mstate ≠ MState.shadow → r.free = [] → exec (.flueChunk p) s = .next s) ∧
        (¬ bad → again = false → s.mstate ≠ MState.shadow → r.free = b :: free →
          ∃ (w : State) (r2 : FlueRun), exec (.flueChunk p) s = .next (w.flueWork f) ∧ (w.flue f).run = some r2 ∧ r2.heard = s.now ∧
            r2.piece l seg = some { x with got := x.got ++ [(i, n)] } ∧ r2.held = r.held ∧
            w.fld Reg.FLU_BYTES_IN F.FLU_BYTES_IN_COUNT =
              (s.fld Reg.FLU_BYTES_IN F.FLU_BYTES_IN_COUNT + n) % 2 ^ 64 ∧
            (Im.tasked m = true → l.down = false → (⟨l.stage, l.down, l.pos, seg, i, b, n⟩ : FChunk) ∈ r2.ins) ∧
            (Im.tasked m = false ∨ l.down = true → (⟨resultStep, seg, i, p.payload⟩ : FVal) ∈ r2.vals)))) ∧
    ((s.flue f).run = some r →
      (nextTask m r hub = none ∨ freeSlot m r hub = none → exec (.hubTask f hub) s = .next s) ∧
      (nextTask m r hub = some (t, st, seg, idx) → freeSlot m r hub = some q → Im.tasked m = true → hub < Im.nhub m →
        earlierTask s f m r hub = false → (t, seg, idx) ∉ r.given ∧
        ((ps.zipIdx.foldl (fun (code, s) (pos, j) =>
            let (k, s) := s.copyIn f m t st seg idx (Im.hubCore m hub) (addr + j * Im.cStride m) pos
            (joinCode code k, s)) (Code.done, s)) = (code, u) →
          (Code.family code ≠ 0 → exec (.hubTask f hub) s = .next (u.flueFail f ((u.flue f).run.getD r) code 0)) ∧
          (Code.family code = 0 → ∃ (w : State) (r2 : FlueRun), exec (.hubTask f hub) s = .next (w.flueWork f) ∧ (w.flue f).run = some r2 ∧
            (t, seg, idx) ∈ r2.given ∧ (⟨hub, q, t, seg, idx, false⟩ : FTask) ∈ r2.tasks))) ∧
      (takeFirst (fun y : FTask => y.hub = hub && y.upd = upd) r.tasks = none →
        exec (.taskTakeback f hub upd) s = .next s) ∧
      (takeFirst (fun y : FTask => y.hub = hub && y.upd = upd) r.tasks = some (k, rest) →
        (s.takeHub m hub (if upd then 3 else 1) = (false, u) → exec (.taskTakeback f hub upd) s = .next u) ∧
        (s.takeHub m hub (if upd then 3 else 1) = (true, u) →
          (last ∧ upd = false ∧ Im.kind m = 11 → ∃ w, exec (.taskTakeback f hub upd) s = .next w ∧
            (w.flue f).run = some { r with tasks := rest ++ [{ k with upd := true }] }) ∧
          (¬ (last ∧ upd = false ∧ Im.kind m = 11) → exec (.taskTakeback f hub upd) s =
            .next ((u.setRun f (FlueRun.gain m { r with tasks := rest } k.step k.seg k.idx taken)).flueWork f)))) ∧
      (refused = true → exec (.flueComplete f) s = .next (if Im.quick m then s.quickFail f r Code.refusedAdmission
        else s.flueFail f r Code.refusedAdmission 0)) ∧
      (refused = false → ¬ done → exec (.flueComplete f) s = .next s) ∧
      (refused = false → done → s.resultParts m r = ((code, parts), v) → exec (.flueComplete f) s =
        .next (if Code.family code ≠ 0 then v.flueFail f r code 0
          else v.flueFinish f { r with mended := r.mended || code = Code.corrected } parts)))

/-- QUICK_VALUE, QUICK_DOWN and QUICK_RESEND (R467, R481 to R485): a value from a member of a stage is kept once for its generation and the instance goes as far as its values
allow; one of a finished generation is answered with the down value; the down value ends the instance; a value unanswered for
FLU_QRESEND is sent again three times, then the instance ends with FAIL_TIMEOUT; what R467 calls a mismatch ends it with
FAIL_MISMATCH. -/
def Obligations.QuickPath : Prop :=
  ∀ (s : State) (p : Packet) (g q : Nat) (r : FlueRun) (v : List Nat),
    let f := h1 p P.flue
    let m := (s.flue f).image
    let k := h1 p P.stage
    let gen := h1 p P.gen
    let u := (s.land p).2
    let running := (s.flue f).run.isSome = true ∧ gen = s.gen f
    let good := Im.quick m = true ∧ m ≠ [] ∧ h0 p P.ptype = 4
    let root := Im.pos m k = Im.rootPos m k
    let heard := match (s.flue f).run with
      | some x => u.setRun f { x with heard := s.now }
      | none => u
    let known := (s.flue f).ups.any fun y => y.gen = gen && y.stage = k && y.pos = q
    let value : QVal := ⟨gen, k, q, slotsOf m p.payload, s.now⟩
    let w := s.at (r.sentAt + s.fld Reg.FLU_QRESEND F.FLU_QRESEND_NS)
    g < 4096 →
    (good → h1 p P.down = 0 →
      (quickSender m k p = none → exec (.quickValue p) s = .next (u.quickMismatch f)) ∧
      (quickSender m k p = some q →
        ((s.flue f).last = some (gen, v) → ¬ running → exec (.quickValue p) s =
          .next (u.flueSend f (u.quickPacket m gen k true (Im.entry m (Im.memOff m k) q) v))) ∧
        ((∀ y, (s.flue f).last ≠ some (gen, y)) ∨ running →
          (¬ root ∨ ¬ (running ∨ gen = (s.gen f + 1) % 2 ^ 14) → exec (.quickValue p) s = .next (u.quickMismatch f)) ∧
          (root → running ∨ gen = (s.gen f + 1) % 2 ^ 14 →
            (known = true → exec (.quickValue p) s = .next heard) ∧
            (known = false → exec (.quickValue p) s = .next ((heard.setFlue f
              { heard.flue f with ups := (s.flue f).ups ++ [value] }).quickWork f)))))) ∧
    (good → h1 p P.down = 1 →
      ((s.flue f).run = none → exec (.quickDown p) s = .next u) ∧
      ((s.flue f).run = some r → gen = s.gen f → r.stage = k → quickSender m k p = some (Im.rootPos m k) →
        exec (.quickDown p) s = .next (u.quickEnd f r k (slotsOf m p.payload))) ∧
      ((s.flue f).run = some r → gen = s.gen f → r.stage ≠ k ∨ quickSender m k p ≠ some (Im.rootPos m k) →
        exec (.quickDown p) s = .next (u.quickMismatch f))) ∧
    (¬ good → exec (.quickValue p) s = .next s ∧ exec (.quickDown p) s = .next s) ∧
    ((s.flue g).run = none → exec (.quickResend g) s = .next s) ∧
    ((s.flue g).run = some r → Im.quick (s.flue g).image = true → r.stage ≠ 0 →
      (3 ≤ r.again → exec (.quickResend g) s = .next (w.quickFail g r Code.failTimeout)) ∧
      (r.again < 3 → ∃ t, exec (.quickResend g) s = .next t ∧ t.now = w.now ∧
        (t.flue g).run = some { r with sentAt := w.now, again := r.again + 1, mended := true } ∧
        t.isOn Reg.FLU_STATUS F.FLU_STATUS_RESEND_SEEN = true))

/-! ## Faults, spares, shadowing and replay (chapter 14) -/

/-- HEARTBEAT, HEARTBEAT_TIMEOUT, SPARE_SUBSTITUTE, AUTO_SUBSTITUTE, SUBSTITUTION_DONE and HEALTH_UPDATE (R496, R500 to R508): a unit named STUCK twice in a row, and a heartbeat
missing for 100 µs, is a stall; a substitution that R501 refuses leaves its code in STATUS, another sets BUSY; at its end the slot is IN_USE for
the core, and what NOCOPY loses is lost; at each update the score decays and takes the weighted events, and LEVEL follows its thresholds. -/
def Obligations.SparesAndHealth : Prop :=
  ∀ (s : State) (site die k : Nat) (stuck : List Nat) (data : Word) (c : CoreId) (j : SubJob),
    let before := AMap.get s.stuck [] site
    let a := Reg.HTH_SPARE_CMD die
    let region := F.HTH_SPARE_CMD_REGION.get data
    let core := F.HTH_SPARE_CMD_CORE.get data
    let go := F.HTH_SPARE_CMD_GO.on data
    let refused := subRefused s die region core
    let mayRun := s.mstate = MState.banked ∨ s.mstate = MState.damped ∨ s.mstate = MState.lit
    let wants := s.isOn (Reg.HTH_SPARE_CTL c.die) F.HTH_SPARE_CTL_AUTO = true ∧
      bitAt (s.reg (Reg.HTH_SPARE_MARK c.die c.region)).toNat c.core = true
    let ctl := s.reg Reg.VIG_HEALTH_CTL
    let thr := s.reg Reg.VIG_HEALTH_THR
    let score := nextScore s
    (siteOk site = true →
      (∃ t, exec (.heartbeat site stuck) s = .next t ∧ AMap.get t.beats 0 site = s.now ∧ AMap.get t.stuck [] site = stuck ∧
        (∀ u ∈ stuck, u ∈ before → t.isOn Reg.VIG_REL_STATUS F.VIG_REL_STATUS_STALL_SEEN = true) ∧
        ((∀ u ∈ stuck, u ∉ before) → t.regs = s.regs ∧ t.ash = s.ash) ∧ t.cores = s.cores ∧ t.hearth = s.hearth) ∧
      (∃ t, exec (.heartbeatTimeout site) s = .next t ∧ t.now = Nat.max s.now (AMap.get s.beats 0 site + 100000) ∧
        t.isOn Reg.VIG_REL_STATUS F.VIG_REL_STATUS_STALL_SEEN = true ∧ t.cores = s.cores ∧ t.hearth = s.hearth)) ∧
    (die < 64 →
      (s.isOn a F.HTH_SPARE_CMD_BUSY = true ∨ ¬ mayRun ∨ coreResting s ⟨die, region, core⟩ = false →
        refused = some Code.rejState) ∧
      (s.isOn a F.HTH_SPARE_CMD_BUSY = false → mayRun → coreResting s ⟨die, region, core⟩ = true →
        refused = if 79 < region then some Code.rejRange
          else if (freeSpare s die region).isNone then some Code.rejState else none) ∧
      (go = false → exec (.spareSubstitute die data) s = .next (s.completed Code.done 0)) ∧
      (∀ code, go = true → refused = some code → exec (.spareSubstitute die data) s =
        .next ((s.setFld a F.HTH_SPARE_CMD_STATUS code).completed Code.done 0)) ∧
      (go = true → refused = none → freeSpare s die region = some k →
        ∃ t, exec (.spareSubstitute die data) s = .next t ∧ t.access.code = Code.done ∧
          t.isOn a F.HTH_SPARE_CMD_BUSY = true ∧ (∀ b, b ≠ a → t.reg b = s.reg b) ∧
          t.subJob die = some ⟨region, core, k, F.HTH_SPARE_CMD_NOCOPY.on data, s.now⟩) ∧
      (s.subJob die = none → exec (.substitutionDone die) s = .next s) ∧
      (s.subJob die = some j → j.region < 80 → j.core < 64 → j.slot < 2 →
        let x : CoreId := ⟨die, j.region, j.core⟩
        ∃ t, exec (.substitutionDone die) s = .next t ∧ t.subJob die = none ∧ t.isOn a F.HTH_SPARE_CMD_BUSY = false ∧
          t.fld a F.HTH_SPARE_CMD_STATUS = (if j.nocopy then Code.failStateLost else Code.done) ∧
          slotState t die j.region j.slot = 1 ∧ slotCore t die j.region j.slot = j.core ∧
          (∀ k, k < 2 → k ≠ j.slot → slotState s die j.region k = 1 → slotCore s die j.region k = j.core →
            slotState t die j.region k = 2) ∧
          (j.nocopy = false → t.hearth = s.hearth ∧ t.istore = s.istore ∧ (t.core x).engs = (s.core x).engs) ∧
          (j.nocopy = true → ∀ e, (t.eng x e).st = .halted))) ∧
    (c.ok = true →
      (wants → subRefused s c.die c.region c.core = none → freeSpare s c.die c.region = some k →
        ∃ t, exec (.autoSubstitute c) s = .next t ∧ t.isOn (Reg.HTH_SPARE_CMD c.die) F.HTH_SPARE_CMD_BUSY = true ∧
          t.subJob c.die = some ⟨c.region, c.core, k, false, s.now⟩) ∧
      (¬ wants ∨ (subRefused s c.die c.region c.core).isSome = true → exec (.autoSubstitute c) s = .next s)) ∧
    (F.VIG_HEALTH_CTL_MODE.get ctl % 2 = 1 → ∃ t, exec .healthUpdate s = .next t ∧ s.alm ≤ t.alm ∧
      t.alm % 2 ^ F.VIG_HEALTH_CTL_HK.get ctl = 0 ∧ t.fld Reg.VIG_HEALTH F.VIG_HEALTH_SCORE = score ∧
      t.fld Reg.VIG_HEALTH F.VIG_HEALTH_LEVEL = nextLevel score (F.VIG_HEALTH_THR_WARN.get thr)
        (F.VIG_HEALTH_THR_SUSPECT.get thr) (s.fld Reg.VIG_HEALTH F.VIG_HEALTH_LEVEL) ∧
      t.health = [] ∧ t.late = s.decayLate.late) ∧
    (F.VIG_HEALTH_CTL_MODE.get ctl % 2 = 0 → exec .healthUpdate s = .next s)

/-- MIRROR_PACKET, MIRROR_HOLD_TIMEOUT, MIRROR_STOP, DIGEST, DIGEST_TIMEOUT, TAKEOVER_JUDGE, VERDICT, VERDICT_TIMEOUT and RELAY_END (R510, R513 to R516): a
shadow accepts mirrored packets as its own; a copy held too long ends mirroring; digests final on both sides are compared, and one that
differs, is flagged or is missing for 100 µs ends shadowing; at the takeover tick both sides judge, hold their traffic and exchange verdicts,
and two that are quiet swap roles; a primary that has relayed long enough enters DAMPED. -/
def Obligations.Shadowing : Prop :=
  ∀ (s u : State) (p : Packet) (f : Flying) (rest : List Flying) (port code tick alm : Nat) (fr : Frame) (m : List Byte)
    (d : TickDig) (q : PeerDig) (own peer : Bool) (k : Nat),
    let mirror := s.mirrorPort
    let x := s.port mirror
    let over_ := s.endShadow code tick
    let v := s.sweepDigs
    let take := s.takeTick
    let b := (s.atAlm (tickAt s take)).sweepDigs
    let due := s.isOn Reg.VIG_SHD_TAKE F.VIG_SHD_TAKE_VALID = true ∧ (∀ y, s.shadow.judged = some y → y.1 ≠ take) ∧
      ((s.shdMode = 1 ∧ s.mstate = MState.lit) ∨ s.shadowing = true) ∧ s.shdState = Shd.mirroring
    let r := s.resolveTake
    port < 1024 → code < 256 →
    (s.mstate = MState.shadow → s.shdMode = 2 → exec (.mirrorPacket p) s =
      .next ((s.setPort mirror { x with arrived := removeOne p x.arrived }).acceptMirrored mirror p)) ∧
    (s.mstate ≠ MState.shadow ∨ s.shdMode ≠ 2 → exec (.mirrorPacket p) s = .next s) ∧
    (s.shadow.copies = f :: rest → s.shdMode = 1 → s.shdState = Shd.mirroring →
      ∃ t, exec .mirrorHoldTimeout s = .next t ∧ t.now = Nat.max s.now (f.since + s.fld Reg.VIG_SHD_HOLD F.VIG_SHD_HOLD_NS) ∧
        t.shdState = Shd.ended ∧ t.fld Reg.VIG_SHD_STATUS F.VIG_SHD_STATUS_CODE = Code.failTimeout ∧
        t.shadow.copies = [] ∧ (t.port mirror).ctrl = x.ctrl ++ [ctrlBody 5 [1]]) ∧
    (s.shdMode ≠ 1 ∨ s.shdState ≠ Shd.mirroring ∨ s.shadow.copies = [] → exec .mirrorHoldTimeout s = .next s) ∧
    (s.shadowing = true → over_.shdState = Shd.ended ∧ over_.fld Reg.VIG_SHD_STATUS F.VIG_SHD_STATUS_CODE = code ∧
      over_.fld Reg.VIG_SHD_LAST F.VIG_SHD_LAST_FAIL_TICK = tick % 2 ^ 32 ∧ over_.job.stopped = List.range 64) ∧
    (s.shadowing = false → over_ = s) ∧
    (s.hearMirror port 5 fr = some (u, m) → exec (.mirrorStop port fr) s =
      .next (if leAt m 0 1 = 1 then u.endShadow Code.failTimeout u.tickNow else u)) ∧
    (s.hearMirror port 3 fr = some (u, m) →
      (u.shadowing = false → exec (.digest port fr) s = .next u) ∧
      (u.shadowing = true → leAt m 20 1 = 1 →
        exec (.digest port fr) s = .next (u.endShadow Code.failStateLost (leAt m 0 8))) ∧
      (u.shadowing = true → leAt m 20 1 ≠ 1 → exec (.digest port fr) s =
        .next ({ u with peerDigs := u.peerDigs ++ [⟨leAt m 0 8, leAt m 8 8, leAt m 16 4, u.now⟩] } : State).sweepDigs)) ∧
    (s.isUp port = false → exec (.mirrorStop port fr) s = .next s ∧ exec (.digest port fr) s = .next s ∧
      exec (.verdict port fr) s = .next s) ∧
    (s.digs.find? (fun y => y.tick = q.tick && y.finalAt.isSome) = some d →
      (d.sum = q.sum → d.launched % 2 ^ 32 = q.count →
        (s.compareDig q).fld Reg.VIG_SHD_STATUS F.VIG_SHD_STATUS_MATCHED =
          (s.fld Reg.VIG_SHD_STATUS F.VIG_SHD_STATUS_MATCHED + 1) % 2 ^ 32 ∧
        (s.compareDig q).fld Reg.VIG_SHD_LAST F.VIG_SHD_LAST_LAST_TICK = q.tick % 2 ^ 32) ∧
      (s.shadowing = true → d.sum ≠ q.sum ∨ d.launched % 2 ^ 32 ≠ q.count →
        (s.compareDig q).shdState = Shd.ended ∧
        (s.compareDig q).fld Reg.VIG_SHD_STATUS F.VIG_SHD_STATUS_CODE = Code.failMismatch)) ∧
    (v.shadowing = false → exec (.digestTimeout tick) s = .next v) ∧
    (v.shadowing = true →
      (v.peerDigs.find? (fun y => y.tick = tick) = some q →
        v.digs.find? (fun y => y.tick = tick && y.finalAt.isSome) = none →
        let w := (v.at (q.heard + 100000)).sweepDigs
        exec (.digestTimeout tick) s = .next (if w.peerDigs.contains q then w.endShadow Code.failTimeout tick else w)) ∧
      (v.peerDigs.find? (fun y => y.tick = tick) = none →
        v.digs.find? (fun y => y.tick = tick && y.finalAt.isSome) = some d → exec (.digestTimeout tick) s =
        .next ((v.at (d.finalAt.getD 0 + 100000)).endShadow Code.failStateLost tick))) ∧
    (due → b.shdState = Shd.mirroring → (∀ y, b.shadow.peer = some y → y.1 ≠ take) →
      ∃ t, exec .takeoverJudge s = .next t ∧ t.shdState = Shd.deciding ∧ t.shadow.judged = some (take, b.alm) ∧
        t.shadow.own = some (quiet b take) ∧
        ctrlBody 4 (leBytes 4 (if quiet b take then 1 else 0) ++ leBytes 8 take) ∈ (t.port b.mirrorPort).ctrl) ∧
    (due → b.shdState ≠ Shd.mirroring → exec .takeoverJudge s = .next b) ∧
    (¬ due → exec .takeoverJudge s = .next s) ∧
    (s.shadow.own = some own → s.shadow.peer = some (k, peer) → s.shadow.judged = some (tick, alm) →
      (own = true → peer = true → s.shdMode = 1 → r.shdState = Shd.relaying ∧ r.origin = []) ∧
      (own = true → peer = true → s.shdMode ≠ 1 → s.mstate = MState.shadow →
        r.shdState = Shd.taken ∧ r.mstate = MState.lit) ∧
      (own = false ∨ peer = false → r.shdState = Shd.mirroring ∧ r.mstate = s.mstate ∧
        (s.shdMode = 2 → r.shadow.returning = true ∧ r.origin = []))) ∧
    (s.hearMirror port 4 fr = some (u, m) →
      (leAt m 4 8 ≠ u.takeTick → exec (.verdict port fr) s = .next u) ∧
      (leAt m 4 8 = u.takeTick →
        let w := { u with shadow := { u.shadow with peer := some (leAt m 4 8, leAt m 0 1 = 1) } }
        exec (.verdict port fr) s = .next (if u.shdState = Shd.deciding then w.resolveTake else w))) ∧
    (s.shadow.judged = some (tick, alm) →
      let w := s.atAlm (alm + 2000)
      exec .verdictTimeout s = .next (if s.shdState = Shd.deciding
        then { w with shadow := { w.shadow with peer := some (tick, false) } }.resolveTake else s)) ∧
    (s.shadow.relayEnd = some alm → s.shdMode = 1 → s.shdState = Shd.relaying → s.mstate = MState.lit →
      ∃ t, exec .relayEnd s = .next t ∧ t.mstate = MState.damped ∧ t.shdMode = 0 ∧ t.shdState = Shd.ended ∧
        t.shadow = Shadow.none ∧ t.alm = Nat.max s.alm alm) ∧
    (s.shdMode ≠ 1 ∨ s.shdState ≠ Shd.relaying ∨ s.mstate ≠ MState.lit ∨ s.shadow.relayEnd = none →
      exec .relayEnd s = .next s)

/-- REC_MARK, REC_GAP, REPLAY_INJECT and REPLAY_END (R520 to R524): an enabled recorder that is not frozen writes a MARK record at its head, with the
next sequence number; once there is space after records were lost, a GAP record is made; a replay injects the next recorded packet at
its recorded port, and at its end reports whether any digest differed. -/
def Obligations.RecorderAndReplay : Prop :=
  ∀ (s u : State) (id : Word) (r : Replay) (e : RecEntry) (rest : List RecEntry),
    let mark : RecEntry :=
      { iod := 0, alm := s.alm, port := 0, kind := 1, word3 := id.toNat, content := leBytes 8 (s.reg Reg.ALM_EPOCH).toNat }
    let held := { s with transit := [mark] }
    let size := Nat.max 1 s.recRing.2
    let v := s.sweepDigs
    let open_ := r.digs.filter fun g => toSigned 64 v.tickNow ≤ toSigned 64 g.1 || v.digs.any fun d => d.tick = g.1
    let w := r.digs.foldl (fun x g => x.replayDig g.1 0) v
    let differs := (w.replay.map Replay.differs).getD none
    (s.recording = false → exec (.recMark id) s = .next (s.completed Code.done 0)) ∧
    (s.recording = true → s.recLost = 0 → s.transit = [] → held.writeRec mark = some u →
      exec (.recMark id) s = .next ({ u with transit := [] }.completed Code.done 0) ∧
      u.fld Reg.VIG_REC_SEQ F.VIG_REC_SEQ_COUNT = (s.fld Reg.VIG_REC_SEQ F.VIG_REC_SEQ_COUNT + 1) % 2 ^ 64 ∧
      u.fld Reg.VIG_REC_HEAD F.VIG_REC_HEAD_OFFSET =
        (s.fld Reg.VIG_REC_HEAD F.VIG_REC_HEAD_OFFSET % size + 64) % size ∧
      u.hearth = s.hearth ∧ u.cores = s.cores) ∧
    (s.recording = true → s.recLost = 0 → s.transit = [] → held.writeRec mark = none →
      exec (.recMark id) s = .next (held.completed Code.done 0)) ∧
    (s.transit = [] → s.recLost = 0 ∨ s.recording = false → exec .recGap s = .next s) ∧
    (s.transit = [] → s.recLost ≠ 0 → s.recording = true → ∃ t, exec .recGap s = .next t ∧ t.recLost = 0 ∧
      t.isOn Reg.VIG_REL_STATUS F.VIG_REL_STATUS_REC_GAP_SEEN = true ∧ t.now = s.now) ∧
    (s.replay = some r → r.recs = e :: rest → s.mstate = MState.shadow →
      let x := { s with replay := some { r with recs := rest } }
      exec .replayInject s =
        .next ((x.atAlm (s.epochAt + e.alm - r.epoch)).acceptMine e.port (packetOfBytes e.content))) ∧
    (s.mstate ≠ MState.shadow ∨ s.replay = none → exec .replayInject s = .next s) ∧
    (v.replay = some r →
      (v.mstate ≠ MState.shadow ∨ r.recs ≠ [] ∨ open_ ≠ [] → exec .replayEnd s = .next v) ∧
      (v.mstate = MState.shadow → r.recs = [] → open_ = [] → ∃ t, exec .replayEnd s = .next t ∧ t.replay = none ∧
        t.isOn Reg.VIG_RPL_STATUS F.VIG_RPL_STATUS_DONE = true ∧
        t.fld Reg.VIG_RPL_STATUS F.VIG_RPL_STATUS_CODE =
          (if differs.isSome then Code.failMismatch else Code.done) ∧
        t.fld Reg.VIG_RPL_STATUS F.VIG_RPL_STATUS_MISMATCH_TICK = differs.getD 0 % 2 ^ 32)) ∧
    (v.replay = none → exec .replayEnd s = .next v)

/-! ## The Vigil (chapter 15) -/

/-- The control port, and the commands that only read (R532 to R541, R543, R544, R551, R558 to R560, R565 to R567, R587): a kept response is sent again; a command that
its path or the module's state does not allow, or of the wrong length, completes with its code and has no effect; ID_READ, STATUS_READ,
ALM_READ, LIFE_READ, ATTEST, CERT_READ, CFG_READ, REG_READ and MEM_READ return what R537 to R540 say; an I3C private read takes the
next bytes that are ready, and the common command codes set the address and the interrupt enable. What a command without 48 V, and one that
waits, do is the model's choice (log entries 103 and 104). -/
def Obligations.VigilReads : Prop :=
  ∀ (s : State) (q : Req) (k : Kept) (code o i n len : Nat) (p : Place) (payload : List Byte) (w : Bool) (a m : Nat),
    let every : List (Instr × Nat) := [(.idRead q, 0x01), (.statusRead q, 0x02), (.almRead q, 0x03), (.lifeRead q, 0x04),
      (.fencePort q, 0x05), (.fenceModule q, 0x06), (.domainReset q, 0x07), (.powerDown q, 0x08), (.releasePort q, 0x09),
      (.releaseModule q, 0x0A), (.regRead q, 0x10), (.regWrite q, 0x11), (.memRead q, 0x12), (.memWrite q, 0x13),
      (.powerOn q, 0x20), (.damp q, 0x21), (.bankModule q, 0x22), (.resetModule q, 0x23), (.attest q, 0x30),
      (.certRead q, 0x31), (.cfgInstall q, 0x32), (.cfgRead q, 0x33), (.imgStage q, 0x34)]
    let lengths : List (Instr × Nat × Nat) := [(.idRead q, 0x01, 0), (.statusRead q, 0x02, 8), (.almRead q, 0x03, 0),
      (.lifeRead q, 0x04, 0), (.domainReset q, 0x07, 8), (.powerDown q, 0x08, 0), (.memRead q, 0x12, 16),
      (.powerOn q, 0x20, 0), (.damp q, 0x21, 0), (.bankModule q, 0x22, 0), (.resetModule q, 0x23, 0), (.attest q, 0x30, 32),
      (.certRead q, 0x31, 8), (.cfgRead q, 0x33, 8)]
    let size := q.payload.length
    let open_ (o : Nat) : Prop :=
      s.power.applied = true ∧ s.vigil.kept.find? (fun x => x.answers q) = none ∧ s.gate o q = none
    let t (o : Nat) : State := s.takeReq o q
    let k' : Kept := { path := q.path, tag := q.tag % 65536, smod := q.smod, src := q.src % 65536, opc := o, status := code,
                       payload := payload }
    let cert := leAt q.payload 0 8
    let entries := (t 0x10).regEntries q false 0 (size / 16)
    let r := (t 0x12).readNoting 64 p n
    let one := s.regAccess q w i
    let x := s.i3cNext
    let cut := Nat.min len 1024
    let v := s.vigil
    (∀ c ∈ every,
      (s.power.applied = false → exec c.1 s = .next s) ∧
      (s.power.applied = true → s.vigil.kept.find? (fun x => x.answers q) = some k →
        exec c.1 s = .next ((t c.2).sendResponse k)) ∧
      (s.power.applied = true → s.vigil.kept.find? (fun x => x.answers q) = none → s.gate c.2 q = some code →
        exec c.1 s = .next ((t c.2).respond c.2 q code (if c.2 = 0x10 ∨ c.2 = 0x11 then List.replicate 8 0 else [])))) ∧
    (∀ c ∈ lengths, open_ c.2.1 → size ≠ c.2.2 → exec c.1 s = .next ((t c.2.1).respond c.2.1 q Code.rejFormat [])) ∧
    (q.path = .inband → s.isOn Reg.VIG_INBAND_CTL F.VIG_INBAND_CTL_EN = false → s.gate o q = some Code.rejPriv) ∧
    (q.path = .inband → o ∈ [0x07, 0x08, 0x11, 0x13, 0x20, 0x21, 0x22, 0x23, 0x32, 0x33, 0x34] →
      s.gate o q = some Code.rejPriv) ∧
    (q.path ≠ .inband → (acceptedIn o).getD s.mstate false = false → s.gate o q = some Code.rejState) ∧
    (∃ u : State, s.respond o q code payload = u.sendResponse k' ∧ k' ∈ u.vigil.kept ∧ k'.answers q = true ∧
      u.hearth = s.hearth ∧ u.cores = s.cores ∧
      (Code.family code = 2 → u.fld Reg.VIG_CMD_REJECTS F.VIG_CMD_REJECTS_COUNT =
        satAdd 32 (s.fld Reg.VIG_CMD_REJECTS F.VIG_CMD_REJECTS_COUNT) 1) ∧
      (Code.family code ≠ 2 → u.regs = s.regs)) ∧
    (k.path = .i3c → (s.sendResponse k).vigil.i3cReady = s.vigil.i3cReady ++ [k]) ∧
    (k.path = .ihlyelA ∨ k.path = .ihlyelB → s.sendResponse k = s) ∧
    (open_ 0x01 → size = 0 → exec (.idRead q) s = .next ((t 0x01).respond 0x01 q Code.done (t 0x01).idRecord)) ∧
    (open_ 0x02 → size = 8 → exec (.statusRead q) s =
      .next ((t 0x02).respond 0x02 q Code.done ((t 0x02).statusBytes (leAt q.payload 0 8)))) ∧
    (open_ 0x03 → size = 0 → exec (.almRead q) s =
      .next ((t 0x03).respond 0x03 q Code.done (leBytes 8 s.alm ++ leBytes 8 (s.reg Reg.ALM_STATUS).toNat))) ∧
    (open_ 0x04 → size = 0 → exec (.lifeRead q) s =
      .next ((t 0x04).countSeconds.respond 0x04 q Code.done (t 0x04).countSeconds.lifeBytes)) ∧
    (open_ 0x30 → size = 32 → exec (.attest q) s =
      .next ((t 0x30).respond 0x30 q Code.done ((t 0x30).attestReport q.payload))) ∧
    (open_ 0x31 → size = 8 → exec (.certRead q) s =
      .next (if bits cert 1 0 = 3 ∨ bits cert 47 32 < 1 ∨ 1000 < bits cert 47 32 then (t 0x31).respond 0x31 q Code.rejRange []
        else (t 0x31).respond 0x31 q Code.done (certBytes (bits cert 1 0) (bits cert 31 8) (bits cert 47 32)))) ∧
    (open_ 0x33 → size = 8 → exec (.cfgRead q) s =
      .next ((t 0x33).respond 0x33 q Code.done (AMap.get s.vigil.records [] (leAt q.payload 0 1)))) ∧
    (open_ 0x10 →
      (regSize size = true → exec (.regRead q) s = .next (entries.2.2.respond 0x10 q entries.1
        (leBytes 8 entries.2.1.length ++ entries.2.1.flatMap fun y => leBytes 8 y.toNat))) ∧
      (regSize size = false → exec (.regRead q) s =
        .next ((t 0x10).respond 0x10 q Code.rejFormat (List.replicate 8 0)))) ∧
    (Code.family one.1 ≠ 0 → s.regEntries q w i (n + 1) = (one.1, [], one.2.2)) ∧
    (Code.family one.1 = 0 → (s.regEntries q w i (n + 1)).2.1 = one.2.1 :: (one.2.2.regEntries q w (i + 1) n).2.1) ∧
    (regEntry q i = (a, m) → a < 2 ^ 40 → one = if w = true
      then (let y := s.mgmtWrite (q.path = .inband) a 32 (BitVec.ofNat 64 m); (y.1, 0, y.2)) else s.mgmtRead a 32) ∧
    (open_ 0x12 → size = 16 →
      ((t 0x12).memPlace q false = .error code → exec (.memRead q) s = .next ((t 0x12).respond 0x12 q code [])) ∧
      ((t 0x12).memPlace q false = .ok (p, n) → silent (t 0x12) p n = true → exec (.memRead q) s = .next s) ∧
      ((t 0x12).memPlace q false = .ok (p, n) → silent (t 0x12) p n = false → exec (.memRead q) s =
        .next (r.2.respond 0x12 q r.1.1 (if Code.family r.1.1 = 0 then r.1.2 else [])))) ∧
    (∃ u, exec (.i3cResponseRead len) s = .next u ∧ u.vigil.i3cReport = x.1.take cut ∧ u.vigil.i3cOut = x.1.drop cut ∧
      u.vigil.i3cReady = x.2.vigil.i3cReady ∧ u.reports = x.2.reports ∧ u.regs = s.regs ∧ u.now = s.now) ∧
    (v.i3cOut ≠ [] → x = (v.i3cOut, s)) ∧
    (∀ rest, v.i3cOut = [] → v.i3cReady = k :: rest → x.1 = k.bytes ∧ x.2.vigil.i3cReady = rest ∧ x.2.reports = s.reports) ∧
    (∀ e rest, v.i3cOut = [] → v.i3cReady = [] → s.reports = e :: rest → x.1 = reportBytes e ∧ x.2.reports = rest) ∧
    (∀ c : Ccc, ∃ u, exec (.i3cCcc c) s = .next u ∧ u.regs = s.regs ∧ u.vigil.i3cReady = v.i3cReady ∧
      (∀ b, c = .enec b → b % 2 = 1 → u.vigil.i3cIbi = true) ∧
      (∀ b, c = .disec b → b % 2 = 1 → u.vigil.i3cIbi = false) ∧
      (c = .rstdaa → u.vigil.i3cAddr = none) ∧
      (∀ b, c = .entdaa b → v.i3cAddr = none → u.vigil.i3cAddr = some (b % 128)) ∧
      (∀ b, c = .setdasa 0x31 b → v.i3cAddr = none → u.vigil.i3cAddr = some (b % 128)))

/-- Each command of the control port is accepted only in the module states that R543 marks, numbered from COLD, 0, to FENCED, 6; in any other
it completes with REJ_STATE and has no effect. REJ_PRIV is judged first (R544). -/
def Obligations.CommandStates : Prop :=
  ∀ (s : State) (q : Req),
    let table : List (Instr × Nat × List Nat) := [
      (.idRead q, 0x01, [0, 1, 2, 3, 4, 5, 6]), (.statusRead q, 0x02, [0, 1, 2, 3, 4, 5, 6]),
      (.almRead q, 0x03, [0, 1, 2, 3, 4, 5, 6]), (.lifeRead q, 0x04, [0, 1, 2, 3, 4, 5, 6]),
      (.attest q, 0x30, [0, 1, 2, 3, 4, 5, 6]), (.certRead q, 0x31, [0, 1, 2, 3, 4, 5, 6]),
      (.cfgRead q, 0x33, [0, 1, 2, 3, 4, 5, 6]), (.fencePort q, 0x05, [2, 3, 4, 5]), (.releasePort q, 0x09, [2, 3, 4, 5]),
      (.fenceModule q, 0x06, [2, 3, 4, 5]), (.releaseModule q, 0x0A, [6]), (.domainReset q, 0x07, [1, 2, 5, 6]),
      (.resetModule q, 0x23, [1, 2, 5, 6]), (.cfgInstall q, 0x32, [1, 2, 5, 6]), (.imgStage q, 0x34, [1, 2, 5, 6]),
      (.powerDown q, 0x08, [1, 2, 3, 4, 5, 6]), (.regRead q, 0x10, [1, 2, 3, 4, 5, 6]),
      (.regWrite q, 0x11, [2, 3, 4, 5, 6]), (.memRead q, 0x12, [2, 3, 4, 5, 6]), (.memWrite q, 0x13, [2, 3, 4, 5, 6]),
      (.powerOn q, 0x20, [0]), (.damp q, 0x21, [3, 4]), (.bankModule q, 0x22, [5])]
    s.power.applied = true → s.vigil.kept.find? (fun x => x.answers q) = none →
    ∀ x ∈ table, (q.path = .inband → inbandOk s x.2.1 = true) →
      (s.mstate ∉ x.2.2 → exec x.1 s = .next ((s.takeReq x.2.1 q).respond x.2.1 q Code.rejState
        (if x.2.1 = 0x10 ∨ x.2.1 = 0x11 then List.replicate 8 0 else []))) ∧
      (s.mstate ∈ x.2.2 → s.vigil.romOnly = false → (q.path = .i3c → q.payload.length ≤ 240) → s.gate x.2.1 q = none)

/-- FENCE_PORT, FENCE_MODULE, RELEASE_PORT, RELEASE_MODULE, DAMP and BANK (R396, R517 to R519, R545 to R548): a quorum request is accepted only for this
module, with its nonce, in time and with K good signatures; an accepted one increments NONCE and has its effect, another is counted,
logged and answered with its code; a module fence takes the enabled Jorvief ports and the module to FENCED, its release to BANKED;
DAMP leaves DAMPED, and BANK BANKED only where every engine is HALTED or FAULTED and no Flue or save runs. -/
def Obligations.QuorumCommands : Prop :=
  ∀ (s : State) (q : Req) (code p : Nat),
    let b := q.payload
    let four : List (Instr × Nat × Nat) :=
      [(.fenceModule q, 0x06, 1), (.fencePort q, 0x05, 2), (.releasePort q, 0x09, 3), (.releaseModule q, 0x0A, 4)]
    let open_ (o : Nat) : Prop :=
      s.power.applied = true ∧ s.vigil.kept.find? (fun x => x.answers q) = none ∧ s.gate o q = none
    let t (o : Nat) : State := s.takeReq o q
    let formed (op : Nat) : Prop := 32 ≤ b.length ∧ b.length = 32 + 72 * Q.nsig b ∧ Q.op b = op
    let u (o : Nat) : State := (t o).bump Reg.VIG_QNONCE F.VIG_QNONCE_NONCE 1
    let port := Q.port b
    let fenced := (u 0x05).fencePort port
    let released := (u 0x09).releasePort port
    let pin := s.isOn Reg.VIG_STATE F.VIG_STATE_FENCE_PIN
    let down : State := if s.mstate = MState.shadow
      then ((t 0x21).setShd Shd.ended).setFld Reg.VIG_SHD_STATUS F.VIG_SHD_STATUS_CODE Code.failAborted else t 0x21
    let f := s.enterFenced
    (∀ c ∈ four, open_ c.2.1 → (c.2.2 = 4 → pin = false) →
      (¬ formed c.2.2 → exec c.1 s = .next ((t c.2.1).respond c.2.1 q Code.rejFormat [])) ∧
      (formed c.2.2 → quorumCode (t c.2.1) b = some code → exec c.1 s =
        .next ((((t c.2.1).count Reg.VIG_QREJECTS F.VIG_QREJECTS_COUNT 1).logAt AClass.control code s.leadSite 0x20 0
          []).respond c.2.1 q code [])) ∧
      (formed c.2.2 → quorumCode (t c.2.1) b = none → (u c.2.1).fld Reg.VIG_QNONCE F.VIG_QNONCE_NONCE =
        (s.fld Reg.VIG_QNONCE F.VIG_QNONCE_NONCE + 1) % 2 ^ 64)) ∧
    (quorumCode s b = none → s.moduleId = some (Q.module b) ∧ Q.nonce b = s.fld Reg.VIG_QNONCE F.VIG_QNONCE_NONCE ∧
      s.alm ≤ Q.expiry b ∧ s.qk ≤ quorumVotes s b ∧ s.qn ≠ 0 ∧ 1 ≤ Q.nsig b ∧ Q.nsig b ≤ 7 ∧
      (Q.op b = 2 ∨ Q.op b = 3 → s.widthCode (Q.port b) ≠ 0)) ∧
    (open_ 0x06 → formed 1 → quorumCode (t 0x06) b = none → exec (.fenceModule q) s =
      .next (((u 0x06).enterFenced.setFld Reg.VIG_STATE F.VIG_STATE_FENCE_CMD 1).respond 0x06 q Code.done [])) ∧
    (open_ 0x05 → formed 2 → quorumCode (t 0x05) b = none → ∃ v : State,
      exec (.fencePort q) s = .next (v.respond 0x05 q Code.done []) ∧ v.regs = fenced.regs ∧ v.ports = fenced.ports ∧
      port ∈ v.vigil.fencedPorts ∧ v.portState port = 4) ∧
    (open_ 0x09 → formed 3 → quorumCode (t 0x09) b = none → ∃ v : State,
      exec (.releasePort q) s = .next (v.respond 0x09 q Code.done []) ∧ v.regs = released.regs ∧
      v.ports = released.ports ∧ port ∉ v.vigil.fencedPorts) ∧
    (s.portState p = 4 → s.isOn (Reg.LNK_PORT_CFG p) F.LNK_PORT_CFG_ENABLE = false → (s.releasePort p).portState p = 0) ∧
    (s.portState p ≠ 4 → s.releasePort p = s) ∧
    (open_ 0x0A → pin = true → exec (.releaseModule q) s = .next ((t 0x0A).respond 0x0A q Code.rejState [])) ∧
    (open_ 0x0A → pin = false → formed 4 → quorumCode (t 0x0A) b = none → exec (.releaseModule q) s =
      .next ((u 0x0A).releaseModule.respond 0x0A q Code.done [])) ∧
    (f.mstate = MState.fenced ∧ ∀ x ∈ s.jorviefPorts, f.portState x = 4) ∧
    (s.releaseModule.mstate = MState.banked ∧ s.releaseModule.isOn Reg.VIG_STATE F.VIG_STATE_FENCE_CMD = false) ∧
    (open_ 0x21 → b.length = 0 → exec (.damp q) s = .next (down.enterDamped.respond 0x21 q Code.done [])) ∧
    (s.enterDamped.mstate = MState.damped ∧ s.enterDamped.job.stopped = List.range 64) ∧
    (open_ 0x22 → b.length = 0 →
      (bankReady s = true → exec (.bankModule q) s =
        .next (((t 0x22).setMState MState.banked).respond 0x22 q Code.done [])) ∧
      (bankReady s = false → exec (.bankModule q) s = .next ((t 0x22).respond 0x22 q Code.rejState []))) ∧
    (bankReady s = true → ∀ (c : CoreId) (e : Cls), (s.eng c e).st = .halted ∨ (s.eng c e).st = .faulted)

/-- DOMAIN_RESET, DOMAIN_RELEASE, POWER_DOWN, POWER_ON, RESET_MODULE, REG_WRITE, MEM_WRITE, CFG_INSTALL and IMG_STAGE (R539, R540, R550 to R552, R555,
R557, R561 to R563, R577, R578): a reset domain is held until its release, its registers reset and its memory zero; power-down loses everything but
the Vigil islands' state; Kindling begins at stage 1; entries are written in order until one fails; a record that passes every check is
stored, and takes effect; an image that passes is stored in the inactive slot of its type. -/
def Obligations.ControlCommands : Prop :=
  ∀ (s : State) (q : Req) (site a n code triggers : Nat) (c : CoreId) (p : Place) (g : Staging),
    let b := q.payload
    let open_ (o : Nat) : Prop :=
      s.power.applied = true ∧ s.vigil.kept.find? (fun x => x.answers q) = none ∧ s.gate o q = none
    let t (o : Nat) : State := s.takeReq o q
    let w := leAt b 0 8
    let cleared := s.resetSite site
    let cold := s.goCold triggers
    let kindle := s.kindle
    let entries := (t 0x11).regEntries q true 0 (b.length / 16)
    let written := (t 0x13).placeWrite 64 p (slice b 64 n)
    let x := t 0x32
    let record := firstCode [
      (badRecord b, Code.rejFormat),
      (Cr.rtype b = 4 && !Config.gradeE, Code.rejState),
      (Cr.rtype b = 1 && Cr.keysrc b = 2 && (s.mstate ≠ MState.banked || q.path = .inband), Code.rejPriv),
      (rangeRecord x b, Code.rejRange),
      (!recordSigned x b, Code.rejSignature)]
    let stored := ({ x with vigil := { x.vigil with records := AMap.set x.vigil.records [] (Cr.rtype b) b } } :
      State).recordEffect b
    let type := leAt b 0 1
    let off := leAt b 8 4
    let total := leAt b 12 4
    let final := leAt b 16 1
    let badChunk := type < 1 ∨ 4 < type ∨ anyByte b 1 7 = true ∨ 1 < final ∨ anyByte b 17 47 = true
    let chunk := (t 0x34).stageChunk b
    let y := s.stageChunk b
    let passed := imageCode s type (b.drop 64)
    let slot := 2 * (type - 1) + (1 - s.activeSlot type)
    (open_ 0x07 → b.length = 8 →
      (256 ≤ w → exec (.domainReset q) s = .next ((t 0x07).respond 0x07 q Code.rejFormat [])) ∧
      (w < 256 → siteOk w = false → exec (.domainReset q) s = .next ((t 0x07).respond 0x07 q Code.rejRange [])) ∧
      (w = site → siteOk site = true → pendingReset s q = false → ∃ v : State, exec (.domainReset q) s = .next v ∧
        site ∈ v.inReset ∧ v.vigil.resets = s.vigil.resets ++ [(site, q, s.now)] ∧
        v.regs = ((t 0x07).resetSite site).regs ∧ v.cores = ((t 0x07).resetSite site).cores ∧
        v.hearth = ((t 0x07).resetSite site).hearth ∧ v.fabric = ((t 0x07).resetSite site).fabric)) ∧
    (siteOk site = true → ∃ v : State, exec (.domainRelease site) s =
      .next ((s.vigil.resets.filter fun z => z.1 = site).foldl (fun u z => u.respond 0x07 z.2.1 Code.done []) v) ∧
      site ∉ v.inReset ∧ (∀ z ∈ v.vigil.resets, z.1 ≠ site) ∧
      (site ∈ s.inReset → v.regs = cleared.regs ∧ v.cores = cleared.cores ∧ v.hearth = cleared.hearth ∧
        v.fabric = cleared.fabric) ∧
      (site ∉ s.inReset → v.regs = s.regs ∧ v.cores = s.cores ∧ v.hearth = s.hearth ∧ v.fabric = s.fabric)) ∧
    (siteOk site = false → exec (.domainRelease site) s = .refused .noSuchUnit) ∧
    (c.ok = true → a + n ≤ 0x20000 →
      (c.die = site → cleared.hread c a n = List.replicate n 0 ∧ cleared.core c = Core.idle) ∧
      (site < 0x40 → c.die ≠ site → cleared.hread c a n = s.hread c a n)) ∧
    (0x80 ≤ site → siteOk site = true →
      cleared.fread a 1 = if stackOf (a / 512) = site - 0x80 then [0] else s.fread a 1) ∧
    (open_ 0x08 → b.length = 0 → exec (.powerDown q) s = .next (((t 0x08).goCold 1).respond 0x08 q Code.done [])) ∧
    (cold.mstate = MState.cold ∧ cold.hearth = [] ∧ cold.istore = [] ∧ cold.scratch = [] ∧ cold.fabric = [] ∧
      cold.cores = [] ∧ cold.flues = [] ∧ cold.power.triggers = triggers ∧ cold.lifeKept.head? = some cold.life ∧
      cold.now = s.now) ∧
    (kindle.mstate = MState.kindling ∧ kindle.kindling = true ∧
      kindle.fld Reg.VIG_BOOT_STATUS F.VIG_BOOT_STATUS_STAGE = 1 ∧ kindle.hearth = [] ∧ kindle.istore = [] ∧
      kindle.scratch = [] ∧ kindle.fabric = [] ∧ kindle.cores = [] ∧ kindle.flues = [] ∧ kindle.vigil.staged = 0) ∧
    (open_ 0x20 → b.length = 0 →
      (mayPowerOn s = true → exec (.powerOn q) s = .next ((t 0x20).kindle.respond 0x20 q Code.done [])) ∧
      (mayPowerOn s = false → exec (.powerOn q) s = .next ((t 0x20).respond 0x20 q Code.rejState []))) ∧
    (s.power.triggers = 1 → mayPowerOn s = !s.isOn Reg.VIG_STATE F.VIG_STATE_PWROFF_PIN) ∧
    (s.power.triggers = 2 ∨ s.power.triggers = 4 → mayPowerOn s = false) ∧ (s.power.triggers = 8 → mayPowerOn s = true) ∧
    (s.power.triggers = 16 ∨ s.power.triggers = 32 → mayPowerOn s = coolantOk s) ∧
    (open_ 0x23 → b.length = 0 → exec (.resetModule q) s = .next ((t 0x23).kindle.respond 0x23 q Code.done [])) ∧
    (open_ 0x11 →
      (regSize b.length = true → exec (.regWrite q) s =
        .next (entries.2.2.respond 0x11 q entries.1 (leBytes 8 entries.2.1.length))) ∧
      (regSize b.length = false → exec (.regWrite q) s =
        .next ((t 0x11).respond 0x11 q Code.rejFormat (List.replicate 8 0)))) ∧
    (open_ 0x13 →
      (b.length < 64 → exec (.memWrite q) s = .next ((t 0x13).respond 0x13 q Code.rejFormat [])) ∧
      (64 ≤ b.length → (t 0x13).memPlace q true = .error code →
        exec (.memWrite q) s = .next ((t 0x13).respond 0x13 q code [])) ∧
      (64 ≤ b.length → (t 0x13).memPlace q true = .ok (p, n) → silent (t 0x13) p n = true →
        exec (.memWrite q) s = .next s) ∧
      (64 ≤ b.length → (t 0x13).memPlace q true = .ok (p, n) → silent (t 0x13) p n = false →
        exec (.memWrite q) s = .next (written.2.respond 0x13 q written.1 []))) ∧
    (open_ 0x32 →
      (record = some code → exec (.cfgInstall q) s = .next (x.respond 0x32 q code [])) ∧
      (record = none → exec (.cfgInstall q) s = .next (stored.respond 0x32 q Code.done []))) ∧
    (AMap.get stored.vigil.records [] (Cr.rtype b) = b ∧
      (Cr.rtype b = 1 → stored.isOn Reg.VIG_IDENT F.VIG_IDENT_OWNER = true) ∧
      (Cr.rtype b = 2 → stored.qn = leAt b 128 1 % 16 ∧ stored.qk = leAt b 129 1 % 16) ∧
      (Cr.rtype b = 6 → stored.vigil.revoked = s.vigil.revoked ||| (leAt b 128 1 % 16))) ∧
    (open_ 0x34 →
      (b.length < 64 ∨ badChunk → exec (.imgStage q) s = .next ((t 0x34).respond 0x34 q Code.rejFormat [])) ∧
      (64 ≤ b.length → ¬ badChunk → exec (.imgStage q) s = .next (chunk.2.respond 0x34 q chunk.1 []))) ∧
    (off = 0 → final = 0 → y.1 = Code.done ∧ y.2.vigil.staging = some ⟨type, total, b.drop 64⟩) ∧
    (off ≠ 0 → final = 0 → s.vigil.staging = some g → g.type = type → g.total = total → g.bytes.length = off →
      y.1 = Code.done ∧ y.2.vigil.staging = some ⟨type, total, g.bytes ++ b.drop 64⟩) ∧
    (off ≠ 0 → (∀ z, s.vigil.staging = some z → z.bytes.length ≠ off) →
      y.1 = Code.rejRange ∧ y.2.vigil.staging = none) ∧
    (off = 0 → final ≠ 0 → (b.drop 64).length = total → 1 ≤ type → y.1 = passed.getD Code.done ∧
      AMap.get y.2.vigil.images [] slot = if passed = none then b.drop 64 else AMap.get s.vigil.images [] slot)

/-! ## Pins, Kindling and power (chapters 15 and 16) -/

/-- FENCE_N, PWR_OFF_N, POWER_APPLY, SUPPLY_RECOVERY, KINDLING_DONE, KINDLING_STAGE_TIMEOUT, KINDLING_IMAGE_FAILURE, VIGIL_FAILOVER and BACKUP_VIGIL_LOST (R542,
R550, R552 to R554, R564, R578): each pin shows in VIG_STATE, fences a module that may be fenced or powers it down; Kindling ends BANKED, or FENCED
with FENCE_N low, with memories zero and registers reset, or stops at the stage that fails; the backup Vigil takes the lead once. -/
def Obligations.PinsAndKindling : Prop :=
  ∀ (s : State) (level : Bool) (r : KindlingReport) (stage type a : Nat),
    let st := Reg.VIG_STATE
    let boot := Reg.VIG_BOOT_STATUS
    let fence := s.setFld st F.VIG_STATE_FENCE_PIN (if level then 0 else 1)
    let power := s.setFld st F.VIG_STATE_PWROFF_PIN (if level then 0 else 1)
    let off := s.isOn st F.VIG_STATE_PWROFF_PIN
    let m := s.mstate
    let trig := s.power.triggers
    let up := s.islandsUp
    let lead8 := s.leadSite = 0x48 ∨ s.vigil.spareLost = true
    exec (.fenceN level) s = .next (if level = false ∧ 2 ≤ m ∧ m ≤ 5 then fence.enterFenced else fence) ∧
    exec (.pwrOffN level) s = .next (if level = false ∧ m ≠ MState.cold then power.goCold 1 else power) ∧
    (m ≠ MState.cold → exec .powerApply s = .next s) ∧
    (m = MState.cold → exec .powerApply s = .next (if trig ≤ 1 ∧ off = false then up.kindle else up)) ∧
    (up.ash = [] ∧ up.vigil.kept = [] ∧ up.power.applied = true ∧ up.reg Reg.VIG_ASH_HEAD = regReset Reg.VIG_ASH_HEAD) ∧
    (m = MState.cold → trig ∈ [2, 4, 6] → off = false → exec .supplyRecovery s = .next (s.at (s.now + 100000000)).kindle) ∧
    (m ≠ MState.cold ∨ trig ∉ [2, 4, 6] ∧ trig < 64 ∨ off = true → exec .supplyRecovery s = .next s) ∧
    (a ∉ keptRegs → s.clearAll.reg a = regReset a) ∧
    (s.kindling = false ∨ 800 < r.milliseconds → exec (.kindlingDone r) s = .next s) ∧
    (s.kindling = true → r.milliseconds ≤ 800 → ∃ t, exec (.kindlingDone r) s = .next t ∧
      t.now = Nat.max s.now (s.vigil.stageAt + r.milliseconds * 1000000) ∧ t.alm = 0 ∧ t.hearth = [] ∧ t.istore = [] ∧
      t.scratch = [] ∧ t.fabric = [] ∧ t.cores = [] ∧ t.fld boot F.VIG_BOOT_STATUS_STAGE = 6 ∧
      t.fld boot F.VIG_BOOT_STATUS_MS = r.milliseconds ∧ t.leadSite = (if r.backupLeads then 0x48 else 0x40) ∧
      t.mstate = if s.isOn st F.VIG_STATE_FENCE_PIN then MState.fenced else MState.banked) ∧
    (1 ≤ stage → stage ≤ 5 →
      (s.kindling = false → exec (.kindlingStageTimeout stage) s = .next s) ∧
      (s.kindling = true → ∃ t, exec (.kindlingStageTimeout stage) s = .next t ∧ t.kindling = false ∧
        t.now = Nat.max s.now (s.vigil.stageAt + stageBound stage) ∧ t.fld boot F.VIG_BOOT_STATUS_STAGE = stage ∧
        t.fld boot F.VIG_BOOT_STATUS_CODE = Code.failTimeout ∧ t.mstate = MState.kindling)) ∧
    (1 ≤ type → type ≤ 4 →
      (s.kindling = false → exec (.kindlingImageFailure type) s = .next s) ∧
      (s.kindling = true → ∃ t, exec (.kindlingImageFailure type) s = .next t ∧ t.kindling = false ∧
        t.fld boot F.VIG_BOOT_STATUS_STAGE = (if type = 1 then 1 else 3) ∧
        t.fld boot F.VIG_BOOT_STATUS_CODE = Code.rejSignature ∧ (type = 1 → t.vigil.romOnly = true))) ∧
    (lead8 → exec .vigilFailover s = .next s ∧ exec .backupVigilLost s = .next s) ∧
    (¬ lead8 →
      (∃ t, exec .vigilFailover s = .next t ∧ t.leadSite = 0x48 ∧ t.vigil.mgmtQ = [] ∧ t.vigil.resets = [] ∧
        t.fld (Reg.VIG_FAILOVERS 8) F.VIG_FAILOVERS_COUNT =
          satAdd 32 (s.fld (Reg.VIG_FAILOVERS 8) F.VIG_FAILOVERS_COUNT) 1 ∧
        t.mstate = m ∧ t.cores = s.cores ∧ t.hearth = s.hearth ∧ t.ports = s.ports) ∧
      (∃ t, exec .backupVigilLost s = .next t ∧ t.vigil.spareLost = true ∧ t.leadSite = 0x40 ∧ t.mstate = m ∧
        t.cores = s.cores ∧ t.hearth = s.hearth))

/-- SUPPLY_SAMPLE, COOLANT_SAMPLE, THERMAL_SAMPLE, THROTTLE_UPDATE, LIFE_COMMIT and LIFE_MIRROR (R574, R575, R577, R581 to R583, R587, R589, R590, R593): samples show in their
registers; a condition that has held for its time has its result once; the first of coinciding supply faults is recorded and the module powers down;
each die's hold count rises by 1 to at most 12 from 100.0 °C on and falls by 1 below 97.0 °C; a commit stores the stamped record, and the mirror equals the
record. -/
def Obligations.Power : Prop :=
  ∀ (s : State) (volts amps : List Nat) (inlet outlet : Int) (flow p d k dur t0 : Nat) (readings : List TempReading)
    (r : TempReading) (f : SupplyFault) (fs : List SupplyFault),
    let sampled := (s.at ((s.now / 1000 + 1) * 1000)).countSeconds
    let warmed := (s.at ((s.now / 10000 + 1) * 10000)).countSeconds
    let input := volts.foldl Nat.max 0
    let u := s.supplyFaults (f :: fs)
    let fault := Reg.PWR_LAST_FAULT
    let on := s.isOn Reg.PWR_THERM_CTL F.PWR_THERM_CTL_THROTTLE_EN
    let hold := s.fld (Reg.PWR_DIE d) F.PWR_DIE_HOLD
    let temp := toSigned 16 (s.fld (Reg.PWR_DIE d) F.PWR_DIE_TEMP)
    let seconds := (s.now - s.power.countedTo) / 1000000000
    let h := s.holding k dur true
    (volts.length = 4 → amps.length = 4 →
      (s.mstate = MState.cold → input < 3000 → exec (.supplySample volts amps) s =
        .next { sampled with power := { sampled.power with applied := false, samples := [] } }) ∧
      (s.mstate ≠ MState.cold ∨ 3000 ≤ input → ∃ t, exec (.supplySample volts amps) s = .next t ∧
        t.now = (s.now / 1000 + 1) * 1000 ∧ t.power.samples.head? = some (volts, amps) ∧
        (p < 4 → t.fld (Reg.PWR_PAIR p) F.PWR_PAIR_VOLTS = volts.getD p 0 % 2 ^ 16 ∧
          t.fld (Reg.PWR_PAIR p) F.PWR_PAIR_AMPS = amps.getD p 0 % 2 ^ 16))) ∧
    (volts.length ≠ 4 ∨ amps.length ≠ 4 → exec (.supplySample volts amps) s = .refused .noSuchUnit) ∧
    (s.mstate ≠ MState.cold → f.cause < 256 → f.site < 256 → f.pair < 4 → u.mstate = MState.cold ∧
      u.fld fault F.PWR_LAST_FAULT_CAUSE = f.cause ∧ u.fld fault F.PWR_LAST_FAULT_SITE = f.site ∧
      u.fld fault F.PWR_LAST_FAULT_PAIR = f.pair ∧ (fs = [] → u.power.triggers = 2 ^ f.cause) ∧ u.cores = [] ∧ u.hearth = []) ∧
    (s.mstate = MState.cold → s.supplyFaults fs = s) ∧ s.supplyFaults [] = s ∧
    ((s.holding k dur false).1 = false ∧ (s.holding k dur false).2.heldSince k = 0) ∧
    (s.heldSince k = 0 → h.1 = decide (dur = 0) ∧ h.2.heldSince k = s.now + 1) ∧
    (s.heldSince k = t0 + 1 → s.heldSince (2 ^ 32 + k) = 0 → h.1 = decide (t0 + dur ≤ s.now)) ∧
    (s.heldSince k = t0 + 1 → s.heldSince (2 ^ 32 + k) ≠ 0 → h.1 = false) ∧
    (∃ t, exec (.coolantSample inlet outlet flow) s = .next t ∧
      t.fld Reg.PWR_COOLANT F.PWR_COOLANT_INLET = ofSigned 16 inlet ∧
      t.fld Reg.PWR_COOLANT F.PWR_COOLANT_OUTLET = ofSigned 16 outlet ∧
      t.fld Reg.PWR_COOLANT F.PWR_COOLANT_FLOW = flow % 2 ^ 16 ∧ t.now = s.now ∧
      (inlet ≤ 350 → 1500 ≤ flow → t.mstate = s.mstate ∧ t.cores = s.cores ∧ t.hearth = s.hearth)) ∧
    (readings.all sensorOk = false → exec (.thermalSample readings) s = .refused .noSuchUnit) ∧
    (readings.all sensorOk = true →
      (s.mstate = MState.cold → exec (.thermalSample readings) s = .next warmed) ∧
      (s.mstate ≠ MState.cold → ∃ t, exec (.thermalSample readings) s = .next t ∧
        t.now = (s.now / 10000 + 1) * 10000 ∧
        (r ∈ readings → r.site < 0x40 →
          t.fld (Reg.PWR_DIE r.site) F.PWR_DIE_TEMP = ofSigned 16 (shownValue readings r)) ∧
        ((∀ x ∈ readings, x.value < (sensorLimits x).2) → t.mstate = s.mstate ∧ t.cores = s.cores))) ∧
    (on = false → exec .throttleUpdate s = .next s) ∧
    (on = true → ∃ t, exec .throttleUpdate s = .next t ∧ t.alm % 100000 = 0 ∧ s.alm < t.alm ∧ t.alm ≤ s.alm + 100000 ∧
      (d < 64 → t.fld (Reg.PWR_DIE d) F.PWR_DIE_HOLD =
        if 1000 ≤ temp then Nat.min 12 (hold + 1) else if temp < 970 then hold - 1 else hold)) ∧
    (s.mstate ≠ MState.cold → seconds ≠ 0 → s.countSeconds.lifeWord 2 = satAdd 64 (s.lifeWord 2) seconds) ∧
    (∃ t, exec .lifeCommit s = .next t ∧ t.lifeKept = (t.life :: s.lifeKept).take 2 ∧ t.lifeWord 0 = s.lifeStamp ∧
      t.now = s.now ∧ t.mstate = s.mstate) ∧
    (∃ t, exec .lifeMirror s = .next t ∧ t.lifeMirror = t.life ∧ t.life = s.countSeconds.life ∧ t.mstate = s.mstate)

end
end

