-- ==== Sys2Proof/Laws/Memory.lean ====
section
/-! SUPPORT. The canonical form of sparse maps and byte memories, and that every operation on them keeps it. -/
namespace Sys2Proof.Machine

theorem AMap.wf_iff {β : Type} [DecidableEq β] (m : AMap β) (d : β) :
    AMap.wf m d = true ↔ m.Pairwise (fun x y => x.1 < y.1) ∧ ∀ x ∈ m, x.2 ≠ d := by
  induction m with
  | nil => simp [AMap.wf]
  | cons x m ih =>
    obtain ⟨k, v⟩ := x
    cases m with
    | nil => simp [AMap.wf]
    | cons y m =>
      obtain ⟨k', v'⟩ := y
      rw [AMap.wf, Bool.and_eq_true, Bool.and_eq_true, ih]
      simp only [bne_iff_ne, ne_eq, decide_eq_true_eq, List.pairwise_cons, List.mem_cons, forall_eq_or_imp]
      constructor
      · rintro ⟨⟨h1, h2⟩, ⟨h3, h4⟩, h5, h6⟩
        exact ⟨⟨⟨h2, fun z hz => Nat.lt_trans h2 (h3 z hz)⟩, h3, h4⟩, h1, h5, h6⟩
      · rintro ⟨⟨⟨h2, _⟩, h3, h4⟩, h1, h5, h6⟩
        exact ⟨⟨h1, h2⟩, ⟨h3, h4⟩, h5, h6⟩

theorem AMap.get_erase {β : Type} (m : AMap β) (d : β) (k j : Nat) :
    AMap.get (AMap.erase m k) d j = if j = k then d else AMap.get m d j := by
  induction m with
  | nil => simp [AMap.erase, AMap.get]
  | cons x m ih =>
    obtain ⟨k', v⟩ := x
    unfold AMap.erase
    split
    · rename_i h
      subst h
      rw [ih]
      by_cases hj : j = k <;> simp [AMap.get, hj]
    · rename_i h
      by_cases hj : j = k'
      · subst hj
        simp [AMap.get, Ne.symm h]
      · simp [AMap.get, hj, ih]

theorem AMap.get_insert {β : Type} (m : AMap β) (d : β) (k j : Nat) (v : β) :
    AMap.get (AMap.insert m k v) d j = if j = k then v else AMap.get m d j := by
  induction m with
  | nil => simp [AMap.insert, AMap.get]
  | cons x m ih =>
    obtain ⟨k', v'⟩ := x
    unfold AMap.insert
    split
    · simp [AMap.get]
    · split
      · rename_i h
        subst h
        by_cases hj : j = k <;> simp [AMap.get, hj]
      · rename_i h
        by_cases hj : j = k'
        · subst hj
          simp [AMap.get, Ne.symm h]
        · simp [AMap.get, hj, ih]

/-- Reading a sparse map after a key is set: the value set at that key, and every other key as before. -/
theorem AMap.get_set {β : Type} [DecidableEq β] (m : AMap β) (d : β) (k j : Nat) (v : β) :
    AMap.get (AMap.set m d k v) d j = if j = k then v else AMap.get m d j := by
  unfold AMap.set
  split
  · rename_i h
    rw [AMap.get_erase, h]
  · exact AMap.get_insert m d k j v

/-- Keys strictly rise, and every entry satisfies a test. -/
abbrev AMap.sorted {β : Type} (p : Nat × β → Prop) (m : AMap β) : Prop :=
  m.Pairwise (fun x y => x.1 < y.1) ∧ ∀ x ∈ m, p x

theorem AMap.sorted_filter {β : Type} {p : Nat × β → Prop} {m : AMap β} (h : AMap.sorted p m) (f : Nat × β → Bool) :
    AMap.sorted p (m.filter f) :=
  ⟨h.1.filter f, fun x hx => h.2 x (List.mem_filter.1 hx).1⟩

theorem AMap.erase_sub {β : Type} (m : AMap β) (k : Nat) : (AMap.erase m k).Sublist m := by
  induction m with
  | nil => exact List.Sublist.refl _
  | cons x m ih =>
    unfold AMap.erase
    split
    · exact ih.trans (List.sublist_cons_self _ _)
    · exact ih.cons_cons _

theorem AMap.sorted_erase {β : Type} {p : Nat × β → Prop} {m : AMap β} (h : AMap.sorted p m) (k : Nat) :
    AMap.sorted p (AMap.erase m k) :=
  ⟨h.1.sublist (AMap.erase_sub m k), fun x hx => h.2 x ((AMap.erase_sub m k).subset hx)⟩

theorem AMap.mem_insert {β : Type} {m : AMap β} {k : Nat} {v : β} {x : Nat × β} (h : x ∈ AMap.insert m k v) :
    x = (k, v) ∨ x ∈ m := by
  induction m with
  | nil => simpa [AMap.insert] using h
  | cons y m ih =>
    unfold AMap.insert at h
    split at h
    · simpa using h
    · split at h
      · rcases List.mem_cons.1 h with h | h
        · exact .inl h
        · exact .inr (List.mem_cons_of_mem _ h)
      · rcases List.mem_cons.1 h with h | h
        · exact .inr (h ▸ List.mem_cons_self)
        · exact (ih h).imp id (List.mem_cons_of_mem _)

theorem AMap.sorted_insert {β : Type} {p : Nat × β → Prop} {m : AMap β} (h : AMap.sorted p m) (k : Nat) (v : β)
    (hv : p (k, v)) : AMap.sorted p (AMap.insert m k v) := by
  refine ⟨?_, fun x hx => (AMap.mem_insert hx).elim (fun e => e ▸ hv) (h.2 x)⟩
  replace h := h.1
  induction m with
  | nil => simp [AMap.insert]
  | cons y m ih =>
    rw [List.pairwise_cons] at h
    unfold AMap.insert
    split
    · rename_i hk
      exact List.pairwise_cons.2 ⟨fun z hz => (List.mem_cons.1 hz).elim (fun e => e ▸ hk)
        (fun hz => Nat.lt_trans hk (h.1 z hz)), List.pairwise_cons.2 h⟩
    · split
      · rename_i hk
        exact List.pairwise_cons.2 ⟨fun z hz => hk ▸ h.1 z hz, h.2⟩
      · rename_i h1 h2
        exact List.pairwise_cons.2 ⟨fun z hz => (AMap.mem_insert hz).elim (fun e => by subst e; dsimp only at *; omega) (h.1 z), ih h.2⟩

/-- Setting a key keeps the canonical form. -/
theorem AMap.wf_set {β : Type} [DecidableEq β] {m : AMap β} {d : β} (h : AMap.wf m d = true) (k : Nat) (v : β) :
    AMap.wf (AMap.set m d k v) d = true := by
  rw [AMap.wf_iff] at *
  unfold AMap.set
  split
  · exact AMap.sorted_erase h k
  · rename_i hv
    exact AMap.sorted_insert h k v hv

/-- A register write keeps the canonical form. -/
theorem regsOk_set {m : AMap Word} (h : regsOk m) (a : Nat) (w : Word) : regsOk (AMap.set m (regReset a) a w) := by
  unfold AMap.set
  split
  · exact AMap.sorted_erase h a
  · rename_i hv
    exact AMap.sorted_insert h a w hv

/-- Dropping registers keeps the canonical form. -/
theorem regsOk_filter {m : AMap Word} (h : regsOk m) (f : Nat × Word → Bool) : regsOk (m.filter f) :=
  AMap.sorted_filter h f

/-- Dropping bytes keeps the canonical form. -/
theorem Memory.wf_filter {m : List Host.Cell} (h : Memory.wf m) (f : Host.Cell → Bool) : Memory.wf (m.filter f) := by
  unfold Memory.wf at *
  rw [AMap.wf_iff] at *
  exact AMap.sorted_filter h f

theorem Mem.mem_cells {bs : List Byte} {a : Nat} {x : Host.Cell} (h : x ∈ Mem.cells a bs) :
    a ≤ x.1 ∧ x.1 < a + bs.length ∧ x.2 ≠ 0 := by
  induction bs generalizing a with
  | nil => simp [Mem.cells] at h
  | cons b bs ih =>
    unfold Mem.cells at h
    split at h
    · have := ih h; simp only [List.length_cons]; exact ⟨by omega, by omega, this.2.2⟩
    · rcases List.mem_cons.1 h with h | h
      · subst h; refine ⟨Nat.le_refl _, by simp, by assumption⟩
      · have := ih h; simp only [List.length_cons]; exact ⟨by omega, by omega, this.2.2⟩

theorem Mem.cells_sorted (bs : List Byte) (a : Nat) : (Mem.cells a bs).Pairwise (fun x y => x.1 < y.1) := by
  induction bs generalizing a with
  | nil => exact List.Pairwise.nil
  | cons b bs ih =>
    unfold Mem.cells
    split
    · exact ih _
    · refine List.pairwise_cons.2 ⟨fun z hz => ?_, ih _⟩
      have := Mem.mem_cells hz
      dsimp only
      omega

/-- Storing bytes keeps the canonical form. -/
theorem Memory.wf_write {m : List Host.Cell} (h : Memory.wf m) (a : Nat) (bs : List Byte) :
    Memory.wf (Mem.write m a bs) := by
  unfold Memory.wf at *
  rw [AMap.wf_iff] at *
  unfold Mem.write
  constructor
  · refine List.pairwise_append.2 ⟨List.pairwise_append.2 ⟨h.1.filter _, Mem.cells_sorted bs a, ?_⟩, h.1.filter _, ?_⟩
    · intro x hx y hy
      have := Mem.mem_cells hy
      have hx := (List.mem_filter.1 hx).2
      simp only [decide_eq_true_eq] at hx
      omega
    · intro x hx y hy
      have hy := (List.mem_filter.1 hy).2
      simp only [decide_eq_true_eq] at hy
      rcases List.mem_append.1 hx with hx | hx
      · have hx := (List.mem_filter.1 hx).2
        simp only [decide_eq_true_eq] at hx
        omega
      · have := Mem.mem_cells hx
        omega
  · intro x hx
    rcases List.mem_append.1 hx with hx | hx
    · rcases List.mem_append.1 hx with hx | hx
      · exact h.2 x (List.mem_filter.1 hx).1
      · exact (Mem.mem_cells hx).2.2
    · exact h.2 x (List.mem_filter.1 hx).1

/-! ## Reading after writing -/

theorem AMap.get_append_left {β : Type} {m n : AMap β} {d : β} {k : Nat} (h : ∀ x ∈ m, x.1 ≠ k) :
    AMap.get (m ++ n) d k = AMap.get n d k := by
  induction m with
  | nil => rfl
  | cons x m ih =>
    obtain ⟨j, v⟩ := x
    rw [List.cons_append]
    have hj : k ≠ j := fun e => h _ List.mem_cons_self e.symm
    simp only [AMap.get, if_neg hj]
    exact ih fun y hy => h y (List.mem_cons_of_mem _ hy)

theorem AMap.get_append_right {β : Type} {m n : AMap β} {d : β} {k : Nat} (h : ∀ x ∈ n, x.1 ≠ k) :
    AMap.get (m ++ n) d k = AMap.get m d k := by
  induction m with
  | nil =>
    have := AMap.get_append_left (n := []) (d := d) h
    rw [List.append_nil] at this
    exact this
  | cons x m ih =>
    obtain ⟨j, v⟩ := x
    rw [List.cons_append]
    simp only [AMap.get]
    split
    · rfl
    · exact ih

theorem AMap.get_filter {β : Type} {m : AMap β} {d : β} {k : Nat} {p : Nat × β → Bool} (h : ∀ v, p (k, v) = true) :
    AMap.get (m.filter p) d k = AMap.get m d k := by
  induction m with
  | nil => rfl
  | cons x m ih =>
    obtain ⟨j, v⟩ := x
    by_cases hk : k = j
    · subst hk
      rw [List.filter_cons_of_pos (h v)]
      simp [AMap.get]
    · by_cases hp : p (j, v) = true
      · rw [List.filter_cons_of_pos hp]
        simp only [AMap.get, if_neg hk]
        exact ih
      · rw [List.filter_cons_of_neg hp]
        simp only [AMap.get, if_neg hk]
        exact ih

theorem Mem.get_cells (bs : List Byte) (a k : Nat) :
    AMap.get (Mem.cells a bs) 0 k = if k < a then 0 else bs.getD (k - a) 0 := by
  induction bs generalizing a with
  | nil => simp [Mem.cells, AMap.get]
  | cons b bs ih =>
    have step : ∀ x, (k < a → x = 0) → (k = a → x = b) → (a < k → x = AMap.get (Mem.cells (a + 1) bs) 0 k) →
        x = if k < a then 0 else (b :: bs).getD (k - a) 0 := by
      intro x h1 h2 h3
      by_cases hl : k < a
      · rw [if_pos hl, h1 hl]
      · rw [if_neg hl]
        by_cases he : k = a
        · rw [h2 he, he]; simp
        · rw [h3 (by omega), ih, if_neg (by omega)]
          obtain ⟨j, rfl⟩ : ∃ j, k = a + 1 + j := ⟨k - (a + 1), by omega⟩
          rw [show a + 1 + j - (a + 1) = j by omega, show a + 1 + j - a = j + 1 by omega]
          simp
    have hc : Mem.cells a (b :: bs) = if b = 0 then Mem.cells (a + 1) bs else (a, b) :: Mem.cells (a + 1) bs := rfl
    rw [hc]
    apply step
    · intro h
      split
      · rw [ih, if_pos (by omega)]
      · simp only [AMap.get]; rw [if_neg (by omega), ih, if_pos (by omega)]
    · intro h
      split
      · rename_i hb; rw [ih, if_pos (by omega), hb]
      · simp [AMap.get, h]
    · intro h
      split
      · rfl
      · simp only [AMap.get]; rw [if_neg (by omega)]

theorem getD_lt {α : Type} {l : List α} {i : Nat} (d : α) (h : i < l.length) : l.getD i d = l[i] := by
  simp [List.getD, h]

theorem getD_ge {α : Type} {l : List α} {i : Nat} (d : α) (h : l.length ≤ i) : l.getD i d = d := by
  simp [List.getD, h]

/-- Reading a byte after bytes are stored from `a` on: the byte stored there, and every other byte as before. -/
theorem Mem.get_write (m : List Host.Cell) (a k : Nat) (bs : List Byte) :
    Mem.get (Mem.write m a bs) k = if k < a then Mem.get m k else bs.getD (k - a) (Mem.get m k) := by
  unfold Mem.get Mem.write
  by_cases h1 : k < a
  · rw [if_pos h1, List.append_assoc, AMap.get_append_right, AMap.get_filter]
    · intro v; simpa using h1
    · intro x hx e
      rcases List.mem_append.1 hx with hx | hx
      · have := Mem.mem_cells hx; omega
      · have := (List.mem_filter.1 hx).2; simp only [decide_eq_true_eq] at this; omega
  · rw [if_neg h1, List.append_assoc, AMap.get_append_left]
    · by_cases h2 : k < a + bs.length
      · rw [AMap.get_append_right, Mem.get_cells, if_neg h1]
        · have hl : k - a < bs.length := by omega
          rw [getD_lt _ hl, getD_lt _ hl]
        · intro x hx e
          have := (List.mem_filter.1 hx).2; simp only [decide_eq_true_eq] at this; omega
      · rw [AMap.get_append_left, AMap.get_filter, getD_ge _ (by omega)]
        · intro v; simp only [decide_eq_true_eq]; omega
        · intro x hx e
          have := Mem.mem_cells hx; omega
    · intro x hx e
      have := (List.mem_filter.1 hx).2; simp only [decide_eq_true_eq] at this; omega

/-- Bytes that a store does not reach read as before. -/
theorem Mem.get_write_out {m : List Host.Cell} {a k : Nat} {bs : List Byte} (h : k < a ∨ a + bs.length ≤ k) :
    Mem.get (Mem.write m a bs) k = Mem.get m k := by
  rw [Mem.get_write]
  split
  · rfl
  · exact getD_ge _ (by omega)

theorem Mem.read_eq (m : List Host.Cell) (a : Nat) (bs : List Byte) (h : ∀ k, (hk : k < bs.length) → Mem.get m (a + k) = bs[k]) :
    Mem.read m a bs.length = bs := by
  induction bs generalizing a with
  | nil => rfl
  | cons b bs ih =>
    have h0 := h 0 (by simp)
    simp only [Nat.add_zero, List.getElem_cons_zero] at h0
    rw [List.length_cons, Mem.read, h0, ih]
    intro k hk
    have := h (k + 1) (by simpa using hk)
    simpa [Nat.add_assoc, Nat.add_comm 1 k] using this

/-- The bytes stored are the bytes read there. -/
theorem Mem.read_write (m : List Host.Cell) (a : Nat) (bs : List Byte) : Mem.read (Mem.write m a bs) a bs.length = bs := by
  apply Mem.read_eq
  intro k hk
  rw [Mem.get_write, if_neg (by omega), show a + k - a = k by omega, getD_lt _ hk]

end Sys2Proof.Machine
end

