-- ==== Sys2Proof/Laws/State.lean ====
section
/-! SUPPORT. What each named update of the state leaves as it was, field by field and accessor by accessor, and what the
accessors read after the update that sets them. -/
namespace Sys2Proof.Machine
section
variable (s : State)

section
variable (a : Nat) (w : Word)
@[simp] theorem State.setReg_pending : (s.setReg a w).pending = s.pending := rfl
@[simp] theorem State.setReg_now : (s.setReg a w).now = s.now := rfl
@[simp] theorem State.setReg_alm : (s.setReg a w).alm = s.alm := rfl
@[simp] theorem State.setReg_freeCtr : (s.setReg a w).freeCtr = s.freeCtr := rfl
@[simp] theorem State.setReg_access : (s.setReg a w).access = s.access := rfl
@[simp] theorem State.setReg_hearth : (s.setReg a w).hearth = s.hearth := rfl
@[simp] theorem State.setReg_istore : (s.setReg a w).istore = s.istore := rfl
@[simp] theorem State.setReg_scratch : (s.setReg a w).scratch = s.scratch := rfl
@[simp] theorem State.setReg_fabric : (s.setReg a w).fabric = s.fabric := rfl
@[simp] theorem State.setReg_marks : (s.setReg a w).marks = s.marks := rfl
@[simp] theorem State.setReg_cores : (s.setReg a w).cores = s.cores := rfl
@[simp] theorem State.setReg_regions : (s.setReg a w).regions = s.regions := rfl
@[simp] theorem State.setReg_phaseB : (s.setReg a w).phaseB = s.phaseB := rfl
@[simp] theorem State.setReg_phaseC : (s.setReg a w).phaseC = s.phaseC := rfl
@[simp] theorem State.setReg_flight : (s.setReg a w).flight = s.flight := rfl
@[simp] theorem State.setReg_origin : (s.setReg a w).origin = s.origin := rfl
@[simp] theorem State.setReg_admitQ : (s.setReg a w).admitQ = s.admitQ := rfl
@[simp] theorem State.setReg_flueNotes : (s.setReg a w).flueNotes = s.flueNotes := rfl
@[simp] theorem State.setReg_damperOld : (s.setReg a w).damperOld = s.damperOld := rfl
@[simp] theorem State.setReg_damperNext : (s.setReg a w).damperNext = s.damperNext := rfl
@[simp] theorem State.setReg_ports : (s.setReg a w).ports = s.ports := rfl
@[simp] theorem State.setReg_times : (s.setReg a w).times = s.times := rfl
@[simp] theorem State.setReg_lock : (s.setReg a w).lock = s.lock := rfl
@[simp] theorem State.setReg_job : (s.setReg a w).job = s.job := rfl
@[simp] theorem State.setReg_refBackup : (s.setReg a w).refBackup = s.refBackup := rfl
@[simp] theorem State.setReg_endpoints : (s.setReg a w).endpoints = s.endpoints := rfl
@[simp] theorem State.setReg_drainEnd : (s.setReg a w).drainEnd = s.drainEnd := rfl
@[simp] theorem State.setReg_cmapNext : (s.setReg a w).cmapNext = s.cmapNext := rfl
@[simp] theorem State.setReg_inReset : (s.setReg a w).inReset = s.inReset := rfl
@[simp] theorem State.setReg_meshUsed : (s.setReg a w).meshUsed = s.meshUsed := rfl
@[simp] theorem State.setReg_flues : (s.setReg a w).flues = s.flues := rfl
@[simp] theorem State.setReg_flueCmd : (s.setReg a w).flueCmd = s.flueCmd := rfl
@[simp] theorem State.setReg_ash : (s.setReg a w).ash = s.ash := rfl
@[simp] theorem State.setReg_reports : (s.setReg a w).reports = s.reports := rfl
@[simp] theorem State.setReg_reported : (s.setReg a w).reported = s.reported := rfl
@[simp] theorem State.setReg_cache : (s.setReg a w).cache = s.cache := rfl
@[simp] theorem State.setReg_buffers : (s.setReg a w).buffers = s.buffers := rfl
@[simp] theorem State.setReg_answer : (s.setReg a w).answer = s.answer := rfl
@[simp] theorem State.setReg_life : (s.setReg a w).life = s.life := rfl
@[simp] theorem State.setReg_health : (s.setReg a w).health = s.health := rfl
@[simp] theorem State.setReg_healthNext : (s.setReg a w).healthNext = s.healthNext := rfl
@[simp] theorem State.setReg_late : (s.setReg a w).late = s.late := rfl
@[simp] theorem State.setReg_beats : (s.setReg a w).beats = s.beats := rfl
@[simp] theorem State.setReg_stuck : (s.setReg a w).stuck = s.stuck := rfl
@[simp] theorem State.setReg_subst : (s.setReg a w).subst = s.subst := rfl
@[simp] theorem State.setReg_digs : (s.setReg a w).digs = s.digs := rfl
@[simp] theorem State.setReg_peerDigs : (s.setReg a w).peerDigs = s.peerDigs := rfl
@[simp] theorem State.setReg_shadow : (s.setReg a w).shadow = s.shadow := rfl
@[simp] theorem State.setReg_transit : (s.setReg a w).transit = s.transit := rfl
@[simp] theorem State.setReg_recLost : (s.setReg a w).recLost = s.recLost := rfl
@[simp] theorem State.setReg_replay : (s.setReg a w).replay = s.replay := rfl
@[simp] theorem State.setReg_vigil : (s.setReg a w).vigil = s.vigil := rfl
@[simp] theorem State.setReg_power : (s.setReg a w).power = s.power := rfl
@[simp] theorem State.setReg_lifeKept : (s.setReg a w).lifeKept = s.lifeKept := rfl
@[simp] theorem State.setReg_lifeMirror : (s.setReg a w).lifeMirror = s.lifeMirror := rfl
@[simp] theorem State.setReg_core (k : CoreId) : (s.setReg a w).core k = s.core k := rfl
@[simp] theorem State.setReg_eng (k : CoreId) (l : Cls) : (s.setReg a w).eng k l = s.eng k l := rfl
@[simp] theorem State.setReg_region (k : RegionId) : (s.setReg a w).region k = s.region k := rfl
@[simp] theorem State.setReg_mark (k : MarkSpace) (l : Nat) : (s.setReg a w).mark k l = s.mark k l := rfl
@[simp] theorem State.setReg_hread (k : CoreId) (x y : Nat) : (s.setReg a w).hread k x y = s.hread k x y := rfl
@[simp] theorem State.setReg_hnat (k : CoreId) (x y : Nat) : (s.setReg a w).hnat k x y = s.hnat k x y := rfl
@[simp] theorem State.setReg_sread (k x y : Nat) : (s.setReg a w).sread k x y = s.sread k x y := rfl
@[simp] theorem State.setReg_fread (x y : Nat) : (s.setReg a w).fread x y = s.fread x y := rfl
@[simp] theorem State.setReg_iread (k : CoreId) (l x y : Nat) : (s.setReg a w).iread k l x y = s.iread k l x y := rfl
end

section
variable (a : Nat) (f : Fld) (v : Nat)
@[simp] theorem State.setFld_pending : (s.setFld a f v).pending = s.pending := rfl
@[simp] theorem State.setFld_now : (s.setFld a f v).now = s.now := rfl
@[simp] theorem State.setFld_alm : (s.setFld a f v).alm = s.alm := rfl
@[simp] theorem State.setFld_freeCtr : (s.setFld a f v).freeCtr = s.freeCtr := rfl
@[simp] theorem State.setFld_access : (s.setFld a f v).access = s.access := rfl
@[simp] theorem State.setFld_hearth : (s.setFld a f v).hearth = s.hearth := rfl
@[simp] theorem State.setFld_istore : (s.setFld a f v).istore = s.istore := rfl
@[simp] theorem State.setFld_scratch : (s.setFld a f v).scratch = s.scratch := rfl
@[simp] theorem State.setFld_fabric : (s.setFld a f v).fabric = s.fabric := rfl
@[simp] theorem State.setFld_marks : (s.setFld a f v).marks = s.marks := rfl
@[simp] theorem State.setFld_cores : (s.setFld a f v).cores = s.cores := rfl
@[simp] theorem State.setFld_regions : (s.setFld a f v).regions = s.regions := rfl
@[simp] theorem State.setFld_phaseB : (s.setFld a f v).phaseB = s.phaseB := rfl
@[simp] theorem State.setFld_phaseC : (s.setFld a f v).phaseC = s.phaseC := rfl
@[simp] theorem State.setFld_flight : (s.setFld a f v).flight = s.flight := rfl
@[simp] theorem State.setFld_origin : (s.setFld a f v).origin = s.origin := rfl
@[simp] theorem State.setFld_admitQ : (s.setFld a f v).admitQ = s.admitQ := rfl
@[simp] theorem State.setFld_flueNotes : (s.setFld a f v).flueNotes = s.flueNotes := rfl
@[simp] theorem State.setFld_damperOld : (s.setFld a f v).damperOld = s.damperOld := rfl
@[simp] theorem State.setFld_damperNext : (s.setFld a f v).damperNext = s.damperNext := rfl
@[simp] theorem State.setFld_ports : (s.setFld a f v).ports = s.ports := rfl
@[simp] theorem State.setFld_times : (s.setFld a f v).times = s.times := rfl
@[simp] theorem State.setFld_lock : (s.setFld a f v).lock = s.lock := rfl
@[simp] theorem State.setFld_job : (s.setFld a f v).job = s.job := rfl
@[simp] theorem State.setFld_refBackup : (s.setFld a f v).refBackup = s.refBackup := rfl
@[simp] theorem State.setFld_endpoints : (s.setFld a f v).endpoints = s.endpoints := rfl
@[simp] theorem State.setFld_drainEnd : (s.setFld a f v).drainEnd = s.drainEnd := rfl
@[simp] theorem State.setFld_cmapNext : (s.setFld a f v).cmapNext = s.cmapNext := rfl
@[simp] theorem State.setFld_inReset : (s.setFld a f v).inReset = s.inReset := rfl
@[simp] theorem State.setFld_meshUsed : (s.setFld a f v).meshUsed = s.meshUsed := rfl
@[simp] theorem State.setFld_flues : (s.setFld a f v).flues = s.flues := rfl
@[simp] theorem State.setFld_flueCmd : (s.setFld a f v).flueCmd = s.flueCmd := rfl
@[simp] theorem State.setFld_ash : (s.setFld a f v).ash = s.ash := rfl
@[simp] theorem State.setFld_reports : (s.setFld a f v).reports = s.reports := rfl
@[simp] theorem State.setFld_reported : (s.setFld a f v).reported = s.reported := rfl
@[simp] theorem State.setFld_cache : (s.setFld a f v).cache = s.cache := rfl
@[simp] theorem State.setFld_buffers : (s.setFld a f v).buffers = s.buffers := rfl
@[simp] theorem State.setFld_answer : (s.setFld a f v).answer = s.answer := rfl
@[simp] theorem State.setFld_life : (s.setFld a f v).life = s.life := rfl
@[simp] theorem State.setFld_health : (s.setFld a f v).health = s.health := rfl
@[simp] theorem State.setFld_healthNext : (s.setFld a f v).healthNext = s.healthNext := rfl
@[simp] theorem State.setFld_late : (s.setFld a f v).late = s.late := rfl
@[simp] theorem State.setFld_beats : (s.setFld a f v).beats = s.beats := rfl
@[simp] theorem State.setFld_stuck : (s.setFld a f v).stuck = s.stuck := rfl
@[simp] theorem State.setFld_subst : (s.setFld a f v).subst = s.subst := rfl
@[simp] theorem State.setFld_digs : (s.setFld a f v).digs = s.digs := rfl
@[simp] theorem State.setFld_peerDigs : (s.setFld a f v).peerDigs = s.peerDigs := rfl
@[simp] theorem State.setFld_shadow : (s.setFld a f v).shadow = s.shadow := rfl
@[simp] theorem State.setFld_transit : (s.setFld a f v).transit = s.transit := rfl
@[simp] theorem State.setFld_recLost : (s.setFld a f v).recLost = s.recLost := rfl
@[simp] theorem State.setFld_replay : (s.setFld a f v).replay = s.replay := rfl
@[simp] theorem State.setFld_vigil : (s.setFld a f v).vigil = s.vigil := rfl
@[simp] theorem State.setFld_power : (s.setFld a f v).power = s.power := rfl
@[simp] theorem State.setFld_lifeKept : (s.setFld a f v).lifeKept = s.lifeKept := rfl
@[simp] theorem State.setFld_lifeMirror : (s.setFld a f v).lifeMirror = s.lifeMirror := rfl
@[simp] theorem State.setFld_core (k : CoreId) : (s.setFld a f v).core k = s.core k := rfl
@[simp] theorem State.setFld_eng (k : CoreId) (l : Cls) : (s.setFld a f v).eng k l = s.eng k l := rfl
@[simp] theorem State.setFld_region (k : RegionId) : (s.setFld a f v).region k = s.region k := rfl
@[simp] theorem State.setFld_mark (k : MarkSpace) (l : Nat) : (s.setFld a f v).mark k l = s.mark k l := rfl
@[simp] theorem State.setFld_hread (k : CoreId) (x y : Nat) : (s.setFld a f v).hread k x y = s.hread k x y := rfl
@[simp] theorem State.setFld_hnat (k : CoreId) (x y : Nat) : (s.setFld a f v).hnat k x y = s.hnat k x y := rfl
@[simp] theorem State.setFld_sread (k x y : Nat) : (s.setFld a f v).sread k x y = s.sread k x y := rfl
@[simp] theorem State.setFld_fread (x y : Nat) : (s.setFld a f v).fread x y = s.fread x y := rfl
@[simp] theorem State.setFld_iread (k : CoreId) (l x y : Nat) : (s.setFld a f v).iread k l x y = s.iread k l x y := rfl
end

section
variable (a : Nat) (f : Fld) (n : Nat)
@[simp] theorem State.count_pending : (s.count a f n).pending = s.pending := rfl
@[simp] theorem State.count_now : (s.count a f n).now = s.now := rfl
@[simp] theorem State.count_alm : (s.count a f n).alm = s.alm := rfl
@[simp] theorem State.count_freeCtr : (s.count a f n).freeCtr = s.freeCtr := rfl
@[simp] theorem State.count_access : (s.count a f n).access = s.access := rfl
@[simp] theorem State.count_hearth : (s.count a f n).hearth = s.hearth := rfl
@[simp] theorem State.count_istore : (s.count a f n).istore = s.istore := rfl
@[simp] theorem State.count_scratch : (s.count a f n).scratch = s.scratch := rfl
@[simp] theorem State.count_fabric : (s.count a f n).fabric = s.fabric := rfl
@[simp] theorem State.count_marks : (s.count a f n).marks = s.marks := rfl
@[simp] theorem State.count_cores : (s.count a f n).cores = s.cores := rfl
@[simp] theorem State.count_regions : (s.count a f n).regions = s.regions := rfl
@[simp] theorem State.count_phaseB : (s.count a f n).phaseB = s.phaseB := rfl
@[simp] theorem State.count_phaseC : (s.count a f n).phaseC = s.phaseC := rfl
@[simp] theorem State.count_flight : (s.count a f n).flight = s.flight := rfl
@[simp] theorem State.count_origin : (s.count a f n).origin = s.origin := rfl
@[simp] theorem State.count_admitQ : (s.count a f n).admitQ = s.admitQ := rfl
@[simp] theorem State.count_flueNotes : (s.count a f n).flueNotes = s.flueNotes := rfl
@[simp] theorem State.count_damperOld : (s.count a f n).damperOld = s.damperOld := rfl
@[simp] theorem State.count_damperNext : (s.count a f n).damperNext = s.damperNext := rfl
@[simp] theorem State.count_ports : (s.count a f n).ports = s.ports := rfl
@[simp] theorem State.count_times : (s.count a f n).times = s.times := rfl
@[simp] theorem State.count_lock : (s.count a f n).lock = s.lock := rfl
@[simp] theorem State.count_job : (s.count a f n).job = s.job := rfl
@[simp] theorem State.count_refBackup : (s.count a f n).refBackup = s.refBackup := rfl
@[simp] theorem State.count_endpoints : (s.count a f n).endpoints = s.endpoints := rfl
@[simp] theorem State.count_drainEnd : (s.count a f n).drainEnd = s.drainEnd := rfl
@[simp] theorem State.count_cmapNext : (s.count a f n).cmapNext = s.cmapNext := rfl
@[simp] theorem State.count_inReset : (s.count a f n).inReset = s.inReset := rfl
@[simp] theorem State.count_meshUsed : (s.count a f n).meshUsed = s.meshUsed := rfl
@[simp] theorem State.count_flues : (s.count a f n).flues = s.flues := rfl
@[simp] theorem State.count_flueCmd : (s.count a f n).flueCmd = s.flueCmd := rfl
@[simp] theorem State.count_ash : (s.count a f n).ash = s.ash := rfl
@[simp] theorem State.count_reports : (s.count a f n).reports = s.reports := rfl
@[simp] theorem State.count_reported : (s.count a f n).reported = s.reported := rfl
@[simp] theorem State.count_cache : (s.count a f n).cache = s.cache := rfl
@[simp] theorem State.count_buffers : (s.count a f n).buffers = s.buffers := rfl
@[simp] theorem State.count_answer : (s.count a f n).answer = s.answer := rfl
@[simp] theorem State.count_life : (s.count a f n).life = s.life := rfl
@[simp] theorem State.count_health : (s.count a f n).health = s.health := rfl
@[simp] theorem State.count_healthNext : (s.count a f n).healthNext = s.healthNext := rfl
@[simp] theorem State.count_late : (s.count a f n).late = s.late := rfl
@[simp] theorem State.count_beats : (s.count a f n).beats = s.beats := rfl
@[simp] theorem State.count_stuck : (s.count a f n).stuck = s.stuck := rfl
@[simp] theorem State.count_subst : (s.count a f n).subst = s.subst := rfl
@[simp] theorem State.count_digs : (s.count a f n).digs = s.digs := rfl
@[simp] theorem State.count_peerDigs : (s.count a f n).peerDigs = s.peerDigs := rfl
@[simp] theorem State.count_shadow : (s.count a f n).shadow = s.shadow := rfl
@[simp] theorem State.count_transit : (s.count a f n).transit = s.transit := rfl
@[simp] theorem State.count_recLost : (s.count a f n).recLost = s.recLost := rfl
@[simp] theorem State.count_replay : (s.count a f n).replay = s.replay := rfl
@[simp] theorem State.count_vigil : (s.count a f n).vigil = s.vigil := rfl
@[simp] theorem State.count_power : (s.count a f n).power = s.power := rfl
@[simp] theorem State.count_lifeKept : (s.count a f n).lifeKept = s.lifeKept := rfl
@[simp] theorem State.count_lifeMirror : (s.count a f n).lifeMirror = s.lifeMirror := rfl
@[simp] theorem State.count_core (k : CoreId) : (s.count a f n).core k = s.core k := rfl
@[simp] theorem State.count_eng (k : CoreId) (l : Cls) : (s.count a f n).eng k l = s.eng k l := rfl
@[simp] theorem State.count_region (k : RegionId) : (s.count a f n).region k = s.region k := rfl
@[simp] theorem State.count_mark (k : MarkSpace) (l : Nat) : (s.count a f n).mark k l = s.mark k l := rfl
@[simp] theorem State.count_hread (k : CoreId) (x y : Nat) : (s.count a f n).hread k x y = s.hread k x y := rfl
@[simp] theorem State.count_hnat (k : CoreId) (x y : Nat) : (s.count a f n).hnat k x y = s.hnat k x y := rfl
@[simp] theorem State.count_sread (k x y : Nat) : (s.count a f n).sread k x y = s.sread k x y := rfl
@[simp] theorem State.count_fread (x y : Nat) : (s.count a f n).fread x y = s.fread x y := rfl
@[simp] theorem State.count_iread (k : CoreId) (l x y : Nat) : (s.count a f n).iread k l x y = s.iread k l x y := rfl
end

section
variable (a : Nat) (f : Fld) (n : Nat)
@[simp] theorem State.bump_pending : (s.bump a f n).pending = s.pending := rfl
@[simp] theorem State.bump_now : (s.bump a f n).now = s.now := rfl
@[simp] theorem State.bump_alm : (s.bump a f n).alm = s.alm := rfl
@[simp] theorem State.bump_freeCtr : (s.bump a f n).freeCtr = s.freeCtr := rfl
@[simp] theorem State.bump_access : (s.bump a f n).access = s.access := rfl
@[simp] theorem State.bump_hearth : (s.bump a f n).hearth = s.hearth := rfl
@[simp] theorem State.bump_istore : (s.bump a f n).istore = s.istore := rfl
@[simp] theorem State.bump_scratch : (s.bump a f n).scratch = s.scratch := rfl
@[simp] theorem State.bump_fabric : (s.bump a f n).fabric = s.fabric := rfl
@[simp] theorem State.bump_marks : (s.bump a f n).marks = s.marks := rfl
@[simp] theorem State.bump_cores : (s.bump a f n).cores = s.cores := rfl
@[simp] theorem State.bump_regions : (s.bump a f n).regions = s.regions := rfl
@[simp] theorem State.bump_phaseB : (s.bump a f n).phaseB = s.phaseB := rfl
@[simp] theorem State.bump_phaseC : (s.bump a f n).phaseC = s.phaseC := rfl
@[simp] theorem State.bump_flight : (s.bump a f n).flight = s.flight := rfl
@[simp] theorem State.bump_origin : (s.bump a f n).origin = s.origin := rfl
@[simp] theorem State.bump_admitQ : (s.bump a f n).admitQ = s.admitQ := rfl
@[simp] theorem State.bump_flueNotes : (s.bump a f n).flueNotes = s.flueNotes := rfl
@[simp] theorem State.bump_damperOld : (s.bump a f n).damperOld = s.damperOld := rfl
@[simp] theorem State.bump_damperNext : (s.bump a f n).damperNext = s.damperNext := rfl
@[simp] theorem State.bump_ports : (s.bump a f n).ports = s.ports := rfl
@[simp] theorem State.bump_times : (s.bump a f n).times = s.times := rfl
@[simp] theorem State.bump_lock : (s.bump a f n).lock = s.lock := rfl
@[simp] theorem State.bump_job : (s.bump a f n).job = s.job := rfl
@[simp] theorem State.bump_refBackup : (s.bump a f n).refBackup = s.refBackup := rfl
@[simp] theorem State.bump_endpoints : (s.bump a f n).endpoints = s.endpoints := rfl
@[simp] theorem State.bump_drainEnd : (s.bump a f n).drainEnd = s.drainEnd := rfl
@[simp] theorem State.bump_cmapNext : (s.bump a f n).cmapNext = s.cmapNext := rfl
@[simp] theorem State.bump_inReset : (s.bump a f n).inReset = s.inReset := rfl
@[simp] theorem State.bump_meshUsed : (s.bump a f n).meshUsed = s.meshUsed := rfl
@[simp] theorem State.bump_flues : (s.bump a f n).flues = s.flues := rfl
@[simp] theorem State.bump_flueCmd : (s.bump a f n).flueCmd = s.flueCmd := rfl
@[simp] theorem State.bump_ash : (s.bump a f n).ash = s.ash := rfl
@[simp] theorem State.bump_reports : (s.bump a f n).reports = s.reports := rfl
@[simp] theorem State.bump_reported : (s.bump a f n).reported = s.reported := rfl
@[simp] theorem State.bump_cache : (s.bump a f n).cache = s.cache := rfl
@[simp] theorem State.bump_buffers : (s.bump a f n).buffers = s.buffers := rfl
@[simp] theorem State.bump_answer : (s.bump a f n).answer = s.answer := rfl
@[simp] theorem State.bump_life : (s.bump a f n).life = s.life := rfl
@[simp] theorem State.bump_health : (s.bump a f n).health = s.health := rfl
@[simp] theorem State.bump_healthNext : (s.bump a f n).healthNext = s.healthNext := rfl
@[simp] theorem State.bump_late : (s.bump a f n).late = s.late := rfl
@[simp] theorem State.bump_beats : (s.bump a f n).beats = s.beats := rfl
@[simp] theorem State.bump_stuck : (s.bump a f n).stuck = s.stuck := rfl
@[simp] theorem State.bump_subst : (s.bump a f n).subst = s.subst := rfl
@[simp] theorem State.bump_digs : (s.bump a f n).digs = s.digs := rfl
@[simp] theorem State.bump_peerDigs : (s.bump a f n).peerDigs = s.peerDigs := rfl
@[simp] theorem State.bump_shadow : (s.bump a f n).shadow = s.shadow := rfl
@[simp] theorem State.bump_transit : (s.bump a f n).transit = s.transit := rfl
@[simp] theorem State.bump_recLost : (s.bump a f n).recLost = s.recLost := rfl
@[simp] theorem State.bump_replay : (s.bump a f n).replay = s.replay := rfl
@[simp] theorem State.bump_vigil : (s.bump a f n).vigil = s.vigil := rfl
@[simp] theorem State.bump_power : (s.bump a f n).power = s.power := rfl
@[simp] theorem State.bump_lifeKept : (s.bump a f n).lifeKept = s.lifeKept := rfl
@[simp] theorem State.bump_lifeMirror : (s.bump a f n).lifeMirror = s.lifeMirror := rfl
@[simp] theorem State.bump_core (k : CoreId) : (s.bump a f n).core k = s.core k := rfl
@[simp] theorem State.bump_eng (k : CoreId) (l : Cls) : (s.bump a f n).eng k l = s.eng k l := rfl
@[simp] theorem State.bump_region (k : RegionId) : (s.bump a f n).region k = s.region k := rfl
@[simp] theorem State.bump_mark (k : MarkSpace) (l : Nat) : (s.bump a f n).mark k l = s.mark k l := rfl
@[simp] theorem State.bump_hread (k : CoreId) (x y : Nat) : (s.bump a f n).hread k x y = s.hread k x y := rfl
@[simp] theorem State.bump_hnat (k : CoreId) (x y : Nat) : (s.bump a f n).hnat k x y = s.hnat k x y := rfl
@[simp] theorem State.bump_sread (k x y : Nat) : (s.bump a f n).sread k x y = s.sread k x y := rfl
@[simp] theorem State.bump_fread (x y : Nat) : (s.bump a f n).fread x y = s.fread x y := rfl
@[simp] theorem State.bump_iread (k : CoreId) (l x y : Nat) : (s.bump a f n).iread k l x y = s.iread k l x y := rfl
end

section
variable (a : Nat) (f : Fld)
@[simp] theorem State.flag_pending : (s.flag a f).pending = s.pending := rfl
@[simp] theorem State.flag_now : (s.flag a f).now = s.now := rfl
@[simp] theorem State.flag_alm : (s.flag a f).alm = s.alm := rfl
@[simp] theorem State.flag_freeCtr : (s.flag a f).freeCtr = s.freeCtr := rfl
@[simp] theorem State.flag_access : (s.flag a f).access = s.access := rfl
@[simp] theorem State.flag_hearth : (s.flag a f).hearth = s.hearth := rfl
@[simp] theorem State.flag_istore : (s.flag a f).istore = s.istore := rfl
@[simp] theorem State.flag_scratch : (s.flag a f).scratch = s.scratch := rfl
@[simp] theorem State.flag_fabric : (s.flag a f).fabric = s.fabric := rfl
@[simp] theorem State.flag_marks : (s.flag a f).marks = s.marks := rfl
@[simp] theorem State.flag_cores : (s.flag a f).cores = s.cores := rfl
@[simp] theorem State.flag_regions : (s.flag a f).regions = s.regions := rfl
@[simp] theorem State.flag_phaseB : (s.flag a f).phaseB = s.phaseB := rfl
@[simp] theorem State.flag_phaseC : (s.flag a f).phaseC = s.phaseC := rfl
@[simp] theorem State.flag_flight : (s.flag a f).flight = s.flight := rfl
@[simp] theorem State.flag_origin : (s.flag a f).origin = s.origin := rfl
@[simp] theorem State.flag_admitQ : (s.flag a f).admitQ = s.admitQ := rfl
@[simp] theorem State.flag_flueNotes : (s.flag a f).flueNotes = s.flueNotes := rfl
@[simp] theorem State.flag_damperOld : (s.flag a f).damperOld = s.damperOld := rfl
@[simp] theorem State.flag_damperNext : (s.flag a f).damperNext = s.damperNext := rfl
@[simp] theorem State.flag_ports : (s.flag a f).ports = s.ports := rfl
@[simp] theorem State.flag_times : (s.flag a f).times = s.times := rfl
@[simp] theorem State.flag_lock : (s.flag a f).lock = s.lock := rfl
@[simp] theorem State.flag_job : (s.flag a f).job = s.job := rfl
@[simp] theorem State.flag_refBackup : (s.flag a f).refBackup = s.refBackup := rfl
@[simp] theorem State.flag_endpoints : (s.flag a f).endpoints = s.endpoints := rfl
@[simp] theorem State.flag_drainEnd : (s.flag a f).drainEnd = s.drainEnd := rfl
@[simp] theorem State.flag_cmapNext : (s.flag a f).cmapNext = s.cmapNext := rfl
@[simp] theorem State.flag_inReset : (s.flag a f).inReset = s.inReset := rfl
@[simp] theorem State.flag_meshUsed : (s.flag a f).meshUsed = s.meshUsed := rfl
@[simp] theorem State.flag_flues : (s.flag a f).flues = s.flues := rfl
@[simp] theorem State.flag_flueCmd : (s.flag a f).flueCmd = s.flueCmd := rfl
@[simp] theorem State.flag_ash : (s.flag a f).ash = s.ash := rfl
@[simp] theorem State.flag_reports : (s.flag a f).reports = s.reports := rfl
@[simp] theorem State.flag_reported : (s.flag a f).reported = s.reported := rfl
@[simp] theorem State.flag_cache : (s.flag a f).cache = s.cache := rfl
@[simp] theorem State.flag_buffers : (s.flag a f).buffers = s.buffers := rfl
@[simp] theorem State.flag_answer : (s.flag a f).answer = s.answer := rfl
@[simp] theorem State.flag_life : (s.flag a f).life = s.life := rfl
@[simp] theorem State.flag_health : (s.flag a f).health = s.health := rfl
@[simp] theorem State.flag_healthNext : (s.flag a f).healthNext = s.healthNext := rfl
@[simp] theorem State.flag_late : (s.flag a f).late = s.late := rfl
@[simp] theorem State.flag_beats : (s.flag a f).beats = s.beats := rfl
@[simp] theorem State.flag_stuck : (s.flag a f).stuck = s.stuck := rfl
@[simp] theorem State.flag_subst : (s.flag a f).subst = s.subst := rfl
@[simp] theorem State.flag_digs : (s.flag a f).digs = s.digs := rfl
@[simp] theorem State.flag_peerDigs : (s.flag a f).peerDigs = s.peerDigs := rfl
@[simp] theorem State.flag_shadow : (s.flag a f).shadow = s.shadow := rfl
@[simp] theorem State.flag_transit : (s.flag a f).transit = s.transit := rfl
@[simp] theorem State.flag_recLost : (s.flag a f).recLost = s.recLost := rfl
@[simp] theorem State.flag_replay : (s.flag a f).replay = s.replay := rfl
@[simp] theorem State.flag_vigil : (s.flag a f).vigil = s.vigil := rfl
@[simp] theorem State.flag_power : (s.flag a f).power = s.power := rfl
@[simp] theorem State.flag_lifeKept : (s.flag a f).lifeKept = s.lifeKept := rfl
@[simp] theorem State.flag_lifeMirror : (s.flag a f).lifeMirror = s.lifeMirror := rfl
@[simp] theorem State.flag_core (k : CoreId) : (s.flag a f).core k = s.core k := rfl
@[simp] theorem State.flag_eng (k : CoreId) (l : Cls) : (s.flag a f).eng k l = s.eng k l := rfl
@[simp] theorem State.flag_region (k : RegionId) : (s.flag a f).region k = s.region k := rfl
@[simp] theorem State.flag_mark (k : MarkSpace) (l : Nat) : (s.flag a f).mark k l = s.mark k l := rfl
@[simp] theorem State.flag_hread (k : CoreId) (x y : Nat) : (s.flag a f).hread k x y = s.hread k x y := rfl
@[simp] theorem State.flag_hnat (k : CoreId) (x y : Nat) : (s.flag a f).hnat k x y = s.hnat k x y := rfl
@[simp] theorem State.flag_sread (k x y : Nat) : (s.flag a f).sread k x y = s.sread k x y := rfl
@[simp] theorem State.flag_fread (x y : Nat) : (s.flag a f).fread x y = s.fread x y := rfl
@[simp] theorem State.flag_iread (k : CoreId) (l x y : Nat) : (s.flag a f).iread k l x y = s.iread k l x y := rfl
end

section
variable (m : MarkSpace) (i v : Nat)
@[simp] theorem State.setMark_pending : (s.setMark m i v).pending = s.pending := rfl
@[simp] theorem State.setMark_now : (s.setMark m i v).now = s.now := rfl
@[simp] theorem State.setMark_alm : (s.setMark m i v).alm = s.alm := rfl
@[simp] theorem State.setMark_freeCtr : (s.setMark m i v).freeCtr = s.freeCtr := rfl
@[simp] theorem State.setMark_access : (s.setMark m i v).access = s.access := rfl
@[simp] theorem State.setMark_regs : (s.setMark m i v).regs = s.regs := rfl
@[simp] theorem State.setMark_hearth : (s.setMark m i v).hearth = s.hearth := rfl
@[simp] theorem State.setMark_istore : (s.setMark m i v).istore = s.istore := rfl
@[simp] theorem State.setMark_scratch : (s.setMark m i v).scratch = s.scratch := rfl
@[simp] theorem State.setMark_fabric : (s.setMark m i v).fabric = s.fabric := rfl
@[simp] theorem State.setMark_cores : (s.setMark m i v).cores = s.cores := rfl
@[simp] theorem State.setMark_regions : (s.setMark m i v).regions = s.regions := rfl
@[simp] theorem State.setMark_phaseB : (s.setMark m i v).phaseB = s.phaseB := rfl
@[simp] theorem State.setMark_phaseC : (s.setMark m i v).phaseC = s.phaseC := rfl
@[simp] theorem State.setMark_flight : (s.setMark m i v).flight = s.flight := rfl
@[simp] theorem State.setMark_origin : (s.setMark m i v).origin = s.origin := rfl
@[simp] theorem State.setMark_admitQ : (s.setMark m i v).admitQ = s.admitQ := rfl
@[simp] theorem State.setMark_flueNotes : (s.setMark m i v).flueNotes = s.flueNotes := rfl
@[simp] theorem State.setMark_damperOld : (s.setMark m i v).damperOld = s.damperOld := rfl
@[simp] theorem State.setMark_damperNext : (s.setMark m i v).damperNext = s.damperNext := rfl
@[simp] theorem State.setMark_ports : (s.setMark m i v).ports = s.ports := rfl
@[simp] theorem State.setMark_times : (s.setMark m i v).times = s.times := rfl
@[simp] theorem State.setMark_lock : (s.setMark m i v).lock = s.lock := rfl
@[simp] theorem State.setMark_job : (s.setMark m i v).job = s.job := rfl
@[simp] theorem State.setMark_refBackup : (s.setMark m i v).refBackup = s.refBackup := rfl
@[simp] theorem State.setMark_endpoints : (s.setMark m i v).endpoints = s.endpoints := rfl
@[simp] theorem State.setMark_drainEnd : (s.setMark m i v).drainEnd = s.drainEnd := rfl
@[simp] theorem State.setMark_cmapNext : (s.setMark m i v).cmapNext = s.cmapNext := rfl
@[simp] theorem State.setMark_inReset : (s.setMark m i v).inReset = s.inReset := rfl
@[simp] theorem State.setMark_meshUsed : (s.setMark m i v).meshUsed = s.meshUsed := rfl
@[simp] theorem State.setMark_flues : (s.setMark m i v).flues = s.flues := rfl
@[simp] theorem State.setMark_flueCmd : (s.setMark m i v).flueCmd = s.flueCmd := rfl
@[simp] theorem State.setMark_ash : (s.setMark m i v).ash = s.ash := rfl
@[simp] theorem State.setMark_reports : (s.setMark m i v).reports = s.reports := rfl
@[simp] theorem State.setMark_reported : (s.setMark m i v).reported = s.reported := rfl
@[simp] theorem State.setMark_cache : (s.setMark m i v).cache = s.cache := rfl
@[simp] theorem State.setMark_buffers : (s.setMark m i v).buffers = s.buffers := rfl
@[simp] theorem State.setMark_answer : (s.setMark m i v).answer = s.answer := rfl
@[simp] theorem State.setMark_life : (s.setMark m i v).life = s.life := rfl
@[simp] theorem State.setMark_health : (s.setMark m i v).health = s.health := rfl
@[simp] theorem State.setMark_healthNext : (s.setMark m i v).healthNext = s.healthNext := rfl
@[simp] theorem State.setMark_late : (s.setMark m i v).late = s.late := rfl
@[simp] theorem State.setMark_beats : (s.setMark m i v).beats = s.beats := rfl
@[simp] theorem State.setMark_stuck : (s.setMark m i v).stuck = s.stuck := rfl
@[simp] theorem State.setMark_subst : (s.setMark m i v).subst = s.subst := rfl
@[simp] theorem State.setMark_digs : (s.setMark m i v).digs = s.digs := rfl
@[simp] theorem State.setMark_peerDigs : (s.setMark m i v).peerDigs = s.peerDigs := rfl
@[simp] theorem State.setMark_shadow : (s.setMark m i v).shadow = s.shadow := rfl
@[simp] theorem State.setMark_transit : (s.setMark m i v).transit = s.transit := rfl
@[simp] theorem State.setMark_recLost : (s.setMark m i v).recLost = s.recLost := rfl
@[simp] theorem State.setMark_replay : (s.setMark m i v).replay = s.replay := rfl
@[simp] theorem State.setMark_vigil : (s.setMark m i v).vigil = s.vigil := rfl
@[simp] theorem State.setMark_power : (s.setMark m i v).power = s.power := rfl
@[simp] theorem State.setMark_lifeKept : (s.setMark m i v).lifeKept = s.lifeKept := rfl
@[simp] theorem State.setMark_lifeMirror : (s.setMark m i v).lifeMirror = s.lifeMirror := rfl
@[simp] theorem State.setMark_reg (k : Nat) : (s.setMark m i v).reg k = s.reg k := rfl
@[simp] theorem State.setMark_fld (k : Nat) (g : Fld) : (s.setMark m i v).fld k g = s.fld k g := rfl
@[simp] theorem State.setMark_isOn (k : Nat) (g : Fld) : (s.setMark m i v).isOn k g = s.isOn k g := rfl
@[simp] theorem State.setMark_mstate : (s.setMark m i v).mstate = s.mstate := rfl
@[simp] theorem State.setMark_core (k : CoreId) : (s.setMark m i v).core k = s.core k := rfl
@[simp] theorem State.setMark_eng (k : CoreId) (l : Cls) : (s.setMark m i v).eng k l = s.eng k l := rfl
@[simp] theorem State.setMark_region (k : RegionId) : (s.setMark m i v).region k = s.region k := rfl
@[simp] theorem State.setMark_hread (k : CoreId) (x y : Nat) : (s.setMark m i v).hread k x y = s.hread k x y := rfl
@[simp] theorem State.setMark_hnat (k : CoreId) (x y : Nat) : (s.setMark m i v).hnat k x y = s.hnat k x y := rfl
@[simp] theorem State.setMark_sread (k x y : Nat) : (s.setMark m i v).sread k x y = s.sread k x y := rfl
@[simp] theorem State.setMark_fread (x y : Nat) : (s.setMark m i v).fread x y = s.fread x y := rfl
@[simp] theorem State.setMark_iread (k : CoreId) (l x y : Nat) : (s.setMark m i v).iread k l x y = s.iread k l x y := rfl
end

section
variable (m : MarkSpace) (i j : Nat)
@[simp] theorem State.unmark_pending : (s.unmark m i j).pending = s.pending := rfl
@[simp] theorem State.unmark_now : (s.unmark m i j).now = s.now := rfl
@[simp] theorem State.unmark_alm : (s.unmark m i j).alm = s.alm := rfl
@[simp] theorem State.unmark_freeCtr : (s.unmark m i j).freeCtr = s.freeCtr := rfl
@[simp] theorem State.unmark_access : (s.unmark m i j).access = s.access := rfl
@[simp] theorem State.unmark_regs : (s.unmark m i j).regs = s.regs := rfl
@[simp] theorem State.unmark_hearth : (s.unmark m i j).hearth = s.hearth := rfl
@[simp] theorem State.unmark_istore : (s.unmark m i j).istore = s.istore := rfl
@[simp] theorem State.unmark_scratch : (s.unmark m i j).scratch = s.scratch := rfl
@[simp] theorem State.unmark_fabric : (s.unmark m i j).fabric = s.fabric := rfl
@[simp] theorem State.unmark_cores : (s.unmark m i j).cores = s.cores := rfl
@[simp] theorem State.unmark_regions : (s.unmark m i j).regions = s.regions := rfl
@[simp] theorem State.unmark_phaseB : (s.unmark m i j).phaseB = s.phaseB := rfl
@[simp] theorem State.unmark_phaseC : (s.unmark m i j).phaseC = s.phaseC := rfl
@[simp] theorem State.unmark_flight : (s.unmark m i j).flight = s.flight := rfl
@[simp] theorem State.unmark_origin : (s.unmark m i j).origin = s.origin := rfl
@[simp] theorem State.unmark_admitQ : (s.unmark m i j).admitQ = s.admitQ := rfl
@[simp] theorem State.unmark_flueNotes : (s.unmark m i j).flueNotes = s.flueNotes := rfl
@[simp] theorem State.unmark_damperOld : (s.unmark m i j).damperOld = s.damperOld := rfl
@[simp] theorem State.unmark_damperNext : (s.unmark m i j).damperNext = s.damperNext := rfl
@[simp] theorem State.unmark_ports : (s.unmark m i j).ports = s.ports := rfl
@[simp] theorem State.unmark_times : (s.unmark m i j).times = s.times := rfl
@[simp] theorem State.unmark_lock : (s.unmark m i j).lock = s.lock := rfl
@[simp] theorem State.unmark_job : (s.unmark m i j).job = s.job := rfl
@[simp] theorem State.unmark_refBackup : (s.unmark m i j).refBackup = s.refBackup := rfl
@[simp] theorem State.unmark_endpoints : (s.unmark m i j).endpoints = s.endpoints := rfl
@[simp] theorem State.unmark_drainEnd : (s.unmark m i j).drainEnd = s.drainEnd := rfl
@[simp] theorem State.unmark_cmapNext : (s.unmark m i j).cmapNext = s.cmapNext := rfl
@[simp] theorem State.unmark_inReset : (s.unmark m i j).inReset = s.inReset := rfl
@[simp] theorem State.unmark_meshUsed : (s.unmark m i j).meshUsed = s.meshUsed := rfl
@[simp] theorem State.unmark_flues : (s.unmark m i j).flues = s.flues := rfl
@[simp] theorem State.unmark_flueCmd : (s.unmark m i j).flueCmd = s.flueCmd := rfl
@[simp] theorem State.unmark_ash : (s.unmark m i j).ash = s.ash := rfl
@[simp] theorem State.unmark_reports : (s.unmark m i j).reports = s.reports := rfl
@[simp] theorem State.unmark_reported : (s.unmark m i j).reported = s.reported := rfl
@[simp] theorem State.unmark_cache : (s.unmark m i j).cache = s.cache := rfl
@[simp] theorem State.unmark_buffers : (s.unmark m i j).buffers = s.buffers := rfl
@[simp] theorem State.unmark_answer : (s.unmark m i j).answer = s.answer := rfl
@[simp] theorem State.unmark_life : (s.unmark m i j).life = s.life := rfl
@[simp] theorem State.unmark_health : (s.unmark m i j).health = s.health := rfl
@[simp] theorem State.unmark_healthNext : (s.unmark m i j).healthNext = s.healthNext := rfl
@[simp] theorem State.unmark_late : (s.unmark m i j).late = s.late := rfl
@[simp] theorem State.unmark_beats : (s.unmark m i j).beats = s.beats := rfl
@[simp] theorem State.unmark_stuck : (s.unmark m i j).stuck = s.stuck := rfl
@[simp] theorem State.unmark_subst : (s.unmark m i j).subst = s.subst := rfl
@[simp] theorem State.unmark_digs : (s.unmark m i j).digs = s.digs := rfl
@[simp] theorem State.unmark_peerDigs : (s.unmark m i j).peerDigs = s.peerDigs := rfl
@[simp] theorem State.unmark_shadow : (s.unmark m i j).shadow = s.shadow := rfl
@[simp] theorem State.unmark_transit : (s.unmark m i j).transit = s.transit := rfl
@[simp] theorem State.unmark_recLost : (s.unmark m i j).recLost = s.recLost := rfl
@[simp] theorem State.unmark_replay : (s.unmark m i j).replay = s.replay := rfl
@[simp] theorem State.unmark_vigil : (s.unmark m i j).vigil = s.vigil := rfl
@[simp] theorem State.unmark_power : (s.unmark m i j).power = s.power := rfl
@[simp] theorem State.unmark_lifeKept : (s.unmark m i j).lifeKept = s.lifeKept := rfl
@[simp] theorem State.unmark_lifeMirror : (s.unmark m i j).lifeMirror = s.lifeMirror := rfl
@[simp] theorem State.unmark_reg (k : Nat) : (s.unmark m i j).reg k = s.reg k := rfl
@[simp] theorem State.unmark_fld (k : Nat) (g : Fld) : (s.unmark m i j).fld k g = s.fld k g := rfl
@[simp] theorem State.unmark_isOn (k : Nat) (g : Fld) : (s.unmark m i j).isOn k g = s.isOn k g := rfl
@[simp] theorem State.unmark_mstate : (s.unmark m i j).mstate = s.mstate := rfl
@[simp] theorem State.unmark_core (k : CoreId) : (s.unmark m i j).core k = s.core k := rfl
@[simp] theorem State.unmark_eng (k : CoreId) (l : Cls) : (s.unmark m i j).eng k l = s.eng k l := rfl
@[simp] theorem State.unmark_region (k : RegionId) : (s.unmark m i j).region k = s.region k := rfl
@[simp] theorem State.unmark_hread (k : CoreId) (x y : Nat) : (s.unmark m i j).hread k x y = s.hread k x y := rfl
@[simp] theorem State.unmark_hnat (k : CoreId) (x y : Nat) : (s.unmark m i j).hnat k x y = s.hnat k x y := rfl
@[simp] theorem State.unmark_sread (k x y : Nat) : (s.unmark m i j).sread k x y = s.sread k x y := rfl
@[simp] theorem State.unmark_fread (x y : Nat) : (s.unmark m i j).fread x y = s.fread x y := rfl
@[simp] theorem State.unmark_iread (k : CoreId) (l x y : Nat) : (s.unmark m i j).iread k l x y = s.iread k l x y := rfl
end

section
variable (c : CoreId) (a : Nat) (bs : List Byte)
@[simp] theorem State.hwrite_pending : (s.hwrite c a bs).pending = s.pending := rfl
@[simp] theorem State.hwrite_now : (s.hwrite c a bs).now = s.now := rfl
@[simp] theorem State.hwrite_alm : (s.hwrite c a bs).alm = s.alm := rfl
@[simp] theorem State.hwrite_freeCtr : (s.hwrite c a bs).freeCtr = s.freeCtr := rfl
@[simp] theorem State.hwrite_access : (s.hwrite c a bs).access = s.access := rfl
@[simp] theorem State.hwrite_regs : (s.hwrite c a bs).regs = s.regs := rfl
@[simp] theorem State.hwrite_istore : (s.hwrite c a bs).istore = s.istore := rfl
@[simp] theorem State.hwrite_scratch : (s.hwrite c a bs).scratch = s.scratch := rfl
@[simp] theorem State.hwrite_fabric : (s.hwrite c a bs).fabric = s.fabric := rfl
@[simp] theorem State.hwrite_cores : (s.hwrite c a bs).cores = s.cores := rfl
@[simp] theorem State.hwrite_regions : (s.hwrite c a bs).regions = s.regions := rfl
@[simp] theorem State.hwrite_phaseB : (s.hwrite c a bs).phaseB = s.phaseB := rfl
@[simp] theorem State.hwrite_phaseC : (s.hwrite c a bs).phaseC = s.phaseC := rfl
@[simp] theorem State.hwrite_flight : (s.hwrite c a bs).flight = s.flight := rfl
@[simp] theorem State.hwrite_origin : (s.hwrite c a bs).origin = s.origin := rfl
@[simp] theorem State.hwrite_admitQ : (s.hwrite c a bs).admitQ = s.admitQ := rfl
@[simp] theorem State.hwrite_flueNotes : (s.hwrite c a bs).flueNotes = s.flueNotes := rfl
@[simp] theorem State.hwrite_damperOld : (s.hwrite c a bs).damperOld = s.damperOld := rfl
@[simp] theorem State.hwrite_damperNext : (s.hwrite c a bs).damperNext = s.damperNext := rfl
@[simp] theorem State.hwrite_ports : (s.hwrite c a bs).ports = s.ports := rfl
@[simp] theorem State.hwrite_times : (s.hwrite c a bs).times = s.times := rfl
@[simp] theorem State.hwrite_lock : (s.hwrite c a bs).lock = s.lock := rfl
@[simp] theorem State.hwrite_job : (s.hwrite c a bs).job = s.job := rfl
@[simp] theorem State.hwrite_refBackup : (s.hwrite c a bs).refBackup = s.refBackup := rfl
@[simp] theorem State.hwrite_endpoints : (s.hwrite c a bs).endpoints = s.endpoints := rfl
@[simp] theorem State.hwrite_drainEnd : (s.hwrite c a bs).drainEnd = s.drainEnd := rfl
@[simp] theorem State.hwrite_cmapNext : (s.hwrite c a bs).cmapNext = s.cmapNext := rfl
@[simp] theorem State.hwrite_inReset : (s.hwrite c a bs).inReset = s.inReset := rfl
@[simp] theorem State.hwrite_meshUsed : (s.hwrite c a bs).meshUsed = s.meshUsed := rfl
@[simp] theorem State.hwrite_flues : (s.hwrite c a bs).flues = s.flues := rfl
@[simp] theorem State.hwrite_flueCmd : (s.hwrite c a bs).flueCmd = s.flueCmd := rfl
@[simp] theorem State.hwrite_ash : (s.hwrite c a bs).ash = s.ash := rfl
@[simp] theorem State.hwrite_reports : (s.hwrite c a bs).reports = s.reports := rfl
@[simp] theorem State.hwrite_reported : (s.hwrite c a bs).reported = s.reported := rfl
@[simp] theorem State.hwrite_cache : (s.hwrite c a bs).cache = s.cache := rfl
@[simp] theorem State.hwrite_buffers : (s.hwrite c a bs).buffers = s.buffers := rfl
@[simp] theorem State.hwrite_answer : (s.hwrite c a bs).answer = s.answer := rfl
@[simp] theorem State.hwrite_life : (s.hwrite c a bs).life = s.life := rfl
@[simp] theorem State.hwrite_health : (s.hwrite c a bs).health = s.health := rfl
@[simp] theorem State.hwrite_healthNext : (s.hwrite c a bs).healthNext = s.healthNext := rfl
@[simp] theorem State.hwrite_late : (s.hwrite c a bs).late = s.late := rfl
@[simp] theorem State.hwrite_beats : (s.hwrite c a bs).beats = s.beats := rfl
@[simp] theorem State.hwrite_stuck : (s.hwrite c a bs).stuck = s.stuck := rfl
@[simp] theorem State.hwrite_subst : (s.hwrite c a bs).subst = s.subst := rfl
@[simp] theorem State.hwrite_digs : (s.hwrite c a bs).digs = s.digs := rfl
@[simp] theorem State.hwrite_peerDigs : (s.hwrite c a bs).peerDigs = s.peerDigs := rfl
@[simp] theorem State.hwrite_shadow : (s.hwrite c a bs).shadow = s.shadow := rfl
@[simp] theorem State.hwrite_transit : (s.hwrite c a bs).transit = s.transit := rfl
@[simp] theorem State.hwrite_recLost : (s.hwrite c a bs).recLost = s.recLost := rfl
@[simp] theorem State.hwrite_replay : (s.hwrite c a bs).replay = s.replay := rfl
@[simp] theorem State.hwrite_vigil : (s.hwrite c a bs).vigil = s.vigil := rfl
@[simp] theorem State.hwrite_power : (s.hwrite c a bs).power = s.power := rfl
@[simp] theorem State.hwrite_lifeKept : (s.hwrite c a bs).lifeKept = s.lifeKept := rfl
@[simp] theorem State.hwrite_lifeMirror : (s.hwrite c a bs).lifeMirror = s.lifeMirror := rfl
@[simp] theorem State.hwrite_reg (k : Nat) : (s.hwrite c a bs).reg k = s.reg k := rfl
@[simp] theorem State.hwrite_fld (k : Nat) (g : Fld) : (s.hwrite c a bs).fld k g = s.fld k g := rfl
@[simp] theorem State.hwrite_isOn (k : Nat) (g : Fld) : (s.hwrite c a bs).isOn k g = s.isOn k g := rfl
@[simp] theorem State.hwrite_mstate : (s.hwrite c a bs).mstate = s.mstate := rfl
@[simp] theorem State.hwrite_core (k : CoreId) : (s.hwrite c a bs).core k = s.core k := rfl
@[simp] theorem State.hwrite_eng (k : CoreId) (l : Cls) : (s.hwrite c a bs).eng k l = s.eng k l := rfl
@[simp] theorem State.hwrite_region (k : RegionId) : (s.hwrite c a bs).region k = s.region k := rfl
@[simp] theorem State.hwrite_sread (k x y : Nat) : (s.hwrite c a bs).sread k x y = s.sread k x y := rfl
@[simp] theorem State.hwrite_fread (x y : Nat) : (s.hwrite c a bs).fread x y = s.fread x y := rfl
@[simp] theorem State.hwrite_iread (k : CoreId) (l x y : Nat) : (s.hwrite c a bs).iread k l x y = s.iread k l x y := rfl
end

section
variable (d a : Nat) (bs : List Byte)
@[simp] theorem State.swrite_pending : (s.swrite d a bs).pending = s.pending := rfl
@[simp] theorem State.swrite_now : (s.swrite d a bs).now = s.now := rfl
@[simp] theorem State.swrite_alm : (s.swrite d a bs).alm = s.alm := rfl
@[simp] theorem State.swrite_freeCtr : (s.swrite d a bs).freeCtr = s.freeCtr := rfl
@[simp] theorem State.swrite_access : (s.swrite d a bs).access = s.access := rfl
@[simp] theorem State.swrite_regs : (s.swrite d a bs).regs = s.regs := rfl
@[simp] theorem State.swrite_hearth : (s.swrite d a bs).hearth = s.hearth := rfl
@[simp] theorem State.swrite_istore : (s.swrite d a bs).istore = s.istore := rfl
@[simp] theorem State.swrite_fabric : (s.swrite d a bs).fabric = s.fabric := rfl
@[simp] theorem State.swrite_cores : (s.swrite d a bs).cores = s.cores := rfl
@[simp] theorem State.swrite_regions : (s.swrite d a bs).regions = s.regions := rfl
@[simp] theorem State.swrite_phaseB : (s.swrite d a bs).phaseB = s.phaseB := rfl
@[simp] theorem State.swrite_phaseC : (s.swrite d a bs).phaseC = s.phaseC := rfl
@[simp] theorem State.swrite_flight : (s.swrite d a bs).flight = s.flight := rfl
@[simp] theorem State.swrite_origin : (s.swrite d a bs).origin = s.origin := rfl
@[simp] theorem State.swrite_admitQ : (s.swrite d a bs).admitQ = s.admitQ := rfl
@[simp] theorem State.swrite_flueNotes : (s.swrite d a bs).flueNotes = s.flueNotes := rfl
@[simp] theorem State.swrite_damperOld : (s.swrite d a bs).damperOld = s.damperOld := rfl
@[simp] theorem State.swrite_damperNext : (s.swrite d a bs).damperNext = s.damperNext := rfl
@[simp] theorem State.swrite_ports : (s.swrite d a bs).ports = s.ports := rfl
@[simp] theorem State.swrite_times : (s.swrite d a bs).times = s.times := rfl
@[simp] theorem State.swrite_lock : (s.swrite d a bs).lock = s.lock := rfl
@[simp] theorem State.swrite_job : (s.swrite d a bs).job = s.job := rfl
@[simp] theorem State.swrite_refBackup : (s.swrite d a bs).refBackup = s.refBackup := rfl
@[simp] theorem State.swrite_endpoints : (s.swrite d a bs).endpoints = s.endpoints := rfl
@[simp] theorem State.swrite_drainEnd : (s.swrite d a bs).drainEnd = s.drainEnd := rfl
@[simp] theorem State.swrite_cmapNext : (s.swrite d a bs).cmapNext = s.cmapNext := rfl
@[simp] theorem State.swrite_inReset : (s.swrite d a bs).inReset = s.inReset := rfl
@[simp] theorem State.swrite_meshUsed : (s.swrite d a bs).meshUsed = s.meshUsed := rfl
@[simp] theorem State.swrite_flues : (s.swrite d a bs).flues = s.flues := rfl
@[simp] theorem State.swrite_flueCmd : (s.swrite d a bs).flueCmd = s.flueCmd := rfl
@[simp] theorem State.swrite_ash : (s.swrite d a bs).ash = s.ash := rfl
@[simp] theorem State.swrite_reports : (s.swrite d a bs).reports = s.reports := rfl
@[simp] theorem State.swrite_reported : (s.swrite d a bs).reported = s.reported := rfl
@[simp] theorem State.swrite_cache : (s.swrite d a bs).cache = s.cache := rfl
@[simp] theorem State.swrite_buffers : (s.swrite d a bs).buffers = s.buffers := rfl
@[simp] theorem State.swrite_answer : (s.swrite d a bs).answer = s.answer := rfl
@[simp] theorem State.swrite_life : (s.swrite d a bs).life = s.life := rfl
@[simp] theorem State.swrite_health : (s.swrite d a bs).health = s.health := rfl
@[simp] theorem State.swrite_healthNext : (s.swrite d a bs).healthNext = s.healthNext := rfl
@[simp] theorem State.swrite_late : (s.swrite d a bs).late = s.late := rfl
@[simp] theorem State.swrite_beats : (s.swrite d a bs).beats = s.beats := rfl
@[simp] theorem State.swrite_stuck : (s.swrite d a bs).stuck = s.stuck := rfl
@[simp] theorem State.swrite_subst : (s.swrite d a bs).subst = s.subst := rfl
@[simp] theorem State.swrite_digs : (s.swrite d a bs).digs = s.digs := rfl
@[simp] theorem State.swrite_peerDigs : (s.swrite d a bs).peerDigs = s.peerDigs := rfl
@[simp] theorem State.swrite_shadow : (s.swrite d a bs).shadow = s.shadow := rfl
@[simp] theorem State.swrite_transit : (s.swrite d a bs).transit = s.transit := rfl
@[simp] theorem State.swrite_recLost : (s.swrite d a bs).recLost = s.recLost := rfl
@[simp] theorem State.swrite_replay : (s.swrite d a bs).replay = s.replay := rfl
@[simp] theorem State.swrite_vigil : (s.swrite d a bs).vigil = s.vigil := rfl
@[simp] theorem State.swrite_power : (s.swrite d a bs).power = s.power := rfl
@[simp] theorem State.swrite_lifeKept : (s.swrite d a bs).lifeKept = s.lifeKept := rfl
@[simp] theorem State.swrite_lifeMirror : (s.swrite d a bs).lifeMirror = s.lifeMirror := rfl
@[simp] theorem State.swrite_reg (k : Nat) : (s.swrite d a bs).reg k = s.reg k := rfl
@[simp] theorem State.swrite_fld (k : Nat) (g : Fld) : (s.swrite d a bs).fld k g = s.fld k g := rfl
@[simp] theorem State.swrite_isOn (k : Nat) (g : Fld) : (s.swrite d a bs).isOn k g = s.isOn k g := rfl
@[simp] theorem State.swrite_mstate : (s.swrite d a bs).mstate = s.mstate := rfl
@[simp] theorem State.swrite_core (k : CoreId) : (s.swrite d a bs).core k = s.core k := rfl
@[simp] theorem State.swrite_eng (k : CoreId) (l : Cls) : (s.swrite d a bs).eng k l = s.eng k l := rfl
@[simp] theorem State.swrite_region (k : RegionId) : (s.swrite d a bs).region k = s.region k := rfl
@[simp] theorem State.swrite_hread (k : CoreId) (x y : Nat) : (s.swrite d a bs).hread k x y = s.hread k x y := rfl
@[simp] theorem State.swrite_hnat (k : CoreId) (x y : Nat) : (s.swrite d a bs).hnat k x y = s.hnat k x y := rfl
@[simp] theorem State.swrite_fread (x y : Nat) : (s.swrite d a bs).fread x y = s.fread x y := rfl
@[simp] theorem State.swrite_iread (k : CoreId) (l x y : Nat) : (s.swrite d a bs).iread k l x y = s.iread k l x y := rfl
end

section
variable (a : Nat) (bs : List Byte)
@[simp] theorem State.fwrite_pending : (s.fwrite a bs).pending = s.pending := rfl
@[simp] theorem State.fwrite_now : (s.fwrite a bs).now = s.now := rfl
@[simp] theorem State.fwrite_alm : (s.fwrite a bs).alm = s.alm := rfl
@[simp] theorem State.fwrite_freeCtr : (s.fwrite a bs).freeCtr = s.freeCtr := rfl
@[simp] theorem State.fwrite_access : (s.fwrite a bs).access = s.access := rfl
@[simp] theorem State.fwrite_regs : (s.fwrite a bs).regs = s.regs := rfl
@[simp] theorem State.fwrite_hearth : (s.fwrite a bs).hearth = s.hearth := rfl
@[simp] theorem State.fwrite_istore : (s.fwrite a bs).istore = s.istore := rfl
@[simp] theorem State.fwrite_scratch : (s.fwrite a bs).scratch = s.scratch := rfl
@[simp] theorem State.fwrite_cores : (s.fwrite a bs).cores = s.cores := rfl
@[simp] theorem State.fwrite_regions : (s.fwrite a bs).regions = s.regions := rfl
@[simp] theorem State.fwrite_phaseB : (s.fwrite a bs).phaseB = s.phaseB := rfl
@[simp] theorem State.fwrite_phaseC : (s.fwrite a bs).phaseC = s.phaseC := rfl
@[simp] theorem State.fwrite_flight : (s.fwrite a bs).flight = s.flight := rfl
@[simp] theorem State.fwrite_origin : (s.fwrite a bs).origin = s.origin := rfl
@[simp] theorem State.fwrite_admitQ : (s.fwrite a bs).admitQ = s.admitQ := rfl
@[simp] theorem State.fwrite_flueNotes : (s.fwrite a bs).flueNotes = s.flueNotes := rfl
@[simp] theorem State.fwrite_damperOld : (s.fwrite a bs).damperOld = s.damperOld := rfl
@[simp] theorem State.fwrite_damperNext : (s.fwrite a bs).damperNext = s.damperNext := rfl
@[simp] theorem State.fwrite_ports : (s.fwrite a bs).ports = s.ports := rfl
@[simp] theorem State.fwrite_times : (s.fwrite a bs).times = s.times := rfl
@[simp] theorem State.fwrite_lock : (s.fwrite a bs).lock = s.lock := rfl
@[simp] theorem State.fwrite_job : (s.fwrite a bs).job = s.job := rfl
@[simp] theorem State.fwrite_refBackup : (s.fwrite a bs).refBackup = s.refBackup := rfl
@[simp] theorem State.fwrite_endpoints : (s.fwrite a bs).endpoints = s.endpoints := rfl
@[simp] theorem State.fwrite_drainEnd : (s.fwrite a bs).drainEnd = s.drainEnd := rfl
@[simp] theorem State.fwrite_cmapNext : (s.fwrite a bs).cmapNext = s.cmapNext := rfl
@[simp] theorem State.fwrite_inReset : (s.fwrite a bs).inReset = s.inReset := rfl
@[simp] theorem State.fwrite_meshUsed : (s.fwrite a bs).meshUsed = s.meshUsed := rfl
@[simp] theorem State.fwrite_flues : (s.fwrite a bs).flues = s.flues := rfl
@[simp] theorem State.fwrite_flueCmd : (s.fwrite a bs).flueCmd = s.flueCmd := rfl
@[simp] theorem State.fwrite_ash : (s.fwrite a bs).ash = s.ash := rfl
@[simp] theorem State.fwrite_reports : (s.fwrite a bs).reports = s.reports := rfl
@[simp] theorem State.fwrite_reported : (s.fwrite a bs).reported = s.reported := rfl
@[simp] theorem State.fwrite_cache : (s.fwrite a bs).cache = s.cache := rfl
@[simp] theorem State.fwrite_buffers : (s.fwrite a bs).buffers = s.buffers := rfl
@[simp] theorem State.fwrite_answer : (s.fwrite a bs).answer = s.answer := rfl
@[simp] theorem State.fwrite_life : (s.fwrite a bs).life = s.life := rfl
@[simp] theorem State.fwrite_health : (s.fwrite a bs).health = s.health := rfl
@[simp] theorem State.fwrite_healthNext : (s.fwrite a bs).healthNext = s.healthNext := rfl
@[simp] theorem State.fwrite_late : (s.fwrite a bs).late = s.late := rfl
@[simp] theorem State.fwrite_beats : (s.fwrite a bs).beats = s.beats := rfl
@[simp] theorem State.fwrite_stuck : (s.fwrite a bs).stuck = s.stuck := rfl
@[simp] theorem State.fwrite_subst : (s.fwrite a bs).subst = s.subst := rfl
@[simp] theorem State.fwrite_digs : (s.fwrite a bs).digs = s.digs := rfl
@[simp] theorem State.fwrite_peerDigs : (s.fwrite a bs).peerDigs = s.peerDigs := rfl
@[simp] theorem State.fwrite_shadow : (s.fwrite a bs).shadow = s.shadow := rfl
@[simp] theorem State.fwrite_transit : (s.fwrite a bs).transit = s.transit := rfl
@[simp] theorem State.fwrite_recLost : (s.fwrite a bs).recLost = s.recLost := rfl
@[simp] theorem State.fwrite_replay : (s.fwrite a bs).replay = s.replay := rfl
@[simp] theorem State.fwrite_vigil : (s.fwrite a bs).vigil = s.vigil := rfl
@[simp] theorem State.fwrite_power : (s.fwrite a bs).power = s.power := rfl
@[simp] theorem State.fwrite_lifeKept : (s.fwrite a bs).lifeKept = s.lifeKept := rfl
@[simp] theorem State.fwrite_lifeMirror : (s.fwrite a bs).lifeMirror = s.lifeMirror := rfl
@[simp] theorem State.fwrite_reg (k : Nat) : (s.fwrite a bs).reg k = s.reg k := rfl
@[simp] theorem State.fwrite_fld (k : Nat) (g : Fld) : (s.fwrite a bs).fld k g = s.fld k g := rfl
@[simp] theorem State.fwrite_isOn (k : Nat) (g : Fld) : (s.fwrite a bs).isOn k g = s.isOn k g := rfl
@[simp] theorem State.fwrite_mstate : (s.fwrite a bs).mstate = s.mstate := rfl
@[simp] theorem State.fwrite_core (k : CoreId) : (s.fwrite a bs).core k = s.core k := rfl
@[simp] theorem State.fwrite_eng (k : CoreId) (l : Cls) : (s.fwrite a bs).eng k l = s.eng k l := rfl
@[simp] theorem State.fwrite_region (k : RegionId) : (s.fwrite a bs).region k = s.region k := rfl
@[simp] theorem State.fwrite_hread (k : CoreId) (x y : Nat) : (s.fwrite a bs).hread k x y = s.hread k x y := rfl
@[simp] theorem State.fwrite_hnat (k : CoreId) (x y : Nat) : (s.fwrite a bs).hnat k x y = s.hnat k x y := rfl
@[simp] theorem State.fwrite_sread (k x y : Nat) : (s.fwrite a bs).sread k x y = s.sread k x y := rfl
@[simp] theorem State.fwrite_iread (k : CoreId) (l x y : Nat) : (s.fwrite a bs).iread k l x y = s.iread k l x y := rfl
end

section
variable (c : CoreId) (b a : Nat) (bs : List Byte)
@[simp] theorem State.iwrite_pending : (s.iwrite c b a bs).pending = s.pending := rfl
@[simp] theorem State.iwrite_now : (s.iwrite c b a bs).now = s.now := rfl
@[simp] theorem State.iwrite_alm : (s.iwrite c b a bs).alm = s.alm := rfl
@[simp] theorem State.iwrite_freeCtr : (s.iwrite c b a bs).freeCtr = s.freeCtr := rfl
@[simp] theorem State.iwrite_access : (s.iwrite c b a bs).access = s.access := rfl
@[simp] theorem State.iwrite_regs : (s.iwrite c b a bs).regs = s.regs := rfl
@[simp] theorem State.iwrite_hearth : (s.iwrite c b a bs).hearth = s.hearth := rfl
@[simp] theorem State.iwrite_scratch : (s.iwrite c b a bs).scratch = s.scratch := rfl
@[simp] theorem State.iwrite_fabric : (s.iwrite c b a bs).fabric = s.fabric := rfl
@[simp] theorem State.iwrite_marks : (s.iwrite c b a bs).marks = s.marks := rfl
@[simp] theorem State.iwrite_cores : (s.iwrite c b a bs).cores = s.cores := rfl
@[simp] theorem State.iwrite_regions : (s.iwrite c b a bs).regions = s.regions := rfl
@[simp] theorem State.iwrite_phaseB : (s.iwrite c b a bs).phaseB = s.phaseB := rfl
@[simp] theorem State.iwrite_phaseC : (s.iwrite c b a bs).phaseC = s.phaseC := rfl
@[simp] theorem State.iwrite_flight : (s.iwrite c b a bs).flight = s.flight := rfl
@[simp] theorem State.iwrite_origin : (s.iwrite c b a bs).origin = s.origin := rfl
@[simp] theorem State.iwrite_admitQ : (s.iwrite c b a bs).admitQ = s.admitQ := rfl
@[simp] theorem State.iwrite_flueNotes : (s.iwrite c b a bs).flueNotes = s.flueNotes := rfl
@[simp] theorem State.iwrite_damperOld : (s.iwrite c b a bs).damperOld = s.damperOld := rfl
@[simp] theorem State.iwrite_damperNext : (s.iwrite c b a bs).damperNext = s.damperNext := rfl
@[simp] theorem State.iwrite_ports : (s.iwrite c b a bs).ports = s.ports := rfl
@[simp] theorem State.iwrite_times : (s.iwrite c b a bs).times = s.times := rfl
@[simp] theorem State.iwrite_lock : (s.iwrite c b a bs).lock = s.lock := rfl
@[simp] theorem State.iwrite_job : (s.iwrite c b a bs).job = s.job := rfl
@[simp] theorem State.iwrite_refBackup : (s.iwrite c b a bs).refBackup = s.refBackup := rfl
@[simp] theorem State.iwrite_endpoints : (s.iwrite c b a bs).endpoints = s.endpoints := rfl
@[simp] theorem State.iwrite_drainEnd : (s.iwrite c b a bs).drainEnd = s.drainEnd := rfl
@[simp] theorem State.iwrite_cmapNext : (s.iwrite c b a bs).cmapNext = s.cmapNext := rfl
@[simp] theorem State.iwrite_inReset : (s.iwrite c b a bs).inReset = s.inReset := rfl
@[simp] theorem State.iwrite_meshUsed : (s.iwrite c b a bs).meshUsed = s.meshUsed := rfl
@[simp] theorem State.iwrite_flues : (s.iwrite c b a bs).flues = s.flues := rfl
@[simp] theorem State.iwrite_flueCmd : (s.iwrite c b a bs).flueCmd = s.flueCmd := rfl
@[simp] theorem State.iwrite_ash : (s.iwrite c b a bs).ash = s.ash := rfl
@[simp] theorem State.iwrite_reports : (s.iwrite c b a bs).reports = s.reports := rfl
@[simp] theorem State.iwrite_reported : (s.iwrite c b a bs).reported = s.reported := rfl
@[simp] theorem State.iwrite_cache : (s.iwrite c b a bs).cache = s.cache := rfl
@[simp] theorem State.iwrite_buffers : (s.iwrite c b a bs).buffers = s.buffers := rfl
@[simp] theorem State.iwrite_answer : (s.iwrite c b a bs).answer = s.answer := rfl
@[simp] theorem State.iwrite_life : (s.iwrite c b a bs).life = s.life := rfl
@[simp] theorem State.iwrite_health : (s.iwrite c b a bs).health = s.health := rfl
@[simp] theorem State.iwrite_healthNext : (s.iwrite c b a bs).healthNext = s.healthNext := rfl
@[simp] theorem State.iwrite_late : (s.iwrite c b a bs).late = s.late := rfl
@[simp] theorem State.iwrite_beats : (s.iwrite c b a bs).beats = s.beats := rfl
@[simp] theorem State.iwrite_stuck : (s.iwrite c b a bs).stuck = s.stuck := rfl
@[simp] theorem State.iwrite_subst : (s.iwrite c b a bs).subst = s.subst := rfl
@[simp] theorem State.iwrite_digs : (s.iwrite c b a bs).digs = s.digs := rfl
@[simp] theorem State.iwrite_peerDigs : (s.iwrite c b a bs).peerDigs = s.peerDigs := rfl
@[simp] theorem State.iwrite_shadow : (s.iwrite c b a bs).shadow = s.shadow := rfl
@[simp] theorem State.iwrite_transit : (s.iwrite c b a bs).transit = s.transit := rfl
@[simp] theorem State.iwrite_recLost : (s.iwrite c b a bs).recLost = s.recLost := rfl
@[simp] theorem State.iwrite_replay : (s.iwrite c b a bs).replay = s.replay := rfl
@[simp] theorem State.iwrite_vigil : (s.iwrite c b a bs).vigil = s.vigil := rfl
@[simp] theorem State.iwrite_power : (s.iwrite c b a bs).power = s.power := rfl
@[simp] theorem State.iwrite_lifeKept : (s.iwrite c b a bs).lifeKept = s.lifeKept := rfl
@[simp] theorem State.iwrite_lifeMirror : (s.iwrite c b a bs).lifeMirror = s.lifeMirror := rfl
@[simp] theorem State.iwrite_reg (k : Nat) : (s.iwrite c b a bs).reg k = s.reg k := rfl
@[simp] theorem State.iwrite_fld (k : Nat) (g : Fld) : (s.iwrite c b a bs).fld k g = s.fld k g := rfl
@[simp] theorem State.iwrite_isOn (k : Nat) (g : Fld) : (s.iwrite c b a bs).isOn k g = s.isOn k g := rfl
@[simp] theorem State.iwrite_mstate : (s.iwrite c b a bs).mstate = s.mstate := rfl
@[simp] theorem State.iwrite_core (k : CoreId) : (s.iwrite c b a bs).core k = s.core k := rfl
@[simp] theorem State.iwrite_eng (k : CoreId) (l : Cls) : (s.iwrite c b a bs).eng k l = s.eng k l := rfl
@[simp] theorem State.iwrite_region (k : RegionId) : (s.iwrite c b a bs).region k = s.region k := rfl
@[simp] theorem State.iwrite_mark (k : MarkSpace) (l : Nat) : (s.iwrite c b a bs).mark k l = s.mark k l := rfl
@[simp] theorem State.iwrite_hread (k : CoreId) (x y : Nat) : (s.iwrite c b a bs).hread k x y = s.hread k x y := rfl
@[simp] theorem State.iwrite_hnat (k : CoreId) (x y : Nat) : (s.iwrite c b a bs).hnat k x y = s.hnat k x y := rfl
@[simp] theorem State.iwrite_sread (k x y : Nat) : (s.iwrite c b a bs).sread k x y = s.sread k x y := rfl
@[simp] theorem State.iwrite_fread (x y : Nat) : (s.iwrite c b a bs).fread x y = s.fread x y := rfl
end

section
variable (a n : Nat)
@[simp] theorem State.lifeAdd_pending : (s.lifeAdd a n).pending = s.pending := rfl
@[simp] theorem State.lifeAdd_now : (s.lifeAdd a n).now = s.now := rfl
@[simp] theorem State.lifeAdd_alm : (s.lifeAdd a n).alm = s.alm := rfl
@[simp] theorem State.lifeAdd_freeCtr : (s.lifeAdd a n).freeCtr = s.freeCtr := rfl
@[simp] theorem State.lifeAdd_access : (s.lifeAdd a n).access = s.access := rfl
@[simp] theorem State.lifeAdd_regs : (s.lifeAdd a n).regs = s.regs := rfl
@[simp] theorem State.lifeAdd_hearth : (s.lifeAdd a n).hearth = s.hearth := rfl
@[simp] theorem State.lifeAdd_istore : (s.lifeAdd a n).istore = s.istore := rfl
@[simp] theorem State.lifeAdd_scratch : (s.lifeAdd a n).scratch = s.scratch := rfl
@[simp] theorem State.lifeAdd_fabric : (s.lifeAdd a n).fabric = s.fabric := rfl
@[simp] theorem State.lifeAdd_marks : (s.lifeAdd a n).marks = s.marks := rfl
@[simp] theorem State.lifeAdd_cores : (s.lifeAdd a n).cores = s.cores := rfl
@[simp] theorem State.lifeAdd_regions : (s.lifeAdd a n).regions = s.regions := rfl
@[simp] theorem State.lifeAdd_phaseB : (s.lifeAdd a n).phaseB = s.phaseB := rfl
@[simp] theorem State.lifeAdd_phaseC : (s.lifeAdd a n).phaseC = s.phaseC := rfl
@[simp] theorem State.lifeAdd_flight : (s.lifeAdd a n).flight = s.flight := rfl
@[simp] theorem State.lifeAdd_origin : (s.lifeAdd a n).origin = s.origin := rfl
@[simp] theorem State.lifeAdd_admitQ : (s.lifeAdd a n).admitQ = s.admitQ := rfl
@[simp] theorem State.lifeAdd_flueNotes : (s.lifeAdd a n).flueNotes = s.flueNotes := rfl
@[simp] theorem State.lifeAdd_damperOld : (s.lifeAdd a n).damperOld = s.damperOld := rfl
@[simp] theorem State.lifeAdd_damperNext : (s.lifeAdd a n).damperNext = s.damperNext := rfl
@[simp] theorem State.lifeAdd_ports : (s.lifeAdd a n).ports = s.ports := rfl
@[simp] theorem State.lifeAdd_times : (s.lifeAdd a n).times = s.times := rfl
@[simp] theorem State.lifeAdd_lock : (s.lifeAdd a n).lock = s.lock := rfl
@[simp] theorem State.lifeAdd_job : (s.lifeAdd a n).job = s.job := rfl
@[simp] theorem State.lifeAdd_refBackup : (s.lifeAdd a n).refBackup = s.refBackup := rfl
@[simp] theorem State.lifeAdd_endpoints : (s.lifeAdd a n).endpoints = s.endpoints := rfl
@[simp] theorem State.lifeAdd_drainEnd : (s.lifeAdd a n).drainEnd = s.drainEnd := rfl
@[simp] theorem State.lifeAdd_cmapNext : (s.lifeAdd a n).cmapNext = s.cmapNext := rfl
@[simp] theorem State.lifeAdd_inReset : (s.lifeAdd a n).inReset = s.inReset := rfl
@[simp] theorem State.lifeAdd_meshUsed : (s.lifeAdd a n).meshUsed = s.meshUsed := rfl
@[simp] theorem State.lifeAdd_flues : (s.lifeAdd a n).flues = s.flues := rfl
@[simp] theorem State.lifeAdd_flueCmd : (s.lifeAdd a n).flueCmd = s.flueCmd := rfl
@[simp] theorem State.lifeAdd_ash : (s.lifeAdd a n).ash = s.ash := rfl
@[simp] theorem State.lifeAdd_reports : (s.lifeAdd a n).reports = s.reports := rfl
@[simp] theorem State.lifeAdd_reported : (s.lifeAdd a n).reported = s.reported := rfl
@[simp] theorem State.lifeAdd_cache : (s.lifeAdd a n).cache = s.cache := rfl
@[simp] theorem State.lifeAdd_buffers : (s.lifeAdd a n).buffers = s.buffers := rfl
@[simp] theorem State.lifeAdd_answer : (s.lifeAdd a n).answer = s.answer := rfl
@[simp] theorem State.lifeAdd_health : (s.lifeAdd a n).health = s.health := rfl
@[simp] theorem State.lifeAdd_healthNext : (s.lifeAdd a n).healthNext = s.healthNext := rfl
@[simp] theorem State.lifeAdd_late : (s.lifeAdd a n).late = s.late := rfl
@[simp] theorem State.lifeAdd_beats : (s.lifeAdd a n).beats = s.beats := rfl
@[simp] theorem State.lifeAdd_stuck : (s.lifeAdd a n).stuck = s.stuck := rfl
@[simp] theorem State.lifeAdd_subst : (s.lifeAdd a n).subst = s.subst := rfl
@[simp] theorem State.lifeAdd_digs : (s.lifeAdd a n).digs = s.digs := rfl
@[simp] theorem State.lifeAdd_peerDigs : (s.lifeAdd a n).peerDigs = s.peerDigs := rfl
@[simp] theorem State.lifeAdd_shadow : (s.lifeAdd a n).shadow = s.shadow := rfl
@[simp] theorem State.lifeAdd_transit : (s.lifeAdd a n).transit = s.transit := rfl
@[simp] theorem State.lifeAdd_recLost : (s.lifeAdd a n).recLost = s.recLost := rfl
@[simp] theorem State.lifeAdd_replay : (s.lifeAdd a n).replay = s.replay := rfl
@[simp] theorem State.lifeAdd_vigil : (s.lifeAdd a n).vigil = s.vigil := rfl
@[simp] theorem State.lifeAdd_power : (s.lifeAdd a n).power = s.power := rfl
@[simp] theorem State.lifeAdd_lifeKept : (s.lifeAdd a n).lifeKept = s.lifeKept := rfl
@[simp] theorem State.lifeAdd_lifeMirror : (s.lifeAdd a n).lifeMirror = s.lifeMirror := rfl
@[simp] theorem State.lifeAdd_reg (k : Nat) : (s.lifeAdd a n).reg k = s.reg k := rfl
@[simp] theorem State.lifeAdd_fld (k : Nat) (g : Fld) : (s.lifeAdd a n).fld k g = s.fld k g := rfl
@[simp] theorem State.lifeAdd_isOn (k : Nat) (g : Fld) : (s.lifeAdd a n).isOn k g = s.isOn k g := rfl
@[simp] theorem State.lifeAdd_mstate : (s.lifeAdd a n).mstate = s.mstate := rfl
@[simp] theorem State.lifeAdd_core (k : CoreId) : (s.lifeAdd a n).core k = s.core k := rfl
@[simp] theorem State.lifeAdd_eng (k : CoreId) (l : Cls) : (s.lifeAdd a n).eng k l = s.eng k l := rfl
@[simp] theorem State.lifeAdd_region (k : RegionId) : (s.lifeAdd a n).region k = s.region k := rfl
@[simp] theorem State.lifeAdd_mark (k : MarkSpace) (l : Nat) : (s.lifeAdd a n).mark k l = s.mark k l := rfl
@[simp] theorem State.lifeAdd_hread (k : CoreId) (x y : Nat) : (s.lifeAdd a n).hread k x y = s.hread k x y := rfl
@[simp] theorem State.lifeAdd_hnat (k : CoreId) (x y : Nat) : (s.lifeAdd a n).hnat k x y = s.hnat k x y := rfl
@[simp] theorem State.lifeAdd_sread (k x y : Nat) : (s.lifeAdd a n).sread k x y = s.sread k x y := rfl
@[simp] theorem State.lifeAdd_fread (x y : Nat) : (s.lifeAdd a n).fread x y = s.fread x y := rfl
@[simp] theorem State.lifeAdd_iread (k : CoreId) (l x y : Nat) : (s.lifeAdd a n).iread k l x y = s.iread k l x y := rfl
end

section
variable (a n : Nat)
@[simp] theorem State.healthAdd_pending : (s.healthAdd a n).pending = s.pending := rfl
@[simp] theorem State.healthAdd_now : (s.healthAdd a n).now = s.now := rfl
@[simp] theorem State.healthAdd_alm : (s.healthAdd a n).alm = s.alm := rfl
@[simp] theorem State.healthAdd_freeCtr : (s.healthAdd a n).freeCtr = s.freeCtr := rfl
@[simp] theorem State.healthAdd_access : (s.healthAdd a n).access = s.access := rfl
@[simp] theorem State.healthAdd_regs : (s.healthAdd a n).regs = s.regs := rfl
@[simp] theorem State.healthAdd_hearth : (s.healthAdd a n).hearth = s.hearth := rfl
@[simp] theorem State.healthAdd_istore : (s.healthAdd a n).istore = s.istore := rfl
@[simp] theorem State.healthAdd_scratch : (s.healthAdd a n).scratch = s.scratch := rfl
@[simp] theorem State.healthAdd_fabric : (s.healthAdd a n).fabric = s.fabric := rfl
@[simp] theorem State.healthAdd_marks : (s.healthAdd a n).marks = s.marks := rfl
@[simp] theorem State.healthAdd_cores : (s.healthAdd a n).cores = s.cores := rfl
@[simp] theorem State.healthAdd_regions : (s.healthAdd a n).regions = s.regions := rfl
@[simp] theorem State.healthAdd_phaseB : (s.healthAdd a n).phaseB = s.phaseB := rfl
@[simp] theorem State.healthAdd_phaseC : (s.healthAdd a n).phaseC = s.phaseC := rfl
@[simp] theorem State.healthAdd_flight : (s.healthAdd a n).flight = s.flight := rfl
@[simp] theorem State.healthAdd_origin : (s.healthAdd a n).origin = s.origin := rfl
@[simp] theorem State.healthAdd_admitQ : (s.healthAdd a n).admitQ = s.admitQ := rfl
@[simp] theorem State.healthAdd_flueNotes : (s.healthAdd a n).flueNotes = s.flueNotes := rfl
@[simp] theorem State.healthAdd_damperOld : (s.healthAdd a n).damperOld = s.damperOld := rfl
@[simp] theorem State.healthAdd_damperNext : (s.healthAdd a n).damperNext = s.damperNext := rfl
@[simp] theorem State.healthAdd_ports : (s.healthAdd a n).ports = s.ports := rfl
@[simp] theorem State.healthAdd_times : (s.healthAdd a n).times = s.times := rfl
@[simp] theorem State.healthAdd_lock : (s.healthAdd a n).lock = s.lock := rfl
@[simp] theorem State.healthAdd_job : (s.healthAdd a n).job = s.job := rfl
@[simp] theorem State.healthAdd_refBackup : (s.healthAdd a n).refBackup = s.refBackup := rfl
@[simp] theorem State.healthAdd_endpoints : (s.healthAdd a n).endpoints = s.endpoints := rfl
@[simp] theorem State.healthAdd_drainEnd : (s.healthAdd a n).drainEnd = s.drainEnd := rfl
@[simp] theorem State.healthAdd_cmapNext : (s.healthAdd a n).cmapNext = s.cmapNext := rfl
@[simp] theorem State.healthAdd_inReset : (s.healthAdd a n).inReset = s.inReset := rfl
@[simp] theorem State.healthAdd_meshUsed : (s.healthAdd a n).meshUsed = s.meshUsed := rfl
@[simp] theorem State.healthAdd_flues : (s.healthAdd a n).flues = s.flues := rfl
@[simp] theorem State.healthAdd_flueCmd : (s.healthAdd a n).flueCmd = s.flueCmd := rfl
@[simp] theorem State.healthAdd_ash : (s.healthAdd a n).ash = s.ash := rfl
@[simp] theorem State.healthAdd_reports : (s.healthAdd a n).reports = s.reports := rfl
@[simp] theorem State.healthAdd_reported : (s.healthAdd a n).reported = s.reported := rfl
@[simp] theorem State.healthAdd_cache : (s.healthAdd a n).cache = s.cache := rfl
@[simp] theorem State.healthAdd_buffers : (s.healthAdd a n).buffers = s.buffers := rfl
@[simp] theorem State.healthAdd_answer : (s.healthAdd a n).answer = s.answer := rfl
@[simp] theorem State.healthAdd_life : (s.healthAdd a n).life = s.life := rfl
@[simp] theorem State.healthAdd_healthNext : (s.healthAdd a n).healthNext = s.healthNext := rfl
@[simp] theorem State.healthAdd_late : (s.healthAdd a n).late = s.late := rfl
@[simp] theorem State.healthAdd_beats : (s.healthAdd a n).beats = s.beats := rfl
@[simp] theorem State.healthAdd_stuck : (s.healthAdd a n).stuck = s.stuck := rfl
@[simp] theorem State.healthAdd_subst : (s.healthAdd a n).subst = s.subst := rfl
@[simp] theorem State.healthAdd_digs : (s.healthAdd a n).digs = s.digs := rfl
@[simp] theorem State.healthAdd_peerDigs : (s.healthAdd a n).peerDigs = s.peerDigs := rfl
@[simp] theorem State.healthAdd_shadow : (s.healthAdd a n).shadow = s.shadow := rfl
@[simp] theorem State.healthAdd_transit : (s.healthAdd a n).transit = s.transit := rfl
@[simp] theorem State.healthAdd_recLost : (s.healthAdd a n).recLost = s.recLost := rfl
@[simp] theorem State.healthAdd_replay : (s.healthAdd a n).replay = s.replay := rfl
@[simp] theorem State.healthAdd_vigil : (s.healthAdd a n).vigil = s.vigil := rfl
@[simp] theorem State.healthAdd_power : (s.healthAdd a n).power = s.power := rfl
@[simp] theorem State.healthAdd_lifeKept : (s.healthAdd a n).lifeKept = s.lifeKept := rfl
@[simp] theorem State.healthAdd_lifeMirror : (s.healthAdd a n).lifeMirror = s.lifeMirror := rfl
@[simp] theorem State.healthAdd_reg (k : Nat) : (s.healthAdd a n).reg k = s.reg k := rfl
@[simp] theorem State.healthAdd_fld (k : Nat) (g : Fld) : (s.healthAdd a n).fld k g = s.fld k g := rfl
@[simp] theorem State.healthAdd_isOn (k : Nat) (g : Fld) : (s.healthAdd a n).isOn k g = s.isOn k g := rfl
@[simp] theorem State.healthAdd_mstate : (s.healthAdd a n).mstate = s.mstate := rfl
@[simp] theorem State.healthAdd_core (k : CoreId) : (s.healthAdd a n).core k = s.core k := rfl
@[simp] theorem State.healthAdd_eng (k : CoreId) (l : Cls) : (s.healthAdd a n).eng k l = s.eng k l := rfl
@[simp] theorem State.healthAdd_region (k : RegionId) : (s.healthAdd a n).region k = s.region k := rfl
@[simp] theorem State.healthAdd_mark (k : MarkSpace) (l : Nat) : (s.healthAdd a n).mark k l = s.mark k l := rfl
@[simp] theorem State.healthAdd_hread (k : CoreId) (x y : Nat) : (s.healthAdd a n).hread k x y = s.hread k x y := rfl
@[simp] theorem State.healthAdd_hnat (k : CoreId) (x y : Nat) : (s.healthAdd a n).hnat k x y = s.hnat k x y := rfl
@[simp] theorem State.healthAdd_sread (k x y : Nat) : (s.healthAdd a n).sread k x y = s.sread k x y := rfl
@[simp] theorem State.healthAdd_fread (x y : Nat) : (s.healthAdd a n).fread x y = s.fread x y := rfl
@[simp] theorem State.healthAdd_iread (k : CoreId) (l x y : Nat) : (s.healthAdd a n).iread k l x y = s.iread k l x y := rfl
end

section
variable (c : CoreId) (x : Core)
@[simp] theorem State.setCore_pending : (s.setCore c x).pending = s.pending := rfl
@[simp] theorem State.setCore_now : (s.setCore c x).now = s.now := rfl
@[simp] theorem State.setCore_alm : (s.setCore c x).alm = s.alm := rfl
@[simp] theorem State.setCore_freeCtr : (s.setCore c x).freeCtr = s.freeCtr := rfl
@[simp] theorem State.setCore_access : (s.setCore c x).access = s.access := rfl
@[simp] theorem State.setCore_regs : (s.setCore c x).regs = s.regs := rfl
@[simp] theorem State.setCore_hearth : (s.setCore c x).hearth = s.hearth := rfl
@[simp] theorem State.setCore_istore : (s.setCore c x).istore = s.istore := rfl
@[simp] theorem State.setCore_scratch : (s.setCore c x).scratch = s.scratch := rfl
@[simp] theorem State.setCore_fabric : (s.setCore c x).fabric = s.fabric := rfl
@[simp] theorem State.setCore_marks : (s.setCore c x).marks = s.marks := rfl
@[simp] theorem State.setCore_regions : (s.setCore c x).regions = s.regions := rfl
@[simp] theorem State.setCore_phaseB : (s.setCore c x).phaseB = s.phaseB := rfl
@[simp] theorem State.setCore_phaseC : (s.setCore c x).phaseC = s.phaseC := rfl
@[simp] theorem State.setCore_flight : (s.setCore c x).flight = s.flight := rfl
@[simp] theorem State.setCore_origin : (s.setCore c x).origin = s.origin := rfl
@[simp] theorem State.setCore_admitQ : (s.setCore c x).admitQ = s.admitQ := rfl
@[simp] theorem State.setCore_flueNotes : (s.setCore c x).flueNotes = s.flueNotes := rfl
@[simp] theorem State.setCore_damperOld : (s.setCore c x).damperOld = s.damperOld := rfl
@[simp] theorem State.setCore_damperNext : (s.setCore c x).damperNext = s.damperNext := rfl
@[simp] theorem State.setCore_ports : (s.setCore c x).ports = s.ports := rfl
@[simp] theorem State.setCore_times : (s.setCore c x).times = s.times := rfl
@[simp] theorem State.setCore_lock : (s.setCore c x).lock = s.lock := rfl
@[simp] theorem State.setCore_job : (s.setCore c x).job = s.job := rfl
@[simp] theorem State.setCore_refBackup : (s.setCore c x).refBackup = s.refBackup := rfl
@[simp] theorem State.setCore_endpoints : (s.setCore c x).endpoints = s.endpoints := rfl
@[simp] theorem State.setCore_drainEnd : (s.setCore c x).drainEnd = s.drainEnd := rfl
@[simp] theorem State.setCore_cmapNext : (s.setCore c x).cmapNext = s.cmapNext := rfl
@[simp] theorem State.setCore_inReset : (s.setCore c x).inReset = s.inReset := rfl
@[simp] theorem State.setCore_meshUsed : (s.setCore c x).meshUsed = s.meshUsed := rfl
@[simp] theorem State.setCore_flues : (s.setCore c x).flues = s.flues := rfl
@[simp] theorem State.setCore_flueCmd : (s.setCore c x).flueCmd = s.flueCmd := rfl
@[simp] theorem State.setCore_ash : (s.setCore c x).ash = s.ash := rfl
@[simp] theorem State.setCore_reports : (s.setCore c x).reports = s.reports := rfl
@[simp] theorem State.setCore_reported : (s.setCore c x).reported = s.reported := rfl
@[simp] theorem State.setCore_cache : (s.setCore c x).cache = s.cache := rfl
@[simp] theorem State.setCore_buffers : (s.setCore c x).buffers = s.buffers := rfl
@[simp] theorem State.setCore_answer : (s.setCore c x).answer = s.answer := rfl
@[simp] theorem State.setCore_life : (s.setCore c x).life = s.life := rfl
@[simp] theorem State.setCore_health : (s.setCore c x).health = s.health := rfl
@[simp] theorem State.setCore_healthNext : (s.setCore c x).healthNext = s.healthNext := rfl
@[simp] theorem State.setCore_late : (s.setCore c x).late = s.late := rfl
@[simp] theorem State.setCore_beats : (s.setCore c x).beats = s.beats := rfl
@[simp] theorem State.setCore_stuck : (s.setCore c x).stuck = s.stuck := rfl
@[simp] theorem State.setCore_subst : (s.setCore c x).subst = s.subst := rfl
@[simp] theorem State.setCore_digs : (s.setCore c x).digs = s.digs := rfl
@[simp] theorem State.setCore_peerDigs : (s.setCore c x).peerDigs = s.peerDigs := rfl
@[simp] theorem State.setCore_shadow : (s.setCore c x).shadow = s.shadow := rfl
@[simp] theorem State.setCore_transit : (s.setCore c x).transit = s.transit := rfl
@[simp] theorem State.setCore_recLost : (s.setCore c x).recLost = s.recLost := rfl
@[simp] theorem State.setCore_replay : (s.setCore c x).replay = s.replay := rfl
@[simp] theorem State.setCore_vigil : (s.setCore c x).vigil = s.vigil := rfl
@[simp] theorem State.setCore_power : (s.setCore c x).power = s.power := rfl
@[simp] theorem State.setCore_lifeKept : (s.setCore c x).lifeKept = s.lifeKept := rfl
@[simp] theorem State.setCore_lifeMirror : (s.setCore c x).lifeMirror = s.lifeMirror := rfl
@[simp] theorem State.setCore_reg (k : Nat) : (s.setCore c x).reg k = s.reg k := rfl
@[simp] theorem State.setCore_fld (k : Nat) (g : Fld) : (s.setCore c x).fld k g = s.fld k g := rfl
@[simp] theorem State.setCore_isOn (k : Nat) (g : Fld) : (s.setCore c x).isOn k g = s.isOn k g := rfl
@[simp] theorem State.setCore_mstate : (s.setCore c x).mstate = s.mstate := rfl
@[simp] theorem State.setCore_region (k : RegionId) : (s.setCore c x).region k = s.region k := rfl
@[simp] theorem State.setCore_mark (k : MarkSpace) (l : Nat) : (s.setCore c x).mark k l = s.mark k l := rfl
@[simp] theorem State.setCore_hread (k : CoreId) (x' y : Nat) : (s.setCore c x).hread k x' y = s.hread k x' y := rfl
@[simp] theorem State.setCore_hnat (k : CoreId) (x' y : Nat) : (s.setCore c x).hnat k x' y = s.hnat k x' y := rfl
@[simp] theorem State.setCore_sread (k x' y : Nat) : (s.setCore c x).sread k x' y = s.sread k x' y := rfl
@[simp] theorem State.setCore_fread (x' y : Nat) : (s.setCore c x).fread x' y = s.fread x' y := rfl
@[simp] theorem State.setCore_iread (k : CoreId) (l x' y : Nat) : (s.setCore c x).iread k l x' y = s.iread k l x' y := rfl
end

section
variable (c : CoreId) (e : Cls) (g : Engine)
@[simp] theorem State.setEng_pending : (s.setEng c e g).pending = s.pending := rfl
@[simp] theorem State.setEng_now : (s.setEng c e g).now = s.now := rfl
@[simp] theorem State.setEng_alm : (s.setEng c e g).alm = s.alm := rfl
@[simp] theorem State.setEng_freeCtr : (s.setEng c e g).freeCtr = s.freeCtr := rfl
@[simp] theorem State.setEng_access : (s.setEng c e g).access = s.access := rfl
@[simp] theorem State.setEng_regs : (s.setEng c e g).regs = s.regs := rfl
@[simp] theorem State.setEng_hearth : (s.setEng c e g).hearth = s.hearth := rfl
@[simp] theorem State.setEng_istore : (s.setEng c e g).istore = s.istore := rfl
@[simp] theorem State.setEng_scratch : (s.setEng c e g).scratch = s.scratch := rfl
@[simp] theorem State.setEng_fabric : (s.setEng c e g).fabric = s.fabric := rfl
@[simp] theorem State.setEng_marks : (s.setEng c e g).marks = s.marks := rfl
@[simp] theorem State.setEng_regions : (s.setEng c e g).regions = s.regions := rfl
@[simp] theorem State.setEng_phaseB : (s.setEng c e g).phaseB = s.phaseB := rfl
@[simp] theorem State.setEng_phaseC : (s.setEng c e g).phaseC = s.phaseC := rfl
@[simp] theorem State.setEng_flight : (s.setEng c e g).flight = s.flight := rfl
@[simp] theorem State.setEng_origin : (s.setEng c e g).origin = s.origin := rfl
@[simp] theorem State.setEng_admitQ : (s.setEng c e g).admitQ = s.admitQ := rfl
@[simp] theorem State.setEng_flueNotes : (s.setEng c e g).flueNotes = s.flueNotes := rfl
@[simp] theorem State.setEng_damperOld : (s.setEng c e g).damperOld = s.damperOld := rfl
@[simp] theorem State.setEng_damperNext : (s.setEng c e g).damperNext = s.damperNext := rfl
@[simp] theorem State.setEng_ports : (s.setEng c e g).ports = s.ports := rfl
@[simp] theorem State.setEng_times : (s.setEng c e g).times = s.times := rfl
@[simp] theorem State.setEng_lock : (s.setEng c e g).lock = s.lock := rfl
@[simp] theorem State.setEng_job : (s.setEng c e g).job = s.job := rfl
@[simp] theorem State.setEng_refBackup : (s.setEng c e g).refBackup = s.refBackup := rfl
@[simp] theorem State.setEng_endpoints : (s.setEng c e g).endpoints = s.endpoints := rfl
@[simp] theorem State.setEng_drainEnd : (s.setEng c e g).drainEnd = s.drainEnd := rfl
@[simp] theorem State.setEng_cmapNext : (s.setEng c e g).cmapNext = s.cmapNext := rfl
@[simp] theorem State.setEng_inReset : (s.setEng c e g).inReset = s.inReset := rfl
@[simp] theorem State.setEng_meshUsed : (s.setEng c e g).meshUsed = s.meshUsed := rfl
@[simp] theorem State.setEng_flues : (s.setEng c e g).flues = s.flues := rfl
@[simp] theorem State.setEng_flueCmd : (s.setEng c e g).flueCmd = s.flueCmd := rfl
@[simp] theorem State.setEng_ash : (s.setEng c e g).ash = s.ash := rfl
@[simp] theorem State.setEng_reports : (s.setEng c e g).reports = s.reports := rfl
@[simp] theorem State.setEng_reported : (s.setEng c e g).reported = s.reported := rfl
@[simp] theorem State.setEng_cache : (s.setEng c e g).cache = s.cache := rfl
@[simp] theorem State.setEng_buffers : (s.setEng c e g).buffers = s.buffers := rfl
@[simp] theorem State.setEng_answer : (s.setEng c e g).answer = s.answer := rfl
@[simp] theorem State.setEng_life : (s.setEng c e g).life = s.life := rfl
@[simp] theorem State.setEng_health : (s.setEng c e g).health = s.health := rfl
@[simp] theorem State.setEng_healthNext : (s.setEng c e g).healthNext = s.healthNext := rfl
@[simp] theorem State.setEng_late : (s.setEng c e g).late = s.late := rfl
@[simp] theorem State.setEng_beats : (s.setEng c e g).beats = s.beats := rfl
@[simp] theorem State.setEng_stuck : (s.setEng c e g).stuck = s.stuck := rfl
@[simp] theorem State.setEng_subst : (s.setEng c e g).subst = s.subst := rfl
@[simp] theorem State.setEng_digs : (s.setEng c e g).digs = s.digs := rfl
@[simp] theorem State.setEng_peerDigs : (s.setEng c e g).peerDigs = s.peerDigs := rfl
@[simp] theorem State.setEng_shadow : (s.setEng c e g).shadow = s.shadow := rfl
@[simp] theorem State.setEng_transit : (s.setEng c e g).transit = s.transit := rfl
@[simp] theorem State.setEng_recLost : (s.setEng c e g).recLost = s.recLost := rfl
@[simp] theorem State.setEng_replay : (s.setEng c e g).replay = s.replay := rfl
@[simp] theorem State.setEng_vigil : (s.setEng c e g).vigil = s.vigil := rfl
@[simp] theorem State.setEng_power : (s.setEng c e g).power = s.power := rfl
@[simp] theorem State.setEng_lifeKept : (s.setEng c e g).lifeKept = s.lifeKept := rfl
@[simp] theorem State.setEng_lifeMirror : (s.setEng c e g).lifeMirror = s.lifeMirror := rfl
@[simp] theorem State.setEng_reg (k : Nat) : (s.setEng c e g).reg k = s.reg k := rfl
@[simp] theorem State.setEng_fld (k : Nat) (g' : Fld) : (s.setEng c e g).fld k g' = s.fld k g' := rfl
@[simp] theorem State.setEng_isOn (k : Nat) (g' : Fld) : (s.setEng c e g).isOn k g' = s.isOn k g' := rfl
@[simp] theorem State.setEng_mstate : (s.setEng c e g).mstate = s.mstate := rfl
@[simp] theorem State.setEng_region (k : RegionId) : (s.setEng c e g).region k = s.region k := rfl
@[simp] theorem State.setEng_mark (k : MarkSpace) (l : Nat) : (s.setEng c e g).mark k l = s.mark k l := rfl
@[simp] theorem State.setEng_hread (k : CoreId) (x y : Nat) : (s.setEng c e g).hread k x y = s.hread k x y := rfl
@[simp] theorem State.setEng_hnat (k : CoreId) (x y : Nat) : (s.setEng c e g).hnat k x y = s.hnat k x y := rfl
@[simp] theorem State.setEng_sread (k x y : Nat) : (s.setEng c e g).sread k x y = s.sread k x y := rfl
@[simp] theorem State.setEng_fread (x y : Nat) : (s.setEng c e g).fread x y = s.fread x y := rfl
@[simp] theorem State.setEng_iread (k : CoreId) (l x y : Nat) : (s.setEng c e g).iread k l x y = s.iread k l x y := rfl
end

section
variable (r : RegionId) (x : Region)
@[simp] theorem State.setRegion_pending : (s.setRegion r x).pending = s.pending := rfl
@[simp] theorem State.setRegion_now : (s.setRegion r x).now = s.now := rfl
@[simp] theorem State.setRegion_alm : (s.setRegion r x).alm = s.alm := rfl
@[simp] theorem State.setRegion_freeCtr : (s.setRegion r x).freeCtr = s.freeCtr := rfl
@[simp] theorem State.setRegion_access : (s.setRegion r x).access = s.access := rfl
@[simp] theorem State.setRegion_regs : (s.setRegion r x).regs = s.regs := rfl
@[simp] theorem State.setRegion_hearth : (s.setRegion r x).hearth = s.hearth := rfl
@[simp] theorem State.setRegion_istore : (s.setRegion r x).istore = s.istore := rfl
@[simp] theorem State.setRegion_scratch : (s.setRegion r x).scratch = s.scratch := rfl
@[simp] theorem State.setRegion_fabric : (s.setRegion r x).fabric = s.fabric := rfl
@[simp] theorem State.setRegion_marks : (s.setRegion r x).marks = s.marks := rfl
@[simp] theorem State.setRegion_cores : (s.setRegion r x).cores = s.cores := rfl
@[simp] theorem State.setRegion_phaseB : (s.setRegion r x).phaseB = s.phaseB := rfl
@[simp] theorem State.setRegion_phaseC : (s.setRegion r x).phaseC = s.phaseC := rfl
@[simp] theorem State.setRegion_flight : (s.setRegion r x).flight = s.flight := rfl
@[simp] theorem State.setRegion_origin : (s.setRegion r x).origin = s.origin := rfl
@[simp] theorem State.setRegion_admitQ : (s.setRegion r x).admitQ = s.admitQ := rfl
@[simp] theorem State.setRegion_flueNotes : (s.setRegion r x).flueNotes = s.flueNotes := rfl
@[simp] theorem State.setRegion_damperOld : (s.setRegion r x).damperOld = s.damperOld := rfl
@[simp] theorem State.setRegion_damperNext : (s.setRegion r x).damperNext = s.damperNext := rfl
@[simp] theorem State.setRegion_ports : (s.setRegion r x).ports = s.ports := rfl
@[simp] theorem State.setRegion_times : (s.setRegion r x).times = s.times := rfl
@[simp] theorem State.setRegion_lock : (s.setRegion r x).lock = s.lock := rfl
@[simp] theorem State.setRegion_job : (s.setRegion r x).job = s.job := rfl
@[simp] theorem State.setRegion_refBackup : (s.setRegion r x).refBackup = s.refBackup := rfl
@[simp] theorem State.setRegion_endpoints : (s.setRegion r x).endpoints = s.endpoints := rfl
@[simp] theorem State.setRegion_drainEnd : (s.setRegion r x).drainEnd = s.drainEnd := rfl
@[simp] theorem State.setRegion_cmapNext : (s.setRegion r x).cmapNext = s.cmapNext := rfl
@[simp] theorem State.setRegion_inReset : (s.setRegion r x).inReset = s.inReset := rfl
@[simp] theorem State.setRegion_meshUsed : (s.setRegion r x).meshUsed = s.meshUsed := rfl
@[simp] theorem State.setRegion_flues : (s.setRegion r x).flues = s.flues := rfl
@[simp] theorem State.setRegion_flueCmd : (s.setRegion r x).flueCmd = s.flueCmd := rfl
@[simp] theorem State.setRegion_ash : (s.setRegion r x).ash = s.ash := rfl
@[simp] theorem State.setRegion_reports : (s.setRegion r x).reports = s.reports := rfl
@[simp] theorem State.setRegion_reported : (s.setRegion r x).reported = s.reported := rfl
@[simp] theorem State.setRegion_cache : (s.setRegion r x).cache = s.cache := rfl
@[simp] theorem State.setRegion_buffers : (s.setRegion r x).buffers = s.buffers := rfl
@[simp] theorem State.setRegion_answer : (s.setRegion r x).answer = s.answer := rfl
@[simp] theorem State.setRegion_life : (s.setRegion r x).life = s.life := rfl
@[simp] theorem State.setRegion_health : (s.setRegion r x).health = s.health := rfl
@[simp] theorem State.setRegion_healthNext : (s.setRegion r x).healthNext = s.healthNext := rfl
@[simp] theorem State.setRegion_late : (s.setRegion r x).late = s.late := rfl
@[simp] theorem State.setRegion_beats : (s.setRegion r x).beats = s.beats := rfl
@[simp] theorem State.setRegion_stuck : (s.setRegion r x).stuck = s.stuck := rfl
@[simp] theorem State.setRegion_subst : (s.setRegion r x).subst = s.subst := rfl
@[simp] theorem State.setRegion_digs : (s.setRegion r x).digs = s.digs := rfl
@[simp] theorem State.setRegion_peerDigs : (s.setRegion r x).peerDigs = s.peerDigs := rfl
@[simp] theorem State.setRegion_shadow : (s.setRegion r x).shadow = s.shadow := rfl
@[simp] theorem State.setRegion_transit : (s.setRegion r x).transit = s.transit := rfl
@[simp] theorem State.setRegion_recLost : (s.setRegion r x).recLost = s.recLost := rfl
@[simp] theorem State.setRegion_replay : (s.setRegion r x).replay = s.replay := rfl
@[simp] theorem State.setRegion_vigil : (s.setRegion r x).vigil = s.vigil := rfl
@[simp] theorem State.setRegion_power : (s.setRegion r x).power = s.power := rfl
@[simp] theorem State.setRegion_lifeKept : (s.setRegion r x).lifeKept = s.lifeKept := rfl
@[simp] theorem State.setRegion_lifeMirror : (s.setRegion r x).lifeMirror = s.lifeMirror := rfl
@[simp] theorem State.setRegion_reg (k : Nat) : (s.setRegion r x).reg k = s.reg k := rfl
@[simp] theorem State.setRegion_fld (k : Nat) (g : Fld) : (s.setRegion r x).fld k g = s.fld k g := rfl
@[simp] theorem State.setRegion_isOn (k : Nat) (g : Fld) : (s.setRegion r x).isOn k g = s.isOn k g := rfl
@[simp] theorem State.setRegion_mstate : (s.setRegion r x).mstate = s.mstate := rfl
@[simp] theorem State.setRegion_core (k : CoreId) : (s.setRegion r x).core k = s.core k := rfl
@[simp] theorem State.setRegion_eng (k : CoreId) (l : Cls) : (s.setRegion r x).eng k l = s.eng k l := rfl
@[simp] theorem State.setRegion_mark (k : MarkSpace) (l : Nat) : (s.setRegion r x).mark k l = s.mark k l := rfl
@[simp] theorem State.setRegion_hread (k : CoreId) (x' y : Nat) : (s.setRegion r x).hread k x' y = s.hread k x' y := rfl
@[simp] theorem State.setRegion_hnat (k : CoreId) (x' y : Nat) : (s.setRegion r x).hnat k x' y = s.hnat k x' y := rfl
@[simp] theorem State.setRegion_sread (k x' y : Nat) : (s.setRegion r x).sread k x' y = s.sread k x' y := rfl
@[simp] theorem State.setRegion_fread (x' y : Nat) : (s.setRegion r x).fread x' y = s.fread x' y := rfl
@[simp] theorem State.setRegion_iread (k : CoreId) (l x' y : Nat) : (s.setRegion r x).iread k l x' y = s.iread k l x' y := rfl
end

section
variable (e : AshEntry)
@[simp] theorem State.report_pending : (s.report e).pending = s.pending := rfl
@[simp] theorem State.report_now : (s.report e).now = s.now := rfl
@[simp] theorem State.report_alm : (s.report e).alm = s.alm := rfl
@[simp] theorem State.report_freeCtr : (s.report e).freeCtr = s.freeCtr := rfl
@[simp] theorem State.report_access : (s.report e).access = s.access := rfl
@[simp] theorem State.report_regs : (s.report e).regs = s.regs := rfl
@[simp] theorem State.report_hearth : (s.report e).hearth = s.hearth := rfl
@[simp] theorem State.report_istore : (s.report e).istore = s.istore := rfl
@[simp] theorem State.report_scratch : (s.report e).scratch = s.scratch := rfl
@[simp] theorem State.report_fabric : (s.report e).fabric = s.fabric := rfl
@[simp] theorem State.report_marks : (s.report e).marks = s.marks := rfl
@[simp] theorem State.report_cores : (s.report e).cores = s.cores := rfl
@[simp] theorem State.report_regions : (s.report e).regions = s.regions := rfl
@[simp] theorem State.report_phaseB : (s.report e).phaseB = s.phaseB := rfl
@[simp] theorem State.report_phaseC : (s.report e).phaseC = s.phaseC := rfl
@[simp] theorem State.report_flight : (s.report e).flight = s.flight := rfl
@[simp] theorem State.report_origin : (s.report e).origin = s.origin := rfl
@[simp] theorem State.report_admitQ : (s.report e).admitQ = s.admitQ := rfl
@[simp] theorem State.report_flueNotes : (s.report e).flueNotes = s.flueNotes := rfl
@[simp] theorem State.report_damperOld : (s.report e).damperOld = s.damperOld := rfl
@[simp] theorem State.report_damperNext : (s.report e).damperNext = s.damperNext := rfl
@[simp] theorem State.report_ports : (s.report e).ports = s.ports := rfl
@[simp] theorem State.report_times : (s.report e).times = s.times := rfl
@[simp] theorem State.report_lock : (s.report e).lock = s.lock := rfl
@[simp] theorem State.report_job : (s.report e).job = s.job := rfl
@[simp] theorem State.report_refBackup : (s.report e).refBackup = s.refBackup := rfl
@[simp] theorem State.report_endpoints : (s.report e).endpoints = s.endpoints := rfl
@[simp] theorem State.report_drainEnd : (s.report e).drainEnd = s.drainEnd := rfl
@[simp] theorem State.report_cmapNext : (s.report e).cmapNext = s.cmapNext := rfl
@[simp] theorem State.report_inReset : (s.report e).inReset = s.inReset := rfl
@[simp] theorem State.report_meshUsed : (s.report e).meshUsed = s.meshUsed := rfl
@[simp] theorem State.report_flues : (s.report e).flues = s.flues := rfl
@[simp] theorem State.report_flueCmd : (s.report e).flueCmd = s.flueCmd := rfl
@[simp] theorem State.report_ash : (s.report e).ash = s.ash := rfl
@[simp] theorem State.report_cache : (s.report e).cache = s.cache := rfl
@[simp] theorem State.report_buffers : (s.report e).buffers = s.buffers := rfl
@[simp] theorem State.report_answer : (s.report e).answer = s.answer := rfl
@[simp] theorem State.report_life : (s.report e).life = s.life := rfl
@[simp] theorem State.report_health : (s.report e).health = s.health := rfl
@[simp] theorem State.report_healthNext : (s.report e).healthNext = s.healthNext := rfl
@[simp] theorem State.report_late : (s.report e).late = s.late := rfl
@[simp] theorem State.report_beats : (s.report e).beats = s.beats := rfl
@[simp] theorem State.report_stuck : (s.report e).stuck = s.stuck := rfl
@[simp] theorem State.report_subst : (s.report e).subst = s.subst := rfl
@[simp] theorem State.report_digs : (s.report e).digs = s.digs := rfl
@[simp] theorem State.report_peerDigs : (s.report e).peerDigs = s.peerDigs := rfl
@[simp] theorem State.report_shadow : (s.report e).shadow = s.shadow := rfl
@[simp] theorem State.report_transit : (s.report e).transit = s.transit := rfl
@[simp] theorem State.report_recLost : (s.report e).recLost = s.recLost := rfl
@[simp] theorem State.report_replay : (s.report e).replay = s.replay := rfl
@[simp] theorem State.report_vigil : (s.report e).vigil = s.vigil := rfl
@[simp] theorem State.report_power : (s.report e).power = s.power := rfl
@[simp] theorem State.report_lifeKept : (s.report e).lifeKept = s.lifeKept := rfl
@[simp] theorem State.report_lifeMirror : (s.report e).lifeMirror = s.lifeMirror := rfl
@[simp] theorem State.report_reg (k : Nat) : (s.report e).reg k = s.reg k := rfl
@[simp] theorem State.report_fld (k : Nat) (g : Fld) : (s.report e).fld k g = s.fld k g := rfl
@[simp] theorem State.report_isOn (k : Nat) (g : Fld) : (s.report e).isOn k g = s.isOn k g := rfl
@[simp] theorem State.report_mstate : (s.report e).mstate = s.mstate := rfl
@[simp] theorem State.report_core (k : CoreId) : (s.report e).core k = s.core k := rfl
@[simp] theorem State.report_eng (k : CoreId) (l : Cls) : (s.report e).eng k l = s.eng k l := rfl
@[simp] theorem State.report_region (k : RegionId) : (s.report e).region k = s.region k := rfl
@[simp] theorem State.report_mark (k : MarkSpace) (l : Nat) : (s.report e).mark k l = s.mark k l := rfl
@[simp] theorem State.report_hread (k : CoreId) (x y : Nat) : (s.report e).hread k x y = s.hread k x y := rfl
@[simp] theorem State.report_hnat (k : CoreId) (x y : Nat) : (s.report e).hnat k x y = s.hnat k x y := rfl
@[simp] theorem State.report_sread (k x y : Nat) : (s.report e).sread k x y = s.sread k x y := rfl
@[simp] theorem State.report_fread (x y : Nat) : (s.report e).fread x y = s.fread x y := rfl
@[simp] theorem State.report_iread (k : CoreId) (l x y : Nat) : (s.report e).iread k l x y = s.iread k l x y := rfl
end

section
variable (a : Nat) (w : Word)
@[simp] theorem State.completed_pending : (s.completed a w).pending = s.pending := rfl
@[simp] theorem State.completed_now : (s.completed a w).now = s.now := rfl
@[simp] theorem State.completed_alm : (s.completed a w).alm = s.alm := rfl
@[simp] theorem State.completed_freeCtr : (s.completed a w).freeCtr = s.freeCtr := rfl
@[simp] theorem State.completed_regs : (s.completed a w).regs = s.regs := rfl
@[simp] theorem State.completed_hearth : (s.completed a w).hearth = s.hearth := rfl
@[simp] theorem State.completed_istore : (s.completed a w).istore = s.istore := rfl
@[simp] theorem State.completed_scratch : (s.completed a w).scratch = s.scratch := rfl
@[simp] theorem State.completed_fabric : (s.completed a w).fabric = s.fabric := rfl
@[simp] theorem State.completed_marks : (s.completed a w).marks = s.marks := rfl
@[simp] theorem State.completed_cores : (s.completed a w).cores = s.cores := rfl
@[simp] theorem State.completed_regions : (s.completed a w).regions = s.regions := rfl
@[simp] theorem State.completed_phaseB : (s.completed a w).phaseB = s.phaseB := rfl
@[simp] theorem State.completed_phaseC : (s.completed a w).phaseC = s.phaseC := rfl
@[simp] theorem State.completed_flight : (s.completed a w).flight = s.flight := rfl
@[simp] theorem State.completed_origin : (s.completed a w).origin = s.origin := rfl
@[simp] theorem State.completed_admitQ : (s.completed a w).admitQ = s.admitQ := rfl
@[simp] theorem State.completed_flueNotes : (s.completed a w).flueNotes = s.flueNotes := rfl
@[simp] theorem State.completed_damperOld : (s.completed a w).damperOld = s.damperOld := rfl
@[simp] theorem State.completed_damperNext : (s.completed a w).damperNext = s.damperNext := rfl
@[simp] theorem State.completed_ports : (s.completed a w).ports = s.ports := rfl
@[simp] theorem State.completed_times : (s.completed a w).times = s.times := rfl
@[simp] theorem State.completed_lock : (s.completed a w).lock = s.lock := rfl
@[simp] theorem State.completed_job : (s.completed a w).job = s.job := rfl
@[simp] theorem State.completed_refBackup : (s.completed a w).refBackup = s.refBackup := rfl
@[simp] theorem State.completed_endpoints : (s.completed a w).endpoints = s.endpoints := rfl
@[simp] theorem State.completed_drainEnd : (s.completed a w).drainEnd = s.drainEnd := rfl
@[simp] theorem State.completed_cmapNext : (s.completed a w).cmapNext = s.cmapNext := rfl
@[simp] theorem State.completed_inReset : (s.completed a w).inReset = s.inReset := rfl
@[simp] theorem State.completed_meshUsed : (s.completed a w).meshUsed = s.meshUsed := rfl
@[simp] theorem State.completed_flues : (s.completed a w).flues = s.flues := rfl
@[simp] theorem State.completed_flueCmd : (s.completed a w).flueCmd = s.flueCmd := rfl
@[simp] theorem State.completed_ash : (s.completed a w).ash = s.ash := rfl
@[simp] theorem State.completed_reports : (s.completed a w).reports = s.reports := rfl
@[simp] theorem State.completed_reported : (s.completed a w).reported = s.reported := rfl
@[simp] theorem State.completed_cache : (s.completed a w).cache = s.cache := rfl
@[simp] theorem State.completed_buffers : (s.completed a w).buffers = s.buffers := rfl
@[simp] theorem State.completed_answer : (s.completed a w).answer = s.answer := rfl
@[simp] theorem State.completed_life : (s.completed a w).life = s.life := rfl
@[simp] theorem State.completed_health : (s.completed a w).health = s.health := rfl
@[simp] theorem State.completed_healthNext : (s.completed a w).healthNext = s.healthNext := rfl
@[simp] theorem State.completed_late : (s.completed a w).late = s.late := rfl
@[simp] theorem State.completed_beats : (s.completed a w).beats = s.beats := rfl
@[simp] theorem State.completed_stuck : (s.completed a w).stuck = s.stuck := rfl
@[simp] theorem State.completed_subst : (s.completed a w).subst = s.subst := rfl
@[simp] theorem State.completed_digs : (s.completed a w).digs = s.digs := rfl
@[simp] theorem State.completed_peerDigs : (s.completed a w).peerDigs = s.peerDigs := rfl
@[simp] theorem State.completed_shadow : (s.completed a w).shadow = s.shadow := rfl
@[simp] theorem State.completed_transit : (s.completed a w).transit = s.transit := rfl
@[simp] theorem State.completed_recLost : (s.completed a w).recLost = s.recLost := rfl
@[simp] theorem State.completed_replay : (s.completed a w).replay = s.replay := rfl
@[simp] theorem State.completed_vigil : (s.completed a w).vigil = s.vigil := rfl
@[simp] theorem State.completed_power : (s.completed a w).power = s.power := rfl
@[simp] theorem State.completed_lifeKept : (s.completed a w).lifeKept = s.lifeKept := rfl
@[simp] theorem State.completed_lifeMirror : (s.completed a w).lifeMirror = s.lifeMirror := rfl
@[simp] theorem State.completed_reg (k : Nat) : (s.completed a w).reg k = s.reg k := rfl
@[simp] theorem State.completed_fld (k : Nat) (g : Fld) : (s.completed a w).fld k g = s.fld k g := rfl
@[simp] theorem State.completed_isOn (k : Nat) (g : Fld) : (s.completed a w).isOn k g = s.isOn k g := rfl
@[simp] theorem State.completed_mstate : (s.completed a w).mstate = s.mstate := rfl
@[simp] theorem State.completed_core (k : CoreId) : (s.completed a w).core k = s.core k := rfl
@[simp] theorem State.completed_eng (k : CoreId) (l : Cls) : (s.completed a w).eng k l = s.eng k l := rfl
@[simp] theorem State.completed_region (k : RegionId) : (s.completed a w).region k = s.region k := rfl
@[simp] theorem State.completed_mark (k : MarkSpace) (l : Nat) : (s.completed a w).mark k l = s.mark k l := rfl
@[simp] theorem State.completed_hread (k : CoreId) (x y : Nat) : (s.completed a w).hread k x y = s.hread k x y := rfl
@[simp] theorem State.completed_hnat (k : CoreId) (x y : Nat) : (s.completed a w).hnat k x y = s.hnat k x y := rfl
@[simp] theorem State.completed_sread (k x y : Nat) : (s.completed a w).sread k x y = s.sread k x y := rfl
@[simp] theorem State.completed_fread (x y : Nat) : (s.completed a w).fread x y = s.fread x y := rfl
@[simp] theorem State.completed_iread (k : CoreId) (l x y : Nat) : (s.completed a w).iread k l x y = s.iread k l x y := rfl
end

section
variable (t : Nat)
@[simp] theorem State.at_pending : (s.at t).pending = s.pending := by unfold State.at; split <;> rfl
@[simp] theorem State.at_freeCtr : (s.at t).freeCtr = s.freeCtr := by unfold State.at; split <;> rfl
@[simp] theorem State.at_access : (s.at t).access = s.access := by unfold State.at; split <;> rfl
@[simp] theorem State.at_regs : (s.at t).regs = s.regs := by unfold State.at; split <;> rfl
@[simp] theorem State.at_hearth : (s.at t).hearth = s.hearth := by unfold State.at; split <;> rfl
@[simp] theorem State.at_istore : (s.at t).istore = s.istore := by unfold State.at; split <;> rfl
@[simp] theorem State.at_scratch : (s.at t).scratch = s.scratch := by unfold State.at; split <;> rfl
@[simp] theorem State.at_fabric : (s.at t).fabric = s.fabric := by unfold State.at; split <;> rfl
@[simp] theorem State.at_marks : (s.at t).marks = s.marks := by unfold State.at; split <;> rfl
@[simp] theorem State.at_cores : (s.at t).cores = s.cores := by unfold State.at; split <;> rfl
@[simp] theorem State.at_regions : (s.at t).regions = s.regions := by unfold State.at; split <;> rfl
@[simp] theorem State.at_phaseB : (s.at t).phaseB = s.phaseB := by unfold State.at; split <;> rfl
@[simp] theorem State.at_phaseC : (s.at t).phaseC = s.phaseC := by unfold State.at; split <;> rfl
@[simp] theorem State.at_flight : (s.at t).flight = s.flight := by unfold State.at; split <;> rfl
@[simp] theorem State.at_origin : (s.at t).origin = s.origin := by unfold State.at; split <;> rfl
@[simp] theorem State.at_admitQ : (s.at t).admitQ = s.admitQ := by unfold State.at; split <;> rfl
@[simp] theorem State.at_flueNotes : (s.at t).flueNotes = s.flueNotes := by unfold State.at; split <;> rfl
@[simp] theorem State.at_damperOld : (s.at t).damperOld = s.damperOld := by unfold State.at; split <;> rfl
@[simp] theorem State.at_damperNext : (s.at t).damperNext = s.damperNext := by unfold State.at; split <;> rfl
@[simp] theorem State.at_ports : (s.at t).ports = s.ports := by unfold State.at; split <;> rfl
@[simp] theorem State.at_times : (s.at t).times = s.times := by unfold State.at; split <;> rfl
@[simp] theorem State.at_lock : (s.at t).lock = s.lock := by unfold State.at; split <;> rfl
@[simp] theorem State.at_job : (s.at t).job = s.job := by unfold State.at; split <;> rfl
@[simp] theorem State.at_refBackup : (s.at t).refBackup = s.refBackup := by unfold State.at; split <;> rfl
@[simp] theorem State.at_endpoints : (s.at t).endpoints = s.endpoints := by unfold State.at; split <;> rfl
@[simp] theorem State.at_drainEnd : (s.at t).drainEnd = s.drainEnd := by unfold State.at; split <;> rfl
@[simp] theorem State.at_cmapNext : (s.at t).cmapNext = s.cmapNext := by unfold State.at; split <;> rfl
@[simp] theorem State.at_inReset : (s.at t).inReset = s.inReset := by unfold State.at; split <;> rfl
@[simp] theorem State.at_meshUsed : (s.at t).meshUsed = s.meshUsed := by unfold State.at; split <;> rfl
@[simp] theorem State.at_flues : (s.at t).flues = s.flues := by unfold State.at; split <;> rfl
@[simp] theorem State.at_flueCmd : (s.at t).flueCmd = s.flueCmd := by unfold State.at; split <;> rfl
@[simp] theorem State.at_ash : (s.at t).ash = s.ash := by unfold State.at; split <;> rfl
@[simp] theorem State.at_reports : (s.at t).reports = s.reports := by unfold State.at; split <;> rfl
@[simp] theorem State.at_reported : (s.at t).reported = s.reported := by unfold State.at; split <;> rfl
@[simp] theorem State.at_cache : (s.at t).cache = s.cache := by unfold State.at; split <;> rfl
@[simp] theorem State.at_buffers : (s.at t).buffers = s.buffers := by unfold State.at; split <;> rfl
@[simp] theorem State.at_answer : (s.at t).answer = s.answer := by unfold State.at; split <;> rfl
@[simp] theorem State.at_life : (s.at t).life = s.life := by unfold State.at; split <;> rfl
@[simp] theorem State.at_health : (s.at t).health = s.health := by unfold State.at; split <;> rfl
@[simp] theorem State.at_healthNext : (s.at t).healthNext = s.healthNext := by unfold State.at; split <;> rfl
@[simp] theorem State.at_late : (s.at t).late = s.late := by unfold State.at; split <;> rfl
@[simp] theorem State.at_beats : (s.at t).beats = s.beats := by unfold State.at; split <;> rfl
@[simp] theorem State.at_stuck : (s.at t).stuck = s.stuck := by unfold State.at; split <;> rfl
@[simp] theorem State.at_subst : (s.at t).subst = s.subst := by unfold State.at; split <;> rfl
@[simp] theorem State.at_digs : (s.at t).digs = s.digs := by unfold State.at; split <;> rfl
@[simp] theorem State.at_peerDigs : (s.at t).peerDigs = s.peerDigs := by unfold State.at; split <;> rfl
@[simp] theorem State.at_shadow : (s.at t).shadow = s.shadow := by unfold State.at; split <;> rfl
@[simp] theorem State.at_transit : (s.at t).transit = s.transit := by unfold State.at; split <;> rfl
@[simp] theorem State.at_recLost : (s.at t).recLost = s.recLost := by unfold State.at; split <;> rfl
@[simp] theorem State.at_replay : (s.at t).replay = s.replay := by unfold State.at; split <;> rfl
@[simp] theorem State.at_vigil : (s.at t).vigil = s.vigil := by unfold State.at; split <;> rfl
@[simp] theorem State.at_power : (s.at t).power = s.power := by unfold State.at; split <;> rfl
@[simp] theorem State.at_lifeKept : (s.at t).lifeKept = s.lifeKept := by unfold State.at; split <;> rfl
@[simp] theorem State.at_lifeMirror : (s.at t).lifeMirror = s.lifeMirror := by unfold State.at; split <;> rfl
@[simp] theorem State.at_reg (k : Nat) : (s.at t).reg k = s.reg k := by unfold State.at; split <;> rfl
@[simp] theorem State.at_fld (k : Nat) (g : Fld) : (s.at t).fld k g = s.fld k g := by unfold State.at; split <;> rfl
@[simp] theorem State.at_isOn (k : Nat) (g : Fld) : (s.at t).isOn k g = s.isOn k g := by unfold State.at; split <;> rfl
@[simp] theorem State.at_mstate : (s.at t).mstate = s.mstate := by unfold State.at; split <;> rfl
@[simp] theorem State.at_core (k : CoreId) : (s.at t).core k = s.core k := by unfold State.at; split <;> rfl
@[simp] theorem State.at_eng (k : CoreId) (l : Cls) : (s.at t).eng k l = s.eng k l := by unfold State.at; split <;> rfl
@[simp] theorem State.at_region (k : RegionId) : (s.at t).region k = s.region k := by unfold State.at; split <;> rfl
@[simp] theorem State.at_mark (k : MarkSpace) (l : Nat) : (s.at t).mark k l = s.mark k l := by unfold State.at; split <;> rfl
@[simp] theorem State.at_hread (k : CoreId) (x y : Nat) : (s.at t).hread k x y = s.hread k x y := by unfold State.at; split <;> rfl
@[simp] theorem State.at_hnat (k : CoreId) (x y : Nat) : (s.at t).hnat k x y = s.hnat k x y := by unfold State.at; split <;> rfl
@[simp] theorem State.at_sread (k x y : Nat) : (s.at t).sread k x y = s.sread k x y := by unfold State.at; split <;> rfl
@[simp] theorem State.at_fread (x y : Nat) : (s.at t).fread x y = s.fread x y := by unfold State.at; split <;> rfl
@[simp] theorem State.at_iread (k : CoreId) (l x y : Nat) : (s.at t).iread k l x y = s.iread k l x y := by unfold State.at; split <;> rfl
end

/-! ## What is read after it is set -/

/-- A register reads as set, every other register as before. -/
theorem State.reg_setReg (a k : Nat) (w : Word) : (s.setReg a w).reg k = if k = a then w else s.reg k := by
  unfold State.reg State.setReg
  dsimp only
  by_cases h : k = a
  · subst h; rw [AMap.get_set]
  · unfold AMap.set
    rw [if_neg h]
    split
    · rw [AMap.get_erase, if_neg h]
    · rw [AMap.get_insert, if_neg h]

@[simp] theorem State.reg_setReg_self (a : Nat) (w : Word) : (s.setReg a w).reg a = w := by rw [State.reg_setReg, if_pos rfl]

theorem State.reg_setReg_ne {a k : Nat} (w : Word) (h : k ≠ a) : (s.setReg a w).reg k = s.reg k := by
  rw [State.reg_setReg, if_neg h]

theorem State.reg_setFld (a k : Nat) (f : Fld) (v : Nat) :
    (s.setFld a f v).reg k = if k = a then f.put (s.reg a) v else s.reg k := State.reg_setReg s a k _

theorem State.reg_setFld_ne {a k : Nat} (f : Fld) (v : Nat) (h : k ≠ a) : (s.setFld a f v).reg k = s.reg k :=
  State.reg_setReg_ne s _ h

theorem State.fld_setFld_ne {a k : Nat} (f g : Fld) (v : Nat) (h : k ≠ a) : (s.setFld a f v).fld k g = s.fld k g := by
  unfold State.fld
  rw [State.reg_setFld_ne s f v h]

/-- A core reads as set, every core of another key as before. -/
theorem State.core_setCore (c k : CoreId) (x : Core) :
    (s.setCore c x).core k = if coreKey k = coreKey c then x else s.core k := by
  unfold State.core State.setCore
  exact AMap.get_set _ _ _ _ _

@[simp] theorem State.core_setCore_self (c : CoreId) (x : Core) : (s.setCore c x).core c = x := by
  rw [State.core_setCore, if_pos rfl]

theorem State.core_setCore_ne {c k : CoreId} (x : Core) (h : coreKey k ≠ coreKey c) : (s.setCore c x).core k = s.core k := by
  rw [State.core_setCore, if_neg h]

/-- An engine reads as set, every other engine of the core as before. -/
theorem Core.eng_setEng (x : Core) (e l : Cls) (g : Engine) :
    (x.setEng e g).eng l = if clsCode l = clsCode e then g else x.eng l := AMap.get_set _ _ _ _ _

@[simp] theorem State.eng_setEng_self (c : CoreId) (e : Cls) (g : Engine) : (s.setEng c e g).eng c e = g := by
  unfold State.eng State.setEng
  rw [State.core_setCore_self, Core.eng_setEng, if_pos rfl]

theorem State.eng_setEng_ne (c : CoreId) {e l : Cls} (g : Engine) (h : clsCode l ≠ clsCode e) :
    (s.setEng c e g).eng c l = s.eng c l := by
  unfold State.eng State.setEng
  rw [State.core_setCore_self, Core.eng_setEng, if_neg h]

theorem State.core_setEng_ne {c k : CoreId} (e : Cls) (g : Engine) (h : coreKey k ≠ coreKey c) :
    (s.setEng c e g).core k = s.core k := State.core_setCore_ne s _ h

/-- A region reads as set, every region of another key as before. -/
theorem State.region_setRegion (r k : RegionId) (x : Region) :
    (s.setRegion r x).region k = if regionKey k = regionKey r then x else s.region k := AMap.get_set _ _ _ _ _

@[simp] theorem State.region_setRegion_self (r : RegionId) (x : Region) : (s.setRegion r x).region r = x := by
  rw [State.region_setRegion, if_pos rfl]

/-- A byte of the hearths after bytes are stored. -/
theorem State.get_hwrite (c : CoreId) (a k : Nat) (bs : List Byte) :
    Mem.get (s.hwrite c a bs).hearth k =
      if k < hearthAt c a then Mem.get s.hearth k else bs.getD (k - hearthAt c a) (Mem.get s.hearth k) :=
  Mem.get_write _ _ _ _

/-- A byte of the fabric memory after bytes are stored. -/
theorem State.get_fwrite (a k : Nat) (bs : List Byte) :
    Mem.get (s.fwrite a bs).fabric k =
      if k < a then Mem.get s.fabric k else bs.getD (k - a) (Mem.get s.fabric k) := Mem.get_write _ _ _ _

/-- Bytes stored are the bytes read there. -/
@[simp] theorem State.hread_hwrite (c : CoreId) (a : Nat) (bs : List Byte) :
    (s.hwrite c a bs).hread c a bs.length = bs := Mem.read_write _ _ _

@[simp] theorem State.fread_fwrite (a : Nat) (bs : List Byte) : (s.fwrite a bs).fread a bs.length = bs :=
  Mem.read_write _ _ _

end
end Sys2Proof.Machine
end

