-- ==== Sys2Proof/Laws/Address.lean ====
section
/-! SUPPORT. The fields of the management addresses that the named registers have, the register tables they fall into, and
where an access to a core's or an engine's register leads. -/
namespace Sys2Proof.Machine

section
variable {site block unit off : Nat}

theorem siteOf_unitBase (h0 : site < 256) (h1 : block < 256) (h2 : unit < 256) (h3 : off < 0x10000) :
    siteOf (unitBase site block unit + off) = site := by
  unfold siteOf unitBase bits
  omega

theorem blockOf_unitBase (h1 : block < 256) (h2 : unit < 256) (h3 : off < 0x10000) :
    blockOf (unitBase site block unit + off) = block := by
  unfold blockOf unitBase bits
  omega

theorem unitOf_unitBase (h2 : unit < 256) (h3 : off < 0x10000) : unitOf (unitBase site block unit + off) = unit := by
  unfold unitOf unitBase bits
  omega

theorem offsetOf_unitBase (h3 : off < 0x10000) : offsetOf (unitBase site block unit + off) = off := by
  unfold offsetOf unitBase bits
  omega

end

section
variable {c : CoreId} (hc : c.ok = true)
include hc

theorem CoreId.bounds : c.die < 64 ∧ c.region < 80 ∧ c.core < 64 := by
  unfold CoreId.ok at hc
  simp only [Bool.and_eq_true, decide_eq_true_eq] at hc
  exact ⟨hc.1.1, hc.1.2, hc.2⟩

theorem siteOf_core {off : Nat} (ho : off < 0x10000) : siteOf (coreBase c + off) = c.die := by
  have := CoreId.bounds hc
  exact siteOf_unitBase (by omega) (by omega) (by omega) ho

theorem blockOf_core {off : Nat} (ho : off < 0x10000) : blockOf (coreBase c + off) = c.region := by
  have := CoreId.bounds hc
  exact blockOf_unitBase (by omega) (by omega) ho

theorem unitOf_core {off : Nat} (ho : off < 0x10000) : unitOf (coreBase c + off) = c.core := by
  have := CoreId.bounds hc
  exact unitOf_unitBase (by omega) ho

omit hc in
theorem offsetOf_core {off : Nat} (ho : off < 0x10000) : offsetOf (coreBase c + off) = off :=
  offsetOf_unitBase ho

/-- A core's address is its own home. -/
theorem State.homeOf_core (s : State) {off : Nat} (ho : off < 0x10000) : s.homeOf (coreBase c + off) = coreBase c + off := by
  have hb := CoreId.bounds hc
  have hl : s.leadSite = 0x48 ∨ s.leadSite = 0x40 := by unfold State.leadSite; split <;> simp
  unfold State.homeOf
  rw [siteOf_core hc ho, blockOf_core hc ho, unitOf_core hc ho]
  have h1 : ¬ (c.core = 0x40) := by omega
  have h2 : ¬ (c.core = 0x41) := by omega
  have h3 : ¬ (c.die = s.leadSite) := by omega
  simp [h1, h2, h3]

theorem State.atBackup_core (s : State) {off : Nat} (ho : off < 0x10000) : s.atBackup (coreBase c + off) = false := by
  have hb := CoreId.bounds hc
  unfold State.atBackup
  rw [siteOf_core hc ho]
  have h1 : ¬ (c.die = 0x40) := by omega
  have h2 : ¬ (c.die = 0x48) := by omega
  simp [h1, h2]

theorem State.portless_core (s : State) {off : Nat} (ho : off < 0x10000) : s.portless (coreBase c + off) = false := by
  have hb := CoreId.bounds hc
  unfold State.portless isLane
  rw [siteOf_core hc ho]
  have h1 : ¬ (0x40 ≤ c.die) := by omega
  simp [h1]

/-- The table of a core's common registers. -/
theorem tableAt_core {off : Nat} (ho : off < 0x1000) : tableAt (coreBase c + off) = (rows_coreHth, off) := by
  have hb := CoreId.bounds hc
  unfold tableAt
  rw [siteOf_core hc (by omega), blockOf_core hc (by omega), unitOf_core hc (by omega), offsetOf_core (by omega)]
  simp only [show c.die < 0x40 by omega, show c.region < 80 by omega, show c.core < 0x42 by omega, ho, if_true]

/-- The table of an engine's window. -/
theorem tableAt_engine {e : Cls} {off : Nat} (he : c.has e = true) (ho : off < 0x1000) :
    tableAt (engBase c e + off) = (windowRows (engWindow e / 0x1000), off) := by
  have hb := CoreId.bounds hc
  have hw : engWindow e < 0x8000 := by cases e <;> decide
  have hw1 : 0x1000 ≤ engWindow e := by cases e <;> decide
  have hm : engWindow e % 0x1000 = 0 := by cases e <;> rfl
  have e1 : engBase c e + off = coreBase c + (engWindow e + off) := by unfold engBase; omega
  rw [e1]
  unfold tableAt
  rw [siteOf_core hc (by omega), blockOf_core hc (by omega), unitOf_core hc (by omega), offsetOf_core (by omega)]
  simp only [show c.die < 0x40 by omega, show c.region < 80 by omega, show c.core < 0x42 by omega, if_true]
  rw [if_neg (by omega : ¬ engWindow e + off < 0x1000), show (engWindow e + off) / 0x1000 = engWindow e / 0x1000 by omega,
    show (engWindow e + off) % 0x1000 = off by omega, if_neg]
  cases e <;> simp [engWindow]
  unfold CoreId.has at he
  simp only [hc, Bool.true_and, bne_self_eq_false, Bool.false_or, decide_eq_true_eq] at he
  intro _
  unfold isTcore
  have : c.core = 0 ∨ c.core = 16 ∨ c.core = 32 ∨ c.core = 48 := by omega
  rcases this with h | h | h | h <;> simp [h]

/-- An access to a core's register outside the instruction bank windows. -/
theorem State.spot_core (s : State) {off width : Nat} {r : Row} {ix : List Nat} (ho : off < 0x8000)
    (hr : regRow (coreBase c + off) = some (r, ix)) (hw : r.width = width) (hd : s.siteDown c.die c.region = false) :
    s.spot (coreBase c + off) width = .ok (.reg (coreBase c + off) r) := by
  unfold State.spot
  rw [siteOf_core hc (by omega), blockOf_core hc (by omega), unitOf_core hc (by omega), offsetOf_core (by omega),
    State.homeOf_core hc s (by omega), State.atBackup_core hc s (by omega), State.portless_core hc s (by omega)]
  dsimp only
  rw [if_neg (by simp; omega)]
  simp only [Bool.false_eq_true, if_false, hr, hw, ne_eq, not_true_eq_false, hd, Bool.or_self]

end

/-- A management write that leads to a register is that register's write. -/
theorem State.mgmtWrite_reg {s : State} {inband : Bool} {a h width : Nat} {r : Row} (data : Word)
    (hs : s.spot a width = .ok (.reg h r)) :
    s.mgmtWrite inband a width data =
      s.writeReg inband h r (if width = 64 then data else BitVec.ofNat 64 (data.toNat % 2 ^ 32)) := by
  unfold State.mgmtWrite
  rw [hs]

/-- A write of a core's common register. -/
theorem State.writeReg_core {s : State} {inband : Bool} {c : CoreId} (hc : c.ok = true) {off : Nat} {r : Row} (w : Word)
    (ho : off < 0x1000) : s.writeReg inband (coreBase c + off) r w = s.writeCommon c off r w := by
  have hb := CoreId.bounds hc
  unfold State.writeReg
  rw [siteOf_core hc (by omega), blockOf_core hc (by omega), unitOf_core hc (by omega), offsetOf_core (by omega)]
  have h3 : engOfWindow (off / 0x1000) = none := by
    rw [show off / 0x1000 = 0 by omega]; rfl
  simp only [show c.die < 0x40 by omega, show c.region < 80 by omega, show c.core < 0x42 by omega, if_true, h3]

/-- A write of a register in an engine's window. -/
theorem State.writeReg_engine {s : State} {inband : Bool} {c : CoreId} (hc : c.ok = true) {e : Cls} {off : Nat} {r : Row} (w : Word)
    (ho : off < 0x1000) : s.writeReg inband (engBase c e + off) r w = s.writeEngine c e off r w := by
  have hb := CoreId.bounds hc
  have hw : engWindow e < 0x8000 := by cases e <;> decide
  have hw1 : 0x1000 ≤ engWindow e := by cases e <;> decide
  have hm : engWindow e % 0x1000 = 0 := by cases e <;> rfl
  have he : engOfWindow (engWindow e / 0x1000) = some e := by cases e <;> rfl
  rw [show engBase c e + off = coreBase c + (engWindow e + off) by unfold engBase; omega]
  unfold State.writeReg
  rw [siteOf_core hc (by omega), blockOf_core hc (by omega), unitOf_core hc (by omega), offsetOf_core (by omega)]
  dsimp only
  rw [show (engWindow e + off) / 0x1000 = engWindow e / 0x1000 by omega, show (engWindow e + off) % 0x1000 = off by omega]
  simp only [show c.die < 0x40 by omega, show c.region < 80 by omega, show c.core < 0x42 by omega, if_true, he]

/-- An access to a register in an engine's window. -/
theorem State.spot_engine (s : State) {c : CoreId} (hc : c.ok = true) {e : Cls} {off width : Nat} {r : Row} {ix : List Nat} (ho : off < 0x1000)
    (hr : regRow (engBase c e + off) = some (r, ix)) (hw : r.width = width) (hd : s.siteDown c.die c.region = false) :
    s.spot (engBase c e + off) width = .ok (.reg (engBase c e + off) r) := by
  have hl : engWindow e + off < 0x8000 := by cases e <;> simp only [engWindow] <;> omega
  have e1 : engBase c e + off = coreBase c + (engWindow e + off) := by unfold engBase; omega
  rw [e1] at hr ⊢
  exact State.spot_core hc s hl hr hw hd

end Sys2Proof.Machine
end

