-- ==== Sys2Proof/Laws/Fields.lean ====
section
/-! SUPPORT. Register fields: what a field reads after a field is written. -/
namespace Sys2Proof.Machine

/-- A field inside a 64-bit word. -/
abbrev Fld.fits (f : Fld) : Prop := f.lo ≤ f.hi ∧ f.hi < 64

/-- Two fields share no bit. -/
abbrev Fld.apart (f g : Fld) : Prop := f.hi < g.lo ∨ g.hi < f.lo

theorem testBit_bits (x hi lo i : Nat) : (bits x hi lo).testBit i = (decide (i < hi + 1 - lo) && x.testBit (lo + i)) := by
  unfold bits
  rw [Nat.testBit_mod_two_pow, Nat.testBit_div_two_pow, Nat.add_comm i lo]

theorem testBit_setBits {hi lo : Nat} (h : lo ≤ hi) (x v i : Nat) :
    (setBits x hi lo v).testBit i = if lo ≤ i ∧ i ≤ hi then v.testBit (i - lo) else x.testBit i := by
  have hr : x % 2 ^ lo < 2 ^ lo := Nat.mod_lt _ (Nat.two_pow_pos _)
  have hv : v % 2 ^ (hi + 1 - lo) < 2 ^ (hi + 1 - lo) := Nat.mod_lt _ (Nat.two_pow_pos _)
  have hm : x / 2 ^ lo % 2 ^ (hi + 1 - lo) < 2 ^ (hi + 1 - lo) := Nat.mod_lt _ (Nat.two_pow_pos _)
  have h1 := Nat.div_add_mod x (2 ^ lo)
  have h2 := Nat.div_add_mod (x / 2 ^ lo) (2 ^ (hi + 1 - lo))
  have e : setBits x hi lo v =
      2 ^ lo * (2 ^ (hi + 1 - lo) * (x / 2 ^ lo / 2 ^ (hi + 1 - lo)) + v % 2 ^ (hi + 1 - lo)) + x % 2 ^ lo := by
    unfold setBits bits
    generalize x / 2 ^ lo % 2 ^ (hi + 1 - lo) = m at *
    generalize x / 2 ^ lo / 2 ^ (hi + 1 - lo) = q at *
    rw [← h2, Nat.mul_add] at h1
    rw [Nat.mul_add, Nat.mul_comm m, Nat.mul_comm (v % _) (2 ^ lo)]
    omega
  have ex : x = 2 ^ lo * (2 ^ (hi + 1 - lo) * (x / 2 ^ lo / 2 ^ (hi + 1 - lo)) + x / 2 ^ lo % 2 ^ (hi + 1 - lo)) + x % 2 ^ lo := by
    rw [h2, h1]
  rw [e, Nat.testBit_two_pow_mul_add _ hr]
  by_cases hi1 : i < lo
  · rw [if_pos hi1, if_neg (by omega), Nat.testBit_mod_two_pow]
    simp [hi1]
  · rw [if_neg hi1, Nat.testBit_two_pow_mul_add _ hv]
    by_cases hi2 : i - lo < hi + 1 - lo
    · rw [if_pos hi2, if_pos (by omega), Nat.testBit_mod_two_pow]
      simp [hi2]
    · rw [if_neg hi2, if_neg (by omega)]
      conv => rhs; rw [ex]
      rw [Nat.testBit_two_pow_mul_add _ hr, if_neg hi1, Nat.testBit_two_pow_mul_add _ hm, if_neg hi2]

theorem testBit_put {f : Fld} (h : f.fits) (w : Word) (v i : Nat) :
    (f.put w v).toNat.testBit i =
      if f.lo ≤ i ∧ i ≤ f.hi then v.testBit (i - f.lo) else w.toNat.testBit i := by
  have hw : w.toNat < 2 ^ 64 := w.isLt
  unfold Fld.put
  rw [BitVec.toNat_ofNat, Nat.testBit_mod_two_pow]
  have key : (setBits w.toNat f.hi f.lo v).testBit i =
      if f.lo ≤ i ∧ i ≤ f.hi then v.testBit (i - f.lo) else w.toNat.testBit i := testBit_setBits h.1 _ _ _
  rw [key]
  by_cases hi : i < 64
  · simp [hi]
  · have : w.toNat.testBit i = false := Nat.testBit_lt_two_pow (Nat.lt_of_lt_of_le hw (Nat.pow_le_pow_right (by omega) (by omega)))
    have h2 := h.2
    simp [hi, this]
    omega

theorem Fld.get_put {f : Fld} (h : f.fits) (w : Word) (v : Nat) : f.get (f.put w v) = v % 2 ^ (f.hi + 1 - f.lo) := by
  apply Nat.eq_of_testBit_eq
  intro i
  unfold Fld.get
  rw [testBit_bits, testBit_put h, Nat.testBit_mod_two_pow]
  by_cases hi : i < f.hi + 1 - f.lo
  · rw [if_pos (by omega)]; simp [hi]
  · simp [hi]

theorem Fld.get_put_apart {f g : Fld} (h : f.fits) (ha : f.apart g) (w : Word) (v : Nat) : g.get (f.put w v) = g.get w := by
  apply Nat.eq_of_testBit_eq
  intro i
  unfold Fld.get
  rw [testBit_bits, testBit_bits, testBit_put h]
  unfold Fld.apart at ha
  by_cases hi : i < g.hi + 1 - g.lo
  · rw [if_neg (by omega)]
  · simp [hi]

section
variable (s : State)

theorem State.fld_setFld_self {f : Fld} (h : f.fits) (a v : Nat) : (s.setFld a f v).fld a f = v % 2 ^ (f.hi + 1 - f.lo) := by
  unfold State.fld State.setFld
  rw [State.reg_setReg_self, Fld.get_put h]

/-- Another field of the register keeps its value. -/
theorem State.fld_setFld_apart {f g : Fld} (h : f.fits) (ha : f.apart g) (a v : Nat) :
    (s.setFld a f v).fld a g = s.fld a g := by
  unfold State.fld State.setFld
  rw [State.reg_setReg_self, Fld.get_put_apart h ha]

end

end Sys2Proof.Machine
end

