-- ==== Sys2Proof/Laws/Sequencer.lean ====
section
/-! SUPPORT. What an engine command does at its issue point: the one lemma through which every engine operation's result
is reached. -/
namespace Sys2Proof.Machine

/-- At its issue point an operation comes to what its effect's verdict says. -/
theorem runOp_at {c : CoreId} {e : Cls} {sp : OpSpec} {s s1 : State} {h : Heads} {take : Option Sig}
    (hp : s.issuePoint c e sp = some (s1, h, take)) :
    runOp c e sp s = .next (s1.verdict c e (s.headWord c e) h take
      (sp.body ⟨c, e, s.headWord c e, (s1.eng c e).pc, s1.now⟩ s1)) := by
  unfold State.issuePoint at hp
  split at hp
  case isFalse => cases hp
  case isTrue hk =>
    unfold State.headOk at hk
    simp only [Bool.and_eq_true, decide_eq_true_eq, Bool.not_eq_true'] at hk
    obtain ⟨⟨⟨⟨⟨h1, h2⟩, h3⟩, h4⟩, h5⟩, h6⟩ := hk
    dsimp only at hp
    split at hp
    · cases hp
    · rename_i hd hh
      split at hp
      · rename_i tk s2 hj
        cases hp
        have hi : headIs e sp.op (s.instrWord c (s.eng c e).pc) = true := by
          unfold headIs
          unfold State.headWord at h3
          simp [h3]
        unfold runOp onUnit
        rw [h1, h2, hi]
        simp only [Bool.and_self, if_true]
        unfold State.tryIssue
        unfold State.headWord at *
        dsimp only
        rw [if_neg h6, h4]
        simp only [Bool.false_eq_true, if_false]
        rw [hh]
        dsimp only
        unfold State.faceWait
        rw [hj]
        dsimp only
        unfold State.issueNow
        dsimp only
        rw [h5]
        simp only [Bool.not_true, Bool.false_eq_true, if_false]
        generalize sp.body _ _ = v
        cases v <;> rfl
      · cases hp

/-- At its issue point an operation whose effect is `o` issues with it. -/
theorem runOp_issues {c : CoreId} {e : Cls} {sp : OpSpec} {s s1 : State} {h : Heads} {take : Option Sig} {o : Out}
    (hp : s.issuePoint c e sp = some (s1, h, take))
    (ho : sp.body ⟨c, e, s.headWord c e, (s1.eng c e).pc, s1.now⟩ s1 = .ok o) :
    runOp c e sp s = .next (s1.issued c e (s.headWord c e) h take o) := by
  rw [runOp_at hp, ho]
  rfl

/-- An engine command is its engine's operation. -/
theorem exec_engineOp {i : Instr} {c : CoreId} {e : Cls} {sp : OpSpec} (h : engineOp i = some (c, e, sp)) (s : State) :
    exec i s = runOp c e sp s := by
  cases i <;> simp only [engineOp, Option.some.injEq, Prod.mk.injEq, reduceCtorEq] at h <;>
    (obtain ⟨rfl, rfl, rfl⟩ := h; rfl)

/-- An engine command whose effect at the issue point is `o` answers the state that issues with it. -/
theorem exec_issues {i : Instr} {c : CoreId} {e : Cls} {sp : OpSpec} {s s1 : State} {h : Heads} {take : Option Sig} {o : Out}
    (hp : s.issuePoint c e sp = some (s1, h, take)) (hi : engineOp i = some (c, e, sp))
    (ho : sp.body ⟨c, e, s.headWord c e, (s1.eng c e).pc, s1.now⟩ s1 = .ok o) :
    exec i s = .next (s1.issued c e (s.headWord c e) h take o) := by
  rw [exec_engineOp hi, runOp_issues hp ho]

end Sys2Proof.Machine
end

