-- ==== Sys2Proof/Laws/SoundRules.lean ====
section
/-! SUPPORT. What soundness means of every kind of result that holds a state, and the rules that carry it through
branches, folds and matches. -/
namespace Sys2Proof.Machine

/-- An issued instruction leaves a sound state. -/
def Out.Sound (o : Out) : Prop := o.st.Sound

/-- Every state a verdict at issue holds is sound. -/
def Res.Sound : Res → Prop
  | .reject _ => True
  | .refuse _ st => st.Sound
  | .fail _ st => st.Sound
  | .ok o => o.st.Sound

/-- An operation's effect keeps soundness. -/
def OpSpec.Sound (sp : OpSpec) : Prop := ∀ x s, s.Sound → (sp.body x s).Sound

/-- Every state a management command's end holds is sound. -/
def Ran.Sound : Ran → Prop
  | .done _ _ s => s.Sound
  | .later s => s.Sound
  | .waits => True

/-- A next state is sound. -/
def NextSound (o : Host.Outcome State Fault Refusal) : Prop := ∀ t, o = .next t → t.Sound

theorem sound_fold {s : State} (h : s.Sound) :
    Memory.wf s.hearth ∧ Memory.wf s.istore ∧ Memory.wf s.scratch ∧ Memory.wf s.fabric ∧ regsOk s.regs ∧
      s.ash.length ≤ 4096 := h

/-- What an optional result holds satisfies a property. -/
def OptSat {α : Type} (P : α → Prop) (o : Option α) : Prop := ∀ y, o = some y → P y

theorem optSat_none {α : Type} {P : α → Prop} : OptSat P none := by
  intro y e; cases e

theorem optSat_some {α : Type} {P : α → Prop} {a : α} (h : P a) : OptSat P (some a) := by
  intro y e; cases e; exact h

theorem optSat_map {α β : Type} {P : β → Prop} {o : Option α} {f : α → β} (h : ∀ a, P (f a)) : OptSat P (o.map f) := by
  intro y e
  cases o with
  | none => cases e
  | some a => cases e; exact h a

theorem optSat_ite {α : Type} {P : α → Prop} {c : Prop} [Decidable c] {a b : Option α} (ha : OptSat P a)
    (hb : OptSat P b) : OptSat P (if c then a else b) := by
  split
  · exact ha
  · exact hb

/-- Soundness says nothing of the job unit. -/
theorem sound_job {s : State} (j : Job) (h : s.Sound) : State.Sound { s with job := j } := h

/-- Soundness says nothing of shadow work. -/
theorem sound_shadow {s : State} (x : Shadow) (h : s.Sound) : State.Sound { s with shadow := x } := h

/-- Soundness says nothing of the lifetime counters. -/
theorem sound_life {s : State} (x : AMap Nat) (h : s.Sound) : State.Sound { s with life := x } := h

/-- Soundness says nothing of the power unit. -/
theorem sound_power {s : State} (x : Power) (h : s.Sound) : State.Sound { s with power := x } := h

theorem nextSound_next {s : State} (h : s.Sound) : NextSound (.next s) := by
  intro t e; cases e; exact h

theorem nextSound_fault {f : Fault} : NextSound (.fault f) := by
  intro t e; cases e

theorem nextSound_refused {r : Refusal} : NextSound (.refused r) := by
  intro t e; cases e

theorem res_reject {n : Nat} : (Res.reject n).Sound := True.intro

theorem res_refuse {n : Nat} {s : State} (h : s.Sound) : (Res.refuse n s).Sound := h

theorem res_fail {n : Nat} {s : State} (h : s.Sound) : (Res.fail n s).Sound := h

theorem res_ok {o : Out} (h : o.Sound) : (Res.ok o).Sound := h

theorem out_fold {o : Out} (h : o.st.Sound) : o.Sound := h

theorem out_st {o : Out} (h : o.Sound) : o.st.Sound := h

theorem opSpec_body {sp : OpSpec} (h : sp.Sound) {x : Ctx} {s : State} (hs : s.Sound) : (sp.body x s).Sound := h x s hs

theorem ran_done {n : Nat} {p : List Byte} {s : State} (h : s.Sound) : (Ran.done n p s).Sound := h

theorem ran_later {s : State} (h : s.Sound) : (Ran.later s).Sound := h

theorem ran_waits : Ran.waits.Sound := True.intro

theorem sound_of_snd {α : Type} {p : α × State} {a : α} {t : State} (e : p = (a, t)) (h : p.2.Sound) : t.Sound := by
  subst e; exact h

theorem sound_of_fst {α : Type} {p : State × α} {a : α} {t : State} (e : p = (t, a)) (h : p.1.Sound) : t.Sound := by
  subst e; exact h

theorem sound_of_ok {r : Res} {o : Out} (e : r = .ok o) (h : r.Sound) : o.st.Sound := by
  subst e; exact h

theorem sound_of_refuse {r : Res} {n : Nat} {t : State} (e : r = .refuse n t) (h : r.Sound) : t.Sound := by
  subst e; exact h

theorem sound_of_fail {r : Res} {n : Nat} {t : State} (e : r = .fail n t) (h : r.Sound) : t.Sound := by
  subst e; exact h

theorem sound_of_done {r : Ran} {n : Nat} {p : List Byte} {t : State} (e : r = .done n p t) (h : r.Sound) :
    t.Sound := by
  subst e; exact h

theorem sound_of_later {r : Ran} {t : State} (e : r = .later t) (h : r.Sound) : t.Sound := by
  subst e; exact h

theorem sound_of_some {o : Option State} {t : State} (e : o = some t) (h : OptSat State.Sound o) : t.Sound :=
  h t e

theorem sound_of_some_snd {α : Type} {o : Option (α × State)} {a : α} {t : State} (e : o = some (a, t))
    (h : OptSat (fun p => p.2.Sound) o) : t.Sound := h _ e

theorem sound_of_some_fst {α : Type} {o : Option (State × α)} {a : α} {t : State} (e : o = some (t, a))
    (h : OptSat (fun p => p.1.Sound) o) : t.Sound := h _ e

theorem sound_of_some_third {α β : Type} {o : Option (α × β × State)} {a : α} {b : β} {t : State}
    (e : o = some (a, b, t)) (h : OptSat (fun p => p.2.2.Sound) o) : t.Sound := h _ e

theorem sound_of_third {α β : Type} {p : α × β × State} {a : α} {b : β} {t : State} (e : p = (a, b, t))
    (h : p.2.2.Sound) : t.Sound := by
  subst e; exact h

theorem sound_of_fst_some {α : Type} {p : Option State × α} {a : α} {t : State} (e : p = (some t, a))
    (h : OptSat State.Sound p.1) : t.Sound := by
  subst e; exact h t rfl

theorem sound_of_next {o : Host.Outcome State Fault Refusal} {t : State} (e : o = .next t) (h : NextSound o) :
    t.Sound := h t e

theorem ite_keeps {α : Type} (P : α → Prop) {c : Prop} [Decidable c] {a b : α} (ha : P a) (hb : P b) :
    P (if c then a else b) := by
  split
  · exact ha
  · exact hb

theorem sound_ite {c : Prop} [Decidable c] {a b : State} (ha : a.Sound) (hb : b.Sound) :
    (if c then a else b).Sound := ite_keeps State.Sound ha hb

/-- A fold keeps what each of its steps keeps. -/
theorem foldl_keeps {α β : Type} (P : β → Prop) {f : β → α → β} (h : ∀ b a, P b → P (f b a)) (l : List α) {b : β}
    (hb : P b) : P (l.foldl f b) := by
  induction l generalizing b with
  | nil => exact hb
  | cons a l ih => exact ih (h b a hb)

theorem sound_foldl {α : Type} {f : State → α → State} {l : List α} {s : State} (h : ∀ s a, s.Sound → (f s a).Sound)
    (hs : s.Sound) : (l.foldl f s).Sound := foldl_keeps State.Sound h l hs

theorem sound_foldl_snd {α β : Type} {f : β × State → α → β × State} {l : List α} {p : β × State}
    (h : ∀ p a, p.2.Sound → (f p a).2.Sound) (hp : p.2.Sound) : (l.foldl f p).2.Sound :=
  foldl_keeps (fun p : β × State => p.2.Sound) h l hp

theorem sound_foldl_opt {α : Type} {f : Option State → α → Option State} {l : List α} {o : Option State}
    (h : ∀ o a, OptSat State.Sound o → OptSat State.Sound (f o a)) (ho : OptSat State.Sound o) :
    OptSat State.Sound (l.foldl f o) := foldl_keeps (OptSat State.Sound) h l ho

/-- The default of an optional state is sound where both are. -/
theorem sound_getD {o : Option State} {s : State} (ho : OptSat State.Sound o) (hs : s.Sound) : (o.getD s).Sound := by
  cases o with
  | none => exact hs
  | some t => exact ho t rfl

theorem sound_bind {o : Option State} {f : State → Option State} (ho : OptSat State.Sound o)
    (hf : ∀ s, s.Sound → OptSat State.Sound (f s)) : OptSat State.Sound (o.bind f) := by
  intro t e
  cases o with
  | none => cases e
  | some s => exact hf s (ho s rfl) t e

end Sys2Proof.Machine
end

