-- ==== Sys2Proof/Laws/SoundOps.lean ====
section
/-! SUPPORT. That the definitions of Machine/Ops.lean keep a state sound. -/
namespace Sys2Proof.Machine

theorem State.setReg_sound (s : State) (a : Nat) (w : Word) (h_s : s.Sound) :
    (State.setReg s a w).Sound := by
  exact ⟨h_s.1, h_s.2.1, h_s.2.2.1, h_s.2.2.2.1, regsOk_set h_s.2.2.2.2.1 a w, h_s.2.2.2.2.2⟩

theorem State.setFld_sound (s : State) (a : Nat) (f : Fld) (v : Nat) (h_s : s.Sound) :
    (State.setFld s a f v).Sound := by
  unfold State.setFld
  repeat' first
    | with_reducible assumption
    | with_reducible refine State.setReg_sound _ _ _ ?_

theorem State.count_sound (s : State) (a : Nat) (f : Fld) (n : Nat) (h_s : s.Sound) :
    (State.count s a f n).Sound := by
  unfold State.count
  repeat' first
    | with_reducible assumption
    | with_reducible refine State.setFld_sound _ _ _ _ ?_

theorem State.bump_sound (s : State) (a : Nat) (f : Fld) (n : Nat) (h_s : s.Sound) :
    (State.bump s a f n).Sound := by
  unfold State.bump
  repeat' first
    | with_reducible assumption
    | with_reducible refine State.setFld_sound _ _ _ _ ?_

theorem State.flag_sound (s : State) (a : Nat) (f : Fld) (h_s : s.Sound) :
    (State.flag s a f).Sound := by
  unfold State.flag
  repeat' first
    | with_reducible assumption
    | with_reducible refine State.setFld_sound _ _ _ _ ?_

theorem State.setMark_sound (s : State) (m : MarkSpace) (word : Nat) (v : Nat) (h_s : s.Sound) :
    (State.setMark s m word v).Sound := by
  unfold State.setMark
  repeat' first
    | (simp only [State.Sound]; with_reducible refine sound_fold ?_; with_reducible assumption)

theorem State.unmark_sound (s : State) (m : MarkSpace) (lo : Nat) (hi : Nat) (h_s : s.Sound) :
    (State.unmark s m lo hi).Sound := by
  unfold State.unmark
  repeat' first
    | (simp only [State.Sound]; with_reducible refine sound_fold ?_; with_reducible assumption)

theorem State.hwrite_sound (s : State) (c : CoreId) (a : Nat) (bs : List Byte) (h_s : s.Sound) :
    (State.hwrite s c a bs).Sound := by
  exact ⟨Memory.wf_write h_s.1 _ _, h_s.2⟩

theorem State.swrite_sound (s : State) (die : Nat) (a : Nat) (bs : List Byte) (h_s : s.Sound) :
    (State.swrite s die a bs).Sound := by
  exact ⟨h_s.1, h_s.2.1, Memory.wf_write h_s.2.2.1 _ _, h_s.2.2.2⟩

theorem State.fwrite_sound (s : State) (a : Nat) (bs : List Byte) (h_s : s.Sound) :
    (State.fwrite s a bs).Sound := by
  exact ⟨h_s.1, h_s.2.1, h_s.2.2.1, Memory.wf_write h_s.2.2.2.1 _ _, h_s.2.2.2.2⟩

theorem State.iwrite_sound (s : State) (c : CoreId) (bank : Nat) (off : Nat) (bs : List Byte) (h_s : s.Sound) :
    (State.iwrite s c bank off bs).Sound := by
  exact ⟨h_s.1, Memory.wf_write h_s.2.1 _ _, h_s.2.2⟩

theorem State.lifeAdd_sound (s : State) (w : Nat) (n : Nat) (h_s : s.Sound) :
    (State.lifeAdd s w n).Sound := by
  unfold State.lifeAdd
  repeat' first
    | (simp only [State.Sound]; with_reducible refine sound_fold ?_; with_reducible assumption)

theorem State.healthAdd_sound (s : State) (i : Nat) (n : Nat) (h_s : s.Sound) :
    (State.healthAdd s i n).Sound := by
  unfold State.healthAdd
  repeat' first
    | (simp only [State.Sound]; with_reducible refine sound_fold ?_; with_reducible assumption)

theorem State.setMState_sound (s : State) (m : Nat) (h_s : s.Sound) :
    (State.setMState s m).Sound := by
  unfold State.setMState
  repeat' first
    | with_reducible assumption
    | with_reducible refine State.setFld_sound _ _ _ _ ?_

theorem State.at_sound (s : State) (t : Nat) (h_s : s.Sound) :
    (State.at s t).Sound := by
  unfold State.at
  repeat' first
    | with_reducible assumption
    | with_reducible refine sound_ite ?_ ?_
    | (simp only [State.Sound]; with_reducible refine sound_fold ?_; with_reducible assumption)

theorem State.freeWord_sound (s : State) (h_s : s.Sound) :
    (State.freeWord s).2.Sound := by
  unfold State.freeWord
  repeat' first
    | dsimp only [Out.at]
    | (simp only [State.Sound]; with_reducible refine sound_fold ?_; with_reducible assumption)

theorem State.freeBytes_sound (s : State) (n : Nat) (h_s : s.Sound) :
    (State.freeBytes s n).2.Sound := by
  unfold State.freeBytes
  repeat' first
    | dsimp only [Out.at]
    | (simp only [State.Sound]; with_reducible refine sound_fold ?_; with_reducible assumption)

theorem State.setCore_sound (s : State) (c : CoreId) (x : Core) (h_s : s.Sound) :
    (State.setCore s c x).Sound := by
  unfold State.setCore
  repeat' first
    | (simp only [State.Sound]; with_reducible refine sound_fold ?_; with_reducible assumption)

theorem State.setEng_sound (s : State) (c : CoreId) (e : Cls) (g : Engine) (h_s : s.Sound) :
    (State.setEng s c e g).Sound := by
  unfold State.setEng
  repeat' first
    | with_reducible assumption
    | with_reducible refine State.setCore_sound _ _ _ ?_

theorem State.setRegion_sound (s : State) (r : RegionId) (x : Region) (h_s : s.Sound) :
    (State.setRegion s r x).Sound := by
  unfold State.setRegion
  repeat' first
    | (simp only [State.Sound]; with_reducible refine sound_fold ?_; with_reducible assumption)

theorem State.relFlag_sound (s : State) (f : Fld) (h_s : s.Sound) :
    (State.relFlag s f).Sound := by
  unfold State.relFlag
  repeat' first
    | with_reducible assumption
    | with_reducible refine State.count_sound _ _ _ _ ?_
    | with_reducible refine State.flag_sound _ _ _ ?_

theorem State.report_sound (s : State) (e : AshEntry) (h_s : s.Sound) :
    (State.report s e).Sound := by
  unfold State.report
  repeat' first
    | split
    | (simp only [State.Sound]; with_reducible refine sound_fold ?_; with_reducible assumption)

theorem State.log_sound (s : State) (d : Detection) (h_s : s.Sound) :
    (State.log s d).Sound := by
  unfold State.log
  lift_lets
  intro ack head fresh merged
  clear_value merged head fresh
  split
  · refine State.report_sound _ _ ?_
    exact ⟨h_s.1, h_s.2.1, h_s.2.2.1, h_s.2.2.2.1, h_s.2.2.2.2.1, by simpa using h_s.2.2.2.2.2⟩
  · split
    · exact State.report_sound _ _ (State.relFlag_sound _ _ (State.count_sound _ _ _ _ h_s))
    · refine State.report_sound _ _ (State.setFld_sound _ _ _ _ ?_)
      exact ⟨h_s.1, h_s.2.1, h_s.2.2.1, h_s.2.2.2.1, h_s.2.2.2.2.1, List.length_take_le ..⟩

theorem State.logAt_sound (s : State) (cls : Nat) (code : Nat) (site : Nat) (block : Nat) (unit : Nat) (details : List Nat) (h_s : s.Sound) :
    (State.logAt s cls code site block unit details).Sound := by
  exact State.log_sound _ _ h_s

theorem State.completed_sound (s : State) (code : Nat) (value : Word) (h_s : s.Sound) :
    (State.completed s code value).Sound := by
  unfold State.completed
  repeat' first
    | (simp only [State.Sound]; with_reducible refine sound_fold ?_; with_reducible assumption)

theorem onUnit_sound (ok : Bool) (s : State) (h_s : s.Sound) :
    NextSound (onUnit ok s) := by
  unfold onUnit
  repeat' first
    | with_reducible assumption
    | with_reducible exact nextSound_refused
    | with_reducible refine nextSound_next ?_
    | with_reducible refine ite_keeps NextSound ?_ ?_

end Sys2Proof.Machine
end

