-- ==== Sys2Proof/Laws/SoundPackets.lean ====
section
/-! SUPPORT. That the definitions of Machine/Packets.lean keep a state sound. -/
namespace Sys2Proof.Machine

theorem State.setPort_sound (s : State) (p : Nat) (x : Port) (h_s : s.Sound) :
    (State.setPort s p x).Sound := by
  unfold State.setPort
  repeat' first
    | (simp only [State.Sound]; with_reducible refine sound_fold ?_; with_reducible assumption)

theorem State.countRouter_sound (s : State) (r : Option RegionId) (out : Bool) (p : Packet) (h_s : s.Sound) :
    (State.countRouter s r out p).Sound := by
  unfold State.countRouter
  repeat' first
    | with_reducible assumption
    | with_reducible refine sound_ite ?_ ?_
    | with_reducible refine State.bump_sound _ _ _ _ ?_
    | split

theorem State.freezeRec_sound (s : State) (h_s : s.Sound) :
    (State.freezeRec s).Sound := by
  unfold State.freezeRec
  repeat' first
    | with_reducible assumption
    | with_reducible refine sound_ite ?_ ?_
    | with_reducible refine State.logAt_sound _ _ _ _ _ _ _ ?_
    | with_reducible refine State.relFlag_sound _ _ ?_
    | with_reducible refine State.setFld_sound _ _ _ _ ?_

theorem State.setPhase_sound (s : State) (phase : Nat) (code : Nat) (h_s : s.Sound) :
    (State.setPhase s phase code).Sound := by
  unfold State.setPhase
  repeat' first
    | with_reducible assumption
    | with_reducible refine sound_ite ?_ ?_
    | with_reducible refine State.setFld_sound _ _ _ _ ?_
    | with_reducible refine State.freezeRec_sound _ ?_

theorem State.stopAll_sound (s : State) (h_s : s.Sound) :
    (State.stopAll s).Sound := by
  unfold State.stopAll
  repeat' first
    | (lift_lets; intro s1; clear_value s1)
    | (simp only [State.Sound]; with_reducible refine sound_fold ?_; with_reducible assumption)

theorem State.setShd_sound (s : State) (st : Nat) (h_s : s.Sound) :
    (State.setShd s st).Sound := by
  unfold State.setShd
  repeat' first
    | with_reducible assumption
    | with_reducible refine State.setFld_sound _ _ _ _ ?_

theorem State.endShadow_sound (s : State) (code : Nat) (tick : Nat) (h_s : s.Sound) :
    (State.endShadow s code tick).Sound := by
  unfold State.endShadow
  repeat' first
    | with_reducible assumption
    | with_reducible refine sound_ite ?_ ?_
    | with_reducible refine State.setFld_sound _ _ _ _ ?_
    | with_reducible refine State.setShd_sound _ _ ?_
    | with_reducible refine State.relFlag_sound _ _ ?_
    | with_reducible refine State.setPhase_sound _ _ _ ?_
    | with_reducible refine State.stopAll_sound _ ?_
    | with_reducible refine State.logAt_sound _ _ _ _ _ _ _ ?_

theorem State.unadmit_sound (s : State) (f : Flying) (h_s : s.Sound) :
    (State.unadmit s f).Sound := by
  unfold State.unadmit
  repeat' first
    | with_reducible assumption
    | with_reducible refine sound_ite ?_ ?_
    | with_reducible refine sound_foldl (fun s a h => ?_) ?_
    | with_reducible refine State.setFld_sound _ _ _ _ ?_
    | dsimp only [Out.at]
    | split

theorem State.originate_sound (s : State) (f : Flying) (h_s : s.Sound) :
    (State.originate s f).Sound := by
  unfold State.originate
  repeat' first
    | with_reducible assumption
    | with_reducible refine sound_ite ?_ ?_
    | with_reducible refine State.unadmit_sound _ _ ?_
    | with_reducible refine State.countRouter_sound _ _ _ _ ?_
    | (simp only [State.Sound]; with_reducible refine sound_fold ?_; with_reducible assumption)

theorem State.fly_sound (s : State) (f : Flying) (h_s : s.Sound) :
    (State.fly s f).Sound := by
  unfold State.fly
  repeat' first
    | with_reducible refine State.countRouter_sound _ _ _ _ ?_
    | (simp only [State.Sound]; with_reducible refine sound_fold ?_; with_reducible assumption)

theorem State.sendOut_sound (s : State) (f : Flying) (h_s : s.Sound) :
    (State.sendOut s f).Sound := by
  unfold State.sendOut
  repeat' first
    | with_reducible assumption
    | with_reducible refine sound_ite ?_ ?_
    | with_reducible refine State.fly_sound _ _ ?_
    | with_reducible refine State.originate_sound _ _ ?_

theorem State.freeCells_sound (s : State) (f : Flying) (h_s : s.Sound) :
    (State.freeCells s f).Sound := by
  unfold State.freeCells
  repeat' first
    | with_reducible assumption
    | with_reducible refine State.setPort_sound _ _ _ ?_
    | dsimp only [Out.at]
    | split

theorem State.land_sound (s : State) (p : Packet) (h_s : s.Sound) :
    (State.land s p).2.Sound := by
  unfold State.land
  repeat' first
    | with_reducible assumption
    | with_reducible refine State.unadmit_sound _ _ ?_
    | with_reducible refine State.freeCells_sound _ _ ?_
    | split
    | (simp only [State.Sound]; with_reducible refine sound_fold ?_; with_reducible assumption)

end Sys2Proof.Machine
end

