-- ==== Sys2Proof/Laws/SoundSync.lean ====
section
/-! SUPPORT. That the definitions of Machine/Sync.lean keep a state sound. -/
namespace Sys2Proof.Machine

theorem State.logSync_sound (s : State) (r : RegionId) (code : Nat) (details : List Nat) (h_s : s.Sound) :
    (State.logSync s r code details).Sound := by
  unfold State.logSync
  repeat' first
    | with_reducible assumption
    | with_reducible refine State.logAt_sound _ _ _ _ _ _ _ ?_

theorem State.setErr_sound (s : State) (r : RegionId) (obj : Nat) (h_s : s.Sound) :
    (State.setErr s r obj).Sound := by
  unfold State.setErr
  repeat' first
    | with_reducible assumption
    | with_reducible refine State.logSync_sound _ _ _ _ ?_
    | with_reducible refine State.count_sound _ _ _ _ ?_
    | with_reducible refine State.flag_sound _ _ _ ?_
    | with_reducible refine State.setFld_sound _ _ _ _ ?_

theorem State.setMaskBit_sound (s : State) (a : Nat → Nat) (q : Nat) (h_s : s.Sound) :
    (State.setMaskBit s a q).Sound := by
  unfold State.setMaskBit
  repeat' first
    | with_reducible assumption
    | with_reducible refine State.setReg_sound _ _ _ ?_

theorem State.rebaseOne_sound (s : State) (r : RegionId) (base : Nat) (obj : Nat) (h_s : s.Sound) :
    (State.rebaseOne s r base obj).Sound := by
  unfold State.rebaseOne
  repeat' first
    | with_reducible assumption
    | with_reducible refine sound_ite ?_ ?_
    | with_reducible refine State.setFld_sound _ _ _ _ ?_
    | with_reducible refine State.setErr_sound _ _ _ ?_

theorem State.rebase_sound (s : State) (r : RegionId) (obj : Nat) (a_3 : Nat) (h_s : s.Sound) :
    (State.rebase s r obj a_3).Sound := by
  induction a_3 with
  | zero => exact h_s
  | succ g ih =>
    unfold State.rebase
    repeat' first
      | with_reducible assumption
      | with_reducible refine sound_ite ?_ ?_
      | with_reducible refine sound_foldl (fun s a h => ?_) ?_
      | with_reducible refine State.rebaseOne_sound _ _ _ _ ?_

theorem State.shiftMasks_sound (s : State) (r : RegionId) (t : Nat) (a_3 : Nat) (h_s : s.Sound) :
    (State.shiftMasks s r t a_3).Sound := by
  induction a_3 with
  | zero => exact h_s
  | succ w ih =>
    unfold State.shiftMasks
    repeat' first
      | with_reducible assumption
      | with_reducible refine State.setReg_sound _ _ _ ?_

theorem State.barrierDone_sound (s : State) (r : RegionId) (obj : Nat) (L : Nat) (h_s : s.Sound) :
    (State.barrierDone s r obj L).Sound := by
  unfold State.barrierDone
  repeat' first
    | with_reducible assumption
    | with_reducible refine sound_ite ?_ ?_
    | with_reducible refine State.setReg_sound _ _ _ ?_
    | with_reducible refine State.shiftMasks_sound _ _ _ _ ?_
    | with_reducible refine State.rebase_sound _ _ _ _ ?_
    | with_reducible refine State.setRegion_sound _ _ _ ?_

theorem State.settle_sound (s : State) (r : RegionId) (obj : Nat) (L : Nat) (h_s : s.Sound) :
    (State.settle s r obj L).Sound := by
  unfold State.settle
  repeat' first
    | with_reducible assumption
    | with_reducible refine State.barrierDone_sound _ _ _ _ ?_
    | with_reducible refine State.setRegion_sound _ _ _ ?_
    | (lift_lets; intro s1; clear_value s1)
    | split

theorem State.arriveCur_sound (s : State) (r : RegionId) (obj : Nat) (L : Nat) (h_s : s.Sound) :
    (State.arriveCur s r obj L).Sound := by
  unfold State.arriveCur
  repeat' first
    | with_reducible assumption
    | with_reducible refine sound_ite ?_ ?_
    | with_reducible refine State.setFld_sound _ _ _ _ ?_
    | with_reducible refine State.barrierDone_sound _ _ _ _ ?_

theorem State.arrive_sound (s : State) (r : RegionId) (obj : Nat) (L : Nat) (q : Option Nat) (h_s : s.Sound) :
    (State.arrive s r obj L q).Sound := by
  unfold State.arrive
  repeat' first
    | with_reducible assumption
    | with_reducible refine sound_ite ?_ ?_
    | with_reducible refine State.setErr_sound _ _ _ ?_
    | with_reducible refine State.arriveCur_sound _ _ _ _ ?_
    | with_reducible refine State.setMaskBit_sound _ _ _ ?_
    | with_reducible refine State.setFld_sound _ _ _ _ ?_
    | split

theorem State.applySig_sound (s : State) (r : RegionId) (obj : Nat) (L : Nat) (act : Nat) (amt : Nat) (q : Option Nat) (h_s : s.Sound) :
    (State.applySig s r obj L act amt q).Sound := by
  unfold State.applySig
  repeat' first
    | with_reducible assumption
    | with_reducible refine sound_ite ?_ ?_
    | with_reducible refine State.setReg_sound _ _ _ ?_
    | with_reducible refine State.setErr_sound _ _ _ ?_
    | with_reducible refine State.arrive_sound _ _ _ _ _ ?_
    | (lift_lets; intro s1; clear_value s1)
    | dsimp only [Out.at]
    | split
    | (simp only [State.Sound]; with_reducible refine sound_fold ?_; with_reducible refine State.setReg_sound _ _ _ ?_)

theorem State.stale_sound (s : State) (r : RegionId) (obj : Nat) (source : Nat) (h_s : s.Sound) :
    (State.stale s r obj source).Sound := by
  unfold State.stale
  repeat' first
    | with_reducible assumption
    | with_reducible refine State.logSync_sound _ _ _ _ ?_
    | with_reducible refine State.count_sound _ _ _ _ ?_
    | with_reducible refine State.flag_sound _ _ _ ?_

theorem State.landSig_sound (s : State) (r : RegionId) (obj : Nat) (tag : Nat) (act : Nat) (amt : Nat) (q : Option Nat) (source : Nat) (L : Nat) (h_s : s.Sound) :
    (State.landSig s r obj tag act amt q source L).Sound := by
  unfold State.landSig
  repeat' first
    | with_reducible assumption
    | with_reducible refine sound_ite ?_ ?_
    | with_reducible refine State.settle_sound _ _ _ _ ?_
    | with_reducible refine State.at_sound _ _ ?_
    | with_reducible refine State.logSync_sound _ _ _ _ ?_
    | with_reducible refine State.stale_sound _ _ _ _ ?_
    | with_reducible refine State.applySig_sound _ _ _ _ _ _ _ ?_

theorem State.writeObj_sound (s : State) (r : RegionId) (obj : Nat) (w : Word) (h_s : s.Sound) :
    (State.writeObj s r obj w).Sound := by
  unfold State.writeObj
  repeat' first
    | with_reducible assumption
    | with_reducible refine State.settle_sound _ _ _ _ ?_
    | with_reducible refine State.at_sound _ _ ?_
    | with_reducible refine State.setMark_sound _ _ _ _ ?_
    | with_reducible refine State.setReg_sound _ _ _ ?_

theorem State.beforeWait_sound (s : State) (r : RegionId) (obj : Nat) (wcond : Nat) (q : Nat) (h_s : s.Sound) :
    (State.beforeWait s r obj wcond q).Sound := by
  unfold State.beforeWait
  repeat' first
    | with_reducible assumption
    | with_reducible refine sound_ite ?_ ?_
    | with_reducible refine State.settle_sound _ _ _ _ ?_
    | with_reducible refine State.at_sound _ _ ?_
    | split

theorem State.judge_sound (s : State) (r : RegionId) (obj : Nat) (wcond : Nat) (wval : Nat) (q : Nat) (h_s : s.Sound) :
    (State.judge s r obj wcond wval q).2.Sound := by
  unfold State.judge
  repeat' first
    | with_reducible refine sound_ite ?_ ?_
    | with_reducible refine State.setReg_sound _ _ _ ?_
    | (lift_lets; intro s1; clear_value s1)
    | dsimp only [Out.at]
    | split
    | (simp only [State.Sound]; with_reducible refine sound_fold ?_; with_reducible assumption)

theorem State.release_sound (s : State) (r : RegionId) (g : Sig) (h_s : s.Sound) :
    (State.release s r g).Sound := by
  unfold State.release
  repeat' first
    | with_reducible assumption
    | with_reducible refine sound_ite ?_ ?_
    | with_reducible refine State.setRegion_sound _ _ _ ?_
    | with_reducible refine State.originate_sound _ _ ?_
    | with_reducible refine State.fly_sound _ _ ?_

theorem execRemoteSignal_sound (p : Packet) (s : State) (h_s : s.Sound) :
    NextSound (execRemoteSignal p s) := by
  unfold execRemoteSignal
  repeat' first
    | with_reducible assumption
    | with_reducible refine nextSound_next ?_
    | with_reducible refine ite_keeps NextSound ?_ ?_
    | with_reducible refine State.land_sound _ _ ?_
    | with_reducible refine State.landSig_sound _ _ _ _ _ _ _ _ _ ?_
    | with_reducible refine State.fly_sound _ _ ?_
    | with_reducible refine State.countRouter_sound _ _ _ _ ?_
    | with_reducible refine State.freeWord_sound _ ?_
    | with_reducible refine State.originate_sound _ _ ?_
    | (lift_lets; intro s1; refine (fun (h1 : State.Sound s1) => ?_) ?_; clear_value s1; rotate_left; dsimp only [s1]; rotate_left)
    | dsimp only [Out.at]
    | split

theorem execBarrierCarry_sound (r : RegionId) (obj : Nat) (s : State) (h_s : s.Sound) :
    NextSound (execBarrierCarry r obj s) := by
  unfold execBarrierCarry
  repeat' first
    | with_reducible assumption
    | with_reducible refine onUnit_sound _ _ ?_
    | with_reducible refine State.at_sound _ _ ?_
    | with_reducible refine State.settle_sound _ _ _ _ ?_
    | split

end Sys2Proof.Machine
end

