-- ==== Sys2Proof/Laws/SoundOperands.lean ====
section
/-! SUPPORT. That the definitions of Machine/Operands.lean keep a state sound. -/
namespace Sys2Proof.Machine

theorem writeRowsAs_sound (s : State) (c : CoreId) (d : Desc) (b : Nat) (rows : List (List Nat)) (h_s : s.Sound) :
    (writeRowsAs s c d b rows).Sound := by
  unfold writeRowsAs
  repeat' first
    | with_reducible assumption
    | with_reducible refine sound_foldl (fun s a h => ?_) ?_
    | with_reducible refine State.hwrite_sound _ _ _ _ ?_

theorem writeCodes_sound (s : State) (c : CoreId) (d : Desc) (rows : List (List Nat)) (h_s : s.Sound) :
    (writeCodes s c d rows).Sound := by
  unfold writeCodes
  repeat' first
    | with_reducible assumption
    | with_reducible refine sound_foldl (fun s a h => ?_) ?_
    | with_reducible refine State.hwrite_sound _ _ _ _ ?_

theorem correctWords_sound (s : State) (c : CoreId) (a_2 : List (Nat × Nat)) (h_s : s.Sound) :
    (correctWords s c a_2).Sound := by
  induction a_2 generalizing s with
  | nil => exact h_s
  | cons x rest ih =>
    unfold correctWords
    with_reducible apply ih
    repeat' first
      | with_reducible refine sound_ite ?_ ?_
      | with_reducible refine State.healthAdd_sound _ _ _ ?_
      | with_reducible refine State.count_sound _ _ _ _ ?_
      | split
      | (simp only [State.Sound]; with_reducible refine sound_fold ?_; with_reducible assumption)

theorem readHearth_sound (s : State) (c : CoreId) (rs : List (Nat × Nat)) (h_s : s.Sound) :
    (readHearth s c rs).2.Sound := by
  unfold readHearth
  repeat' first
    | with_reducible assumption
    | with_reducible refine State.count_sound _ _ _ _ ?_
    | with_reducible refine correctWords_sound _ _ _ ?_
    | split

end Sys2Proof.Machine
end

