-- ==== Sys2Proof/Laws/SoundSequencer.lean ====
section
/-! SUPPORT. That the definitions of Machine/Sequencer.lean keep a state sound. -/
namespace Sys2Proof.Machine

theorem State.catchUp_sound (s : State) (c : CoreId) (h_s : s.Sound) :
    (State.catchUp s c).Sound := by
  unfold State.catchUp
  repeat' first
    | with_reducible assumption
    | with_reducible refine sound_ite ?_ ?_
    | with_reducible refine State.setCore_sound _ _ _ ?_

theorem State.watchSwap_sound (s : State) (c : CoreId) (h_s : s.Sound) :
    (State.watchSwap s c).Sound := by
  unfold State.watchSwap
  repeat' first
    | with_reducible assumption
    | with_reducible refine State.setCore_sound _ _ _ ?_

theorem State.writeRecord_sound (s : State) (c : CoreId) (e : Cls) (word : Nat) (pc : Nat) (status : Nat) (time : Nat) (sat : Nat) (flush : Nat) (h_s : s.Sound) :
    (State.writeRecord s c e word pc status time sat flush).Sound := by
  unfold State.writeRecord
  repeat' first
    | with_reducible assumption
    | with_reducible refine sound_ite ?_ ?_
    | with_reducible refine State.bump_sound _ _ _ _ ?_
    | with_reducible refine State.hwrite_sound _ _ _ _ ?_

theorem State.logEngine_sound (s : State) (c : CoreId) (e : Cls) (cls : Nat) (code : Nat) (unit : Nat) (pc : Nat) (haddr : Nat) (h_s : s.Sound) :
    (State.logEngine s c e cls code unit pc haddr).Sound := by
  unfold State.logEngine
  repeat' first
    | with_reducible assumption
    | with_reducible refine State.logAt_sound _ _ _ _ _ _ _ ?_

theorem State.markCore_sound (s : State) (c : CoreId) (h_s : s.Sound) :
    (State.markCore s c).Sound := by
  unfold State.markCore
  repeat' first
    | with_reducible assumption
    | with_reducible refine State.count_sound _ _ _ _ ?_
    | with_reducible refine State.setReg_sound _ _ _ ?_

theorem State.noteResidueFail_sound (s : State) (c : CoreId) (e : Cls) (h_s : s.Sound) :
    (State.noteResidueFail s c e).Sound := by
  unfold State.noteResidueFail
  repeat' first
    | with_reducible assumption
    | with_reducible refine sound_ite ?_ ?_
    | with_reducible refine State.setCore_sound _ _ _ ?_
    | with_reducible refine State.markCore_sound _ _ ?_

theorem State.loosePc_sound (s : State) (c : CoreId) (e : Cls) (h_s : s.Sound) :
    (State.loosePc s c e).Sound := by
  unfold State.loosePc
  repeat' first
    | with_reducible assumption
    | with_reducible refine State.freeWord_sound _ ?_
    | with_reducible refine State.catchUp_sound _ _ ?_
    | with_reducible refine State.setEng_sound _ _ _ _ ?_

theorem State.engineFault_sound (s : State) (c : CoreId) (e : Cls) (word : Nat) (pc : Nat) (code : Nat) (time : Nat) (unit : Nat) (haddr : Nat) (h_s : s.Sound) :
    (State.engineFault s c e word pc code time unit haddr).Sound := by
  unfold State.engineFault
  repeat' first
    | with_reducible assumption
    | with_reducible refine sound_ite ?_ ?_
    | with_reducible refine State.loosePc_sound _ _ _ ?_
    | with_reducible refine State.setEng_sound _ _ _ _ ?_
    | with_reducible refine State.writeRecord_sound _ _ _ _ _ _ _ _ _ ?_
    | with_reducible refine State.logEngine_sound _ _ _ _ _ _ _ _ ?_
    | with_reducible refine State.noteResidueFail_sound _ _ _ ?_
    | with_reducible refine State.watchSwap_sound _ _ ?_

theorem State.settleEng_sound (s : State) (c : CoreId) (e : Cls) (h_s : s.Sound) :
    (State.settleEng s c e).Sound := by
  unfold State.settleEng
  repeat' first
    | with_reducible assumption
    | with_reducible refine sound_ite ?_ ?_
    | with_reducible refine State.watchSwap_sound _ _ ?_
    | with_reducible refine State.setEng_sound _ _ _ _ ?_
    | with_reducible refine State.loosePc_sound _ _ _ ?_
    | with_reducible refine State.catchUp_sound _ _ ?_

theorem State.releaseHeld_sound (s : State) (r : RegionId) (h_s : s.Sound) :
    (State.releaseHeld s r).Sound := by
  unfold State.releaseHeld
  repeat' first
    | with_reducible assumption
    | with_reducible refine sound_ite ?_ ?_
    | with_reducible refine sound_foldl (fun s a h => ?_) ?_
    | with_reducible refine State.settleEng_sound _ _ _ ?_
    | with_reducible refine State.setEng_sound _ _ _ _ ?_
    | with_reducible refine State.release_sound _ _ _ ?_
    | (lift_lets; intro s1; clear_value s1)
    | dsimp only [Out.at]
    | split

theorem execSigack_sound (p : Packet) (s : State) (h_s : s.Sound) :
    NextSound (execSigack p s) := by
  unfold execSigack
  repeat' first
    | with_reducible assumption
    | with_reducible refine nextSound_next ?_
    | with_reducible refine ite_keeps NextSound ?_ ?_
    | with_reducible refine State.countRouter_sound _ _ _ _ ?_
    | with_reducible refine State.land_sound _ _ ?_
    | with_reducible refine State.releaseHeld_sound _ _ ?_
    | with_reducible refine State.setRegion_sound _ _ _ ?_

theorem execRemoteSignalLost_sound (r : RegionId) (token : Nat) (s : State) (h_s : s.Sound) :
    NextSound (execRemoteSignalLost r token s) := by
  unfold execRemoteSignalLost
  repeat' first
    | with_reducible assumption
    | with_reducible refine onUnit_sound _ _ ?_
    | with_reducible refine State.setRegion_sound _ _ _ ?_
    | with_reducible refine State.at_sound _ _ ?_
    | with_reducible refine State.releaseHeld_sound _ _ ?_
    | with_reducible refine State.logSync_sound _ _ _ _ ?_
    | with_reducible refine State.count_sound _ _ _ _ ?_
    | with_reducible refine State.flag_sound _ _ _ ?_
    | dsimp only [Out.at]
    | split

theorem State.sendSig_sound (s : State) (c : CoreId) (e : Cls) (g : Sig) (L : Nat) (h_s : s.Sound) :
    (State.sendSig s c e g L).Sound := by
  unfold State.sendSig
  repeat' first
    | with_reducible assumption
    | with_reducible refine sound_ite ?_ ?_
    | with_reducible refine State.landSig_sound _ _ _ _ _ _ _ _ _ ?_
    | with_reducible refine State.at_sound _ _ ?_
    | with_reducible refine State.release_sound _ _ _ ?_
    | with_reducible refine State.setEng_sound _ _ _ _ ?_

theorem State.scramble_sound (s : State) (c : CoreId) (ranges : List (Nat × Nat)) (h_s : s.Sound) :
    (State.scramble s c ranges).Sound := by
  unfold State.scramble
  repeat' first
    | with_reducible assumption
    | with_reducible refine sound_foldl (fun s a h => ?_) ?_
    | with_reducible refine State.freeBytes_sound _ _ ?_
    | with_reducible refine State.hwrite_sound _ _ _ _ ?_

theorem State.undoTake_sound (s : State) (c : CoreId) (take : Option Sig) (h_s : s.Sound) :
    (State.undoTake s c take).Sound := by
  unfold State.undoTake
  repeat' first
    | with_reducible assumption
    | with_reducible refine State.landSig_sound _ _ _ _ _ _ _ _ _ ?_
    | split

theorem State.complete_sound (s : State) (c : CoreId) (e : Cls) (i : Inflight) (rest : List Inflight) (tc : Nat) (h_s : s.Sound) :
    (State.complete s c e i rest tc).Sound := by
  unfold State.complete
  repeat' first
    | with_reducible assumption
    | with_reducible refine sound_ite ?_ ?_
    | with_reducible refine State.setEng_sound _ _ _ _ ?_
    | with_reducible refine State.at_sound _ _ ?_
    | with_reducible refine State.writeRecord_sound _ _ _ _ _ _ _ _ _ ?_
    | with_reducible refine State.bump_sound _ _ _ _ ?_
    | with_reducible refine State.count_sound _ _ _ _ ?_
    | with_reducible refine State.flag_sound _ _ _ ?_
    | with_reducible refine State.sendSig_sound _ _ _ _ _ ?_
    | with_reducible refine State.settleEng_sound _ _ _ ?_
    | with_reducible refine State.undoTake_sound _ _ _ ?_
    | with_reducible refine State.engineFault_sound _ _ _ _ _ _ _ _ _ ?_
    | with_reducible refine State.scramble_sound _ _ _ ?_
    | split

theorem State.startEngine_sound (s : State) (c : CoreId) (e : Cls) (h_s : s.Sound) :
    (State.startEngine s c e).Sound := by
  unfold State.startEngine
  repeat' first
    | with_reducible assumption
    | with_reducible refine State.setFld_sound _ _ _ _ ?_
    | with_reducible refine State.catchUp_sound _ _ ?_
    | with_reducible refine State.setCore_sound _ _ _ ?_

theorem Out.at_sound (st : State) (t : Nat) (h_st : st.Sound) :
    (Out.at st t).Sound := by
  unfold Out.at
  repeat' first
    | with_reducible assumption
    | with_reducible refine out_fold ?_

theorem withReads_sound (c : CoreId) (t : Nat) (rs : List (Nat × Nat)) (dst : List (Nat × Nat)) (s : State) (k : State → Res) (h_s : s.Sound) (h_k : ∀ x0k, (x0k.Sound) → (k x0k).Sound) :
    (withReads c t rs dst s k).Sound := by
  unfold withReads
  repeat' first
    | with_reducible assumption
    | with_reducible refine res_ok ?_
    | with_reducible refine readHearth_sound _ _ _ ?_
    | with_reducible refine h_k _ ?_
    | with_reducible refine sound_of_snd (by assumption) ?_
    | dsimp only [Out.at]
    | split
    | with_reducible refine out_fold ?_

theorem State.endWait_sound (s : State) (c : CoreId) (e : Cls) (h_s : s.Sound) :
    (State.endWait s c e).Sound := by
  unfold State.endWait
  repeat' first
    | with_reducible assumption
    | with_reducible refine State.bump_sound _ _ _ _ ?_
    | split

theorem State.rejectAt_sound (s : State) (c : CoreId) (e : Cls) (w : Nat) (pc : Nat) (code : Nat) (take : Option Sig) (h_s : s.Sound) :
    (State.rejectAt s c e w pc code take).Sound := by
  unfold State.rejectAt
  repeat' first
    | with_reducible assumption
    | with_reducible refine State.engineFault_sound _ _ _ _ _ _ _ _ _ ?_
    | with_reducible refine State.undoTake_sound _ _ _ ?_

theorem State.issued_sound (s : State) (c : CoreId) (e : Cls) (w : Nat) (h : Heads) (take : Option Sig) (o : Out) (_ : s.Sound) (h_o : o.Sound) :
    (State.issued s c e w h take o).Sound := by
  unfold State.issued
  repeat' first
    | with_reducible exact out_st (by assumption)
    | with_reducible refine State.setEng_sound _ _ _ _ ?_

theorem State.issueNow_sound (s : State) (c : CoreId) (e : Cls) (w : Nat) (sp : OpSpec) (h : Heads) (take : Option Sig) (h_s : s.Sound) (h_sp : sp.Sound) :
    (State.issueNow s c e w sp h take).Sound := by
  unfold State.issueNow
  repeat' first
    | with_reducible assumption
    | with_reducible refine opSpec_body (by assumption) ?_
    | with_reducible refine sound_ite ?_ ?_
    | with_reducible refine State.catchUp_sound _ _ ?_
    | with_reducible refine State.endWait_sound _ _ _ ?_
    | with_reducible refine State.rejectAt_sound _ _ _ _ _ _ _ ?_
    | with_reducible refine State.engineFault_sound _ _ _ _ _ _ _ _ _ ?_
    | with_reducible refine State.issued_sound _ _ _ _ _ _ _ ?_ ?_
    | with_reducible refine sound_of_ok (by assumption) ?_
    | with_reducible refine sound_of_refuse (by assumption) ?_
    | with_reducible refine sound_of_fail (by assumption) ?_
    | split
    | with_reducible refine out_fold ?_

theorem State.judgeWait_sound (s : State) (c : CoreId) (e : Cls) (w : Nat) (sp : OpSpec) (h : Heads) (h_s : s.Sound) (_ : sp.Sound) :
    (State.judgeWait s c e w sp h).2.Sound := by
  unfold State.judgeWait
  repeat' first
    | with_reducible assumption
    | with_reducible refine State.beforeWait_sound _ _ _ _ _ ?_
    | with_reducible refine State.judge_sound _ _ _ _ _ _ ?_
    | (lift_lets; intro s1; clear_value s1)
    | dsimp only [Out.at]
    | split
    | (simp only [State.Sound]; with_reducible refine sound_fold ?_; with_reducible assumption)

theorem State.faceWait_sound (s : State) (c : CoreId) (e : Cls) (w : Nat) (sp : OpSpec) (h : Heads) (h_s : s.Sound) (h_sp : sp.Sound) :
    (State.faceWait s c e w sp h).Sound := by
  unfold State.faceWait
  repeat' first
    | with_reducible assumption
    | with_reducible refine State.judgeWait_sound _ _ _ _ _ _ ?_ ?_
    | with_reducible refine State.issueNow_sound _ _ _ _ _ _ _ ?_ ?_
    | with_reducible refine State.engineFault_sound _ _ _ _ _ _ _ _ _ ?_
    | with_reducible refine State.endWait_sound _ _ _ ?_
    | with_reducible refine State.at_sound _ _ ?_
    | with_reducible refine State.setEng_sound _ _ _ _ ?_
    | with_reducible refine sound_of_snd (by assumption) ?_
    | dsimp only [Out.at]
    | split

theorem State.setHold_sound (s : State) (d : Nat) (h' : Nat) (h_s : s.Sound) :
    (State.setHold s d h').Sound := by
  unfold State.setHold
  repeat' first
    | with_reducible assumption
    | (lift_lets; intro s1; clear_value s1)
    | dsimp only [Out.at]
    | (simp only [State.Sound]; with_reducible refine sound_fold ?_; with_reducible refine State.setFld_sound _ _ _ _ ?_)

theorem State.toHead_sound (s : State) (c : CoreId) (e : Cls) (h_s : s.Sound) :
    (State.toHead s c e).Sound := by
  unfold State.toHead
  repeat' first
    | with_reducible assumption
    | with_reducible refine sound_ite ?_ ?_
    | with_reducible refine State.at_sound _ _ ?_
    | with_reducible refine State.healthAdd_sound _ _ _ ?_
    | with_reducible refine State.count_sound _ _ _ _ ?_

theorem State.toIssue_sound (s : State) (c : CoreId) (e : Cls) (sp : OpSpec) (h_s : s.Sound) (_ : sp.Sound) :
    (State.toIssue s c e sp).Sound := by
  unfold State.toIssue
  repeat' first
    | with_reducible assumption
    | with_reducible refine State.at_sound _ _ ?_

theorem State.fetchFails_sound (s : State) (c : CoreId) (e : Cls) (w : Nat) (pc : Nat) (h_s : s.Sound) :
    (State.fetchFails s c e w pc).Sound := by
  unfold State.fetchFails
  repeat' first
    | with_reducible assumption
    | with_reducible refine sound_ite ?_ ?_
    | with_reducible refine State.setCore_sound _ _ _ ?_
    | with_reducible refine State.markCore_sound _ _ ?_
    | with_reducible refine State.engineFault_sound _ _ _ _ _ _ _ _ _ ?_
    | with_reducible refine State.endWait_sound _ _ _ ?_
    | with_reducible refine State.count_sound _ _ _ _ ?_

theorem State.tryIssue_sound (s : State) (c : CoreId) (e : Cls) (sp : OpSpec) (h_s : s.Sound) (h_sp : sp.Sound) :
    (State.tryIssue s c e sp).Sound := by
  unfold State.tryIssue
  repeat' first
    | with_reducible assumption
    | with_reducible refine sound_ite ?_ ?_
    | with_reducible refine State.toHead_sound _ _ _ ?_
    | with_reducible refine State.fetchFails_sound _ _ _ _ _ ?_
    | with_reducible refine State.rejectAt_sound _ _ _ _ _ _ _ ?_
    | with_reducible refine State.endWait_sound _ _ _ ?_
    | with_reducible refine State.toIssue_sound _ _ _ _ ?_ ?_
    | with_reducible refine State.faceWait_sound _ _ _ _ _ _ ?_ ?_
    | (lift_lets; intro s1; refine (fun (h1 : State.Sound s1) => ?_) ?_; clear_value s1; rotate_left; dsimp only [s1]; rotate_left)
    | split

theorem runOp_sound (c : CoreId) (e : Cls) (sp : OpSpec) (s : State) (h_sp : sp.Sound) (h_s : s.Sound) :
    NextSound (runOp c e sp s) := by
  unfold runOp
  repeat' first
    | with_reducible assumption
    | with_reducible refine sound_ite ?_ ?_
    | with_reducible refine onUnit_sound _ _ ?_
    | with_reducible refine State.tryIssue_sound _ _ _ _ ?_ ?_

theorem common_sound (op : Nat) (used : List (Nat × Nat)) (body : Ctx → State → Res) (h_body : ∀ x0body, ∀ x1body, (x1body.Sound) → (body x0body x1body).Sound) :
    (common op used body).Sound := by
  intro x s hs
  dsimp only [common]
  repeat' first
    | with_reducible assumption
    | with_reducible refine h_body _ _ ?_

theorem nopSpec_sound :
    (nopSpec).Sound := by
  intro x s hs
  dsimp only [nopSpec, common]
  repeat' first
    | with_reducible assumption
    | with_reducible refine res_ok ?_
    | with_reducible refine Out.at_sound _ _ ?_

theorem haltSpec_sound :
    (haltSpec).Sound := by
  intro x s hs
  dsimp only [haltSpec, common]
  repeat' first
    | with_reducible assumption
    | with_reducible exact res_reject
    | with_reducible refine res_ok ?_
    | with_reducible refine ite_keeps Res.Sound ?_ ?_
    | dsimp only [Out.at]
    | with_reducible refine out_fold ?_

theorem bankSpec_sound :
    (bankSpec).Sound := by
  intro x s hs
  dsimp only [bankSpec, common]
  repeat' first
    | with_reducible assumption
    | with_reducible exact res_reject
    | with_reducible refine res_ok ?_
    | with_reducible refine ite_keeps Res.Sound ?_ ?_
    | dsimp only [Out.at]
    | with_reducible refine out_fold ?_

theorem jumpSpec_sound :
    (jumpSpec).Sound := by
  intro x s hs
  dsimp only [jumpSpec, common]
  repeat' first
    | with_reducible assumption
    | with_reducible exact res_reject
    | with_reducible refine res_ok ?_
    | with_reducible refine ite_keeps Res.Sound ?_ ?_
    | dsimp only [Out.at]
    | with_reducible refine out_fold ?_

theorem loopSpec_sound :
    (loopSpec).Sound := by
  intro x s hs
  dsimp only [loopSpec, common]
  repeat' first
    | with_reducible assumption
    | with_reducible exact res_reject
    | with_reducible refine res_ok ?_
    | dsimp only [Out.at]
    | split
    | with_reducible refine out_fold ?_

theorem skipSpec_sound :
    (skipSpec).Sound := by
  intro x s hs
  dsimp only [skipSpec, common]
  repeat' first
    | with_reducible assumption
    | with_reducible exact res_reject
    | with_reducible refine res_ok ?_
    | with_reducible refine ite_keeps Res.Sound ?_ ?_
    | dsimp only [Out.at]
    | split
    | with_reducible refine out_fold ?_

theorem dadvSpec_sound (e : Cls) :
    (dadvSpec e).Sound := by
  intro x s hs
  dsimp only [dadvSpec, common]
  repeat' first
    | with_reducible assumption
    | with_reducible exact res_reject
    | with_reducible refine res_ok ?_
    | with_reducible refine ite_keeps Res.Sound ?_ ?_
    | with_reducible refine State.hwrite_sound _ _ _ _ ?_
    | dsimp only [Out.at]
    | split
    | with_reducible refine out_fold ?_

theorem execNop_sound (c : CoreId) (e : Cls) (s : State) (h_s : s.Sound) :
    NextSound (execNop c e s) := by
  unfold execNop
  repeat' first
    | with_reducible assumption
    | with_reducible refine runOp_sound _ _ _ _ ?_ ?_
    | with_reducible refine nopSpec_sound

theorem execHalt_sound (c : CoreId) (e : Cls) (s : State) (h_s : s.Sound) :
    NextSound (execHalt c e s) := by
  unfold execHalt
  repeat' first
    | with_reducible assumption
    | with_reducible refine runOp_sound _ _ _ _ ?_ ?_
    | with_reducible refine haltSpec_sound

theorem execBank_sound (c : CoreId) (e : Cls) (s : State) (h_s : s.Sound) :
    NextSound (execBank c e s) := by
  unfold execBank
  repeat' first
    | with_reducible assumption
    | with_reducible refine runOp_sound _ _ _ _ ?_ ?_
    | with_reducible refine bankSpec_sound

theorem execJump_sound (c : CoreId) (e : Cls) (s : State) (h_s : s.Sound) :
    NextSound (execJump c e s) := by
  unfold execJump
  repeat' first
    | with_reducible assumption
    | with_reducible refine runOp_sound _ _ _ _ ?_ ?_
    | with_reducible refine jumpSpec_sound

theorem execLoop_sound (c : CoreId) (e : Cls) (s : State) (h_s : s.Sound) :
    NextSound (execLoop c e s) := by
  unfold execLoop
  repeat' first
    | with_reducible assumption
    | with_reducible refine runOp_sound _ _ _ _ ?_ ?_
    | with_reducible refine loopSpec_sound

theorem execSkip_sound (c : CoreId) (e : Cls) (s : State) (h_s : s.Sound) :
    NextSound (execSkip c e s) := by
  unfold execSkip
  repeat' first
    | with_reducible assumption
    | with_reducible refine runOp_sound _ _ _ _ ?_ ?_
    | with_reducible refine skipSpec_sound

theorem execDadv_sound (c : CoreId) (e : Cls) (s : State) (h_s : s.Sound) :
    NextSound (execDadv c e s) := by
  unfold execDadv
  repeat' first
    | with_reducible assumption
    | with_reducible refine runOp_sound _ _ _ _ ?_ ?_
    | with_reducible refine dadvSpec_sound _

theorem State.noteMismatch_sound (s : State) (c : CoreId) (a_2 : Cls) (h_s : s.Sound) :
    (State.noteMismatch s c a_2).Sound := by
  unfold State.noteMismatch
  repeat' first
    | with_reducible assumption
    | with_reducible refine State.flag_sound _ _ _ ?_
    | with_reducible refine State.count_sound _ _ _ _ ?_
    | split

theorem State.noteReplay_sound (s : State) (c : CoreId) (a_2 : Cls) (h_s : s.Sound) :
    (State.noteReplay s c a_2).Sound := by
  unfold State.noteReplay
  repeat' first
    | with_reducible assumption
    | with_reducible refine State.count_sound _ _ _ _ ?_
    | split

theorem State.noteCheckFail_sound (s : State) (c : CoreId) (a_2 : Cls) (h_s : s.Sound) :
    (State.noteCheckFail s c a_2).Sound := by
  unfold State.noteCheckFail
  repeat' first
    | with_reducible assumption
    | with_reducible refine State.flag_sound _ _ _ ?_
    | with_reducible refine State.count_sound _ _ _ _ ?_
    | split

theorem State.meetInject_sound (s : State) (c : CoreId) (e : Cls) (i : Inflight) (h_s : s.Sound) :
    OptSat (fun y26 => y26.2.Sound) (State.meetInject s c e i) := by
  unfold State.meetInject
  repeat' first
    | with_reducible assumption
    | with_reducible refine sound_ite ?_ ?_
    | with_reducible exact optSat_none
    | with_reducible refine optSat_some ?_
    | with_reducible refine optSat_ite ?_ ?_
    | with_reducible refine State.setReg_sound _ _ _ ?_
    | with_reducible refine State.logEngine_sound _ _ _ _ _ _ _ _ ?_
    | with_reducible refine State.healthAdd_sound _ _ _ ?_
    | with_reducible refine State.noteMismatch_sound _ _ _ ?_
    | with_reducible refine State.noteCheckFail_sound _ _ _ ?_
    | with_reducible refine State.setCore_sound _ _ _ ?_
    | with_reducible refine State.bump_sound _ _ _ _ ?_
    | (lift_lets; intro s1; clear_value s1)
    | dsimp only [Out.at]
    | split

theorem execWaitTimeout_sound (c : CoreId) (e : Cls) (s : State) (h_s : s.Sound) :
    NextSound (execWaitTimeout c e s) := by
  unfold execWaitTimeout
  repeat' first
    | with_reducible assumption
    | with_reducible refine sound_ite ?_ ?_
    | with_reducible refine onUnit_sound _ _ ?_
    | with_reducible refine State.at_sound _ _ ?_
    | with_reducible refine State.engineFault_sound _ _ _ _ _ _ _ _ _ ?_
    | with_reducible refine State.endWait_sound _ _ _ ?_
    | (lift_lets; intro s1; clear_value s1)
    | dsimp only [Out.at]
    | split

theorem execFetchPastEnd_sound (c : CoreId) (e : Cls) (s : State) (h_s : s.Sound) :
    NextSound (execFetchPastEnd c e s) := by
  unfold execFetchPastEnd
  repeat' first
    | with_reducible assumption
    | with_reducible refine sound_ite ?_ ?_
    | with_reducible refine onUnit_sound _ _ ?_
    | with_reducible refine State.watchSwap_sound _ _ ?_
    | with_reducible refine State.logEngine_sound _ _ _ _ _ _ _ _ ?_
    | with_reducible refine State.loosePc_sound _ _ _ ?_
    | with_reducible refine State.setEng_sound _ _ _ _ ?_

theorem execBankSwap_sound (c : CoreId) (s : State) (h_s : s.Sound) :
    NextSound (execBankSwap c s) := by
  unfold execBankSwap
  repeat' first
    | with_reducible assumption
    | with_reducible refine sound_ite ?_ ?_
    | with_reducible refine sound_foldl (fun s a h => ?_) ?_
    | with_reducible refine onUnit_sound _ _ ?_
    | with_reducible refine State.at_sound _ _ ?_
    | with_reducible refine State.setFld_sound _ _ _ _ ?_
    | with_reducible refine State.bump_sound _ _ _ _ ?_
    | with_reducible refine State.startEngine_sound _ _ _ ?_
    | with_reducible refine State.setEng_sound _ _ _ _ ?_
    | with_reducible refine State.watchSwap_sound _ _ ?_
    | (lift_lets; intro s1; clear_value s1)
    | dsimp only [Out.at]
    | split

theorem State.stopEngine_sound (s : State) (c : CoreId) (e : Cls) (h_s : s.Sound) :
    (State.stopEngine s c e).Sound := by
  unfold State.stopEngine
  repeat' first
    | with_reducible assumption
    | with_reducible refine State.catchUp_sound _ _ ?_
    | with_reducible refine State.endWait_sound _ _ _ ?_
    | with_reducible refine State.watchSwap_sound _ _ ?_
    | with_reducible refine State.loosePc_sound _ _ _ ?_
    | with_reducible refine State.setEng_sound _ _ _ _ ?_

theorem seqAction_sound (c : CoreId) (e : Cls) (a : Fld) (s : State) (h_s : s.Sound) :
    OptSat State.Sound (seqAction c e a s) := by
  unfold seqAction
  repeat' first
    | with_reducible assumption
    | with_reducible exact optSat_none
    | with_reducible refine optSat_some ?_
    | with_reducible refine optSat_ite ?_ ?_
    | with_reducible refine State.setEng_sound _ _ _ _ ?_
    | with_reducible refine State.catchUp_sound _ _ ?_
    | with_reducible refine State.startEngine_sound _ _ _ ?_

theorem seqCtlWrite_sound (c : CoreId) (e : Cls) (w : Word) (s : State) (h_s : s.Sound) :
    (seqCtlWrite c e w s).2.Sound := by
  unfold seqCtlWrite
  repeat' first
    | with_reducible assumption
    | with_reducible refine optSat_some ?_
    | with_reducible refine sound_foldl_opt (fun o a h => ?_) ?_
    | with_reducible refine sound_bind ?_ (fun s h => ?_)
    | with_reducible refine State.stopEngine_sound _ _ _ ?_
    | with_reducible refine seqAction_sound _ _ _ _ ?_
    | with_reducible refine State.watchSwap_sound _ _ ?_
    | (lift_lets; intro s1; clear_value s1)
    | with_reducible refine sound_of_some (by assumption) ?_
    | split

end Sys2Proof.Machine
end

