-- ==== Sys2Proof/Laws/SoundReduce.lean ====
section
/-! SUPPORT. That the definitions of Machine/Reduce.lean keep a state sound. -/
namespace Sys2Proof.Machine

theorem State.setLanes_sound (s : State) (c : CoreId) (l : Lanes) (h_s : s.Sound) :
    (State.setLanes s c l).Sound := by
  unfold State.setLanes
  repeat' first
    | with_reducible assumption
    | with_reducible refine State.setCore_sound _ _ _ ?_

theorem reduce_sound (op : Nat) (bad : Nat → Bool) (modOk : Nat → Bool) (body : Ctx → State → Res) (h_body : ∀ x0body, ∀ x1body, (x1body.Sound) → (body x0body x1body).Sound) :
    (reduce op bad modOk body).Sound := by
  intro x s hs
  dsimp only [reduce]
  repeat' first
    | with_reducible assumption
    | with_reducible refine h_body _ _ ?_

theorem clrSpec_sound :
    (clrSpec).Sound := by
  intro x s hs
  dsimp only [clrSpec, reduce]
  repeat' first
    | with_reducible assumption
    | with_reducible exact res_reject
    | with_reducible refine res_ok ?_
    | with_reducible refine ite_keeps Res.Sound ?_ ?_
    | with_reducible refine State.setLanes_sound _ _ _ ?_
    | dsimp only [Out.at]
    | split
    | with_reducible refine out_fold ?_

theorem heldOp_sound (x : Ctx) (s : State) (kind : Nat) (a : Desc) (stages : Nat) (h_s : s.Sound) :
    (heldOp x s kind a stages).Sound := by
  unfold heldOp
  repeat' first
    | with_reducible assumption
    | with_reducible exact res_reject
    | with_reducible refine res_ok ?_
    | with_reducible refine ite_keeps Res.Sound ?_ ?_
    | with_reducible refine withReads_sound _ _ _ _ _ _ ?_ ?_
    | with_reducible refine State.setLanes_sound _ _ _ ?_
    | dsimp only [Out.at]
    | split
    | with_reducible refine out_fold ?_
    | with_reducible intro s

theorem storeRounded_sound (s : State) (c : CoreId) (d : Desc) (rows : List (List Rounded)) (h_s : s.Sound) :
    (storeRounded s c d rows).Sound := by
  unfold storeRounded
  repeat' first
    | with_reducible assumption
    | with_reducible refine writeRowsAs_sound _ _ _ _ _ ?_

theorem sumOp_sound (kind : Nat) (x : Ctx) (s : State) (h_s : s.Sound) :
    (sumOp kind x s).Sound := by
  unfold sumOp
  repeat' first
    | with_reducible assumption
    | with_reducible exact res_reject
    | with_reducible refine res_ok ?_
    | with_reducible refine ite_keeps Res.Sound ?_ ?_
    | with_reducible refine heldOp_sound _ _ _ _ _ ?_
    | with_reducible refine withReads_sound _ _ _ _ _ _ ?_ ?_
    | with_reducible refine State.setLanes_sound _ _ _ ?_
    | with_reducible refine writeRowsAs_sound _ _ _ _ _ ?_
    | with_reducible refine storeRounded_sound _ _ _ _ ?_
    | (lift_lets; intro s1; clear_value s1)
    | dsimp only [Out.at]
    | split
    | with_reducible refine out_fold ?_
    | with_reducible intro s

theorem sumSpec_sound :
    (sumSpec).Sound := by
  intro x s hs
  dsimp only [sumSpec, reduce]
  repeat' first
    | with_reducible assumption
    | with_reducible refine sumOp_sound _ _ _ ?_

theorem iaddSpec_sound :
    (iaddSpec).Sound := by
  intro x s hs
  dsimp only [iaddSpec, reduce]
  repeat' first
    | with_reducible assumption
    | with_reducible refine sumOp_sound _ _ _ ?_

theorem compareOp_sound (kind : Nat) (x : Ctx) (s : State) (h_s : s.Sound) :
    (compareOp kind x s).Sound := by
  unfold compareOp
  repeat' first
    | with_reducible assumption
    | with_reducible exact res_reject
    | with_reducible refine res_ok ?_
    | with_reducible refine ite_keeps Res.Sound ?_ ?_
    | with_reducible refine heldOp_sound _ _ _ _ _ ?_
    | with_reducible refine withReads_sound _ _ _ _ _ _ ?_ ?_
    | with_reducible refine State.setLanes_sound _ _ _ ?_
    | with_reducible refine storeRounded_sound _ _ _ _ ?_
    | (lift_lets; intro s1; clear_value s1)
    | dsimp only [Out.at]
    | split
    | with_reducible refine out_fold ?_
    | with_reducible intro s

theorem maxSpec_sound :
    (maxSpec).Sound := by
  intro x s hs
  dsimp only [maxSpec, reduce]
  repeat' first
    | with_reducible assumption
    | with_reducible refine compareOp_sound _ _ _ ?_

theorem minSpec_sound :
    (minSpec).Sound := by
  intro x s hs
  dsimp only [minSpec, reduce]
  repeat' first
    | with_reducible assumption
    | with_reducible refine compareOp_sound _ _ _ ?_

theorem andSpec_sound :
    (andSpec).Sound := by
  intro x s hs
  dsimp only [andSpec, reduce]
  repeat' first
    | with_reducible assumption
    | with_reducible refine compareOp_sound _ _ _ ?_

theorem orSpec_sound :
    (orSpec).Sound := by
  intro x s hs
  dsimp only [orSpec, reduce]
  repeat' first
    | with_reducible assumption
    | with_reducible refine compareOp_sound _ _ _ ?_

theorem xorSpec_sound :
    (xorSpec).Sound := by
  intro x s hs
  dsimp only [xorSpec, reduce]
  repeat' first
    | with_reducible assumption
    | with_reducible refine compareOp_sound _ _ _ ?_

theorem argOp_sound (isMax : Bool) (x : Ctx) (s : State) (h_s : s.Sound) :
    (argOp isMax x s).Sound := by
  unfold argOp
  repeat' first
    | with_reducible assumption
    | with_reducible exact res_reject
    | with_reducible refine res_ok ?_
    | with_reducible refine ite_keeps Res.Sound ?_ ?_
    | with_reducible refine withReads_sound _ _ _ _ _ _ ?_ ?_
    | with_reducible refine State.setLanes_sound _ _ _ ?_
    | with_reducible refine writeRowsAs_sound _ _ _ _ _ ?_
    | (lift_lets; intro s1; clear_value s1)
    | dsimp only [Out.at]
    | split
    | with_reducible refine out_fold ?_
    | with_reducible intro s

theorem argmaxSpec_sound :
    (argmaxSpec).Sound := by
  intro x s hs
  dsimp only [argmaxSpec, reduce]
  repeat' first
    | with_reducible assumption
    | with_reducible refine argOp_sound _ _ _ ?_

theorem argminSpec_sound :
    (argminSpec).Sound := by
  intro x s hs
  dsimp only [argminSpec, reduce]
  repeat' first
    | with_reducible assumption
    | with_reducible refine argOp_sound _ _ _ ?_

theorem outSpec_sound :
    (outSpec).Sound := by
  intro x s hs
  dsimp only [outSpec, reduce]
  repeat' first
    | with_reducible assumption
    | with_reducible exact res_reject
    | with_reducible refine res_ok ?_
    | with_reducible refine ite_keeps Res.Sound ?_ ?_
    | with_reducible refine storeRounded_sound _ _ _ _ ?_
    | dsimp only [Out.at]
    | split
    | with_reducible refine out_fold ?_

theorem imageOp_sound (x : Ctx) (s : State) (d : Desc) (dest : Bool) (k : LaneClass → Res) (h_s : s.Sound) (h_k : ∀ x0k, (k x0k).Sound) :
    (imageOp x s d dest k).Sound := by
  unfold imageOp
  repeat' first
    | with_reducible assumption
    | with_reducible exact res_reject
    | with_reducible refine res_ok ?_
    | with_reducible refine ite_keeps Res.Sound ?_ ?_
    | with_reducible refine h_k _
    | (lift_lets; intro s1; clear_value s1)
    | dsimp only [Out.at]
    | split
    | with_reducible refine out_fold ?_

theorem spillSpec_sound :
    (spillSpec).Sound := by
  intro x s hs
  dsimp only [spillSpec, reduce]
  repeat' first
    | with_reducible assumption
    | with_reducible exact res_reject
    | with_reducible refine res_ok ?_
    | with_reducible refine imageOp_sound _ _ _ _ _ ?_ ?_
    | with_reducible refine writeRowsAs_sound _ _ _ _ _ ?_
    | dsimp only [Out.at]
    | split
    | with_reducible refine out_fold ?_
    | with_reducible intro s

theorem fillSpec_sound :
    (fillSpec).Sound := by
  intro x s hs
  dsimp only [fillSpec, reduce]
  repeat' first
    | with_reducible assumption
    | with_reducible exact res_reject
    | with_reducible refine res_ok ?_
    | with_reducible refine imageOp_sound _ _ _ _ _ ?_ ?_
    | with_reducible refine withReads_sound _ _ _ _ _ _ ?_ ?_
    | with_reducible refine State.setLanes_sound _ _ _ ?_
    | dsimp only [Out.at]
    | split
    | with_reducible refine out_fold ?_
    | with_reducible intro s

theorem execClr_sound (c : CoreId) (s : State) (h_s : s.Sound) :
    NextSound (execClr c s) := by
  unfold execClr
  repeat' first
    | with_reducible assumption
    | with_reducible refine runOp_sound _ _ _ _ ?_ ?_
    | with_reducible refine clrSpec_sound

theorem execSum_sound (c : CoreId) (s : State) (h_s : s.Sound) :
    NextSound (execSum c s) := by
  unfold execSum
  repeat' first
    | with_reducible assumption
    | with_reducible refine runOp_sound _ _ _ _ ?_ ?_
    | with_reducible refine sumSpec_sound

theorem execIadd_sound (c : CoreId) (s : State) (h_s : s.Sound) :
    NextSound (execIadd c s) := by
  unfold execIadd
  repeat' first
    | with_reducible assumption
    | with_reducible refine runOp_sound _ _ _ _ ?_ ?_
    | with_reducible refine iaddSpec_sound

theorem execMax_sound (c : CoreId) (s : State) (h_s : s.Sound) :
    NextSound (execMax c s) := by
  unfold execMax
  repeat' first
    | with_reducible assumption
    | with_reducible refine runOp_sound _ _ _ _ ?_ ?_
    | with_reducible refine maxSpec_sound

theorem execMin_sound (c : CoreId) (s : State) (h_s : s.Sound) :
    NextSound (execMin c s) := by
  unfold execMin
  repeat' first
    | with_reducible assumption
    | with_reducible refine runOp_sound _ _ _ _ ?_ ?_
    | with_reducible refine minSpec_sound

theorem execArgmax_sound (c : CoreId) (s : State) (h_s : s.Sound) :
    NextSound (execArgmax c s) := by
  unfold execArgmax
  repeat' first
    | with_reducible assumption
    | with_reducible refine runOp_sound _ _ _ _ ?_ ?_
    | with_reducible refine argmaxSpec_sound

theorem execArgmin_sound (c : CoreId) (s : State) (h_s : s.Sound) :
    NextSound (execArgmin c s) := by
  unfold execArgmin
  repeat' first
    | with_reducible assumption
    | with_reducible refine runOp_sound _ _ _ _ ?_ ?_
    | with_reducible refine argminSpec_sound

theorem execAnd_sound (c : CoreId) (s : State) (h_s : s.Sound) :
    NextSound (execAnd c s) := by
  unfold execAnd
  repeat' first
    | with_reducible assumption
    | with_reducible refine runOp_sound _ _ _ _ ?_ ?_
    | with_reducible refine andSpec_sound

theorem execOr_sound (c : CoreId) (s : State) (h_s : s.Sound) :
    NextSound (execOr c s) := by
  unfold execOr
  repeat' first
    | with_reducible assumption
    | with_reducible refine runOp_sound _ _ _ _ ?_ ?_
    | with_reducible refine orSpec_sound

theorem execXor_sound (c : CoreId) (s : State) (h_s : s.Sound) :
    NextSound (execXor c s) := by
  unfold execXor
  repeat' first
    | with_reducible assumption
    | with_reducible refine runOp_sound _ _ _ _ ?_ ?_
    | with_reducible refine xorSpec_sound

theorem execOut_sound (c : CoreId) (s : State) (h_s : s.Sound) :
    NextSound (execOut c s) := by
  unfold execOut
  repeat' first
    | with_reducible assumption
    | with_reducible refine runOp_sound _ _ _ _ ?_ ?_
    | with_reducible refine outSpec_sound

theorem execSpill_sound (c : CoreId) (s : State) (h_s : s.Sound) :
    NextSound (execSpill c s) := by
  unfold execSpill
  repeat' first
    | with_reducible assumption
    | with_reducible refine runOp_sound _ _ _ _ ?_ ?_
    | with_reducible refine spillSpec_sound

theorem execFill_sound (c : CoreId) (s : State) (h_s : s.Sound) :
    NextSound (execFill c s) := by
  unfold execFill
  repeat' first
    | with_reducible assumption
    | with_reducible refine runOp_sound _ _ _ _ ?_ ?_
    | with_reducible refine fillSpec_sound

end Sys2Proof.Machine
end

