-- ==== Sys2Proof/Laws/SoundTensor.lean ====
section
/-! SUPPORT. That the definitions of Machine/Tensor.lean keep a state sound. -/
namespace Sys2Proof.Machine

theorem State.setTile_sound (s : State) (c : CoreId) (i : Nat) (v : Tile) (h_s : s.Sound) :
    (State.setTile s c i v).Sound := by
  unfold State.setTile
  repeat' first
    | with_reducible assumption
    | with_reducible refine State.setCore_sound _ _ _ ?_

theorem hazard_sound (x : Ctx) (s : State) (tile : Nat) (k : Res) (h_s : s.Sound) (h_k : k.Sound) :
    (hazard x s tile k).Sound := by
  unfold hazard
  repeat' first
    | with_reducible assumption
    | with_reducible refine res_fail ?_
    | with_reducible refine ite_keeps Res.Sound ?_ ?_
    | with_reducible refine State.setFld_sound _ _ _ _ ?_
    | with_reducible refine State.count_sound _ _ _ _ ?_
    | with_reducible refine State.flag_sound _ _ _ ?_

theorem zeroSpec_sound :
    (zeroSpec).Sound := by
  intro x s hs
  dsimp only [zeroSpec]
  repeat' first
    | with_reducible assumption
    | with_reducible exact res_reject
    | with_reducible refine res_ok ?_
    | with_reducible refine ite_keeps Res.Sound ?_ ?_
    | with_reducible refine hazard_sound _ _ _ _ ?_ ?_
    | with_reducible refine State.setTile_sound _ _ _ _ ?_
    | dsimp only [Out.at]
    | split
    | with_reducible refine out_fold ?_

theorem mmaSpec_sound (c : CoreId) :
    (mmaSpec c).Sound := by
  intro x s hs
  dsimp only [mmaSpec]
  repeat' first
    | with_reducible assumption
    | with_reducible exact res_reject
    | with_reducible refine res_ok ?_
    | with_reducible refine ite_keeps Res.Sound ?_ ?_
    | with_reducible refine hazard_sound _ _ _ _ ?_ ?_
    | with_reducible refine readHearth_sound _ _ _ ?_
    | with_reducible refine State.setTile_sound _ _ _ _ ?_
    | with_reducible refine State.setCore_sound _ _ _ ?_
    | with_reducible refine State.bump_sound _ _ _ _ ?_
    | with_reducible refine sound_of_snd (by assumption) ?_
    | dsimp only [Out.at]
    | split
    | with_reducible refine out_fold ?_

theorem rdSpec_sound :
    (rdSpec).Sound := by
  intro x s hs
  dsimp only [rdSpec]
  repeat' first
    | with_reducible assumption
    | with_reducible exact res_reject
    | with_reducible refine res_ok ?_
    | with_reducible refine ite_keeps Res.Sound ?_ ?_
    | with_reducible refine hazard_sound _ _ _ _ ?_ ?_
    | with_reducible refine writeCodes_sound _ _ _ _ ?_
    | with_reducible refine State.setTile_sound _ _ _ _ ?_
    | dsimp only [Out.at]
    | split
    | with_reducible refine out_fold ?_

theorem execZero_sound (c : CoreId) (s : State) (h_s : s.Sound) :
    NextSound (execZero c s) := by
  unfold execZero
  repeat' first
    | with_reducible assumption
    | with_reducible refine runOp_sound _ _ _ _ ?_ ?_
    | with_reducible refine zeroSpec_sound

theorem execMma_sound (c : CoreId) (s : State) (h_s : s.Sound) :
    NextSound (execMma c s) := by
  unfold execMma
  repeat' first
    | with_reducible assumption
    | with_reducible refine runOp_sound _ _ _ _ ?_ ?_
    | with_reducible refine mmaSpec_sound _

theorem execRd_sound (c : CoreId) (s : State) (h_s : s.Sound) :
    NextSound (execRd c s) := by
  unfold execRd
  repeat' first
    | with_reducible assumption
    | with_reducible refine runOp_sound _ _ _ _ ?_ ?_
    | with_reducible refine rdSpec_sound

end Sys2Proof.Machine
end

