-- ==== Sys2Proof/Laws/SoundTally.lean ====
section
/-! SUPPORT. That the definitions of Machine/Tally.lean keep a state sound. -/
namespace Sys2Proof.Machine

theorem State.setCtr_sound (s : State) (c : CoreId) (i : Nat) (v : BitVec 48) (h_s : s.Sound) :
    (State.setCtr s c i v).Sound := by
  unfold State.setCtr
  repeat' first
    | with_reducible assumption
    | with_reducible refine State.setCore_sound _ _ _ ?_

theorem State.setCmp_sound (s : State) (c : CoreId) (i : Nat) (v : Bool) (h_s : s.Sound) :
    (State.setCmp s c i v).Sound := by
  unfold State.setCmp
  repeat' first
    | with_reducible assumption
    | with_reducible refine State.setCore_sound _ _ _ ?_

theorem tally_sound (op : Nat) (used : List (Nat × Nat)) (modOk : Nat → Bool) (body : Ctx → State → Res) (h_body : ∀ x0body, ∀ x1body, (x1body.Sound) → (body x0body x1body).Sound) :
    (tally op used modOk body).Sound := by
  intro x s hs
  dsimp only [tally]
  repeat' first
    | with_reducible assumption
    | with_reducible refine h_body _ _ ?_

theorem setiSpec_sound :
    (setiSpec).Sound := by
  intro x s hs
  dsimp only [setiSpec, tally]
  repeat' first
    | with_reducible assumption
    | with_reducible refine res_ok ?_
    | with_reducible refine Out.at_sound _ _ ?_
    | with_reducible refine State.setCtr_sound _ _ _ _ ?_

theorem addiSpec_sound :
    (addiSpec).Sound := by
  intro x s hs
  dsimp only [addiSpec, tally]
  repeat' first
    | with_reducible assumption
    | with_reducible refine res_ok ?_
    | with_reducible refine Out.at_sound _ _ ?_
    | with_reducible refine State.setCtr_sound _ _ _ _ ?_

theorem addSpec_sound :
    (addSpec).Sound := by
  intro x s hs
  dsimp only [addSpec, tally]
  repeat' first
    | with_reducible assumption
    | with_reducible refine res_ok ?_
    | with_reducible refine Out.at_sound _ _ ?_
    | with_reducible refine State.setCtr_sound _ _ _ _ ?_

theorem subSpec_sound :
    (subSpec).Sound := by
  intro x s hs
  dsimp only [subSpec, tally]
  repeat' first
    | with_reducible assumption
    | with_reducible refine res_ok ?_
    | with_reducible refine Out.at_sound _ _ ?_
    | with_reducible refine State.setCtr_sound _ _ _ _ ?_

theorem ldSpec_sound :
    (ldSpec).Sound := by
  intro x s hs
  dsimp only [ldSpec, tally]
  repeat' first
    | with_reducible assumption
    | with_reducible exact res_reject
    | with_reducible refine res_ok ?_
    | with_reducible refine ite_keeps Res.Sound ?_ ?_
    | with_reducible refine withReads_sound _ _ _ _ _ _ ?_ ?_
    | with_reducible refine State.setCtr_sound _ _ _ _ ?_
    | dsimp only [Out.at]
    | with_reducible refine out_fold ?_
    | with_reducible intro s

theorem stSpec_sound :
    (stSpec).Sound := by
  intro x s hs
  dsimp only [stSpec, tally]
  repeat' first
    | with_reducible assumption
    | with_reducible exact res_reject
    | with_reducible refine res_ok ?_
    | with_reducible refine ite_keeps Res.Sound ?_ ?_
    | with_reducible refine State.hwrite_sound _ _ _ _ ?_
    | dsimp only [Out.at]
    | with_reducible refine out_fold ?_

theorem stfSpec_sound :
    (stfSpec).Sound := by
  intro x s hs
  dsimp only [stfSpec, tally]
  repeat' first
    | with_reducible assumption
    | with_reducible exact res_reject
    | with_reducible refine res_ok ?_
    | with_reducible refine ite_keeps Res.Sound ?_ ?_
    | with_reducible refine withReads_sound _ _ _ _ _ _ ?_ ?_
    | with_reducible refine State.hwrite_sound _ _ _ _ ?_
    | dsimp only [Out.at]
    | with_reducible refine out_fold ?_
    | with_reducible intro s

theorem cmpSpec_sound :
    (cmpSpec).Sound := by
  intro x s hs
  dsimp only [cmpSpec, tally]
  repeat' first
    | with_reducible assumption
    | with_reducible refine res_ok ?_
    | with_reducible refine Out.at_sound _ _ ?_
    | with_reducible refine State.setCmp_sound _ _ _ _ ?_

theorem cmpiSpec_sound :
    (cmpiSpec).Sound := by
  intro x s hs
  dsimp only [cmpiSpec, tally]
  repeat' first
    | with_reducible assumption
    | with_reducible refine res_ok ?_
    | with_reducible refine Out.at_sound _ _ ?_
    | with_reducible refine State.setCmp_sound _ _ _ _ ?_

theorem skipkSpec_sound :
    (skipkSpec).Sound := by
  intro x s hs
  dsimp only [skipkSpec, tally]
  repeat' first
    | with_reducible assumption
    | with_reducible exact res_reject
    | with_reducible refine res_ok ?_
    | with_reducible refine ite_keeps Res.Sound ?_ ?_
    | dsimp only [Out.at]
    | split
    | with_reducible refine out_fold ?_

theorem djnzSpec_sound :
    (djnzSpec).Sound := by
  intro x s hs
  dsimp only [djnzSpec, tally]
  repeat' first
    | with_reducible assumption
    | with_reducible exact res_reject
    | with_reducible refine res_ok ?_
    | with_reducible refine ite_keeps Res.Sound ?_ ?_
    | with_reducible refine State.setCtr_sound _ _ _ _ ?_
    | dsimp only [Out.at]
    | split
    | with_reducible refine out_fold ?_

theorem execSeti_sound (c : CoreId) (s : State) (h_s : s.Sound) :
    NextSound (execSeti c s) := by
  unfold execSeti
  repeat' first
    | with_reducible assumption
    | with_reducible refine runOp_sound _ _ _ _ ?_ ?_
    | with_reducible refine setiSpec_sound

theorem execAddi_sound (c : CoreId) (s : State) (h_s : s.Sound) :
    NextSound (execAddi c s) := by
  unfold execAddi
  repeat' first
    | with_reducible assumption
    | with_reducible refine runOp_sound _ _ _ _ ?_ ?_
    | with_reducible refine addiSpec_sound

theorem execAdd_sound (c : CoreId) (s : State) (h_s : s.Sound) :
    NextSound (execAdd c s) := by
  unfold execAdd
  repeat' first
    | with_reducible assumption
    | with_reducible refine runOp_sound _ _ _ _ ?_ ?_
    | with_reducible refine addSpec_sound

theorem execSub_sound (c : CoreId) (s : State) (h_s : s.Sound) :
    NextSound (execSub c s) := by
  unfold execSub
  repeat' first
    | with_reducible assumption
    | with_reducible refine runOp_sound _ _ _ _ ?_ ?_
    | with_reducible refine subSpec_sound

theorem execLd_sound (c : CoreId) (s : State) (h_s : s.Sound) :
    NextSound (execLd c s) := by
  unfold execLd
  repeat' first
    | with_reducible assumption
    | with_reducible refine runOp_sound _ _ _ _ ?_ ?_
    | with_reducible refine ldSpec_sound

theorem execSt_sound (c : CoreId) (s : State) (h_s : s.Sound) :
    NextSound (execSt c s) := by
  unfold execSt
  repeat' first
    | with_reducible assumption
    | with_reducible refine runOp_sound _ _ _ _ ?_ ?_
    | with_reducible refine stSpec_sound

theorem execStf_sound (c : CoreId) (s : State) (h_s : s.Sound) :
    NextSound (execStf c s) := by
  unfold execStf
  repeat' first
    | with_reducible assumption
    | with_reducible refine runOp_sound _ _ _ _ ?_ ?_
    | with_reducible refine stfSpec_sound

theorem execCmp_sound (c : CoreId) (s : State) (h_s : s.Sound) :
    NextSound (execCmp c s) := by
  unfold execCmp
  repeat' first
    | with_reducible assumption
    | with_reducible refine runOp_sound _ _ _ _ ?_ ?_
    | with_reducible refine cmpSpec_sound

theorem execCmpi_sound (c : CoreId) (s : State) (h_s : s.Sound) :
    NextSound (execCmpi c s) := by
  unfold execCmpi
  repeat' first
    | with_reducible assumption
    | with_reducible refine runOp_sound _ _ _ _ ?_ ?_
    | with_reducible refine cmpiSpec_sound

theorem execSkipk_sound (c : CoreId) (s : State) (h_s : s.Sound) :
    NextSound (execSkipk c s) := by
  unfold execSkipk
  repeat' first
    | with_reducible assumption
    | with_reducible refine runOp_sound _ _ _ _ ?_ ?_
    | with_reducible refine skipkSpec_sound

theorem execDjnz_sound (c : CoreId) (s : State) (h_s : s.Sound) :
    NextSound (execDjnz c s) := by
  unfold execDjnz
  repeat' first
    | with_reducible assumption
    | with_reducible refine runOp_sound _ _ _ _ ?_ ?_
    | with_reducible refine djnzSpec_sound

end Sys2Proof.Machine
end

