-- ==== Sys2Proof/Laws/SoundScale.lean ====
section
/-! SUPPORT. That the definitions of Machine/Scale.lean keep a state sound. -/
namespace Sys2Proof.Machine

theorem writeScales_sound (s : State) (c : CoreId) (d : Desc) (scales : List Nat) (h_s : s.Sound) :
    (writeScales s c d scales).Sound := by
  unfold writeScales
  repeat' first
    | with_reducible assumption
    | with_reducible refine State.hwrite_sound _ _ _ _ ?_

theorem scaleOp_sound (op : Nat) (x : Ctx) (s : State) (h_s : s.Sound) :
    (scaleOp op x s).Sound := by
  unfold scaleOp
  repeat' first
    | with_reducible assumption
    | with_reducible exact res_reject
    | with_reducible refine res_ok ?_
    | with_reducible refine ite_keeps Res.Sound ?_ ?_
    | with_reducible refine withReads_sound _ _ _ _ _ _ ?_ ?_
    | with_reducible refine writeCodes_sound _ _ _ _ ?_
    | with_reducible refine writeScales_sound _ _ _ _ ?_
    | (lift_lets; intro s1; clear_value s1)
    | dsimp only [Out.at]
    | split
    | with_reducible refine out_fold ?_
    | with_reducible intro s

theorem scaleSpec_sound (op : Nat) :
    (scaleSpec op).Sound := by
  intro x s hs
  dsimp only [scaleSpec]
  repeat' first
    | with_reducible assumption
    | with_reducible refine scaleOp_sound _ _ _ ?_

theorem execQuant_sound (c : CoreId) (s : State) (h_s : s.Sound) :
    NextSound (execQuant c s) := by
  unfold execQuant
  repeat' first
    | with_reducible assumption
    | with_reducible refine runOp_sound _ _ _ _ ?_ ?_
    | with_reducible refine scaleSpec_sound _

theorem execDequant_sound (c : CoreId) (s : State) (h_s : s.Sound) :
    NextSound (execDequant c s) := by
  unfold execDequant
  repeat' first
    | with_reducible assumption
    | with_reducible refine runOp_sound _ _ _ _ ?_ ?_
    | with_reducible refine scaleSpec_sound _

theorem execCvt_sound (c : CoreId) (s : State) (h_s : s.Sound) :
    NextSound (execCvt c s) := by
  unfold execCvt
  repeat' first
    | with_reducible assumption
    | with_reducible refine runOp_sound _ _ _ _ ?_ ?_
    | with_reducible refine scaleSpec_sound _

theorem execDiv_sound (c : CoreId) (s : State) (h_s : s.Sound) :
    NextSound (execDiv c s) := by
  unfold execDiv
  repeat' first
    | with_reducible assumption
    | with_reducible refine runOp_sound _ _ _ _ ?_ ?_
    | with_reducible refine scaleSpec_sound _

theorem execSqrt_sound (c : CoreId) (s : State) (h_s : s.Sound) :
    NextSound (execSqrt c s) := by
  unfold execSqrt
  repeat' first
    | with_reducible assumption
    | with_reducible refine runOp_sound _ _ _ _ ?_ ?_
    | with_reducible refine scaleSpec_sound _

theorem execExp_sound (c : CoreId) (s : State) (h_s : s.Sound) :
    NextSound (execExp c s) := by
  unfold execExp
  repeat' first
    | with_reducible assumption
    | with_reducible refine runOp_sound _ _ _ _ ?_ ?_
    | with_reducible refine scaleSpec_sound _

theorem execLog_sound (c : CoreId) (s : State) (h_s : s.Sound) :
    NextSound (execLog c s) := by
  unfold execLog
  repeat' first
    | with_reducible assumption
    | with_reducible refine runOp_sound _ _ _ _ ?_ ?_
    | with_reducible refine scaleSpec_sound _

theorem execRsqrt_sound (c : CoreId) (s : State) (h_s : s.Sound) :
    NextSound (execRsqrt c s) := by
  unfold execRsqrt
  repeat' first
    | with_reducible assumption
    | with_reducible refine runOp_sound _ _ _ _ ?_ ?_
    | with_reducible refine scaleSpec_sound _

end Sys2Proof.Machine
end

