-- ==== Sys2Proof/Laws/SoundSort.lean ====
section
/-! SUPPORT. That the definitions of Machine/Sort.lean keep a state sound. -/
namespace Sys2Proof.Machine

theorem sortOp_sound (kv : Bool) (x : Ctx) (s : State) (h_s : s.Sound) :
    (sortOp kv x s).Sound := by
  unfold sortOp
  repeat' first
    | with_reducible assumption
    | with_reducible exact res_reject
    | with_reducible refine res_ok ?_
    | with_reducible refine ite_keeps Res.Sound ?_ ?_
    | with_reducible refine withReads_sound _ _ _ _ _ _ ?_ ?_
    | with_reducible refine writeCodes_sound _ _ _ _ ?_
    | (lift_lets; intro s1; clear_value s1)
    | dsimp only [Out.at]
    | split
    | with_reducible refine out_fold ?_
    | with_reducible intro s

theorem topkOp_sound (x : Ctx) (s : State) (h_s : s.Sound) :
    (topkOp x s).Sound := by
  unfold topkOp
  repeat' first
    | with_reducible assumption
    | with_reducible exact res_reject
    | with_reducible refine res_ok ?_
    | with_reducible refine ite_keeps Res.Sound ?_ ?_
    | with_reducible refine withReads_sound _ _ _ _ _ _ ?_ ?_
    | with_reducible refine writeCodes_sound _ _ _ _ ?_
    | (lift_lets; intro s1; clear_value s1)
    | dsimp only [Out.at]
    | split
    | with_reducible refine out_fold ?_
    | with_reducible intro s

theorem mergeOp_sound (x : Ctx) (s : State) (h_s : s.Sound) :
    (mergeOp x s).Sound := by
  unfold mergeOp
  repeat' first
    | with_reducible assumption
    | with_reducible exact res_reject
    | with_reducible refine res_ok ?_
    | with_reducible refine ite_keeps Res.Sound ?_ ?_
    | with_reducible refine withReads_sound _ _ _ _ _ _ ?_ ?_
    | with_reducible refine writeCodes_sound _ _ _ _ ?_
    | (lift_lets; intro s1; clear_value s1)
    | dsimp only [Out.at]
    | split
    | with_reducible refine out_fold ?_
    | with_reducible intro s

theorem sortSpec_sound (op : Nat) (bad : Nat → Bool) (mask : Nat) (body : Ctx → State → Res) (h_body : ∀ x0body, ∀ x1body, (x1body.Sound) → (body x0body x1body).Sound) :
    (sortSpec op bad mask body).Sound := by
  intro x s hs
  dsimp only [sortSpec]
  repeat' first
    | with_reducible assumption
    | with_reducible refine h_body _ _ ?_

theorem execSort_sound (c : CoreId) (s : State) (h_s : s.Sound) :
    NextSound (execSort c s) := by
  unfold execSort
  repeat' first
    | with_reducible assumption
    | with_reducible refine runOp_sound _ _ _ _ ?_ ?_
    | with_reducible refine sortSpec_sound _ _ _ _ ?_
    | with_reducible refine sortOp_sound _ _ _ ?_
    | with_reducible intro s

theorem execSortkv_sound (c : CoreId) (s : State) (h_s : s.Sound) :
    NextSound (execSortkv c s) := by
  unfold execSortkv
  repeat' first
    | with_reducible assumption
    | with_reducible refine runOp_sound _ _ _ _ ?_ ?_
    | with_reducible refine sortSpec_sound _ _ _ _ ?_
    | with_reducible refine sortOp_sound _ _ _ ?_
    | with_reducible intro s

theorem execTopk_sound (c : CoreId) (s : State) (h_s : s.Sound) :
    NextSound (execTopk c s) := by
  unfold execTopk
  repeat' first
    | with_reducible assumption
    | with_reducible refine runOp_sound _ _ _ _ ?_ ?_
    | with_reducible refine sortSpec_sound _ _ _ _ ?_
    | with_reducible refine topkOp_sound _ _ ?_
    | with_reducible intro s

theorem execMerge_sound (c : CoreId) (s : State) (h_s : s.Sound) :
    NextSound (execMerge c s) := by
  unfold execMerge
  repeat' first
    | with_reducible assumption
    | with_reducible refine runOp_sound _ _ _ _ ?_ ?_
    | with_reducible refine sortSpec_sound _ _ _ _ ?_
    | with_reducible refine mergeOp_sound _ _ ?_
    | with_reducible intro s

end Sys2Proof.Machine
end

