-- ==== Sys2Proof/Laws/SoundShape.lean ====
section
/-! SUPPORT. That the definitions of Machine/Shape.lean keep a state sound. -/
namespace Sys2Proof.Machine

theorem State.noteSkips_sound (s : State) (c : CoreId) (n : Nat) (h_s : s.Sound) :
    (State.noteSkips s c n).Sound := by
  unfold State.noteSkips
  repeat' first
    | with_reducible assumption
    | with_reducible refine sound_ite ?_ ?_
    | with_reducible refine State.count_sound _ _ _ _ ?_
    | with_reducible refine State.flag_sound _ _ _ ?_

theorem State.noteLost_sound (s : State) (c : CoreId) (n : Nat) (h_s : s.Sound) :
    (State.noteLost s c n).Sound := by
  unfold State.noteLost
  repeat' first
    | with_reducible assumption
    | with_reducible refine sound_ite ?_ ?_
    | with_reducible refine State.count_sound _ _ _ _ ?_
    | with_reducible refine State.flag_sound _ _ _ ?_

theorem putRow_sound (s : State) (c : CoreId) (d : Desc) (r : Nat) (row : List Byte × List Byte) (h_s : s.Sound) :
    (putRow s c d r row).Sound := by
  unfold putRow
  repeat' first
    | with_reducible assumption
    | with_reducible refine sound_ite ?_ ?_
    | with_reducible refine State.hwrite_sound _ _ _ _ ?_

theorem moveRows_sound (gather : Bool) (x : Ctx) (s : State) (h_s : s.Sound) :
    (moveRows gather x s).Sound := by
  unfold moveRows
  repeat' first
    | with_reducible assumption
    | with_reducible exact res_reject
    | with_reducible refine res_ok ?_
    | with_reducible refine ite_keeps Res.Sound ?_ ?_
    | with_reducible refine sound_foldl (fun s a h => ?_) ?_
    | with_reducible refine withReads_sound _ _ _ _ _ _ ?_ ?_
    | with_reducible refine putRow_sound _ _ _ _ _ ?_
    | with_reducible refine State.noteSkips_sound _ _ _ ?_
    | (lift_lets; intro s1; clear_value s1)
    | dsimp only [Out.at]
    | split
    | with_reducible refine out_fold ?_
    | with_reducible intro s

theorem compactOp_sound (x : Ctx) (s : State) (h_s : s.Sound) :
    (compactOp x s).Sound := by
  unfold compactOp
  repeat' first
    | with_reducible assumption
    | with_reducible exact res_reject
    | with_reducible refine res_ok ?_
    | with_reducible refine ite_keeps Res.Sound ?_ ?_
    | with_reducible refine sound_foldl (fun s a h => ?_) ?_
    | with_reducible refine withReads_sound _ _ _ _ _ _ ?_ ?_
    | with_reducible refine putRow_sound _ _ _ _ _ ?_
    | with_reducible refine State.noteLost_sound _ _ _ ?_
    | with_reducible refine writeCodes_sound _ _ _ _ ?_
    | (lift_lets; intro s1; clear_value s1)
    | dsimp only [Out.at]
    | split
    | with_reducible refine out_fold ?_
    | with_reducible intro s

theorem filterOp_sound (x : Ctx) (s : State) (h_s : s.Sound) :
    (filterOp x s).Sound := by
  unfold filterOp
  repeat' first
    | with_reducible assumption
    | with_reducible exact res_reject
    | with_reducible refine res_ok ?_
    | with_reducible refine ite_keeps Res.Sound ?_ ?_
    | with_reducible refine withReads_sound _ _ _ _ _ _ ?_ ?_
    | with_reducible refine writeCodes_sound _ _ _ _ ?_
    | (lift_lets; intro s1; clear_value s1)
    | dsimp only [Out.at]
    | split
    | with_reducible refine out_fold ?_
    | with_reducible intro s

theorem countOp_sound (x : Ctx) (s : State) (h_s : s.Sound) :
    (countOp x s).Sound := by
  unfold countOp
  repeat' first
    | with_reducible assumption
    | with_reducible exact res_reject
    | with_reducible refine res_ok ?_
    | with_reducible refine ite_keeps Res.Sound ?_ ?_
    | with_reducible refine withReads_sound _ _ _ _ _ _ ?_ ?_
    | with_reducible refine writeCodes_sound _ _ _ _ ?_
    | (lift_lets; intro s1; clear_value s1)
    | dsimp only [Out.at]
    | split
    | with_reducible refine out_fold ?_
    | with_reducible intro s

theorem histOp_sound (x : Ctx) (s : State) (h_s : s.Sound) :
    (histOp x s).Sound := by
  unfold histOp
  repeat' first
    | with_reducible assumption
    | with_reducible exact res_reject
    | with_reducible refine res_ok ?_
    | with_reducible refine ite_keeps Res.Sound ?_ ?_
    | with_reducible refine withReads_sound _ _ _ _ _ _ ?_ ?_
    | with_reducible refine writeCodes_sound _ _ _ _ ?_
    | with_reducible refine State.noteSkips_sound _ _ _ ?_
    | (lift_lets; intro s1; clear_value s1)
    | dsimp only [Out.at]
    | split
    | with_reducible refine out_fold ?_
    | with_reducible intro s

theorem shapeSpec_sound (op : Nat) (bad : Nat → Bool) (modOk : Nat → Bool) (body : Ctx → State → Res) (h_body : ∀ x0body, ∀ x1body, (x1body.Sound) → (body x0body x1body).Sound) :
    (shapeSpec op bad modOk body).Sound := by
  intro x s hs
  dsimp only [shapeSpec]
  repeat' first
    | with_reducible assumption
    | with_reducible refine h_body _ _ ?_

theorem execGather_sound (c : CoreId) (s : State) (h_s : s.Sound) :
    NextSound (execGather c s) := by
  unfold execGather
  repeat' first
    | with_reducible assumption
    | with_reducible refine runOp_sound _ _ _ _ ?_ ?_
    | with_reducible refine shapeSpec_sound _ _ _ _ ?_
    | with_reducible refine moveRows_sound _ _ _ ?_
    | with_reducible intro s

theorem execScatter_sound (c : CoreId) (s : State) (h_s : s.Sound) :
    NextSound (execScatter c s) := by
  unfold execScatter
  repeat' first
    | with_reducible assumption
    | with_reducible refine runOp_sound _ _ _ _ ?_ ?_
    | with_reducible refine shapeSpec_sound _ _ _ _ ?_
    | with_reducible refine moveRows_sound _ _ _ ?_
    | with_reducible intro s

theorem execCompact_sound (c : CoreId) (s : State) (h_s : s.Sound) :
    NextSound (execCompact c s) := by
  unfold execCompact
  repeat' first
    | with_reducible assumption
    | with_reducible refine runOp_sound _ _ _ _ ?_ ?_
    | with_reducible refine shapeSpec_sound _ _ _ _ ?_
    | with_reducible refine compactOp_sound _ _ ?_
    | with_reducible intro s

theorem execFilter_sound (c : CoreId) (s : State) (h_s : s.Sound) :
    NextSound (execFilter c s) := by
  unfold execFilter
  repeat' first
    | with_reducible assumption
    | with_reducible refine runOp_sound _ _ _ _ ?_ ?_
    | with_reducible refine shapeSpec_sound _ _ _ _ ?_
    | with_reducible refine filterOp_sound _ _ ?_
    | with_reducible intro s

theorem execHist_sound (c : CoreId) (s : State) (h_s : s.Sound) :
    NextSound (execHist c s) := by
  unfold execHist
  repeat' first
    | with_reducible assumption
    | with_reducible refine runOp_sound _ _ _ _ ?_ ?_
    | with_reducible refine shapeSpec_sound _ _ _ _ ?_
    | with_reducible refine histOp_sound _ _ ?_
    | with_reducible intro s

theorem execCount_sound (c : CoreId) (s : State) (h_s : s.Sound) :
    NextSound (execCount c s) := by
  unfold execCount
  repeat' first
    | with_reducible assumption
    | with_reducible refine runOp_sound _ _ _ _ ?_ ?_
    | with_reducible refine shapeSpec_sound _ _ _ _ ?_
    | with_reducible refine countOp_sound _ _ ?_
    | with_reducible intro s

end Sys2Proof.Machine
end

