-- ==== Sys2Proof/Laws/SoundStacks.lean ====
section
/-! SUPPORT. That the definitions of Machine/Stacks.lean keep a state sound. -/
namespace Sys2Proof.Machine

theorem State.logStack_sound (s : State) (code : Nat) (k : Nat) (unit : Nat) (details : List Nat) (h_s : s.Sound) :
    (State.logStack s code k unit details).Sound := by
  unfold State.logStack
  repeat' first
    | with_reducible assumption
    | with_reducible refine State.logAt_sound _ _ _ _ _ _ _ ?_

theorem State.slots_sound (s : State) (g : Nat) (n : Nat) (wr : Bool) (h_s : s.Sound) :
    (State.slots s g n wr).Sound := by
  unfold State.slots
  repeat' first
    | with_reducible assumption
    | with_reducible refine sound_ite ?_ ?_
    | with_reducible refine State.bump_sound _ _ _ _ ?_
    | with_reducible refine State.lifeAdd_sound _ _ _ ?_

theorem State.checkGranule_sound (s : State) (g : Nat) (off : Nat) (len : Nat) (h_s : s.Sound) :
    (State.checkGranule s g off len).2.Sound := by
  unfold State.checkGranule
  repeat' first
    | with_reducible assumption
    | with_reducible refine State.logStack_sound _ _ _ _ _ ?_
    | with_reducible refine State.lifeAdd_sound _ _ _ ?_
    | with_reducible refine State.count_sound _ _ _ _ ?_
    | with_reducible refine State.healthAdd_sound _ _ _ ?_
    | (lift_lets; intro s1; clear_value s1)
    | dsimp only [Out.at]
    | split
    | (simp only [State.Sound]; with_reducible refine sound_fold ?_; with_reducible assumption)

theorem State.readGranule_sound (s : State) (g : Nat) (off : Nat) (len : Nat) (h_s : s.Sound) :
    (State.readGranule s g off len).2.Sound := by
  unfold State.readGranule
  repeat' first
    | with_reducible assumption
    | with_reducible refine State.checkGranule_sound _ _ _ _ ?_
    | with_reducible refine State.slots_sound _ _ _ _ ?_
    | with_reducible refine State.fwrite_sound _ _ _ ?_
    | (lift_lets; intro s1; clear_value s1)
    | dsimp only [Out.at]
    | split

theorem State.writeGranule_sound (s : State) (g : Nat) (off : Nat) (bs : List Byte) (h_s : s.Sound) :
    (State.writeGranule s g off bs).2.Sound := by
  unfold State.writeGranule
  repeat' first
    | with_reducible assumption
    | with_reducible refine State.fwrite_sound _ _ _ ?_
    | with_reducible refine State.slots_sound _ _ _ _ ?_
    | with_reducible refine State.count_sound _ _ _ _ ?_
    | with_reducible refine State.flag_sound _ _ _ ?_
    | with_reducible refine State.logStack_sound _ _ _ _ _ ?_
    | with_reducible refine State.checkGranule_sound _ _ _ _ ?_
    | (lift_lets; intro s1; clear_value s1)
    | dsimp only [Out.at]
    | split

theorem State.fabRead_sound (s : State) (addr : Nat) (len : Nat) (h_s : s.Sound) :
    (State.fabRead s addr len).2.Sound := by
  unfold State.fabRead
  repeat' first
    | with_reducible assumption
    | with_reducible refine sound_foldl_snd (fun p a h => ?_) ?_
    | with_reducible refine State.readGranule_sound _ _ _ _ ?_

theorem State.fabWrite_sound (s : State) (addr : Nat) (bs : List Byte) (h_s : s.Sound) :
    (State.fabWrite s addr bs).2.Sound := by
  unfold State.fabWrite
  repeat' first
    | with_reducible assumption
    | with_reducible refine sound_foldl_snd (fun p a h => ?_) ?_
    | with_reducible refine State.writeGranule_sound _ _ _ _ ?_

theorem State.cacheRead_sound (s : State) (die : Nat) (g : Nat) (off : Nat) (len : Nat) (h_s : s.Sound) :
    (State.cacheRead s die g off len).2.Sound := by
  unfold State.cacheRead
  repeat' first
    | with_reducible assumption
    | with_reducible refine State.readGranule_sound _ _ _ _ ?_
    | with_reducible refine State.freeWord_sound _ ?_
    | with_reducible refine State.bump_sound _ _ _ _ ?_
    | (lift_lets; intro s1; clear_value s1)
    | dsimp only [Out.at]
    | split
    | (simp only [State.Sound]; with_reducible refine sound_fold ?_; with_reducible refine State.bump_sound _ _ _ _ ?_)

theorem State.dieRead_sound (s : State) (die : Nat) (addr : Nat) (len : Nat) (h_s : s.Sound) :
    (State.dieRead s die addr len).2.Sound := by
  unfold State.dieRead
  repeat' first
    | with_reducible assumption
    | with_reducible refine sound_foldl_snd (fun p a h => ?_) ?_
    | with_reducible refine State.cacheRead_sound _ _ _ _ _ ?_

theorem State.dieWrite_sound (s : State) (die : Nat) (addr : Nat) (bs : List Byte) (h_s : s.Sound) :
    (State.dieWrite s die addr bs).2.Sound := by
  unfold State.dieWrite
  repeat' first
    | with_reducible assumption
    | with_reducible refine sound_ite ?_ ?_
    | with_reducible refine sound_foldl (fun s a h => ?_) ?_
    | with_reducible refine State.fabWrite_sound _ _ _ ?_
    | (simp only [State.Sound]; with_reducible refine sound_fold ?_; with_reducible assumption)

theorem State.dropCopies_sound (s : State) (die : Nat) (lo : Nat) (hi : Nat) (h_s : s.Sound) :
    (State.dropCopies s die lo hi).Sound := by
  unfold State.dropCopies
  repeat' first
    | (simp only [State.Sound]; with_reducible refine sound_fold ?_; with_reducible assumption)

theorem State.scratchRead_sound (s : State) (die : Nat) (a : Nat) (len : Nat) (h_s : s.Sound) :
    (State.scratchRead s die a len).2.Sound := by
  unfold State.scratchRead
  repeat' first
    | with_reducible assumption
    | with_reducible refine sound_ite ?_ ?_
    | with_reducible refine State.logAt_sound _ _ _ _ _ _ _ ?_
    | with_reducible refine State.count_sound _ _ _ _ ?_
    | with_reducible refine State.healthAdd_sound _ _ _ ?_
    | (lift_lets; intro s1; clear_value s1)
    | dsimp only [Out.at]
    | split
    | (simp only [State.Sound]; with_reducible refine sound_fold ?_; with_reducible assumption)

theorem State.placeRead_sound (s : State) (die : Nat) (p : Place) (len : Nat) (h_s : s.Sound) :
    (State.placeRead s die p len).2.Sound := by
  unfold State.placeRead
  repeat' first
    | with_reducible assumption
    | with_reducible refine readHearth_sound _ _ _ ?_
    | with_reducible refine State.logAt_sound _ _ _ _ _ _ _ ?_
    | with_reducible refine State.scratchRead_sound _ _ _ _ ?_
    | with_reducible refine State.dieRead_sound _ _ _ _ ?_
    | with_reducible refine sound_of_snd (by assumption) ?_
    | split

theorem State.placeWrite_sound (s : State) (die : Nat) (p : Place) (bs : List Byte) (h_s : s.Sound) :
    (State.placeWrite s die p bs).2.Sound := by
  unfold State.placeWrite
  repeat' first
    | with_reducible assumption
    | with_reducible refine State.hwrite_sound _ _ _ _ ?_
    | with_reducible refine State.swrite_sound _ _ _ _ ?_
    | with_reducible refine State.dieWrite_sound _ _ _ _ ?_
    | split

theorem State.writeDsPart_sound (s : State) (die : Nat) (data : Word) (h_s : s.Sound) :
    (State.writeDsPart s die data).2.Sound := by
  unfold State.writeDsPart
  repeat' first
    | with_reducible assumption
    | with_reducible refine State.setFld_sound _ _ _ _ ?_
    | with_reducible refine State.dropCopies_sound _ _ _ _ ?_
    | with_reducible refine State.freeBytes_sound _ _ ?_
    | with_reducible refine State.swrite_sound _ _ _ _ ?_
    | (lift_lets; intro s1; clear_value s1)
    | dsimp only [Out.at]
    | split

theorem State.writeCwin_sound (s : State) (die : Nat) (w : Nat) (ctl : Bool) (data : Word) (h_s : s.Sound) :
    (State.writeCwin s die w ctl data).2.Sound := by
  unfold State.writeCwin
  repeat' first
    | with_reducible assumption
    | with_reducible refine State.setFld_sound _ _ _ _ ?_
    | with_reducible refine State.dropCopies_sound _ _ _ _ ?_
    | (lift_lets; intro s1; clear_value s1)
    | dsimp only [Out.at]
    | split

theorem State.writeAwin_sound (s : State) (k : Nat) (w : Nat) (ctl : Bool) (data : Word) (h_s : s.Sound) :
    (State.writeAwin s k w ctl data).2.Sound := by
  unfold State.writeAwin
  repeat' first
    | with_reducible assumption
    | with_reducible refine State.setReg_sound _ _ _ ?_
    | with_reducible refine State.setFld_sound _ _ _ _ ?_
    | (lift_lets; intro s1; clear_value s1)
    | dsimp only [Out.at]
    | split

theorem State.startRetrain_sound (s : State) (k : Nat) (h_s : s.Sound) :
    (State.startRetrain s k).Sound := by
  unfold State.startRetrain
  repeat' first
    | with_reducible assumption
    | with_reducible refine State.setFld_sound _ _ _ _ ?_
    | with_reducible refine State.healthAdd_sound _ _ _ ?_
    | with_reducible refine State.lifeAdd_sound _ _ _ ?_
    | with_reducible refine State.count_sound _ _ _ _ ?_
    | with_reducible refine State.logAt_sound _ _ _ _ _ _ _ ?_

theorem State.writeLinkCtl_sound (s : State) (k : Nat) (data : Word) (h_s : s.Sound) :
    (State.writeLinkCtl s k data).2.Sound := by
  unfold State.writeLinkCtl
  repeat' first
    | with_reducible assumption
    | with_reducible refine State.startRetrain_sound _ _ ?_
    | split

theorem State.trainStack_sound (s : State) (k : Nat) (failing : List Nat) (h_s : s.Sound) :
    (State.trainStack s k failing).Sound := by
  unfold State.trainStack
  repeat' first
    | with_reducible assumption
    | with_reducible refine sound_ite ?_ ?_
    | with_reducible refine State.setFld_sound _ _ _ _ ?_
    | with_reducible refine State.logAt_sound _ _ _ _ _ _ _ ?_

theorem execDsPartWrite_sound (die : Nat) (data : Word) (s : State) (h_s : s.Sound) :
    NextSound (execDsPartWrite die data s) := by
  unfold execDsPartWrite
  repeat' first
    | with_reducible assumption
    | with_reducible refine onUnit_sound _ _ ?_
    | with_reducible refine State.writeDsPart_sound _ _ _ ?_
    | with_reducible refine State.completed_sound _ _ _ ?_

theorem execCacheWindowWrite_sound (die : Nat) (w : Nat) (ctl : Bool) (data : Word) (s : State) (h_s : s.Sound) :
    NextSound (execCacheWindowWrite die w ctl data s) := by
  unfold execCacheWindowWrite
  repeat' first
    | with_reducible assumption
    | with_reducible refine onUnit_sound _ _ ?_
    | with_reducible refine State.writeCwin_sound _ _ _ _ _ ?_
    | with_reducible refine State.completed_sound _ _ _ ?_

theorem execCacheInvalidateDone_sound (die : Nat) (w : Nat) (s : State) (h_s : s.Sound) :
    NextSound (execCacheInvalidateDone die w s) := by
  unfold execCacheInvalidateDone
  repeat' first
    | with_reducible assumption
    | with_reducible refine onUnit_sound _ _ ?_
    | with_reducible refine State.setFld_sound _ _ _ _ ?_

theorem execStackReadRequest_sound (addr : Nat) (len : Nat) (s : State) (h_s : s.Sound) :
    NextSound (execStackReadRequest addr len s) := by
  unfold execStackReadRequest
  repeat' first
    | with_reducible assumption
    | with_reducible exact nextSound_fault
    | with_reducible refine nextSound_next ?_
    | with_reducible refine ite_keeps NextSound ?_ ?_
    | with_reducible refine State.fabRead_sound _ _ _ ?_
    | (lift_lets; intro s1; refine (fun (h1 : State.Sound s1) => ?_) ?_; clear_value s1; rotate_left; dsimp only [s1]; rotate_left)
    | split
    | (simp only [State.Sound]; with_reducible refine sound_fold ?_; with_reducible assumption)

theorem execStackWriteRequest_sound (addr : Nat) (data : List Byte) (s : State) (h_s : s.Sound) :
    NextSound (execStackWriteRequest addr data s) := by
  unfold execStackWriteRequest
  repeat' first
    | with_reducible assumption
    | with_reducible exact nextSound_fault
    | with_reducible refine nextSound_next ?_
    | with_reducible refine ite_keeps NextSound ?_ ?_
    | with_reducible refine State.fabWrite_sound _ _ _ ?_
    | (lift_lets; intro s1; refine (fun (h1 : State.Sound s1) => ?_) ?_; clear_value s1; rotate_left; dsimp only [s1]; rotate_left)
    | (simp only [State.Sound]; with_reducible refine sound_fold ?_; with_reducible assumption)

theorem State.scrubWord_sound (s : State) (k : Nat) (p : Nat × Nat) (h_s : s.Sound) :
    (State.scrubWord s k p).Sound := by
  unfold State.scrubWord
  repeat' first
    | with_reducible assumption
    | with_reducible refine sound_ite ?_ ?_
    | with_reducible refine State.checkGranule_sound _ _ _ _ ?_

theorem execScrub_sound (stack : Nat) (s : State) (h_s : s.Sound) :
    NextSound (execScrub stack s) := by
  unfold execScrub
  repeat' first
    | with_reducible assumption
    | with_reducible refine sound_foldl (fun s a h => ?_) ?_
    | with_reducible refine onUnit_sound _ _ ?_
    | with_reducible refine State.scrubWord_sound _ _ _ ?_

theorem execStackRetrain_sound (stack : Nat) (byWrite : Bool) (s : State) (h_s : s.Sound) :
    NextSound (execStackRetrain stack byWrite s) := by
  unfold execStackRetrain
  repeat' first
    | with_reducible assumption
    | with_reducible refine sound_ite ?_ ?_
    | with_reducible refine onUnit_sound _ _ ?_
    | with_reducible refine State.writeLinkCtl_sound _ _ _ ?_
    | with_reducible refine State.completed_sound _ _ _ ?_
    | with_reducible refine State.startRetrain_sound _ _ ?_

theorem execStackRetrainDone_sound (stack : Nat) (failing : List Nat) (s : State) (h_s : s.Sound) :
    NextSound (execStackRetrainDone stack failing s) := by
  unfold execStackRetrainDone
  repeat' first
    | with_reducible assumption
    | with_reducible refine sound_ite ?_ ?_
    | with_reducible refine onUnit_sound _ _ ?_
    | with_reducible refine State.trainStack_sound _ _ _ ?_

end Sys2Proof.Machine
end

