-- ==== Sys2Proof/Laws/SoundGrate.lean ====
section
/-! SUPPORT. That the definitions of Machine/Grate.lean keep a state sound. -/
namespace Sys2Proof.Machine

theorem State.setBuffer_sound (s : State) (p : Pool) (i : Nat) (b : BufRec) (h_s : s.Sound) :
    (State.setBuffer s p i b).Sound := by
  unfold State.setBuffer
  repeat' first
    | (simp only [State.Sound]; with_reducible refine sound_fold ?_; with_reducible assumption)

theorem State.grant_sound (s : State) (p : Pool) (owner : Nat) (h_s : s.Sound) :
    (State.grant s p owner).2.Sound := by
  unfold State.grant
  repeat' first
    | with_reducible assumption
    | with_reducible refine State.freeWord_sound _ ?_
    | with_reducible refine State.setBuffer_sound _ _ _ _ ?_
    | with_reducible refine State.freeBytes_sound _ _ ?_
    | with_reducible refine State.hwrite_sound _ _ _ _ ?_
    | with_reducible refine State.swrite_sound _ _ _ _ ?_
    | with_reducible refine State.fwrite_sound _ _ _ ?_
    | dsimp only [Out.at]
    | split

theorem State.grantMany_sound (s : State) (p : Pool) (owner : Nat) (a_3 : Nat) (h_s : s.Sound) :
    (State.grantMany s p owner a_3).2.Sound := by
  induction a_3 generalizing s with
  | zero => exact h_s
  | succ n ih =>
    unfold State.grantMany
    split
    · dsimp only
      exact ih _ (State.grant_sound _ _ _ h_s)
    · exact h_s

theorem State.overflow_sound (s : State) (p : Pool) (h_s : s.Sound) :
    (State.overflow s p).Sound := by
  unfold State.overflow
  repeat' first
    | with_reducible assumption
    | with_reducible refine State.count_sound _ _ _ _ ?_
    | with_reducible refine State.flag_sound _ _ _ ?_
    | split

theorem State.chainTake_sound (s : State) (owner : Nat) (a_2 : List Pool) (a_3 : Nat) (h_s : s.Sound) :
    (State.chainTake s owner a_2 a_3).2.2.Sound := by
  induction a_2 generalizing s a_3 with
  | nil => exact h_s
  | cons p ps ih =>
    unfold State.chainTake
    split
    · exact h_s
    · dsimp only
      exact ih _ _ (State.grantMany_sound _ _ _ _ h_s)

theorem State.request_sound (s : State) (owner : Nat) (chain : List Pool) (n : Nat) (flagged : Bool) (h_s : s.Sound) :
    (State.request s owner chain n flagged).2.Sound := by
  unfold State.request
  repeat' first
    | with_reducible assumption
    | with_reducible refine sound_ite ?_ ?_
    | with_reducible refine sound_foldl (fun s a h => ?_) ?_
    | with_reducible refine State.chainTake_sound _ _ _ _ ?_
    | with_reducible refine State.overflow_sound _ _ ?_
    | dsimp only [Out.at]
    | split

theorem State.refused_sound (s : State) (r : RegionId) (h_s : s.Sound) :
    (State.refused s r).Sound := by
  unfold State.refused
  repeat' first
    | with_reducible assumption
    | with_reducible refine State.logAt_sound _ _ _ _ _ _ _ ?_
    | with_reducible refine State.count_sound _ _ _ _ ?_
    | with_reducible refine State.flag_sound _ _ _ ?_

theorem State.removeOwner_sound (s : State) (p : Pool) (i : Nat) (owner : Nat) (h_s : s.Sound) :
    (State.removeOwner s p i owner).Sound := by
  unfold State.removeOwner
  repeat' first
    | with_reducible assumption
    | with_reducible refine sound_ite ?_ ?_
    | with_reducible refine State.setBuffer_sound _ _ _ _ ?_

theorem State.badFree_sound (s : State) (p : Pool) (locator : Nat) (c : CoreId) (code : Nat) (h_s : s.Sound) :
    (State.badFree s p locator c code).Sound := by
  unfold State.badFree
  repeat' first
    | with_reducible assumption
    | with_reducible refine State.count_sound _ _ _ _ ?_
    | with_reducible refine State.flag_sound _ _ _ ?_
    | with_reducible refine State.logAt_sound _ _ _ _ _ _ _ ?_
    | (lift_lets; intro s1; refine (fun (h1 : State.Sound s1) => ?_) ?_; clear_value s1; rotate_left; dsimp only [s1]; rotate_left)
    | split

theorem State.dropBuffer_sound (s : State) (locator : Nat) (owner : Nat) (h_s : s.Sound) :
    (State.dropBuffer s locator owner).Sound := by
  unfold State.dropBuffer
  repeat' first
    | with_reducible assumption
    | with_reducible refine State.removeOwner_sound _ _ _ _ ?_
    | split

theorem State.withdraw_sound (s : State) (p : Pool) (i : Nat) (h_s : s.Sound) :
    (State.withdraw s p i).Sound := by
  unfold State.withdraw
  repeat' first
    | with_reducible assumption
    | with_reducible refine State.setBuffer_sound _ _ _ _ ?_
    | with_reducible refine State.logAt_sound _ _ _ _ _ _ _ ?_
    | (lift_lets; intro s1; clear_value s1)
    | dsimp only [Out.at]
    | split

theorem State.storeList_sound (s : State) (c : CoreId) (a : Nat) (ls : List Nat) (h_s : s.Sound) :
    (State.storeList s c a ls).Sound := by
  unfold State.storeList
  repeat' first
    | with_reducible assumption
    | with_reducible refine State.hwrite_sound _ _ _ _ ?_

theorem allocOp_sound (x : Ctx) (s : State) (h_s : s.Sound) :
    (allocOp x s).Sound := by
  unfold allocOp
  repeat' first
    | with_reducible assumption
    | with_reducible exact res_reject
    | with_reducible refine res_refuse ?_
    | with_reducible refine res_ok ?_
    | with_reducible refine ite_keeps Res.Sound ?_ ?_
    | with_reducible refine State.request_sound _ _ _ _ _ ?_
    | with_reducible refine State.storeList_sound _ _ _ _ ?_
    | with_reducible refine State.setRegion_sound _ _ _ ?_
    | with_reducible refine State.refused_sound _ _ ?_
    | (lift_lets; intro s1; clear_value s1)
    | with_reducible refine sound_of_snd (by assumption) ?_
    | dsimp only [Out.at]
    | split
    | with_reducible refine out_fold ?_

theorem State.grateApply_sound (s : State) (c : CoreId) (op : GrateOp) (ctx : Nat) (owner : Nat) (l : Nat) (h_s : s.Sound) :
    (State.grateApply s c op ctx owner l).Sound := by
  unfold State.grateApply
  repeat' first
    | with_reducible assumption
    | with_reducible refine State.removeOwner_sound _ _ _ _ ?_
    | with_reducible refine State.setBuffer_sound _ _ _ _ ?_
    | dsimp only [Out.at]
    | split

theorem ownersOp_sound (op : GrateOp) (x : Ctx) (s : State) (h_s : s.Sound) :
    (ownersOp op x s).Sound := by
  unfold ownersOp
  repeat' first
    | with_reducible assumption
    | with_reducible exact res_reject
    | with_reducible refine res_refuse ?_
    | with_reducible refine res_ok ?_
    | with_reducible refine ite_keeps Res.Sound ?_ ?_
    | with_reducible refine sound_foldl (fun s a h => ?_) ?_
    | with_reducible refine withReads_sound _ _ _ _ _ _ ?_ ?_
    | with_reducible refine State.badFree_sound _ _ _ _ _ ?_
    | with_reducible refine State.grateApply_sound _ _ _ _ _ _ ?_
    | dsimp only [Out.at]
    | split
    | with_reducible refine out_fold ?_
    | with_reducible intro s

theorem grateSpec_sound (op : Nat) (used : List (Nat × Nat)) (wait : Bool) (body : Ctx → State → Res) (h_body : ∀ x0body, ∀ x1body, (x1body.Sound) → (body x0body x1body).Sound) :
    (grateSpec op used wait body).Sound := by
  intro x s hs
  dsimp only [grateSpec]
  repeat' first
    | with_reducible assumption
    | with_reducible refine h_body _ _ ?_

theorem execAlloc_sound (c : CoreId) (s : State) (h_s : s.Sound) :
    NextSound (execAlloc c s) := by
  unfold execAlloc
  repeat' first
    | with_reducible assumption
    | with_reducible refine runOp_sound _ _ _ _ ?_ ?_
    | with_reducible refine grateSpec_sound _ _ _ _ ?_
    | with_reducible refine allocOp_sound _ _ ?_
    | with_reducible intro s

theorem execFree_sound (c : CoreId) (s : State) (h_s : s.Sound) :
    NextSound (execFree c s) := by
  unfold execFree
  repeat' first
    | with_reducible assumption
    | with_reducible refine runOp_sound _ _ _ _ ?_ ?_
    | with_reducible refine grateSpec_sound _ _ _ _ ?_
    | with_reducible refine ownersOp_sound _ _ _ ?_
    | with_reducible intro s

theorem execShare_sound (c : CoreId) (s : State) (h_s : s.Sound) :
    NextSound (execShare c s) := by
  unfold execShare
  repeat' first
    | with_reducible assumption
    | with_reducible refine runOp_sound _ _ _ _ ?_ ?_
    | with_reducible refine grateSpec_sound _ _ _ _ ?_
    | with_reducible refine ownersOp_sound _ _ _ ?_
    | with_reducible intro s

theorem execGive_sound (c : CoreId) (s : State) (h_s : s.Sound) :
    NextSound (execGive c s) := by
  unfold execGive
  repeat' first
    | with_reducible assumption
    | with_reducible refine runOp_sound _ _ _ _ ?_ ?_
    | with_reducible refine grateSpec_sound _ _ _ _ ?_
    | with_reducible refine ownersOp_sound _ _ _ ?_
    | with_reducible intro s

theorem State.resolveWait_sound (s : State) (c : CoreId) (pc : Nat) (f : Inflight → Inflight) (h_s : s.Sound) :
    (State.resolveWait s c pc f).Sound := by
  unfold State.resolveWait
  repeat' first
    | with_reducible assumption
    | with_reducible refine State.setEng_sound _ _ _ _ ?_

theorem State.serveWait_sound (s : State) (r : RegionId) (a_2 : List AllocWait) (h_s : s.Sound) :
    OptSat (fun y25 => y25.2.2.Sound) (State.serveWait s r a_2) := by
  induction a_2 with
  | nil => exact optSat_none
  | cons e rest ih =>
    unfold State.serveWait
    split
    · rename_i heq
      exact optSat_some (sound_of_snd heq (State.request_sound _ _ _ _ _ h_s))
    · exact ih

theorem execAllocWaitGrant_sound (r : RegionId) (s : State) (h_s : s.Sound) :
    NextSound (execAllocWaitGrant r s) := by
  unfold execAllocWaitGrant
  repeat' first
    | with_reducible assumption
    | with_reducible refine onUnit_sound _ _ ?_
    | with_reducible refine State.serveWait_sound _ _ _ ?_
    | with_reducible refine State.setRegion_sound _ _ _ ?_
    | with_reducible refine State.storeList_sound _ _ _ _ ?_
    | with_reducible refine State.count_sound _ _ _ _ ?_
    | with_reducible refine State.resolveWait_sound _ _ _ _ ?_
    | with_reducible refine sound_of_some_third (by assumption) ?_
    | dsimp only [Out.at]
    | split

theorem execAllocWaitTimeout_sound (r : RegionId) (s : State) (h_s : s.Sound) :
    NextSound (execAllocWaitTimeout r s) := by
  unfold execAllocWaitTimeout
  repeat' first
    | with_reducible assumption
    | with_reducible refine onUnit_sound _ _ ?_
    | with_reducible refine State.setRegion_sound _ _ _ ?_
    | with_reducible refine State.at_sound _ _ ?_
    | with_reducible refine State.resolveWait_sound _ _ _ _ ?_
    | with_reducible refine State.refused_sound _ _ ?_
    | (lift_lets; intro s1; clear_value s1)
    | dsimp only [Out.at]
    | split

theorem State.writeReclaim_sound (s : State) (sp : PoolSpace) (data : Word) (h_s : s.Sound) :
    (State.writeReclaim s sp data).2.Sound := by
  unfold State.writeReclaim
  repeat' first
    | with_reducible assumption
    | with_reducible refine sound_ite ?_ ?_
    | with_reducible refine sound_foldl (fun s a h => ?_) ?_
    | with_reducible refine State.removeOwner_sound _ _ _ _ ?_
    | with_reducible refine State.setFld_sound _ _ _ _ ?_
    | (lift_lets; intro s1; clear_value s1)
    | dsimp only [Out.at]
    | split

theorem execReclaim_sound (sp : PoolSpace) (owner : Nat) (s : State) (h_s : s.Sound) :
    NextSound (execReclaim sp owner s) := by
  unfold execReclaim
  repeat' first
    | with_reducible assumption
    | with_reducible refine onUnit_sound _ _ ?_
    | with_reducible refine State.writeReclaim_sound _ _ _ ?_
    | with_reducible refine State.completed_sound _ _ _ ?_

theorem execReclaimDone_sound (sp : PoolSpace) (s : State) (h_s : s.Sound) :
    NextSound (execReclaimDone sp s) := by
  unfold execReclaimDone
  repeat' first
    | with_reducible assumption
    | with_reducible refine onUnit_sound _ _ ?_
    | with_reducible refine State.setFld_sound _ _ _ _ ?_

theorem State.writePool_sound (s : State) (p : Pool) (data : Word) (h_s : s.Sound) :
    (State.writePool s p data).2.Sound := by
  unfold State.writePool
  repeat' first
    | with_reducible assumption
    | with_reducible refine State.setReg_sound _ _ _ ?_
    | (lift_lets; intro s1; clear_value s1)
    | dsimp only [Out.at]
    | split
    | (simp only [State.Sound]; with_reducible refine sound_fold ?_; with_reducible refine State.setReg_sound _ _ _ ?_)

theorem State.writeOwner_sound (s : State) (p : Pool) (e : Nat) (data : Word) (h_s : s.Sound) :
    (State.writeOwner s p e data).2.Sound := by
  unfold State.writeOwner
  repeat' first
    | with_reducible assumption
    | with_reducible refine State.setReg_sound _ _ _ ?_
    | (lift_lets; intro s1; clear_value s1)
    | dsimp only [Out.at]
    | split

end Sys2Proof.Machine
end

