-- ==== Sys2Proof/Laws/SoundDamper.lean ====
section
/-! SUPPORT. That the definitions of Machine/Damper.lean keep a state sound. -/
namespace Sys2Proof.Machine

theorem State.setTokens_sound (s : State) (a : Nat) (v : Int) (h_s : s.Sound) :
    (State.setTokens s a v).Sound := by
  unfold State.setTokens
  repeat' first
    | with_reducible assumption
    | with_reducible refine State.setFld_sound _ _ _ _ ?_

theorem State.takeTokens_sound (s : State) (d : Nat) (cells : Nat) (h_s : s.Sound) :
    (State.takeTokens s d cells).Sound := by
  unfold State.takeTokens
  repeat' first
    | with_reducible assumption
    | with_reducible refine sound_ite ?_ ?_
    | with_reducible refine State.setTokens_sound _ _ _ ?_
    | (lift_lets; intro s1; refine (fun (h1 : State.Sound s1) => ?_) ?_; clear_value s1; rotate_left; dsimp only [s1]; rotate_left)
    | split

theorem State.atAlm_sound (s : State) (t : Nat) (h_s : s.Sound) :
    (State.atAlm s t).Sound := by
  unfold State.atAlm
  repeat' first
    | with_reducible assumption
    | with_reducible refine State.at_sound _ _ ?_

theorem execDamperRefill_sound (level : Nat) (d : Nat) (s : State) (h_s : s.Sound) :
    NextSound (execDamperRefill level d s) := by
  unfold execDamperRefill
  repeat' first
    | with_reducible assumption
    | with_reducible refine onUnit_sound _ _ ?_
    | with_reducible refine State.setTokens_sound _ _ _ ?_
    | split
    | (simp only [State.Sound]; with_reducible refine sound_fold ?_; with_reducible refine State.atAlm_sound _ _ ?_)

theorem State.writeL0_sound (s : State) (d : Nat) (w : Word) (h_s : s.Sound) :
    (State.writeL0 s d w).2.Sound := by
  unfold State.writeL0
  repeat' first
    | with_reducible assumption
    | with_reducible refine State.setReg_sound _ _ _ ?_
    | with_reducible refine State.setTokens_sound _ _ _ ?_
    | (lift_lets; intro s1; clear_value s1)
    | dsimp only [Out.at]
    | split
    | (simp only [State.Sound]; with_reducible refine sound_fold ?_; with_reducible refine State.setReg_sound _ _ _ ?_)

theorem State.writeL0Tok_sound (s : State) (d : Nat) (w : Word) (h_s : s.Sound) :
    (State.writeL0Tok s d w).2.Sound := by
  unfold State.writeL0Tok
  repeat' first
    | with_reducible assumption
    | with_reducible refine State.setFld_sound _ _ _ _ ?_
    | (lift_lets; intro s1; clear_value s1)
    | split

theorem State.writeL1_sound (s : State) (d : Nat) (w : Word) (h_s : s.Sound) :
    (State.writeL1 s d w).2.Sound := by
  unfold State.writeL1
  repeat' first
    | with_reducible assumption
    | with_reducible refine State.setTokens_sound _ _ _ ?_
    | with_reducible refine State.setReg_sound _ _ _ ?_
    | (lift_lets; intro s1; clear_value s1)
    | dsimp only [Out.at]
    | split

theorem State.writeGateCfg_sound (s : State) (g : Nat) (w : Word) (h_s : s.Sound) :
    (State.writeGateCfg s g w).2.Sound := by
  unfold State.writeGateCfg
  repeat' first
    | with_reducible assumption
    | with_reducible refine State.setReg_sound _ _ _ ?_
    | (lift_lets; intro s1; clear_value s1)
    | dsimp only [Out.at]
    | split

theorem State.writeGateWin_sound (s : State) (g : Nat) (i : Nat) (w : Word) (h_s : s.Sound) :
    (State.writeGateWin s g i w).2.Sound := by
  unfold State.writeGateWin
  repeat' first
    | with_reducible assumption
    | with_reducible refine State.setReg_sound _ _ _ ?_
    | (lift_lets; intro s1; clear_value s1)
    | dsimp only [Out.at]
    | split

theorem State.writeAdmit_sound (s : State) (a : Nat) (w : Word) (h_s : s.Sound) :
    (State.writeAdmit s a w).2.Sound := by
  unfold State.writeAdmit
  repeat' first
    | with_reducible assumption
    | with_reducible refine State.setReg_sound _ _ _ ?_
    | (lift_lets; intro s1; clear_value s1)
    | dsimp only [Out.at]
    | split

theorem State.writeDamper_sound (s : State) (off : Nat) (w : Word) (h_s : s.Sound) :
    (State.writeDamper s off w).2.Sound := by
  unfold State.writeDamper
  repeat' first
    | with_reducible assumption
    | with_reducible refine State.setFld_sound _ _ _ _ ?_
    | with_reducible refine State.writeAdmit_sound _ _ _ ?_
    | with_reducible refine State.writeL1_sound _ _ _ ?_
    | with_reducible refine State.writeL0_sound _ _ _ ?_
    | with_reducible refine State.writeL0Tok_sound _ _ _ ?_
    | with_reducible refine State.writeGateCfg_sound _ _ _ ?_
    | with_reducible refine State.writeGateWin_sound _ _ _ _ ?_
    | (lift_lets; intro s1; clear_value s1)
    | dsimp only [Out.at]
    | split

theorem State.dropBuffers_sound (s : State) (ps : List Flying) (h_s : s.Sound) :
    (State.dropBuffers s ps).Sound := by
  unfold State.dropBuffers
  repeat' first
    | with_reducible assumption
    | with_reducible refine sound_foldl (fun s a h => ?_) ?_
    | with_reducible refine State.dropBuffer_sound _ _ _ ?_
    | split

theorem State.inject_sound (s : State) (owner : Nat) (ps : List Flying) (h_s : s.Sound) :
    (State.inject s owner ps).Sound := by
  unfold State.inject
  repeat' first
    | with_reducible assumption
    | with_reducible refine sound_ite ?_ ?_
    | with_reducible refine sound_foldl (fun s a h => ?_) ?_
    | with_reducible refine State.sendOut_sound _ _ ?_
    | with_reducible refine State.setFld_sound _ _ _ _ ?_
    | with_reducible refine State.takeTokens_sound _ _ _ ?_
    | with_reducible refine State.dropBuffers_sound _ _ ?_
    | (lift_lets; intro s1; clear_value s1)
    | dsimp only [Out.at]
    | split

theorem State.admitRefused_sound (s : State) (h_s : s.Sound) :
    (State.admitRefused s).Sound := by
  unfold State.admitRefused
  repeat' first
    | with_reducible assumption
    | with_reducible refine State.count_sound _ _ _ _ ?_
    | with_reducible refine State.flag_sound _ _ _ ?_

theorem State.tellAdmission_sound (s : State) (w : AdmitWait) (code : Nat) (h_s : s.Sound) :
    (State.tellAdmission s w code).Sound := by
  unfold State.tellAdmission
  repeat' first
    | with_reducible assumption
    | with_reducible refine State.setEng_sound _ _ _ _ ?_
    | (lift_lets; intro s1; clear_value s1)
    | dsimp only [Out.at]
    | split
    | (simp only [State.Sound]; with_reducible refine sound_fold ?_; with_reducible assumption)

theorem State.tryInject_sound (s : State) (owner : Nat) (core : Option CoreId) (pc : Nat) (took : Bool) (ps : List Flying) (h_s : s.Sound) :
    (State.tryInject s owner core pc took ps).2.Sound := by
  unfold State.tryInject
  repeat' first
    | with_reducible assumption
    | with_reducible refine sound_ite ?_ ?_
    | with_reducible refine State.inject_sound _ _ _ ?_
    | with_reducible refine State.admitRefused_sound _ ?_
    | with_reducible refine State.dropBuffers_sound _ _ ?_
    | dsimp only [Out.at]
    | split
    | (simp only [State.Sound]; with_reducible refine sound_fold ?_; with_reducible assumption)

theorem execAdmissionGrant_sound (owner : Nat) (s : State) (h_s : s.Sound) :
    NextSound (execAdmissionGrant owner s) := by
  unfold execAdmissionGrant
  repeat' first
    | with_reducible assumption
    | with_reducible refine nextSound_next ?_
    | with_reducible refine sound_ite ?_ ?_
    | with_reducible refine ite_keeps NextSound ?_ ?_
    | with_reducible refine State.inject_sound _ _ _ ?_
    | with_reducible refine State.count_sound _ _ _ _ ?_
    | with_reducible refine State.tellAdmission_sound _ _ _ ?_
    | (lift_lets; intro s1; clear_value s1)
    | dsimp only [Out.at]
    | split
    | (simp only [State.Sound]; with_reducible refine sound_fold ?_; with_reducible assumption)

theorem execAdmissionTimeout_sound (owner : Nat) (s : State) (h_s : s.Sound) :
    NextSound (execAdmissionTimeout owner s) := by
  unfold execAdmissionTimeout
  repeat' first
    | with_reducible assumption
    | with_reducible refine nextSound_next ?_
    | with_reducible refine sound_ite ?_ ?_
    | with_reducible refine State.dropBuffers_sound _ _ ?_
    | with_reducible refine State.tellAdmission_sound _ _ _ ?_
    | with_reducible refine State.admitRefused_sound _ ?_
    | dsimp only [Out.at]
    | split
    | (simp only [State.Sound]; with_reducible refine sound_fold ?_; with_reducible refine State.at_sound _ _ ?_)

end Sys2Proof.Machine
end

