-- ==== Sys2Proof/Laws/SoundMove.lean ====
section
/-! SUPPORT. That the definitions of Machine/Move.lean keep a state sound. -/
namespace Sys2Proof.Machine

theorem State.readNoting_sound (s : State) (die : Nat) (p : Place) (len : Nat) (h_s : s.Sound) :
    (State.readNoting s die p len).2.Sound := by
  unfold State.readNoting
  repeat' first
    | with_reducible assumption
    | with_reducible refine State.placeRead_sound _ _ _ _ ?_

theorem State.moveRow_sound (s : State) (c : CoreId) (x : Xfer) (p : Place) (r : Nat) (h_s : s.Sound) :
    (State.moveRow s c x p r).2.Sound := by
  unfold State.moveRow
  repeat' first
    | with_reducible assumption
    | with_reducible refine State.readNoting_sound _ _ _ _ ?_
    | with_reducible refine State.placeWrite_sound _ _ _ _ ?_
    | (lift_lets; intro s1; clear_value s1)
    | dsimp only [Out.at]
    | split

theorem State.moveRows_sound (s : State) (c : CoreId) (x : Xfer) (p : Place) (h_s : s.Sound) :
    (State.moveRows s c x p).2.Sound := by
  unfold State.moveRows
  repeat' first
    | with_reducible assumption
    | with_reducible refine sound_foldl_snd (fun p a h => ?_) ?_
    | with_reducible refine State.moveRow_sound _ _ _ _ _ ?_

theorem State.transfer_sound (s : State) (c : CoreId) (x : Xfer) (p : Place) (h_s : s.Sound) :
    (State.transfer s c x p).2.Sound := by
  unfold State.transfer
  repeat' first
    | with_reducible assumption
    | with_reducible refine sound_ite ?_ ?_
    | with_reducible refine State.moveRows_sound _ _ _ _ ?_
    | with_reducible refine State.bump_sound _ _ _ _ ?_
    | split
    | (simp only [State.Sound]; with_reducible refine sound_fold ?_; with_reducible refine State.bump_sound _ _ _ _ ?_)

theorem State.setLocator_sound (s : State) (c : CoreId) (r : Nat) (l : Locator) (h_s : s.Sound) :
    (State.setLocator s c r l).Sound := by
  unfold State.setLocator
  repeat' first
    | with_reducible assumption
    | with_reducible refine State.setCore_sound _ _ _ ?_

theorem State.incLocator_sound (s : State) (x : Ctx) (rows : Nat) (h_s : s.Sound) :
    (State.incLocator s x rows).Sound := by
  unfold State.incLocator
  repeat' first
    | with_reducible assumption
    | with_reducible refine sound_ite ?_ ?_
    | with_reducible refine State.setLocator_sound _ _ _ _ ?_

theorem placeXfer_sound (x : Ctx) (m : Xfer) (p : Place) (s : State) (h_s : s.Sound) :
    (placeXfer x m p s).Sound := by
  unfold placeXfer
  repeat' first
    | with_reducible assumption
    | with_reducible exact res_reject
    | with_reducible refine res_ok ?_
    | with_reducible refine ite_keeps Res.Sound ?_ ?_
    | with_reducible refine State.incLocator_sound _ _ _ ?_
    | with_reducible refine State.transfer_sound _ _ _ _ ?_
    | (lift_lets; intro s1; refine (fun (h1 : State.Sound s1) => ?_) ?_; clear_value s1; rotate_left; dsimp only [s1]; rotate_left)
    | dsimp only [Out.at]
    | split
    | with_reducible refine out_fold ?_

theorem State.setQueue_sound (s : State) (c : CoreId) (q : Nat) (ps : List RxPacket) (h_s : s.Sound) :
    (State.setQueue s c q ps).Sound := by
  unfold State.setQueue
  repeat' first
    | with_reducible assumption
    | with_reducible refine State.setCore_sound _ _ _ ?_

theorem injectOut_sound (x : Ctx) (s : State) (took : Bool) (code : Nat) (ps : List Flying) (t : Nat) (h_s : s.Sound) :
    (injectOut x s took code ps t).Sound := by
  unfold injectOut
  repeat' first
    | with_reducible assumption
    | with_reducible refine res_refuse ?_
    | with_reducible refine res_ok ?_
    | with_reducible refine ite_keeps Res.Sound ?_ ?_
    | with_reducible refine State.tryInject_sound _ _ _ _ _ _ ?_
    | with_reducible refine sound_of_snd (by assumption) ?_
    | dsimp only [Out.at]
    | split
    | with_reducible refine out_fold ?_

theorem putQueue_sound (x : Ctx) (m : Xfer) (s : State) (h_s : s.Sound) :
    (putQueue x m s).Sound := by
  unfold putQueue
  repeat' first
    | with_reducible assumption
    | with_reducible exact res_reject
    | with_reducible refine res_refuse ?_
    | with_reducible refine res_ok ?_
    | with_reducible refine ite_keeps Res.Sound ?_ ?_
    | with_reducible refine sound_foldl_snd (fun p a h => ?_) ?_
    | with_reducible refine State.request_sound _ _ _ _ _ ?_
    | with_reducible refine State.refused_sound _ _ ?_
    | with_reducible refine withReads_sound _ _ _ _ _ _ ?_ ?_
    | with_reducible refine State.placeWrite_sound _ _ _ _ ?_
    | with_reducible refine State.bump_sound _ _ _ _ ?_
    | with_reducible refine injectOut_sound _ _ _ _ _ _ ?_
    | (lift_lets; intro s1; clear_value s1)
    | with_reducible refine sound_of_snd (by assumption) ?_
    | dsimp only [Out.at]
    | split
    | with_reducible refine out_fold ?_
    | with_reducible intro s

theorem State.freePacket_sound (s : State) (c : CoreId) (p : RxPacket) (h_s : s.Sound) :
    (State.freePacket s c p).Sound := by
  unfold State.freePacket
  repeat' first
    | with_reducible assumption
    | with_reducible refine State.dropBuffer_sound _ _ _ ?_

theorem getQueue_sound (x : Ctx) (m : Xfer) (s : State) (h_s : s.Sound) :
    (getQueue x m s).Sound := by
  unfold getQueue
  repeat' first
    | with_reducible assumption
    | with_reducible exact res_reject
    | with_reducible refine res_ok ?_
    | with_reducible refine sound_ite ?_ ?_
    | with_reducible refine ite_keeps Res.Sound ?_ ?_
    | with_reducible refine sound_foldl_snd (fun p a h => ?_) ?_
    | with_reducible refine State.setQueue_sound _ _ _ _ ?_
    | with_reducible refine State.hwrite_sound _ _ _ _ ?_
    | with_reducible refine State.readNoting_sound _ _ _ _ ?_
    | with_reducible refine State.bump_sound _ _ _ _ ?_
    | with_reducible refine State.freePacket_sound _ _ _ ?_
    | (lift_lets; intro s1; clear_value s1)
    | dsimp only [Out.at]
    | split
    | with_reducible refine out_fold ?_

theorem moveOp_sound (put : Bool) (x : Ctx) (s : State) (h_s : s.Sound) :
    (moveOp put x s).Sound := by
  unfold moveOp
  repeat' first
    | with_reducible assumption
    | with_reducible exact res_reject
    | with_reducible refine ite_keeps Res.Sound ?_ ?_
    | with_reducible refine putQueue_sound _ _ _ ?_
    | with_reducible refine getQueue_sound _ _ _ ?_
    | with_reducible refine placeXfer_sound _ _ _ _ ?_
    | split

theorem setlocOp_sound (x : Ctx) (s : State) (h_s : s.Sound) :
    (setlocOp x s).Sound := by
  unfold setlocOp
  repeat' first
    | with_reducible assumption
    | with_reducible exact res_reject
    | with_reducible refine res_ok ?_
    | with_reducible refine ite_keeps Res.Sound ?_ ?_
    | with_reducible refine withReads_sound _ _ _ _ _ _ ?_ ?_
    | with_reducible refine State.setLocator_sound _ _ _ _ ?_
    | dsimp only [Out.at]
    | split
    | with_reducible refine out_fold ?_
    | with_reducible intro s

theorem qsendOp_sound (x : Ctx) (s : State) (h_s : s.Sound) :
    (qsendOp x s).Sound := by
  unfold qsendOp
  repeat' first
    | with_reducible assumption
    | with_reducible exact res_reject
    | with_reducible refine res_refuse ?_
    | with_reducible refine res_ok ?_
    | with_reducible refine ite_keeps Res.Sound ?_ ?_
    | with_reducible refine withReads_sound _ _ _ _ _ _ ?_ ?_
    | with_reducible refine State.readNoting_sound _ _ _ _ ?_
    | with_reducible refine injectOut_sound _ _ _ _ _ _ ?_
    | dsimp only [Out.at]
    | split
    | with_reducible refine out_fold ?_
    | with_reducible intro s

theorem qrecvOp_sound (x : Ctx) (s : State) (h_s : s.Sound) :
    (qrecvOp x s).Sound := by
  unfold qrecvOp
  repeat' first
    | with_reducible assumption
    | with_reducible exact res_reject
    | with_reducible refine res_ok ?_
    | with_reducible refine State.setQueue_sound _ _ _ _ ?_
    | with_reducible refine State.hwrite_sound _ _ _ _ ?_
    | (lift_lets; intro s1; clear_value s1)
    | dsimp only [Out.at]
    | split
    | with_reducible refine out_fold ?_

theorem qdropOp_sound (x : Ctx) (s : State) (h_s : s.Sound) :
    (qdropOp x s).Sound := by
  unfold qdropOp
  repeat' first
    | with_reducible assumption
    | with_reducible exact res_reject
    | with_reducible refine res_ok ?_
    | with_reducible refine ite_keeps Res.Sound ?_ ?_
    | with_reducible refine sound_foldl (fun s a h => ?_) ?_
    | with_reducible refine Out.at_sound _ _ ?_
    | with_reducible refine State.freePacket_sound _ _ _ ?_
    | with_reducible refine State.setQueue_sound _ _ _ _ ?_

theorem moveSpec_sound (op : Nat) (used : List (Nat × Nat)) (top : Nat) (body : Ctx → State → Res) (h_body : ∀ x0body, ∀ x1body, (x1body.Sound) → (body x0body x1body).Sound) :
    (moveSpec op used top body).Sound := by
  intro x s hs
  dsimp only [moveSpec]
  repeat' first
    | with_reducible assumption
    | with_reducible refine h_body _ _ ?_

theorem execGet_sound (c : CoreId) (s : State) (h_s : s.Sound) :
    NextSound (execGet c s) := by
  unfold execGet
  repeat' first
    | with_reducible assumption
    | with_reducible refine runOp_sound _ _ _ _ ?_ ?_
    | with_reducible refine moveSpec_sound _ _ _ _ ?_
    | with_reducible refine moveOp_sound _ _ _ ?_
    | with_reducible intro s

theorem execPut_sound (c : CoreId) (s : State) (h_s : s.Sound) :
    NextSound (execPut c s) := by
  unfold execPut
  repeat' first
    | with_reducible assumption
    | with_reducible refine runOp_sound _ _ _ _ ?_ ?_
    | with_reducible refine moveSpec_sound _ _ _ _ ?_
    | with_reducible refine moveOp_sound _ _ _ ?_
    | with_reducible intro s

theorem execSetloc_sound (c : CoreId) (s : State) (h_s : s.Sound) :
    NextSound (execSetloc c s) := by
  unfold execSetloc
  repeat' first
    | with_reducible assumption
    | with_reducible refine runOp_sound _ _ _ _ ?_ ?_
    | with_reducible refine moveSpec_sound _ _ _ _ ?_
    | with_reducible refine setlocOp_sound _ _ ?_
    | with_reducible intro s

theorem execQsend_sound (c : CoreId) (s : State) (h_s : s.Sound) :
    NextSound (execQsend c s) := by
  unfold execQsend
  repeat' first
    | with_reducible assumption
    | with_reducible refine runOp_sound _ _ _ _ ?_ ?_
    | with_reducible refine moveSpec_sound _ _ _ _ ?_
    | with_reducible refine qsendOp_sound _ _ ?_
    | with_reducible intro s

theorem execQrecv_sound (c : CoreId) (s : State) (h_s : s.Sound) :
    NextSound (execQrecv c s) := by
  unfold execQrecv
  repeat' first
    | with_reducible assumption
    | with_reducible refine runOp_sound _ _ _ _ ?_ ?_
    | with_reducible refine moveSpec_sound _ _ _ _ ?_
    | with_reducible refine qrecvOp_sound _ _ ?_
    | with_reducible intro s

theorem execQdrop_sound (c : CoreId) (s : State) (h_s : s.Sound) :
    NextSound (execQdrop c s) := by
  unfold execQdrop
  repeat' first
    | with_reducible assumption
    | with_reducible refine runOp_sound _ _ _ _ ?_ ?_
    | with_reducible refine moveSpec_sound _ _ _ _ ?_
    | with_reducible refine qdropOp_sound _ _ ?_
    | with_reducible intro s

theorem State.finishMove_sound (s : State) (c : CoreId) (i : Inflight) (h_s : s.Sound) :
    OptSat (fun y24 => y24.2.Sound) (State.finishMove s c i) := by
  unfold State.finishMove
  repeat' first
    | with_reducible assumption
    | with_reducible exact optSat_none
    | with_reducible refine optSat_some ?_
    | with_reducible refine optSat_ite ?_ ?_
    | with_reducible refine State.transfer_sound _ _ _ _ ?_
    | dsimp only [Out.at]
    | split

theorem State.readyHead_sound (s : State) (c : CoreId) (e : Cls) (i : Inflight) (h_s : s.Sound) :
    OptSat (fun y25 => y25.2.Sound) (State.readyHead s c e i) := by
  unfold State.readyHead
  repeat' first
    | with_reducible assumption
    | with_reducible exact optSat_none
    | with_reducible refine optSat_some ?_
    | with_reducible refine optSat_ite ?_ ?_
    | with_reducible refine State.finishMove_sound _ _ _ ?_

theorem execInstructionComplete_sound (c : CoreId) (e : Cls) (s : State) (h_s : s.Sound) :
    NextSound (execInstructionComplete c e s) := by
  unfold execInstructionComplete
  repeat' first
    | with_reducible assumption
    | with_reducible refine sound_ite ?_ ?_
    | with_reducible refine onUnit_sound _ _ ?_
    | with_reducible refine State.readyHead_sound _ _ _ _ ?_
    | with_reducible refine State.meetInject_sound _ _ _ _ ?_
    | with_reducible refine State.setEng_sound _ _ _ _ ?_
    | with_reducible refine State.noteReplay_sound _ _ _ ?_
    | with_reducible refine State.complete_sound _ _ _ _ _ _ ?_
    | (lift_lets; intro s1; clear_value s1)
    | with_reducible refine sound_of_some_snd (by assumption) ?_
    | dsimp only [Out.at]
    | split

theorem execMoveRequestTimeout_sound (c : CoreId) (s : State) (h_s : s.Sound) :
    NextSound (execMoveRequestTimeout c s) := by
  unfold execMoveRequestTimeout
  repeat' first
    | with_reducible assumption
    | with_reducible refine sound_ite ?_ ?_
    | with_reducible refine onUnit_sound _ _ ?_
    | with_reducible refine State.at_sound _ _ ?_
    | with_reducible refine State.count_sound _ _ _ _ ?_
    | with_reducible refine State.flag_sound _ _ _ ?_
    | with_reducible refine State.complete_sound _ _ _ _ _ _ ?_
    | (lift_lets; intro s1; clear_value s1)
    | dsimp only [Out.at]
    | split

theorem State.signalArrival_sound (s : State) (c : CoreId) (cfg : Word) (h_s : s.Sound) :
    OptSat State.Sound (State.signalArrival s c cfg) := by
  unfold State.signalArrival
  repeat' first
    | with_reducible assumption
    | with_reducible exact optSat_none
    | with_reducible refine optSat_some ?_
    | with_reducible refine optSat_ite ?_ ?_
    | with_reducible refine State.logAt_sound _ _ _ _ _ _ _ ?_
    | with_reducible refine State.landSig_sound _ _ _ _ _ _ _ _ _ ?_
    | with_reducible refine State.release_sound _ _ _ ?_
    | (lift_lets; intro s1; clear_value s1)
    | dsimp only [Out.at]
    | split

theorem State.holdPacket_sound (s : State) (f : Flying) (h_s : s.Sound) :
    (State.holdPacket s f).Sound := by
  unfold State.holdPacket
  repeat' first
    | with_reducible assumption
    | with_reducible refine sound_ite ?_ ?_
    | (simp only [State.Sound]; with_reducible refine sound_fold ?_; with_reducible assumption)

theorem State.enterQueue_sound (s : State) (f : Flying) (h_s : s.Sound) :
    (OptSat State.Sound (State.enterQueue s f).1 ∧ (State.enterQueue s f).2.Sound) := by
  unfold State.enterQueue
  repeat' first
    | with_reducible assumption
    | with_reducible exact optSat_none
    | with_reducible refine State.request_sound _ _ _ _ _ ?_
    | with_reducible refine State.placeWrite_sound _ _ _ _ ?_
    | with_reducible refine State.setQueue_sound _ _ _ _ ?_
    | with_reducible refine State.signalArrival_sound _ _ _ ?_
    | with_reducible refine State.refused_sound _ _ ?_
    | (lift_lets; intro s1; clear_value s1)
    | with_reducible refine sound_of_snd (by assumption) ?_
    | dsimp only [Out.at]
    | split
    | with_reducible refine And.intro ?_ ?_

theorem State.arrivalOf_sound (s : State) (p : Packet) (h_s : s.Sound) :
    (State.arrivalOf s p).2.Sound := by
  unfold State.arrivalOf
  repeat' first
    | with_reducible assumption
    | (lift_lets; intro s1; clear_value s1)
    | dsimp only [Out.at]
    | split
    | (simp only [State.Sound]; with_reducible refine sound_fold ?_; with_reducible assumption)

theorem execPacketArrival_sound (p : Packet) (s : State) (h_s : s.Sound) :
    NextSound (execPacketArrival p s) := by
  unfold execPacketArrival
  repeat' first
    | with_reducible assumption
    | with_reducible refine sound_ite ?_ ?_
    | with_reducible refine onUnit_sound _ _ ?_
    | with_reducible refine State.arrivalOf_sound _ _ ?_
    | with_reducible refine State.holdPacket_sound _ _ ?_
    | with_reducible refine (State.enterQueue_sound _ _ ?_).1
    | with_reducible refine (State.enterQueue_sound _ _ ?_).2
    | with_reducible refine State.countRouter_sound _ _ _ _ ?_
    | with_reducible refine State.land_sound _ _ ?_
    | with_reducible refine State.dropBuffer_sound _ _ _ ?_
    | with_reducible refine sound_of_snd (by assumption) ?_
    | with_reducible refine sound_of_fst_some (by assumption) ?_
    | dsimp only [Out.at]
    | split

theorem execRxHoldDrop_sound (c : CoreId) (s : State) (h_s : s.Sound) :
    NextSound (execRxHoldDrop c s) := by
  unfold execRxHoldDrop
  repeat' first
    | with_reducible assumption
    | with_reducible refine onUnit_sound _ _ ?_
    | with_reducible refine State.unadmit_sound _ _ ?_
    | with_reducible refine State.freeCells_sound _ _ ?_
    | with_reducible refine State.dropBuffer_sound _ _ _ ?_
    | with_reducible refine State.count_sound _ _ _ _ ?_
    | with_reducible refine State.flag_sound _ _ _ ?_
    | with_reducible refine State.logAt_sound _ _ _ _ _ _ _ ?_
    | dsimp only [Out.at]
    | split
    | (simp only [State.Sound]; with_reducible refine sound_fold ?_; with_reducible refine State.at_sound _ _ ?_)

end Sys2Proof.Machine
end

