-- ==== Sys2Proof/Laws/SoundLink.lean ====
section
/-! SUPPORT. That the definitions of Machine/Link.lean keep a state sound. -/
namespace Sys2Proof.Machine

theorem State.logPort_sound (s : State) (p : Nat) (details : List Nat) (h_s : s.Sound) :
    (State.logPort s p details).Sound := by
  unfold State.logPort
  repeat' first
    | with_reducible assumption
    | with_reducible refine State.logAt_sound _ _ _ _ _ _ _ ?_

theorem State.follow_sound (s : State) (h_s : s.Sound) :
    (State.follow s).Sound := by
  unfold State.follow
  repeat' first
    | with_reducible assumption
    | with_reducible refine sound_ite ?_ ?_
    | with_reducible refine State.setFld_sound _ _ _ _ ?_
    | (lift_lets; intro s1; refine (fun (h1 : State.Sound s1) => ?_) ?_; clear_value s1; rotate_left; dsimp only [s1]; rotate_left)
    | dsimp only [Out.at]
    | split
    | (simp only [State.Sound]; with_reducible refine sound_fold ?_; first | with_reducible assumption | with_reducible refine State.setFld_sound _ _ _ _ ?_)

theorem State.sendCtrl_sound (s : State) (p : Nat) (body : List Byte) (h_s : s.Sound) :
    (State.sendCtrl s p body).Sound := by
  unfold State.sendCtrl
  repeat' first
    | with_reducible assumption
    | with_reducible refine State.setPort_sound _ _ _ ?_

theorem State.packetGone_sound (s : State) (f : Flying) (h_s : s.Sound) :
    (State.packetGone s f).Sound := by
  unfold State.packetGone
  repeat' first
    | with_reducible assumption
    | with_reducible refine State.unadmit_sound _ _ ?_
    | with_reducible refine State.freeCells_sound _ _ ?_
    | with_reducible refine State.dropBuffer_sound _ _ _ ?_
    | (lift_lets; intro s1; refine (fun (h1 : State.Sound s1) => ?_) ?_; clear_value s1; rotate_left; dsimp only [s1]; rotate_left)
    | split

theorem State.unassign_sound (s : State) (f : Flying) (h_s : s.Sound) :
    (State.unassign s f).Sound := by
  unfold State.unassign
  repeat' first
    | with_reducible assumption
    | with_reducible refine State.setPort_sound _ _ _ ?_
    | (lift_lets; intro s1; clear_value s1)
    | dsimp only [Out.at]
    | split
    | (simp only [State.Sound]; with_reducible refine sound_fold ?_; with_reducible assumption)

theorem State.unassignAll_sound (s : State) (p : Nat) (h_s : s.Sound) :
    (State.unassignAll s p).Sound := by
  unfold State.unassignAll
  repeat' first
    | with_reducible assumption
    | with_reducible refine sound_foldl (fun s a h => ?_) ?_
    | with_reducible refine State.unassign_sound _ _ ?_
    | with_reducible refine State.setPort_sound _ _ _ ?_

theorem State.startTraining_sound (s : State) (p : Nat) (h_s : s.Sound) :
    (State.startTraining s p).Sound := by
  unfold State.startTraining
  repeat' first
    | with_reducible assumption
    | with_reducible refine State.freeWord_sound _ ?_
    | with_reducible refine State.setFld_sound _ _ _ _ ?_
    | with_reducible refine State.setPort_sound _ _ _ ?_

theorem State.afterDown_sound (s : State) (p : Nat) (reason : Nat) (h_s : s.Sound) :
    (State.afterDown s p reason).Sound := by
  unfold State.afterDown
  repeat' first
    | with_reducible assumption
    | with_reducible refine sound_ite ?_ ?_
    | with_reducible refine State.setFld_sound _ _ _ _ ?_
    | with_reducible refine State.startTraining_sound _ _ ?_

theorem State.dropLink_sound (s : State) (p : Nat) (reason : Nat) (keep : Nat) (h_s : s.Sound) :
    (State.dropLink s p reason keep).Sound := by
  unfold State.dropLink
  repeat' first
    | with_reducible assumption
    | with_reducible refine sound_ite ?_ ?_
    | with_reducible refine sound_foldl (fun s a h => ?_) ?_
    | with_reducible refine State.packetGone_sound _ _ ?_
    | with_reducible refine State.setPort_sound _ _ _ ?_
    | with_reducible refine State.count_sound _ _ _ _ ?_
    | with_reducible refine State.unassignAll_sound _ _ ?_
    | with_reducible refine State.setFld_sound _ _ _ _ ?_
    | with_reducible refine State.healthAdd_sound _ _ _ ?_
    | with_reducible refine State.flag_sound _ _ _ ?_
    | with_reducible refine State.logPort_sound _ _ _ ?_
    | with_reducible refine State.endShadow_sound _ _ _ ?_

theorem State.portDown_sound (s : State) (p : Nat) (reason : Nat) (h_s : s.Sound) :
    (State.portDown s p reason).Sound := by
  unfold State.portDown
  repeat' first
    | with_reducible assumption
    | with_reducible refine sound_ite ?_ ?_
    | with_reducible refine State.follow_sound _ ?_
    | with_reducible refine State.afterDown_sound _ _ _ ?_
    | with_reducible refine State.dropLink_sound _ _ _ _ ?_
    | with_reducible refine State.setFld_sound _ _ _ _ ?_

theorem State.softDown_sound (s : State) (p : Nat) (reason : Nat) (h_s : s.Sound) :
    (State.softDown s p reason).Sound := by
  unfold State.softDown
  repeat' first
    | with_reducible assumption
    | with_reducible refine sound_ite ?_ ?_
    | with_reducible refine State.portDown_sound _ _ _ ?_
    | with_reducible refine State.afterDown_sound _ _ _ ?_
    | with_reducible refine State.setFld_sound _ _ _ _ ?_
    | with_reducible refine State.setPort_sound _ _ _ ?_

theorem State.fencePort_sound (s : State) (p : Nat) (h_s : s.Sound) :
    (State.fencePort s p).Sound := by
  unfold State.fencePort
  repeat' first
    | with_reducible assumption
    | with_reducible refine sound_ite ?_ ?_
    | with_reducible refine State.dropLink_sound _ _ _ _ ?_
    | with_reducible refine State.setFld_sound _ _ _ _ ?_
    | with_reducible refine State.sendCtrl_sound _ _ _ ?_
    | with_reducible refine State.freezeRec_sound _ ?_
    | with_reducible refine State.follow_sound _ ?_
    | with_reducible refine State.setPort_sound _ _ _ ?_

theorem State.releasePort_sound (s : State) (p : Nat) (h_s : s.Sound) :
    (State.releasePort s p).Sound := by
  unfold State.releasePort
  repeat' first
    | with_reducible assumption
    | with_reducible refine sound_ite ?_ ?_
    | with_reducible refine State.afterDown_sound _ _ _ ?_
    | with_reducible refine State.setFld_sound _ _ _ _ ?_

theorem State.honour_sound (s : State) (p : Nat) (f : Frame) (h_s : s.Sound) :
    (State.honour s p f).Sound := by
  unfold State.honour
  repeat' first
    | with_reducible assumption
    | with_reducible refine sound_ite ?_ ?_
    | with_reducible refine State.setPort_sound _ _ _ ?_
    | with_reducible refine State.healthAdd_sound _ _ _ ?_
    | with_reducible refine State.count_sound _ _ _ _ ?_

theorem State.hear_sound (s : State) (p : Nat) (f : Frame) (h_s : s.Sound) :
    OptSat State.Sound (State.hear s p f) := by
  unfold State.hear
  repeat' first
    | with_reducible assumption
    | with_reducible exact optSat_none
    | with_reducible refine optSat_some ?_
    | with_reducible refine optSat_ite ?_ ?_
    | with_reducible refine State.honour_sound _ _ _ ?_

theorem State.takeBody_sound (s : State) (p : Nat) (f : Frame) (h_s : s.Sound) :
    (State.takeBody s p f).Sound := by
  unfold State.takeBody
  repeat' first
    | with_reducible assumption
    | with_reducible refine State.setPort_sound _ _ _ ?_
    | with_reducible refine State.bump_sound _ _ _ _ ?_

theorem State.takeFrame_sound (s : State) (p : Nat) (ftype : Nat) (f : Frame) (h_s : s.Sound) :
    (State.takeFrame s p ftype f).Sound := by
  unfold State.takeFrame
  repeat' first
    | with_reducible assumption
    | with_reducible refine sound_ite ?_ ?_
    | with_reducible refine State.hear_sound _ _ _ ?_
    | with_reducible refine State.takeBody_sound _ _ _ ?_
    | with_reducible refine State.setPort_sound _ _ _ ?_
    | with_reducible refine sound_of_some (by assumption) ?_
    | dsimp only [Out.at]
    | split

theorem execDataFrame_sound (port : Nat) (f : Frame) (s : State) (h_s : s.Sound) :
    NextSound (execDataFrame port f s) := by
  unfold execDataFrame
  repeat' first
    | with_reducible assumption
    | with_reducible refine onUnit_sound _ _ ?_
    | with_reducible refine State.takeFrame_sound _ _ _ _ ?_

theorem execReplayFrame_sound (port : Nat) (f : Frame) (s : State) (h_s : s.Sound) :
    NextSound (execReplayFrame port f s) := by
  unfold execReplayFrame
  repeat' first
    | with_reducible assumption
    | with_reducible refine onUnit_sound _ _ ?_
    | with_reducible refine State.takeFrame_sound _ _ _ _ ?_

theorem execIdleFrame_sound (port : Nat) (f : Frame) (s : State) (h_s : s.Sound) :
    NextSound (execIdleFrame port f s) := by
  unfold execIdleFrame
  repeat' first
    | with_reducible assumption
    | with_reducible refine sound_getD ?_ ?_
    | with_reducible refine onUnit_sound _ _ ?_
    | with_reducible refine State.hear_sound _ _ _ ?_

theorem State.hearCtrl_sound (s : State) (p : Nat) (mtype : Nat) (f : Frame) (h_s : s.Sound) :
    OptSat (fun y28 => y28.1.Sound) (State.hearCtrl s p mtype f) := by
  unfold State.hearCtrl
  repeat' first
    | with_reducible assumption
    | with_reducible exact optSat_none
    | with_reducible refine optSat_some ?_
    | with_reducible refine optSat_ite ?_ ?_
    | with_reducible refine State.hear_sound _ _ _ ?_
    | with_reducible refine sound_of_some (by assumption) ?_
    | split

theorem State.heardOnly_sound (s : State) (p : Nat) (f : Frame) (h_s : s.Sound) :
    (State.heardOnly s p f).Sound := by
  unfold State.heardOnly
  repeat' first
    | with_reducible assumption
    | with_reducible refine sound_getD ?_ ?_
    | with_reducible refine State.hear_sound _ _ _ ?_

theorem execDown_sound (port : Nat) (f : Frame) (s : State) (h_s : s.Sound) :
    NextSound (execDown port f s) := by
  unfold execDown
  repeat' first
    | with_reducible assumption
    | with_reducible refine onUnit_sound _ _ ?_
    | with_reducible refine State.hearCtrl_sound _ _ _ _ ?_
    | with_reducible refine State.portDown_sound _ _ _ ?_
    | with_reducible refine State.heardOnly_sound _ _ _ ?_
    | with_reducible refine sound_of_some_fst (by assumption) ?_
    | split

theorem execBadFrame_sound (port : Nat) (undecoded : Bool) (replayed : Option Nat) (s : State) (h_s : s.Sound) :
    NextSound (execBadFrame port undecoded replayed s) := by
  unfold execBadFrame
  repeat' first
    | with_reducible assumption
    | with_reducible refine sound_ite ?_ ?_
    | with_reducible refine onUnit_sound _ _ ?_
    | with_reducible refine State.count_sound _ _ _ _ ?_
    | with_reducible refine State.setPort_sound _ _ _ ?_
    | split

theorem State.emit_sound (s : State) (p : Nat) (ftype : Nat) (fseq : Nat) (first : Nat) (fill : Nat) (body : List Byte) (h_s : s.Sound) :
    (State.emit s p ftype fseq first fill body).Sound := by
  unfold State.emit
  repeat' first
    | with_reducible assumption
    | with_reducible refine State.setPort_sound _ _ _ ?_

theorem State.sendData_sound (s : State) (p : Nat) (h_s : s.Sound) :
    (State.sendData s p).Sound := by
  unfold State.sendData
  repeat' first
    | with_reducible assumption
    | with_reducible refine sound_foldl (fun s a h => ?_) ?_
    | with_reducible refine State.emit_sound _ _ _ _ _ _ _ ?_
    | with_reducible refine State.setPort_sound _ _ _ ?_
    | with_reducible refine State.bump_sound _ _ _ _ ?_
    | with_reducible refine State.packetGone_sound _ _ ?_

theorem State.sendReplay_sound (s : State) (p : Nat) (h_s : s.Sound) :
    (State.sendReplay s p).Sound := by
  unfold State.sendReplay
  repeat' first
    | with_reducible assumption
    | with_reducible refine sound_ite ?_ ?_
    | with_reducible refine State.emit_sound _ _ _ _ _ _ _ ?_
    | with_reducible refine State.setPort_sound _ _ _ ?_
    | with_reducible refine State.portDown_sound _ _ _ ?_
    | (lift_lets; intro s1; clear_value s1)
    | dsimp only [Out.at]
    | split

theorem State.sendEth_sound (s : State) (p : Nat) (h_s : s.Sound) :
    (State.sendEth s p).Sound := by
  unfold State.sendEth
  repeat' first
    | with_reducible assumption
    | with_reducible refine sound_ite ?_ ?_
    | with_reducible refine State.bump_sound _ _ _ _ ?_
    | with_reducible refine State.setPort_sound _ _ _ ?_
    | (lift_lets; intro s1; clear_value s1)
    | dsimp only [Out.at]
    | split

theorem State.trainFail_sound (s : State) (p : Nat) (h_s : s.Sound) :
    (State.trainFail s p).Sound := by
  unfold State.trainFail
  repeat' first
    | with_reducible assumption
    | with_reducible refine State.setPort_sound _ _ _ ?_
    | with_reducible refine State.setFld_sound _ _ _ _ ?_
    | with_reducible refine State.logPort_sound _ _ _ ?_
    | with_reducible refine State.count_sound _ _ _ _ ?_

theorem State.setTrain_sound (s : State) (p : Nat) (t : Train) (h_s : s.Sound) :
    (State.setTrain s p t).Sound := by
  unfold State.setTrain
  repeat' first
    | with_reducible assumption
    | with_reducible refine State.setPort_sound _ _ _ ?_

theorem State.testRate_sound (s : State) (p : Nat) (t : Train) (r : Nat) (h_s : s.Sound) :
    (State.testRate s p t r).Sound := by
  unfold State.testRate
  repeat' first
    | with_reducible assumption
    | with_reducible refine State.freeWord_sound _ ?_
    | with_reducible refine State.setTrain_sound _ _ _ ?_

theorem State.beginRates_sound (s : State) (p : Nat) (t : Train) (h_s : s.Sound) :
    (State.beginRates s p t).Sound := by
  unfold State.beginRates
  repeat' first
    | with_reducible assumption
    | with_reducible refine State.testRate_sound _ _ _ _ ?_
    | with_reducible refine State.trainFail_sound _ _ ?_
    | split

theorem execCodewordLock_sound (port : Nat) (s : State) (h_s : s.Sound) :
    NextSound (execCodewordLock port s) := by
  unfold execCodewordLock
  repeat' first
    | with_reducible assumption
    | with_reducible refine sound_ite ?_ ?_
    | with_reducible refine sound_foldl (fun s a h => ?_) ?_
    | with_reducible refine onUnit_sound _ _ ?_
    | with_reducible refine State.setFld_sound _ _ _ _ ?_
    | with_reducible refine State.setTrain_sound _ _ _ ?_
    | (lift_lets; intro s1; refine (fun (h1 : State.Sound s1) => ?_) ?_; clear_value s1; rotate_left; dsimp only [s1]; rotate_left)
    | split

theorem State.enterUp_sound (s : State) (p : Nat) (rate : Nat) (version : Nat) (tw : Nat) (off : Nat) (h_s : s.Sound) :
    (State.enterUp s p rate version tw off).Sound := by
  unfold State.enterUp
  repeat' first
    | with_reducible assumption
    | with_reducible refine sound_ite ?_ ?_
    | with_reducible refine sound_foldl (fun s a h => ?_) ?_
    | with_reducible refine State.setPort_sound _ _ _ ?_
    | with_reducible refine State.setFld_sound _ _ _ _ ?_
    | with_reducible refine State.follow_sound _ ?_
    | with_reducible refine State.lifeAdd_sound _ _ _ ?_

theorem State.choose_sound (s : State) (p : Nat) (t : Train) (h_s : s.Sound) :
    (State.choose s p t).Sound := by
  unfold State.choose
  repeat' first
    | with_reducible assumption
    | with_reducible refine State.setTrain_sound _ _ _ ?_
    | with_reducible refine State.trainFail_sound _ _ ?_
    | split

theorem execRateMeasurementEnd_sound (port : Nat) (s : State) (h_s : s.Sound) :
    NextSound (execRateMeasurementEnd port s) := by
  unfold execRateMeasurementEnd
  repeat' first
    | with_reducible assumption
    | with_reducible refine sound_ite ?_ ?_
    | with_reducible refine onUnit_sound _ _ ?_
    | with_reducible refine State.at_sound _ _ ?_
    | with_reducible refine State.choose_sound _ _ _ ?_
    | with_reducible refine State.testRate_sound _ _ _ _ ?_
    | dsimp only [Out.at]
    | split

theorem State.finishTraining_sound (s : State) (p : Nat) (t : Train) (h_s : s.Sound) :
    (State.finishTraining s p t).Sound := by
  unfold State.finishTraining
  repeat' first
    | with_reducible assumption
    | with_reducible refine State.enterUp_sound _ _ _ _ _ _ ?_
    | with_reducible refine State.setFld_sound _ _ _ _ ?_
    | with_reducible refine State.setTrain_sound _ _ _ ?_
    | (lift_lets; intro s1; clear_value s1)
    | dsimp only [Out.at]
    | split

theorem execFrameSend_sound (port : Nat) (s : State) (h_s : s.Sound) :
    NextSound (execFrameSend port s) := by
  unfold execFrameSend
  repeat' first
    | with_reducible assumption
    | with_reducible refine sound_ite ?_ ?_
    | with_reducible refine onUnit_sound _ _ ?_
    | with_reducible refine State.sendEth_sound _ _ ?_
    | with_reducible refine State.sendReplay_sound _ _ ?_
    | with_reducible refine State.sendData_sound _ _ ?_
    | with_reducible refine State.emit_sound _ _ _ _ _ _ _ ?_
    | with_reducible refine State.setPort_sound _ _ _ ?_
    | with_reducible refine State.finishTraining_sound _ _ _ ?_
    | dsimp only [Out.at]
    | split

theorem execTrainFrame_sound (port : Nat) (lane : Nat) (body : List Byte) (s : State) (h_s : s.Sound) :
    NextSound (execTrainFrame port lane body s) := by
  unfold execTrainFrame
  repeat' first
    | with_reducible assumption
    | with_reducible refine sound_ite ?_ ?_
    | with_reducible refine onUnit_sound _ _ ?_
    | with_reducible refine State.setReg_sound _ _ _ ?_
    | with_reducible refine State.trainFail_sound _ _ ?_
    | with_reducible refine State.beginRates_sound _ _ _ ?_
    | with_reducible refine State.setTrain_sound _ _ _ ?_
    | with_reducible refine State.finishTraining_sound _ _ _ ?_
    | (lift_lets; intro s1; clear_value s1)
    | dsimp only [Out.at]
    | split

theorem execTrainTimeout_sound (port : Nat) (s : State) (h_s : s.Sound) :
    NextSound (execTrainTimeout port s) := by
  unfold execTrainTimeout
  repeat' first
    | with_reducible assumption
    | with_reducible refine onUnit_sound _ _ ?_
    | with_reducible refine State.trainFail_sound _ _ ?_
    | with_reducible refine State.at_sound _ _ ?_
    | split

theorem execTrainRetry_sound (port : Nat) (s : State) (h_s : s.Sound) :
    NextSound (execTrainRetry port s) := by
  unfold execTrainRetry
  repeat' first
    | with_reducible assumption
    | with_reducible refine sound_ite ?_ ?_
    | with_reducible refine onUnit_sound _ _ ?_
    | with_reducible refine State.startTraining_sound _ _ ?_
    | with_reducible refine State.at_sound _ _ ?_
    | split

theorem execEthAlignmentLock_sound (port : Nat) (s : State) (h_s : s.Sound) :
    NextSound (execEthAlignmentLock port s) := by
  unfold execEthAlignmentLock
  repeat' first
    | with_reducible assumption
    | with_reducible refine sound_ite ?_ ?_
    | with_reducible refine onUnit_sound _ _ ?_
    | with_reducible refine State.enterUp_sound _ _ _ _ _ _ ?_

theorem execLaneSignalLoss_sound (port : Nat) (lane : Nat) (s : State) (h_s : s.Sound) :
    NextSound (execLaneSignalLoss port lane s) := by
  unfold execLaneSignalLoss
  repeat' first
    | with_reducible assumption
    | with_reducible refine sound_ite ?_ ?_
    | with_reducible refine onUnit_sound _ _ ?_
    | with_reducible refine State.setFld_sound _ _ _ _ ?_
    | with_reducible refine State.portDown_sound _ _ _ ?_

theorem execSilentTimeout_sound (port : Nat) (s : State) (h_s : s.Sound) :
    NextSound (execSilentTimeout port s) := by
  unfold execSilentTimeout
  repeat' first
    | with_reducible assumption
    | with_reducible refine sound_ite ?_ ?_
    | with_reducible refine onUnit_sound _ _ ?_
    | with_reducible refine State.portDown_sound _ _ _ ?_
    | with_reducible refine State.at_sound _ _ ?_

theorem execStallTimeout_sound (port : Nat) (s : State) (h_s : s.Sound) :
    NextSound (execStallTimeout port s) := by
  unfold execStallTimeout
  repeat' first
    | with_reducible assumption
    | with_reducible refine sound_ite ?_ ?_
    | with_reducible refine onUnit_sound _ _ ?_
    | with_reducible refine State.portDown_sound _ _ _ ?_
    | with_reducible refine State.at_sound _ _ ?_

theorem State.writePortCfg_sound (s : State) (p : Nat) (w : Word) (h_s : s.Sound) :
    (State.writePortCfg s p w).2.Sound := by
  unfold State.writePortCfg
  repeat' first
    | with_reducible assumption
    | with_reducible refine State.setReg_sound _ _ _ ?_
    | with_reducible refine State.startTraining_sound _ _ ?_
    | with_reducible refine State.softDown_sound _ _ _ ?_
    | (lift_lets; intro s1; clear_value s1)
    | dsimp only [Out.at]
    | split

theorem State.writePortCtl_sound (s : State) (p : Nat) (w : Word) (h_s : s.Sound) :
    (State.writePortCtl s p w).2.Sound := by
  unfold State.writePortCtl
  repeat' first
    | with_reducible assumption
    | with_reducible refine State.softDown_sound _ _ _ ?_
    | split

theorem execPortEnable_sound (port : Nat) (s : State) (h_s : s.Sound) :
    NextSound (execPortEnable port s) := by
  unfold execPortEnable
  repeat' first
    | with_reducible assumption
    | with_reducible refine onUnit_sound _ _ ?_
    | with_reducible refine State.writePortCfg_sound _ _ _ ?_
    | with_reducible refine State.completed_sound _ _ _ ?_

theorem execPortDisable_sound (port : Nat) (s : State) (h_s : s.Sound) :
    NextSound (execPortDisable port s) := by
  unfold execPortDisable
  repeat' first
    | with_reducible assumption
    | with_reducible refine onUnit_sound _ _ ?_
    | with_reducible refine State.writePortCfg_sound _ _ _ ?_
    | with_reducible refine State.completed_sound _ _ _ ?_

theorem execPortRetrain_sound (port : Nat) (s : State) (h_s : s.Sound) :
    NextSound (execPortRetrain port s) := by
  unfold execPortRetrain
  repeat' first
    | with_reducible assumption
    | with_reducible refine onUnit_sound _ _ ?_
    | with_reducible refine State.writePortCtl_sound _ _ _ ?_
    | with_reducible refine State.completed_sound _ _ _ ?_
    | split

end Sys2Proof.Machine
end

