-- ==== Sys2Proof/Laws/SoundRoute.lean ====
section
/-! SUPPORT. That the definitions of Machine/Route.lean keep a state sound. -/
namespace Sys2Proof.Machine

theorem State.assign_sound (s : State) (f : Flying) (p : Nat) (vc : Nat) (h_s : s.Sound) :
    (State.assign s f p vc).Sound := by
  unfold State.assign
  repeat' first
    | with_reducible assumption
    | with_reducible refine State.setPort_sound _ _ _ ?_

theorem State.dropPacket_sound (s : State) (f : Flying) (violation : Bool) (h_s : s.Sound) :
    (State.dropPacket s f violation).Sound := by
  unfold State.dropPacket
  repeat' first
    | with_reducible assumption
    | with_reducible refine sound_ite ?_ ?_
    | with_reducible refine State.packetGone_sound _ _ ?_
    | with_reducible refine State.count_sound _ _ _ _ ?_
    | with_reducible refine State.flag_sound _ _ _ ?_
    | with_reducible refine State.logAt_sound _ _ _ _ _ _ _ ?_

theorem State.carry_sound (s : State) (f : Flying) (a_2 : Verdict) (h_s : s.Sound) :
    (State.carry s f a_2).Sound := by
  unfold State.carry
  repeat' first
    | with_reducible assumption
    | with_reducible refine State.dropPacket_sound _ _ _ ?_
    | with_reducible refine State.assign_sound _ _ _ _ ?_
    | split

theorem State.leaveSource_sound (s : State) (f : Flying) (a_2 : PktSource) (h_s : s.Sound) :
    (State.leaveSource s f a_2).Sound := by
  unfold State.leaveSource
  repeat' first
    | with_reducible assumption
    | with_reducible refine State.setPort_sound _ _ _ ?_
    | dsimp only [Out.at]
    | split
    | (simp only [State.Sound]; with_reducible refine sound_fold ?_; with_reducible assumption)

theorem State.flushCopies_sound (s : State) (a_1 : Nat) (h_s : s.Sound) :
    (State.flushCopies s a_1).Sound := by
  induction a_1 generalizing s with
  | zero => exact h_s
  | succ n ih =>
    unfold State.flushCopies
    split
    · exact h_s
    · dsimp only
      split
      · exact ih _ (State.assign_sound _ _ _ _ h_s)
      · exact h_s

theorem execPacketRoute_sound (src : PktSource) (s : State) (h_s : s.Sound) :
    NextSound (execPacketRoute src s) := by
  unfold execPacketRoute
  repeat' first
    | with_reducible assumption
    | with_reducible refine sound_ite ?_ ?_
    | with_reducible refine onUnit_sound _ _ ?_
    | with_reducible refine State.flushCopies_sound _ _ ?_
    | with_reducible refine State.carry_sound _ _ _ ?_
    | with_reducible refine State.leaveSource_sound _ _ _ ?_
    | (lift_lets; intro s1; refine (fun (h1 : State.Sound s1) => ?_) ?_; clear_value s1; rotate_left; dsimp only [s1]; rotate_left)
    | split

theorem execEscapeRoute_sound (src : PktSource) (s : State) (h_s : s.Sound) :
    NextSound (execEscapeRoute src s) := by
  unfold execEscapeRoute
  repeat' first
    | with_reducible assumption
    | with_reducible refine onUnit_sound _ _ ?_
    | with_reducible refine State.at_sound _ _ ?_
    | with_reducible refine State.carry_sound _ _ _ ?_
    | with_reducible refine State.leaveSource_sound _ _ _ ?_
    | with_reducible refine State.bump_sound _ _ _ _ ?_
    | with_reducible refine State.setPort_sound _ _ _ ?_
    | dsimp only [Out.at]
    | split

theorem State.retag_sound (s : State) (p : Nat) (h_s : s.Sound) :
    (State.retag s p).Sound := by
  unfold State.retag
  repeat' first
    | with_reducible assumption
    | with_reducible refine sound_ite ?_ ?_
    | with_reducible refine State.setPort_sound _ _ _ ?_

theorem State.startHead_sound (s : State) (p : Nat) (h : Head) (h_s : s.Sound) :
    (State.startHead s p h).Sound := by
  unfold State.startHead
  repeat' first
    | with_reducible assumption
    | with_reducible refine sound_ite ?_ ?_
    | with_reducible refine State.takeTokens_sound _ _ _ ?_
    | with_reducible refine State.count_sound _ _ _ _ ?_
    | with_reducible refine State.flag_sound _ _ _ ?_
    | with_reducible refine State.setPort_sound _ _ _ ?_
    | (lift_lets; intro s1; refine (fun (h1 : State.Sound s1) => ?_) ?_; clear_value s1; rotate_left; dsimp only [s1]; rotate_left)
    | dsimp only [Out.at]
    | split

theorem execPortPacketStart_sound (port : Nat) (s : State) (h_s : s.Sound) :
    NextSound (execPortPacketStart port s) := by
  unfold execPortPacketStart
  repeat' first
    | with_reducible assumption
    | with_reducible refine sound_ite ?_ ?_
    | with_reducible refine onUnit_sound _ _ ?_
    | with_reducible refine State.retag_sound _ _ ?_
    | with_reducible refine State.at_sound _ _ ?_
    | with_reducible refine State.startHead_sound _ _ _ ?_
    | (lift_lets; intro s1; refine (fun (h1 : State.Sound s1) => ?_) ?_; clear_value s1; rotate_left; dsimp only [s1]; rotate_left)
    | dsimp only [Out.at]
    | split

theorem State.answerMem_sound (s : State) (q : Packet) (wr : Bool) (code : Nat) (data : List Byte) (h_s : s.Sound) :
    (State.answerMem s q wr code data).Sound := by
  unfold State.answerMem
  repeat' first
    | with_reducible assumption
    | with_reducible refine State.land_sound _ _ ?_
    | with_reducible refine State.sendOut_sound _ _ ?_

theorem execMemrd_sound (port : Nat) (p : Packet) (s : State) (h_s : s.Sound) :
    NextSound (execMemrd port p s) := by
  unfold execMemrd
  repeat' first
    | with_reducible assumption
    | with_reducible refine sound_ite ?_ ?_
    | with_reducible refine onUnit_sound _ _ ?_
    | with_reducible refine State.answerMem_sound _ _ _ _ _ ?_
    | with_reducible refine State.fabRead_sound _ _ _ ?_

theorem execMemwr_sound (port : Nat) (p : Packet) (s : State) (h_s : s.Sound) :
    NextSound (execMemwr port p s) := by
  unfold execMemwr
  repeat' first
    | with_reducible assumption
    | with_reducible refine sound_ite ?_ ?_
    | with_reducible refine onUnit_sound _ _ ?_
    | with_reducible refine State.answerMem_sound _ _ _ _ _ ?_
    | with_reducible refine State.fabWrite_sound _ _ _ ?_

theorem State.ethQueue_sound (s : State) (p : Nat) (f : List Byte) (h_s : s.Sound) :
    (State.ethQueue s p f).Sound := by
  unfold State.ethQueue
  repeat' first
    | with_reducible assumption
    | with_reducible refine State.setPort_sound _ _ _ ?_

theorem State.pause_sound (s : State) (p : Nat) (prio : Nat) (quanta : Nat) (h_s : s.Sound) :
    (State.pause s p prio quanta).Sound := by
  unfold State.pause
  repeat' first
    | with_reducible assumption
    | with_reducible refine State.setPort_sound _ _ _ ?_

theorem State.macControl_sound (s : State) (p : Nat) (f : List Byte) (h_s : s.Sound) :
    (State.macControl s p f).Sound := by
  unfold State.macControl
  repeat' first
    | with_reducible assumption
    | with_reducible refine sound_ite ?_ ?_
    | with_reducible refine sound_foldl (fun s a h => ?_) ?_
    | with_reducible refine State.pause_sound _ _ _ _ ?_

theorem State.ethAction_sound (s : State) (w : Word) (frame : List Byte) (h_s : s.Sound) :
    (State.ethAction s w frame).Sound := by
  unfold State.ethAction
  repeat' first
    | with_reducible assumption
    | with_reducible refine sound_ite ?_ ?_
    | with_reducible refine State.ethQueue_sound _ _ _ ?_
    | with_reducible refine State.originate_sound _ _ ?_
    | (lift_lets; intro s1; clear_value s1)
    | dsimp only [Out.at]
    | split

theorem execEthFrame_sound (port : Nat) (frame : List Byte) (s : State) (h_s : s.Sound) :
    NextSound (execEthFrame port frame s) := by
  unfold execEthFrame
  repeat' first
    | with_reducible assumption
    | with_reducible refine sound_ite ?_ ?_
    | with_reducible refine onUnit_sound _ _ ?_
    | with_reducible refine State.count_sound _ _ _ _ ?_
    | with_reducible refine State.bump_sound _ _ _ _ ?_
    | with_reducible refine State.macControl_sound _ _ _ ?_
    | with_reducible refine State.ethAction_sound _ _ _ ?_
    | split

theorem execEthHoldDrop_sound (port : Nat) (s : State) (h_s : s.Sound) :
    NextSound (execEthHoldDrop port s) := by
  unfold execEthHoldDrop
  repeat' first
    | with_reducible assumption
    | with_reducible refine onUnit_sound _ _ ?_
    | with_reducible refine State.at_sound _ _ ?_
    | with_reducible refine State.setPort_sound _ _ _ ?_
    | with_reducible refine State.logAt_sound _ _ _ _ _ _ _ ?_
    | with_reducible refine State.count_sound _ _ _ _ ?_
    | dsimp only [Out.at]
    | split

theorem State.writeMtab_sound (s : State) (bank : Nat) (m : Nat) (w : Word) (h_s : s.Sound) :
    (State.writeMtab s bank m w).2.Sound := by
  unfold State.writeMtab
  repeat' first
    | with_reducible assumption
    | with_reducible refine State.setReg_sound _ _ _ ?_
    | (lift_lets; intro s1; clear_value s1)
    | split

theorem State.advanceIndex_sound (s : State) (h_s : s.Sound) :
    (State.advanceIndex s).Sound := by
  unfold State.advanceIndex
  repeat' first
    | with_reducible assumption
    | with_reducible refine sound_ite ?_ ?_
    | with_reducible refine State.bump_sound _ _ _ _ ?_

theorem State.writeEpData_sound (s : State) (w : Word) (h_s : s.Sound) :
    (State.writeEpData s w).2.Sound := by
  unfold State.writeEpData
  repeat' first
    | with_reducible assumption
    | with_reducible refine State.advanceIndex_sound _ ?_
    | (lift_lets; intro s1; clear_value s1)
    | dsimp only [Out.at]
    | split
    | (simp only [State.Sound]; with_reducible refine sound_fold ?_; with_reducible assumption)

theorem State.readEpData_sound (s : State) (h_s : s.Sound) :
    (State.readEpData s).2.Sound := by
  unfold State.readEpData
  repeat' first
    | with_reducible assumption
    | with_reducible refine State.advanceIndex_sound _ ?_

theorem execEpDataAccess_sound (write : Bool) (data : Word) (s : State) (h_s : s.Sound) :
    NextSound (execEpDataAccess write data s) := by
  unfold execEpDataAccess
  repeat' first
    | with_reducible assumption
    | with_reducible refine nextSound_next ?_
    | with_reducible refine ite_keeps NextSound ?_ ?_
    | with_reducible refine State.writeEpData_sound _ _ ?_
    | with_reducible refine State.completed_sound _ _ _ ?_
    | with_reducible refine State.readEpData_sound _ ?_

theorem State.writeEpoch_sound (s : State) (w : Word) (h_s : s.Sound) :
    (State.writeEpoch s w).2.Sound := by
  unfold State.writeEpoch
  repeat' first
    | with_reducible assumption
    | with_reducible refine State.setFld_sound _ _ _ _ ?_
    | (lift_lets; intro s1; clear_value s1)
    | split

theorem execFlipArm_sound (s : State) (h_s : s.Sound) :
    NextSound (execFlipArm s) := by
  unfold execFlipArm
  repeat' first
    | with_reducible assumption
    | with_reducible refine nextSound_next ?_
    | with_reducible refine State.writeEpoch_sound _ _ ?_
    | with_reducible refine State.completed_sound _ _ _ ?_

theorem execEquinoxFlip_sound (s : State) (h_s : s.Sound) :
    NextSound (execEquinoxFlip s) := by
  unfold execEquinoxFlip
  repeat' first
    | with_reducible assumption
    | with_reducible refine nextSound_next ?_
    | with_reducible refine ite_keeps NextSound ?_ ?_
    | with_reducible refine State.atAlm_sound _ _ ?_
    | (simp only [State.Sound]; with_reducible refine sound_fold ?_; with_reducible refine State.setReg_sound _ _ _ ?_)

theorem execDrainEnd_sound (s : State) (h_s : s.Sound) :
    NextSound (execDrainEnd s) := by
  unfold execDrainEnd
  repeat' first
    | with_reducible assumption
    | with_reducible refine nextSound_next ?_
    | with_reducible refine ite_keeps NextSound ?_ ?_
    | with_reducible refine State.setFld_sound _ _ _ _ ?_
    | with_reducible refine State.atAlm_sound _ _ ?_

theorem execCongestionMap_sound (s : State) (h_s : s.Sound) :
    NextSound (execCongestionMap s) := by
  unfold execCongestionMap
  repeat' first
    | with_reducible assumption
    | with_reducible refine nextSound_next ?_
    | with_reducible refine ite_keeps NextSound ?_ ?_
    | with_reducible refine sound_foldl (fun s a h => ?_) ?_
    | with_reducible refine sound_foldl_snd (fun p a h => ?_) ?_
    | with_reducible refine State.atAlm_sound _ _ ?_
    | with_reducible refine State.freeWord_sound _ ?_
    | with_reducible refine State.fabWrite_sound _ _ _ ?_
    | with_reducible refine State.setPort_sound _ _ _ ?_
    | with_reducible refine State.bump_sound _ _ _ _ ?_
    | (lift_lets; intro s1; refine (fun (h1 : State.Sound s1) => ?_) ?_; clear_value s1; rotate_left; dsimp only [s1]; rotate_left)
    | dsimp only [Out.at]
    | (simp only [State.Sound]; with_reducible refine sound_fold ?_; with_reducible assumption)

theorem State.writePools_sound (s : State) (first : Bool) (w : Word) (h_s : s.Sound) :
    (State.writePools s first w).2.Sound := by
  unfold State.writePools
  repeat' first
    | with_reducible assumption
    | with_reducible refine State.setReg_sound _ _ _ ?_
    | (lift_lets; intro s1; clear_value s1)
    | dsimp only [Out.at]
    | split

theorem State.writeRtePort_sound (s : State) (p : Nat) (w : Word) (h_s : s.Sound) :
    (State.writeRtePort s p w).2.Sound := by
  unfold State.writeRtePort
  repeat' first
    | with_reducible assumption
    | with_reducible refine State.setReg_sound _ _ _ ?_
    | (lift_lets; intro s1; clear_value s1)
    | split

theorem State.writeRteMode_sound (s : State) (w : Word) (h_s : s.Sound) :
    (State.writeRteMode s w).2.Sound := by
  unfold State.writeRteMode
  repeat' first
    | with_reducible assumption
    | with_reducible refine State.setReg_sound _ _ _ ?_
    | split

end Sys2Proof.Machine
end

