-- ==== Sys2Proof/Laws/SoundAlmanac.lean ====
section
/-! SUPPORT. That the definitions of Machine/Almanac.lean keep a state sound. -/
namespace Sys2Proof.Machine

theorem State.setPortTime_sound (s : State) (p : Nat) (x : PortTime) (h_s : s.Sound) :
    (State.setPortTime s p x).Sound := by
  unfold State.setPortTime
  repeat' first
    | (simp only [State.Sound]; with_reducible refine sound_fold ?_; with_reducible assumption)

theorem State.stamp_sound (s : State) (h_s : s.Sound) :
    (State.stamp s).2.Sound := by
  unfold State.stamp
  repeat' first
    | with_reducible assumption
    | with_reducible refine State.freeWord_sound _ ?_

theorem execTimeMessageSend_sound (port : Nat) (s : State) (h_s : s.Sound) :
    NextSound (execTimeMessageSend port s) := by
  unfold execTimeMessageSend
  repeat' first
    | with_reducible assumption
    | with_reducible refine sound_ite ?_ ?_
    | with_reducible refine onUnit_sound _ _ ?_
    | with_reducible refine State.at_sound _ _ ?_
    | with_reducible refine State.stamp_sound _ ?_
    | with_reducible refine State.sendCtrl_sound _ _ _ ?_
    | with_reducible refine State.setPortTime_sound _ _ _ ?_

theorem State.moveAlm_sound (s : State) (n : Nat) (h_s : s.Sound) :
    (State.moveAlm s n).Sound := by
  unfold State.moveAlm
  repeat' first
    | (lift_lets; intro s1; clear_value s1)
    | (simp only [State.Sound]; with_reducible refine sound_fold ?_; with_reducible assumption)

theorem State.stepAlm_sound (s : State) (d : Int) (h_s : s.Sound) :
    (State.stepAlm s d).Sound := by
  unfold State.stepAlm
  repeat' first
    | with_reducible assumption
    | with_reducible refine State.moveAlm_sound _ _ ?_

theorem State.logTime_sound (s : State) (details : List Nat) (h_s : s.Sound) :
    (State.logTime s details).Sound := by
  unfold State.logTime
  repeat' first
    | with_reducible assumption
    | with_reducible refine State.logAt_sound _ _ _ _ _ _ _ ?_

theorem State.outOfStep_sound (s : State) (h_s : s.Sound) :
    (State.outOfStep s).Sound := by
  unfold State.outOfStep
  repeat' first
    | with_reducible assumption
    | with_reducible refine State.logTime_sound _ _ ?_
    | with_reducible refine State.healthAdd_sound _ _ _ ?_
    | with_reducible refine State.count_sound _ _ _ _ ?_
    | with_reducible refine State.flag_sound _ _ _ ?_

theorem State.servo_sound (s : State) (theta : Int) (depth : Nat) (h_s : s.Sound) :
    (State.servo s theta depth).Sound := by
  unfold State.servo
  repeat' first
    | with_reducible assumption
    | with_reducible refine sound_ite ?_ ?_
    | with_reducible refine State.freeWord_sound _ ?_
    | with_reducible refine State.setFld_sound _ _ _ _ ?_
    | with_reducible refine State.stepAlm_sound _ _ ?_
    | with_reducible refine State.outOfStep_sound _ ?_
    | (lift_lets; intro s1; refine (fun (h1 : State.Sound s1) => ?_) ?_; clear_value s1; rotate_left; dsimp only [s1]; rotate_left)
    | split
    | (simp only [State.Sound]; with_reducible refine sound_fold ?_; first | with_reducible assumption | with_reducible refine State.setFld_sound _ _ _ _ ?_)

theorem State.crossCheck_sound (s : State) (p : Nat) (theta : Int) (h_s : s.Sound) :
    (State.crossCheck s p theta).Sound := by
  unfold State.crossCheck
  repeat' first
    | with_reducible assumption
    | with_reducible refine sound_ite ?_ ?_
    | with_reducible refine State.setPortTime_sound _ _ _ ?_
    | with_reducible refine State.logTime_sound _ _ ?_
    | with_reducible refine State.count_sound _ _ _ _ ?_
    | with_reducible refine State.flag_sound _ _ _ ?_

theorem execTime_sound (port : Nat) (f : Frame) (s : State) (h_s : s.Sound) :
    NextSound (execTime port f s) := by
  unfold execTime
  repeat' first
    | with_reducible assumption
    | with_reducible refine sound_ite ?_ ?_
    | with_reducible refine onUnit_sound _ _ ?_
    | with_reducible refine State.hearCtrl_sound _ _ _ _ ?_
    | with_reducible refine State.heardOnly_sound _ _ _ ?_
    | with_reducible refine State.stamp_sound _ ?_
    | with_reducible refine State.setPortTime_sound _ _ _ ?_
    | with_reducible refine State.servo_sound _ _ _ ?_
    | with_reducible refine State.crossCheck_sound _ _ _ ?_
    | with_reducible refine sound_of_some_fst (by assumption) ?_
    | dsimp only [Out.at]
    | split

theorem execHoldoverTimeout_sound (s : State) (h_s : s.Sound) :
    NextSound (execHoldoverTimeout s) := by
  unfold execHoldoverTimeout
  repeat' first
    | with_reducible assumption
    | with_reducible refine nextSound_next ?_
    | with_reducible refine State.at_sound _ _ ?_
    | (lift_lets; intro s1; clear_value s1)
    | dsimp only [Out.at]
    | split
    | (simp only [State.Sound]; with_reducible refine sound_fold ?_; with_reducible refine State.outOfStep_sound _ ?_)

theorem execReferenceTakeover_sound (s : State) (h_s : s.Sound) :
    NextSound (execReferenceTakeover s) := by
  unfold execReferenceTakeover
  repeat' first
    | with_reducible refine nextSound_next ?_
    | (simp only [State.Sound]; with_reducible refine sound_fold ?_; with_reducible assumption)

theorem State.writeAlmCtl_sound (s : State) (w : Word) (h_s : s.Sound) :
    (State.writeAlmCtl s w).2.Sound := by
  unfold State.writeAlmCtl
  repeat' first
    | with_reducible assumption
    | with_reducible refine sound_ite ?_ ?_
    | with_reducible refine State.setReg_sound _ _ _ ?_
    | with_reducible refine State.setFld_sound _ _ _ _ ?_
    | with_reducible refine State.follow_sound _ ?_
    | (lift_lets; intro s1; clear_value s1)
    | dsimp only [Out.at]
    | split
    | (simp only [State.Sound]; with_reducible refine sound_fold ?_; with_reducible refine State.setFld_sound _ _ _ _ ?_)

theorem execRelock_sound (s : State) (h_s : s.Sound) :
    NextSound (execRelock s) := by
  unfold execRelock
  repeat' first
    | with_reducible assumption
    | with_reducible refine nextSound_next ?_
    | with_reducible refine State.writeAlmCtl_sound _ _ ?_
    | with_reducible refine State.completed_sound _ _ _ ?_

theorem State.writeAlmSet_sound (s : State) (w : Word) (h_s : s.Sound) :
    (State.writeAlmSet s w).2.Sound := by
  unfold State.writeAlmSet
  repeat' first
    | with_reducible assumption
    | with_reducible refine State.moveAlm_sound _ _ ?_
    | (lift_lets; intro s1; clear_value s1)
    | split

theorem execAlmSet_sound (count : Word) (s : State) (h_s : s.Sound) :
    NextSound (execAlmSet count s) := by
  unfold execAlmSet
  repeat' first
    | with_reducible assumption
    | with_reducible refine nextSound_next ?_
    | with_reducible refine State.writeAlmSet_sound _ _ ?_
    | with_reducible refine State.completed_sound _ _ _ ?_

theorem State.writeAlmTrim_sound (s : State) (w : Word) (h_s : s.Sound) :
    (State.writeAlmTrim s w).2.Sound := by
  unfold State.writeAlmTrim
  repeat' first
    | with_reducible assumption
    | with_reducible refine State.setFld_sound _ _ _ _ ?_
    | split

end Sys2Proof.Machine
end

