-- ==== Sys2Proof/Laws/SoundCalendar.lean ====
section
/-! SUPPORT. That the definitions of Machine/Calendar.lean keep a state sound. -/
namespace Sys2Proof.Machine

theorem State.logSchedule_sound (s : State) (code : Nat) (details : List Nat) (h_s : s.Sound) :
    (State.logSchedule s code details).Sound := by
  unfold State.logSchedule
  repeat' first
    | with_reducible assumption
    | with_reducible refine State.logAt_sound _ _ _ _ _ _ _ ?_

theorem State.stopCalendar_sound (s : State) (die : Nat) (h_s : s.Sound) :
    (State.stopCalendar s die).Sound := by
  unfold State.stopCalendar
  repeat' first
    | (lift_lets; intro s1; clear_value s1)
    | (simp only [State.Sound]; with_reducible refine sound_fold ?_; with_reducible assumption)

theorem State.overrunEngine_sound (s : State) (die : Nat) (region : Nat) (qid : Nat) (h_s : s.Sound) :
    (State.overrunEngine s die region qid).Sound := by
  unfold State.overrunEngine
  repeat' first
    | with_reducible assumption
    | with_reducible refine sound_ite ?_ ?_
    | with_reducible refine State.engineFault_sound _ _ _ _ _ _ _ _ _ ?_
    | with_reducible refine State.endWait_sound _ _ _ ?_
    | (lift_lets; intro s1; clear_value s1)
    | dsimp only [Out.at]
    | split

theorem State.overrun_sound (s : State) (die : Nat) (i : Nat) (region : Nat) (qid : Nat) (reason : Nat) (word : Word) (h_s : s.Sound) :
    (State.overrun s die i region qid reason word).Sound := by
  unfold State.overrun
  repeat' first
    | with_reducible assumption
    | with_reducible refine sound_ite ?_ ?_
    | with_reducible refine State.count_sound _ _ _ _ ?_
    | with_reducible refine State.setReg_sound _ _ _ ?_
    | with_reducible refine State.logSchedule_sound _ _ _ ?_
    | with_reducible refine State.flag_sound _ _ _ ?_
    | with_reducible refine State.overrunEngine_sound _ _ _ _ ?_
    | with_reducible refine State.stopCalendar_sound _ _ ?_
    | with_reducible refine State.setPhase_sound _ _ _ ?_
    | with_reducible refine State.stopAll_sound _ ?_

theorem State.launchNow_sound (s : State) (die : Nat) (i : Nat) (e : CalEntry) (due : Nat) (h_s : s.Sound) :
    (State.launchNow s die i e due).Sound := by
  unfold State.launchNow
  repeat' first
    | with_reducible assumption
    | with_reducible refine sound_ite ?_ ?_
    | with_reducible refine State.overrun_sound _ _ _ _ _ _ _ ?_
    | with_reducible refine State.landSig_sound _ _ _ _ _ _ _ _ _ ?_
    | (lift_lets; intro s1; clear_value s1)
    | dsimp only [Out.at]
    | split
    | (simp only [State.Sound]; with_reducible refine sound_fold ?_; with_reducible assumption)

theorem State.launchEntry_sound (s : State) (die : Nat) (i : Nat) (e : CalEntry) (due : Nat) (h_s : s.Sound) :
    (State.launchEntry s die i e due).Sound := by
  unfold State.launchEntry
  repeat' first
    | with_reducible assumption
    | with_reducible refine State.launchNow_sound _ _ _ _ _ ?_
    | with_reducible refine State.setFld_sound _ _ _ _ ?_

theorem execCalendarLaunch_sound (die : Nat) (s : State) (h_s : s.Sound) :
    NextSound (execCalendarLaunch die s) := by
  unfold execCalendarLaunch
  repeat' first
    | with_reducible assumption
    | with_reducible refine onUnit_sound _ _ ?_
    | with_reducible refine State.launchEntry_sound _ _ _ _ _ ?_
    | with_reducible refine State.atAlm_sound _ _ ?_
    | split

theorem execCalendarLateLaunch_sound (die : Nat) (s : State) (h_s : s.Sound) :
    NextSound (execCalendarLateLaunch die s) := by
  unfold execCalendarLateLaunch
  repeat' first
    | with_reducible assumption
    | with_reducible refine onUnit_sound _ _ ?_
    | with_reducible refine State.launchEntry_sound _ _ _ _ _ ?_
    | with_reducible refine State.atAlm_sound _ _ ?_
    | with_reducible refine State.overrun_sound _ _ _ _ _ _ _ ?_
    | dsimp only [Out.at]
    | split

theorem execCalendarCheck_sound (die : Nat) (s : State) (h_s : s.Sound) :
    NextSound (execCalendarCheck die s) := by
  unfold execCalendarCheck
  repeat' first
    | with_reducible assumption
    | with_reducible refine sound_ite ?_ ?_
    | with_reducible refine sound_foldl (fun s a h => ?_) ?_
    | with_reducible refine onUnit_sound _ _ ?_
    | with_reducible refine State.overrun_sound _ _ _ _ _ _ _ ?_
    | dsimp only [Out.at]
    | split
    | (simp only [State.Sound]; with_reducible refine sound_fold ?_; with_reducible refine State.atAlm_sound _ _ ?_)

end Sys2Proof.Machine
end

