-- ==== Sys2Proof/Laws/SoundRecorder.lean ====
section
/-! SUPPORT. That the definitions of Machine/Recorder.lean keep a state sound. -/
namespace Sys2Proof.Machine

theorem State.writeRec_sound (s : State) (e : RecEntry) (h_s : s.Sound) :
    OptSat State.Sound (State.writeRec s e) := by
  unfold State.writeRec
  dsimp only
  split
  · exact optSat_none
  · refine optSat_some (State.setFld_sound _ _ _ _ (State.bump_sound _ _ _ _ ?_))
    exact foldl_keeps (fun p : State × List Byte => p.1.Sound) (fun p a h => State.fabWrite_sound _ _ _ h) _ h_s

theorem State.flushRecs_sound (s : State) (a_1 : Nat) (h_s : s.Sound) :
    (State.flushRecs s a_1).Sound := by
  induction a_1 generalizing s with
  | zero => exact h_s
  | succ n ih =>
    unfold State.flushRecs
    split
    · exact h_s
    · split
      · rename_i heq
        have h := State.writeRec_sound _ _ h_s _ heq
        exact ih _ h
      · exact h_s

theorem State.pushRec_sound (s : State) (e : RecEntry) (h_s : s.Sound) :
    (State.pushRec s e).Sound := by
  unfold State.pushRec
  repeat' first
    | with_reducible refine State.flushRecs_sound _ _ ?_
    | (simp only [State.Sound]; with_reducible refine sound_fold ?_; with_reducible assumption)

theorem State.gapRec_sound (s : State) (h_s : s.Sound) :
    (State.gapRec s).Sound := by
  unfold State.gapRec
  repeat' first
    | with_reducible assumption
    | with_reducible refine sound_ite ?_ ?_
    | with_reducible refine State.flushRecs_sound _ _ ?_
    | with_reducible refine State.logAt_sound _ _ _ _ _ _ _ ?_
    | with_reducible refine State.relFlag_sound _ _ ?_
    | with_reducible refine State.pushRec_sound _ _ ?_
    | (simp only [State.Sound]; with_reducible refine sound_fold ?_; with_reducible refine State.flushRecs_sound _ _ ?_)

theorem State.record_sound (s : State) (e : RecEntry) (h_s : s.Sound) :
    (State.record s e).Sound := by
  unfold State.record
  repeat' first
    | with_reducible assumption
    | with_reducible refine sound_ite ?_ ?_
    | with_reducible refine State.gapRec_sound _ ?_
    | with_reducible refine State.pushRec_sound _ _ ?_
    | with_reducible refine State.count_sound _ _ _ _ ?_
    | (simp only [State.Sound]; with_reducible refine sound_fold ?_; with_reducible refine State.gapRec_sound _ ?_)

theorem State.recordEvent_sound (s : State) (kind : Nat) (word3 : Nat) (content : List Byte) (h_s : s.Sound) :
    (State.recordEvent s kind word3 content).Sound := by
  unfold State.recordEvent
  repeat' first
    | with_reducible assumption
    | with_reducible refine State.record_sound _ _ ?_

theorem State.recordPacket_sound (s : State) (port : Nat) (p : Packet) (h_s : s.Sound) :
    (State.recordPacket s port p).Sound := by
  unfold State.recordPacket
  repeat' first
    | with_reducible assumption
    | with_reducible refine sound_ite ?_ ?_
    | with_reducible refine State.record_sound _ _ ?_

theorem State.writeMark_sound (s : State) (id : Word) (h_s : s.Sound) :
    (State.writeMark s id).Sound := by
  unfold State.writeMark
  repeat' first
    | with_reducible assumption
    | with_reducible refine State.recordEvent_sound _ _ _ _ ?_

theorem execRecMark_sound (id : Word) (s : State) (h_s : s.Sound) :
    NextSound (execRecMark id s) := by
  unfold execRecMark
  repeat' first
    | with_reducible assumption
    | with_reducible refine nextSound_next ?_
    | with_reducible refine State.completed_sound _ _ _ ?_
    | with_reducible refine State.writeMark_sound _ _ ?_

theorem execRecGap_sound (s : State) (h_s : s.Sound) :
    NextSound (execRecGap s) := by
  unfold execRecGap
  repeat' first
    | with_reducible assumption
    | with_reducible refine nextSound_next ?_
    | with_reducible refine State.gapRec_sound _ ?_

theorem State.updDig_sound (s : State) (tick : Nat) (g : TickDig → TickDig) (h_s : s.Sound) :
    (State.updDig s tick g).Sound := by
  unfold State.updDig
  repeat' first
    | (simp only [State.Sound]; with_reducible refine sound_fold ?_; with_reducible assumption)

theorem State.digAdd_sound (s : State) (tick : Nat) (bs : List Byte) (h_s : s.Sound) :
    (State.digAdd s tick bs).Sound := by
  unfold State.digAdd
  repeat' first
    | with_reducible assumption
    | with_reducible refine State.updDig_sound _ _ _ ?_

theorem State.digPacket_sound (s : State) (tick : Nat) (p : Packet) (h_s : s.Sound) :
    (State.digPacket s tick p).Sound := by
  unfold State.digPacket
  repeat' first
    | with_reducible assumption
    | with_reducible refine State.digAdd_sound _ _ _ ?_

theorem State.replayDig_sound (s : State) (tick : Nat) (sum : Nat) (h_s : s.Sound) :
    (State.replayDig s tick sum).Sound := by
  unfold State.replayDig
  repeat' first
    | with_reducible assumption
    | dsimp only [Out.at]
    | split
    | (simp only [State.Sound]; with_reducible refine sound_fold ?_; with_reducible assumption)

theorem State.finishDig_sound (s : State) (d : TickDig) (h_s : s.Sound) :
    (State.finishDig s d).Sound := by
  unfold State.finishDig
  repeat' first
    | with_reducible assumption
    | with_reducible refine sound_ite ?_ ?_
    | with_reducible refine State.recordEvent_sound _ _ _ _ ?_
    | with_reducible refine State.replayDig_sound _ _ _ ?_
    | with_reducible refine State.sendCtrl_sound _ _ _ ?_
    | (simp only [State.Sound]; with_reducible refine sound_fold ?_; with_reducible refine State.replayDig_sound _ _ _ ?_)

theorem State.compareDig_sound (s : State) (p : PeerDig) (h_s : s.Sound) :
    (State.compareDig s p).Sound := by
  unfold State.compareDig
  repeat' first
    | with_reducible assumption
    | with_reducible refine sound_ite ?_ ?_
    | with_reducible refine State.setFld_sound _ _ _ _ ?_
    | with_reducible refine State.bump_sound _ _ _ _ ?_
    | with_reducible refine State.endShadow_sound _ _ _ ?_
    | dsimp only [Out.at]
    | split
    | (simp only [State.Sound]; with_reducible refine sound_fold ?_; with_reducible assumption)

theorem State.sweepDigs_sound (s : State) (h_s : s.Sound) :
    (State.sweepDigs s).Sound := by
  unfold State.sweepDigs
  repeat' first
    | with_reducible assumption
    | with_reducible refine sound_foldl (fun s a h => ?_) ?_
    | with_reducible refine State.finishDig_sound _ _ ?_
    | with_reducible refine State.compareDig_sound _ _ ?_
    | (simp only [State.Sound]; with_reducible refine sound_fold ?_; with_reducible assumption)

theorem State.digOpen_sound (s : State) (tick : Nat) (h_s : s.Sound) :
    (State.digOpen s tick).Sound := by
  unfold State.digOpen
  repeat' first
    | with_reducible assumption
    | with_reducible refine sound_ite ?_ ?_
    | with_reducible refine State.sweepDigs_sound _ ?_
    | with_reducible refine State.updDig_sound _ _ _ ?_
    | (simp only [State.Sound]; with_reducible refine sound_fold ?_; with_reducible refine State.sweepDigs_sound _ ?_)

theorem State.digClose_sound (s : State) (tick : Nat) (f : Nat) (inst : Nat) (code : Nat) (h_s : s.Sound) :
    (State.digClose s tick f inst code).Sound := by
  unfold State.digClose
  repeat' first
    | with_reducible assumption
    | with_reducible refine sound_ite ?_ ?_
    | with_reducible refine State.digAdd_sound _ _ _ ?_
    | with_reducible refine State.updDig_sound _ _ _ ?_
    | with_reducible refine State.freezeRec_sound _ ?_
    | with_reducible refine State.endShadow_sound _ _ _ ?_
    | with_reducible refine State.sweepDigs_sound _ ?_

end Sys2Proof.Machine
end

