-- ==== Sys2Proof/Laws/SoundFlues.lean ====
section
/-! SUPPORT. That the definitions of Machine/Flues.lean keep a state sound. -/
namespace Sys2Proof.Machine

theorem State.setFlue_sound (s : State) (f : Nat) (x : FlueRec) (h_s : s.Sound) :
    (State.setFlue s f x).Sound := by
  unfold State.setFlue
  repeat' first
    | (simp only [State.Sound]; with_reducible refine sound_fold ?_; with_reducible assumption)

theorem State.setEntry_sound (s : State) (f : Nat) (x : Fld) (v : Nat) (h_s : s.Sound) :
    (State.setEntry s f x v).Sound := by
  unfold State.setEntry
  repeat' first
    | with_reducible assumption
    | with_reducible refine State.setFld_sound _ _ _ _ ?_

theorem State.setRun_sound (s : State) (f : Nat) (r : FlueRun) (h_s : s.Sound) :
    (State.setRun s f r).Sound := by
  unfold State.setRun
  repeat' first
    | with_reducible assumption
    | with_reducible refine State.setEntry_sound _ _ _ _ ?_
    | with_reducible refine State.setFlue_sound _ _ _ ?_

theorem State.logFlue_sound (s : State) (code : Nat) (details : List Nat) (h_s : s.Sound) :
    (State.logFlue s code details).Sound := by
  unfold State.logFlue
  repeat' first
    | with_reducible assumption
    | with_reducible refine State.logAt_sound _ _ _ _ _ _ _ ?_

theorem State.flueRead_sound (s : State) (loc : Nat) (off : Nat) (n : Nat) (h_s : s.Sound) :
    (State.flueRead s loc off n).2.Sound := by
  unfold State.flueRead
  repeat' first
    | with_reducible assumption
    | with_reducible refine State.fabRead_sound _ _ _ ?_
    | with_reducible refine State.placeRead_sound _ _ _ _ ?_
    | dsimp only [Out.at]
    | split

theorem State.flueWrite_sound (s : State) (loc : Nat) (off : Nat) (bs : List Byte) (h_s : s.Sound) :
    (State.flueWrite s loc off bs).2.Sound := by
  unfold State.flueWrite
  repeat' first
    | with_reducible assumption
    | with_reducible refine State.fabWrite_sound _ _ _ ?_
    | with_reducible refine State.placeWrite_sound _ _ _ _ ?_
    | dsimp only [Out.at]
    | split

theorem State.hubWrite_sound (s : State) (c : CoreId) (a : Nat) (bs : List Byte) (h_s : s.Sound) :
    (State.hubWrite s c a bs).Sound := by
  unfold State.hubWrite
  repeat' first
    | with_reducible assumption
    | with_reducible refine sound_ite ?_ ?_
    | with_reducible refine State.hwrite_sound _ _ _ _ ?_

theorem State.flueSend_sound (s : State) (f : Nat) (p : Packet) (h_s : s.Sound) :
    (State.flueSend s f p).Sound := by
  unfold State.flueSend
  repeat' first
    | with_reducible assumption
    | with_reducible refine sound_ite ?_ ?_
    | with_reducible refine State.tryInject_sound _ _ _ _ _ _ ?_
    | with_reducible refine sound_of_snd (by assumption) ?_
    | split
    | (simp only [State.Sound]; with_reducible refine sound_fold ?_; with_reducible refine sound_of_snd (by assumption) ?_)

theorem State.sendAborts_sound (s : State) (f : Nat) (m : List Byte) (inst : Nat) (tick : Nat) (code : Nat) (h_s : s.Sound) :
    (State.sendAborts s f m inst tick code).Sound := by
  unfold State.sendAborts
  repeat' first
    | with_reducible assumption
    | with_reducible refine sound_foldl (fun s a h => ?_) ?_
    | with_reducible refine State.flueSend_sound _ _ _ ?_
    | with_reducible refine State.count_sound _ _ _ _ ?_
    | with_reducible refine State.flag_sound _ _ _ ?_

theorem State.flueFlags_sound (s : State) (code : Nat) (h_s : s.Sound) :
    (State.flueFlags s code).Sound := by
  unfold State.flueFlags
  repeat' first
    | with_reducible assumption
    | with_reducible refine sound_ite ?_ ?_
    | with_reducible refine State.count_sound _ _ _ _ ?_
    | with_reducible refine State.flag_sound _ _ _ ?_

theorem State.flueRecord_sound (s : State) (f : Nat) (m : List Byte) (r : FlueRun) (code : Nat) (cause : Nat) (h_s : s.Sound) :
    (State.flueRecord s f m r code cause).2.Sound := by
  unfold State.flueRecord
  repeat' first
    | with_reducible assumption
    | with_reducible refine State.flueWrite_sound _ _ _ _ ?_
    | (lift_lets; intro s1; clear_value s1)
    | dsimp only [Out.at]
    | split

theorem State.destSignal_sound (s : State) (f : Nat) (m : List Byte) (i : Nat) (h_s : s.Sound) :
    (State.destSignal s f m i).Sound := by
  unfold State.destSignal
  repeat' first
    | with_reducible assumption
    | with_reducible refine sound_ite ?_ ?_
    | with_reducible refine State.landSig_sound _ _ _ _ _ _ _ _ _ ?_

theorem State.freeHeld_sound (s : State) (f : Nat) (r : FlueRun) (h_s : s.Sound) :
    (State.freeHeld s f r).Sound := by
  unfold State.freeHeld
  repeat' first
    | with_reducible assumption
    | with_reducible refine sound_foldl (fun s a h => ?_) ?_
    | with_reducible refine State.dropBuffer_sound _ _ _ ?_

theorem State.closeRun_sound (s : State) (f : Nat) (code : Nat) (cause : Nat) (h_s : s.Sound) :
    (State.closeRun s f code cause).Sound := by
  unfold State.closeRun
  repeat' first
    | with_reducible assumption
    | with_reducible refine State.digClose_sound _ _ _ _ _ ?_
    | with_reducible refine State.setFlue_sound _ _ _ ?_
    | with_reducible refine State.setEntry_sound _ _ _ _ ?_
    | (lift_lets; intro s1; clear_value s1)
    | dsimp only [Out.at]
    | split
    | (simp only [State.Sound]; with_reducible refine sound_fold ?_; with_reducible refine State.setEntry_sound _ _ _ _ ?_)

theorem State.spoilDests_sound (s : State) (m : List Byte) (h_s : s.Sound) :
    (State.spoilDests s m).Sound := by
  unfold State.spoilDests
  repeat' first
    | with_reducible assumption
    | with_reducible refine sound_foldl (fun s a h => ?_) ?_
    | with_reducible refine State.freeBytes_sound _ _ ?_
    | with_reducible refine State.flueWrite_sound _ _ _ _ ?_

theorem State.flueFail_sound (s : State) (f : Nat) (r : FlueRun) (code : Nat) (cause : Nat) (h_s : s.Sound) :
    (State.flueFail s f r code cause).Sound := by
  unfold State.flueFail
  repeat' first
    | with_reducible assumption
    | with_reducible refine sound_ite ?_ ?_
    | with_reducible refine State.spoilDests_sound _ _ ?_
    | with_reducible refine State.flueRecord_sound _ _ _ _ _ _ ?_
    | with_reducible refine State.closeRun_sound _ _ _ _ ?_
    | with_reducible refine State.freeHeld_sound _ _ _ ?_
    | with_reducible refine State.logFlue_sound _ _ _ ?_
    | with_reducible refine State.flueFlags_sound _ _ ?_
    | with_reducible refine State.sendAborts_sound _ _ _ _ _ _ ?_

theorem State.quickFail_sound (s : State) (f : Nat) (r : FlueRun) (code : Nat) (h_s : s.Sound) :
    (State.quickFail s f r code).Sound := by
  unfold State.quickFail
  repeat' first
    | with_reducible assumption
    | with_reducible refine State.flueRecord_sound _ _ _ _ _ _ ?_
    | with_reducible refine State.logFlue_sound _ _ _ ?_
    | with_reducible refine State.flueFlags_sound _ _ ?_
    | with_reducible refine State.closeRun_sound _ _ _ _ ?_

theorem State.writeDests_sound (s : State) (m : List Byte) (parts : List (Nat × List Byte)) (h_s : s.Sound) :
    (State.writeDests s m parts).2.Sound := by
  unfold State.writeDests
  repeat' first
    | with_reducible assumption
    | with_reducible refine sound_foldl_snd (fun p a h => ?_) ?_
    | with_reducible refine State.flueWrite_sound _ _ _ _ ?_
    | dsimp only [Out.at]
    | split

theorem State.flueFinish_sound (s : State) (f : Nat) (r : FlueRun) (parts : List (Nat × List Byte)) (h_s : s.Sound) :
    (State.flueFinish s f r parts).Sound := by
  unfold State.flueFinish
  repeat' first
    | with_reducible assumption
    | with_reducible refine sound_ite ?_ ?_
    | with_reducible refine sound_foldl (fun s a h => ?_) ?_
    | with_reducible refine State.writeDests_sound _ _ _ ?_
    | with_reducible refine State.flueRecord_sound _ _ _ _ _ _ ?_
    | with_reducible refine State.logFlue_sound _ _ _ ?_
    | with_reducible refine State.flueFlags_sound _ _ ?_
    | with_reducible refine State.closeRun_sound _ _ _ _ ?_
    | with_reducible refine State.flueFail_sound _ _ _ _ _ ?_
    | with_reducible refine State.freeHeld_sound _ _ _ ?_
    | with_reducible refine State.destSignal_sound _ _ _ _ ?_
    | split

theorem State.writeFluCmd_sound (s : State) (w : Word) (h_s : s.Sound) :
    (State.writeFluCmd s w).2.Sound := by
  unfold State.writeFluCmd
  repeat' first
    | with_reducible assumption
    | with_reducible refine State.setFld_sound _ _ _ _ ?_
    | with_reducible refine State.setEntry_sound _ _ _ _ ?_
    | with_reducible refine State.quickFail_sound _ _ _ _ ?_
    | with_reducible refine State.flueFail_sound _ _ _ _ _ ?_
    | (lift_lets; intro s1; clear_value s1)
    | dsimp only [Out.at]
    | split
    | (simp only [State.Sound]; with_reducible refine sound_fold ?_; with_reducible refine State.setFld_sound _ _ _ _ ?_)

theorem flueCmdWrite_sound (op : Nat) (f : Nat) (s : State) (h_s : s.Sound) :
    NextSound (flueCmdWrite op f s) := by
  unfold flueCmdWrite
  repeat' first
    | with_reducible assumption
    | with_reducible refine onUnit_sound _ _ ?_
    | with_reducible refine State.writeFluCmd_sound _ _ ?_
    | with_reducible refine State.completed_sound _ _ _ ?_

theorem execLoad_sound (f : Nat) (s : State) (h_s : s.Sound) :
    NextSound (execLoad f s) := by
  unfold execLoad
  repeat' first
    | with_reducible assumption
    | with_reducible refine flueCmdWrite_sound _ _ _ ?_

theorem execUnload_sound (f : Nat) (s : State) (h_s : s.Sound) :
    NextSound (execUnload f s) := by
  unfold execUnload
  repeat' first
    | with_reducible assumption
    | with_reducible refine flueCmdWrite_sound _ _ _ ?_

theorem execFlueAbortCmd_sound (f : Nat) (s : State) (h_s : s.Sound) :
    NextSound (execFlueAbortCmd f s) := by
  unfold execFlueAbortCmd
  repeat' first
    | with_reducible assumption
    | with_reducible refine flueCmdWrite_sound _ _ _ ?_

theorem execClear_sound (f : Nat) (s : State) (h_s : s.Sound) :
    NextSound (execClear f s) := by
  unfold execClear
  repeat' first
    | with_reducible assumption
    | with_reducible refine flueCmdWrite_sound _ _ _ ?_

theorem State.readImage_sound (s : State) (c : FlueCmd) (h_s : s.Sound) :
    (State.readImage s c).2.Sound := by
  unfold State.readImage
  repeat' first
    | with_reducible assumption
    | with_reducible refine State.fabRead_sound _ _ _ ?_
    | with_reducible refine State.freeBytes_sound _ _ ?_
    | (lift_lets; intro s1; clear_value s1)
    | dsimp only [Out.at]
    | split

theorem execFlueLoadDone_sound (s : State) (h_s : s.Sound) :
    NextSound (execFlueLoadDone s) := by
  unfold execFlueLoadDone
  repeat' first
    | with_reducible assumption
    | with_reducible refine nextSound_next ?_
    | with_reducible refine sound_ite ?_ ?_
    | with_reducible refine ite_keeps NextSound ?_ ?_
    | with_reducible refine sound_foldl (fun s a h => ?_) ?_
    | with_reducible refine State.setFld_sound _ _ _ _ ?_
    | with_reducible refine State.readImage_sound _ _ ?_
    | with_reducible refine State.setEntry_sound _ _ _ _ ?_
    | with_reducible refine State.setFlue_sound _ _ _ ?_
    | with_reducible refine State.removeOwner_sound _ _ _ _ ?_
    | (lift_lets; intro s1; refine (fun (h1 : State.Sound s1) => ?_) ?_; clear_value s1; rotate_left; dsimp only [s1]; rotate_left)
    | dsimp only [Out.at]
    | split
    | (simp only [State.Sound]; with_reducible refine sound_fold ?_; with_reducible assumption)

theorem State.outgoing_sound (s : State) (m : List Byte) (r : FlueRun) (l : FLink) (seg : Nat) (idx : Nat) (len : Nat) (h_s : s.Sound) :
    OptSat (fun y36 => y36.2.Sound) (State.outgoing s m r l seg idx len) := by
  unfold State.outgoing
  repeat' first
    | with_reducible assumption
    | with_reducible exact optSat_none
    | with_reducible refine optSat_some ?_
    | with_reducible refine optSat_map (fun a => ?_)
    | with_reducible refine optSat_ite ?_ ?_
    | with_reducible refine State.flueRead_sound _ _ _ _ ?_
    | dsimp only [Out.at]
    | split

theorem State.sendNext_sound (s : State) (f : Nat) (l : FLink) (h_s : s.Sound) :
    (State.sendNext s f l).2.Sound := by
  unfold State.sendNext
  repeat' first
    | with_reducible assumption
    | with_reducible refine State.outgoing_sound _ _ _ _ _ _ _ ?_
    | with_reducible refine State.flueFail_sound _ _ _ _ _ ?_
    | with_reducible refine State.flueWrite_sound _ _ _ _ ?_
    | with_reducible refine State.setRun_sound _ _ _ ?_
    | with_reducible refine State.bump_sound _ _ _ _ ?_
    | with_reducible refine State.flueSend_sound _ _ _ ?_
    | with_reducible refine State.digPacket_sound _ _ _ ?_
    | (lift_lets; intro s1; clear_value s1)
    | with_reducible refine sound_of_some_snd (by assumption) ?_
    | dsimp only [Out.at]
    | split

theorem State.sendAll_sound (s : State) (f : Nat) (l : FLink) (a_3 : Nat) (h_s : s.Sound) :
    (State.sendAll s f l a_3).Sound := by
  induction a_3 generalizing s with
  | zero => exact h_s
  | succ n ih =>
    unfold State.sendAll
    split
    · rename_i heq
      exact ih _ (sound_of_snd heq (State.sendNext_sound _ _ _ h_s))
    · rename_i heq
      exact sound_of_snd heq (State.sendNext_sound _ _ _ h_s)

theorem State.grantSpare_sound (s : State) (f : Nat) (kept : Nat) (a_3 : Nat) (h_s : s.Sound) :
    (State.grantSpare s f kept a_3).Sound := by
  induction a_3 generalizing s kept with
  | zero => exact h_s
  | succ n ih =>
    unfold State.grantSpare
    split
    · exact h_s
    · dsimp only
      split
      · exact h_s
      · split
        · exact ih _ _ (State.setRun_sound _ _ _ (State.freeWord_sound _ h_s))
        · exact ih _ _ (State.freeWord_sound _ h_s)

theorem State.drawMore_sound (s : State) (f : Nat) (a_2 : Nat) (h_s : s.Sound) :
    (State.drawMore s f a_2).Sound := by
  induction a_2 generalizing s with
  | zero => exact h_s
  | succ n ih =>
    unfold State.drawMore
    split
    · exact h_s
    · dsimp only
      split
      · exact h_s
      · split
        · rename_i heq
          exact ih _ (State.setRun_sound _ _ _ (sound_of_snd heq (State.request_sound _ _ _ _ _ h_s)))
        · rename_i heq
          exact State.setRun_sound _ _ _ (sound_of_snd heq (State.request_sound _ _ _ _ _ h_s))

theorem State.sendGrant_sound (s : State) (f : Nat) (l : FLink) (h_s : s.Sound) :
    (State.sendGrant s f l).Sound := by
  unfold State.sendGrant
  repeat' first
    | with_reducible assumption
    | with_reducible refine State.setRun_sound _ _ _ ?_
    | with_reducible refine State.flueSend_sound _ _ _ ?_
    | (lift_lets; intro s1; clear_value s1)
    | dsimp only [Out.at]
    | split

theorem State.sayGrants_sound (s : State) (f : Nat) (h_s : s.Sound) :
    (State.sayGrants s f).Sound := by
  unfold State.sayGrants
  repeat' first
    | with_reducible assumption
    | with_reducible refine sound_ite ?_ ?_
    | with_reducible refine sound_foldl (fun s a h => ?_) ?_
    | with_reducible refine State.sendGrant_sound _ _ _ ?_
    | dsimp only [Out.at]
    | split

theorem State.flueWork_sound (s : State) (f : Nat) (h_s : s.Sound) :
    (State.flueWork s f).Sound := by
  unfold State.flueWork
  repeat' first
    | with_reducible assumption
    | with_reducible refine sound_ite ?_ ?_
    | with_reducible refine sound_foldl (fun s a h => ?_) ?_
    | with_reducible refine State.drawMore_sound _ _ _ ?_
    | with_reducible refine State.sendAll_sound _ _ _ _ ?_
    | with_reducible refine State.sayGrants_sound _ _ ?_
    | with_reducible refine State.grantSpare_sound _ _ _ _ ?_
    | (lift_lets; intro s1; clear_value s1)
    | dsimp only [Out.at]
    | split

theorem State.copyIn_sound (s : State) (f : Nat) (m : List Byte) (t : Nat) (st : HubStep) (seg : Nat) (idx : Nat) (c : CoreId) (a : Nat) (pos : Nat) (h_s : s.Sound) :
    (State.copyIn s f m t st seg idx c a pos).2.Sound := by
  unfold State.copyIn
  repeat' first
    | with_reducible assumption
    | with_reducible refine sound_ite ?_ ?_
    | with_reducible refine State.flueRead_sound _ _ _ _ ?_
    | with_reducible refine State.hubWrite_sound _ _ _ _ ?_
    | with_reducible refine State.setRun_sound _ _ _ ?_
    | (lift_lets; intro s1; clear_value s1)
    | dsimp only [Out.at]
    | split

theorem State.hubSignal_sound (s : State) (f : Nat) (m : List Byte) (hub : Nat) (obj : Nat) (h_s : s.Sound) :
    (State.hubSignal s f m hub obj).Sound := by
  unfold State.hubSignal
  repeat' first
    | with_reducible assumption
    | with_reducible refine State.landSig_sound _ _ _ _ _ _ _ _ _ ?_

theorem State.writeTask_sound (s : State) (c : CoreId) (handle : Nat) (a : List Byte) (d : List Byte) (info : List Byte) (h_s : s.Sound) :
    (State.writeTask s c handle a d info).Sound := by
  unfold State.writeTask
  repeat' first
    | with_reducible assumption
    | with_reducible refine State.hubWrite_sound _ _ _ _ ?_

theorem execHubTask_sound (f : Nat) (hub : Nat) (s : State) (h_s : s.Sound) :
    NextSound (execHubTask f hub s) := by
  unfold execHubTask
  repeat' first
    | with_reducible assumption
    | with_reducible refine sound_ite ?_ ?_
    | with_reducible refine sound_foldl_snd (fun p a h => ?_) ?_
    | with_reducible refine onUnit_sound _ _ ?_
    | with_reducible refine State.copyIn_sound _ _ _ _ _ _ _ _ _ _ ?_
    | with_reducible refine State.flueFail_sound _ _ _ _ _ ?_
    | with_reducible refine State.writeTask_sound _ _ _ _ _ _ ?_
    | with_reducible refine State.flueWork_sound _ _ ?_
    | with_reducible refine State.hubSignal_sound _ _ _ _ _ ?_
    | with_reducible refine State.setRun_sound _ _ _ ?_
    | (lift_lets; intro s1; clear_value s1)
    | dsimp only [Out.at]
    | split

theorem State.takeHub_sound (s : State) (m : List Byte) (hub : Nat) (obj : Nat) (h_s : s.Sound) :
    (State.takeHub s m hub obj).2.Sound := by
  unfold State.takeHub
  repeat' first
    | with_reducible assumption
    | with_reducible refine State.beforeWait_sound _ _ _ _ _ ?_
    | with_reducible refine State.judge_sound _ _ _ _ _ _ ?_
    | (lift_lets; intro s1; clear_value s1)
    | dsimp only [Out.at]
    | split

theorem execTaskTakeback_sound (f : Nat) (hub : Nat) (upd : Bool) (s : State) (h_s : s.Sound) :
    NextSound (execTaskTakeback f hub upd s) := by
  unfold execTaskTakeback
  repeat' first
    | with_reducible assumption
    | with_reducible refine sound_ite ?_ ?_
    | with_reducible refine onUnit_sound _ _ ?_
    | with_reducible refine State.takeHub_sound _ _ _ _ ?_
    | with_reducible refine State.writeTask_sound _ _ _ _ _ _ ?_
    | with_reducible refine State.hubSignal_sound _ _ _ _ _ ?_
    | with_reducible refine State.setRun_sound _ _ _ ?_
    | with_reducible refine State.flueWork_sound _ _ ?_
    | (lift_lets; intro s1; clear_value s1)
    | dsimp only [Out.at]
    | split

theorem State.sendAgain_sound (s : State) (f : Nat) (m : List Byte) (r : FlueRun) (l : FLink) (seg : Nat) (h_s : s.Sound) :
    (State.sendAgain s f m r l seg).Sound := by
  unfold State.sendAgain
  repeat' first
    | with_reducible assumption
    | with_reducible refine sound_ite ?_ ?_
    | with_reducible refine sound_foldl (fun s a h => ?_) ?_
    | with_reducible refine State.flueRead_sound _ _ _ _ ?_
    | with_reducible refine State.bump_sound _ _ _ _ ?_
    | with_reducible refine State.flueSend_sound _ _ _ ?_

theorem State.hearMessage_sound (s : State) (f : Nat) (p : Packet) (h_s : s.Sound) :
    (State.hearMessage s f p).Sound := by
  unfold State.hearMessage
  repeat' first
    | with_reducible assumption
    | with_reducible refine sound_ite ?_ ?_
    | with_reducible refine State.flueFail_sound _ _ _ _ _ ?_
    | with_reducible refine State.count_sound _ _ _ _ ?_
    | with_reducible refine State.flag_sound _ _ _ ?_
    | with_reducible refine State.flueWork_sound _ _ ?_
    | with_reducible refine State.setRun_sound _ _ _ ?_
    | with_reducible refine State.sendAgain_sound _ _ _ _ _ _ ?_
    | (lift_lets; intro s1; clear_value s1)
    | dsimp only [Out.at]
    | split

theorem State.arriveMessage_sound (s : State) (msg : Nat) (p : Packet) (h_s : s.Sound) :
    (State.arriveMessage s msg p).Sound := by
  unfold State.arriveMessage
  repeat' first
    | with_reducible assumption
    | with_reducible refine sound_ite ?_ ?_
    | with_reducible refine State.land_sound _ _ ?_
    | with_reducible refine State.hearMessage_sound _ _ _ ?_
    | with_reducible refine State.setFlue_sound _ _ _ ?_
    | (lift_lets; intro s1; refine (fun (h1 : State.Sound s1) => ?_) ?_; clear_value s1; rotate_left; dsimp only [s1]; rotate_left)
    | dsimp only [Out.at]
    | split

theorem execGrant_sound (p : Packet) (s : State) (h_s : s.Sound) :
    NextSound (execGrant p s) := by
  unfold execGrant
  repeat' first
    | with_reducible assumption
    | with_reducible refine nextSound_next ?_
    | with_reducible refine State.arriveMessage_sound _ _ _ ?_

theorem execResend_sound (p : Packet) (s : State) (h_s : s.Sound) :
    NextSound (execResend p s) := by
  unfold execResend
  repeat' first
    | with_reducible assumption
    | with_reducible refine nextSound_next ?_
    | with_reducible refine State.arriveMessage_sound _ _ _ ?_

theorem execAbort_sound (p : Packet) (s : State) (h_s : s.Sound) :
    NextSound (execAbort p s) := by
  unfold execAbort
  repeat' first
    | with_reducible assumption
    | with_reducible refine nextSound_next ?_
    | with_reducible refine State.arriveMessage_sound _ _ _ ?_

theorem execCountMessage_sound (p : Packet) (s : State) (h_s : s.Sound) :
    NextSound (execCountMessage p s) := by
  unfold execCountMessage
  repeat' first
    | with_reducible assumption
    | with_reducible refine nextSound_next ?_
    | with_reducible refine State.arriveMessage_sound _ _ _ ?_

theorem execGrantRepeat_sound (f : Nat) (s : State) (h_s : s.Sound) :
    NextSound (execGrantRepeat f s) := by
  unfold execGrantRepeat
  repeat' first
    | with_reducible assumption
    | with_reducible refine sound_ite ?_ ?_
    | with_reducible refine sound_foldl (fun s a h => ?_) ?_
    | with_reducible refine onUnit_sound _ _ ?_
    | with_reducible refine State.at_sound _ _ ?_
    | with_reducible refine State.setRun_sound _ _ _ ?_
    | with_reducible refine State.sendGrant_sound _ _ _ ?_
    | dsimp only [Out.at]
    | split

theorem State.shadowDraw_sound (s : State) (f : Nat) (m : List Byte) (r : FlueRun) (h_s : s.Sound) :
    (State.shadowDraw s f m r).2.Sound := by
  unfold State.shadowDraw
  repeat' first
    | with_reducible assumption
    | with_reducible refine State.request_sound _ _ _ _ _ ?_
    | with_reducible refine State.setRun_sound _ _ _ ?_
    | with_reducible refine sound_of_snd (by assumption) ?_
    | dsimp only [Out.at]
    | split

theorem execFlueChunk_sound (p : Packet) (s : State) (h_s : s.Sound) :
    NextSound (execFlueChunk p s) := by
  unfold execFlueChunk
  repeat' first
    | with_reducible assumption
    | with_reducible refine nextSound_next ?_
    | with_reducible refine sound_ite ?_ ?_
    | with_reducible refine ite_keeps NextSound ?_ ?_
    | with_reducible refine State.land_sound _ _ ?_
    | with_reducible refine State.flueFail_sound _ _ _ _ _ ?_
    | with_reducible refine State.setRun_sound _ _ _ ?_
    | with_reducible refine State.shadowDraw_sound _ _ _ _ ?_
    | with_reducible refine State.bump_sound _ _ _ _ ?_
    | with_reducible refine State.flueWrite_sound _ _ _ _ ?_
    | with_reducible refine State.flueWork_sound _ _ ?_
    | (lift_lets; intro s1; clear_value s1)
    | dsimp only [Out.at]
    | split

theorem execPieceResendTimeout_sound (f : Nat) (peer : Nat) (seg : Nat) (down : Bool) (s : State) (h_s : s.Sound) :
    NextSound (execPieceResendTimeout f peer seg down s) := by
  unfold execPieceResendTimeout
  repeat' first
    | with_reducible assumption
    | with_reducible refine sound_ite ?_ ?_
    | with_reducible refine onUnit_sound _ _ ?_
    | with_reducible refine State.at_sound _ _ ?_
    | with_reducible refine State.flueFail_sound _ _ _ _ _ ?_
    | with_reducible refine State.setRun_sound _ _ _ ?_
    | with_reducible refine State.flueSend_sound _ _ _ ?_
    | with_reducible refine State.logFlue_sound _ _ _ ?_
    | with_reducible refine State.healthAdd_sound _ _ _ ?_
    | with_reducible refine State.count_sound _ _ _ _ ?_
    | with_reducible refine State.flag_sound _ _ _ ?_
    | (lift_lets; intro s1; clear_value s1)
    | dsimp only [Out.at]
    | split

theorem State.hearHeld_sound (s : State) (f : Nat) (h_s : s.Sound) :
    (State.hearHeld s f).Sound := by
  unfold State.hearHeld
  repeat' first
    | with_reducible assumption
    | with_reducible refine sound_foldl (fun s a h => ?_) ?_
    | with_reducible refine State.setFlue_sound _ _ _ ?_
    | with_reducible refine State.hearMessage_sound _ _ _ ?_

theorem State.sendCounts_sound (s : State) (f : Nat) (h_s : s.Sound) :
    (State.sendCounts s f).Sound := by
  unfold State.sendCounts
  repeat' first
    | with_reducible assumption
    | with_reducible refine sound_ite ?_ ?_
    | with_reducible refine sound_foldl (fun s a h => ?_) ?_
    | with_reducible refine State.flueFail_sound _ _ _ _ _ ?_
    | with_reducible refine State.setRun_sound _ _ _ ?_
    | with_reducible refine State.flueSend_sound _ _ _ ?_
    | with_reducible refine State.digPacket_sound _ _ _ ?_
    | (lift_lets; intro s1; clear_value s1)
    | dsimp only [Out.at]
    | split

theorem State.flueBegin_sound (s : State) (f : Nat) (h_s : s.Sound) :
    (State.flueBegin s f).Sound := by
  unfold State.flueBegin
  repeat' first
    | with_reducible assumption
    | with_reducible refine sound_ite ?_ ?_
    | with_reducible refine State.sendCounts_sound _ _ ?_
    | with_reducible refine State.flueWork_sound _ _ ?_
    | with_reducible refine State.hearHeld_sound _ _ ?_

theorem State.takeGo_sound (s : State) (m : List Byte) (h_s : s.Sound) :
    (State.takeGo s m).2.Sound := by
  unfold State.takeGo
  repeat' first
    | with_reducible assumption
    | with_reducible refine State.beforeWait_sound _ _ _ _ _ ?_
    | with_reducible refine State.judge_sound _ _ _ _ _ _ ?_
    | (lift_lets; intro s1; clear_value s1)
    | dsimp only [Out.at]
    | split

theorem State.goFails_sound (s : State) (f : Nat) (m : List Byte) (h_s : s.Sound) :
    (State.goFails s f m).Sound := by
  unfold State.goFails
  repeat' first
    | with_reducible assumption
    | with_reducible refine State.setEntry_sound _ _ _ _ ?_
    | with_reducible refine State.logFlue_sound _ _ _ ?_
    | with_reducible refine State.flueFlags_sound _ _ ?_

theorem State.openRun_sound (s : State) (f : Nat) (h_s : s.Sound) :
    (State.openRun s f).2.Sound := by
  unfold State.openRun
  repeat' first
    | with_reducible assumption
    | with_reducible refine State.setEntry_sound _ _ _ _ ?_
    | with_reducible refine State.digOpen_sound _ _ ?_
    | (simp only [State.Sound]; with_reducible refine sound_fold ?_; with_reducible refine State.setEntry_sound _ _ _ _ ?_)

theorem execFlueLaunch_sound (f : Nat) (s : State) (h_s : s.Sound) :
    NextSound (execFlueLaunch f s) := by
  unfold execFlueLaunch
  repeat' first
    | with_reducible assumption
    | with_reducible refine sound_ite ?_ ?_
    | with_reducible refine onUnit_sound _ _ ?_
    | with_reducible refine State.takeGo_sound _ _ ?_
    | with_reducible refine State.goFails_sound _ _ _ ?_
    | with_reducible refine State.openRun_sound _ _ ?_
    | with_reducible refine State.request_sound _ _ _ _ _ ?_
    | with_reducible refine State.flueBegin_sound _ _ ?_
    | with_reducible refine State.setRun_sound _ _ _ ?_
    | with_reducible refine sound_of_snd (by assumption) ?_
    | dsimp only [Out.at]
    | split

theorem execFlueBufferGrant_sound (f : Nat) (s : State) (h_s : s.Sound) :
    NextSound (execFlueBufferGrant f s) := by
  unfold execFlueBufferGrant
  repeat' first
    | with_reducible assumption
    | with_reducible refine sound_ite ?_ ?_
    | with_reducible refine onUnit_sound _ _ ?_
    | with_reducible refine State.request_sound _ _ _ _ _ ?_
    | with_reducible refine State.setRun_sound _ _ _ ?_
    | with_reducible refine State.flueBegin_sound _ _ ?_
    | with_reducible refine State.flueWork_sound _ _ ?_
    | (lift_lets; intro s1; clear_value s1)
    | with_reducible refine sound_of_snd (by assumption) ?_
    | dsimp only [Out.at]
    | split

theorem execFlueBufferTimeout_sound (f : Nat) (s : State) (h_s : s.Sound) :
    NextSound (execFlueBufferTimeout f s) := by
  unfold execFlueBufferTimeout
  repeat' first
    | with_reducible assumption
    | with_reducible refine sound_ite ?_ ?_
    | with_reducible refine onUnit_sound _ _ ?_
    | with_reducible refine State.flueFail_sound _ _ _ _ _ ?_
    | with_reducible refine State.at_sound _ _ ?_
    | split

theorem execFlueTimeout_sound (f : Nat) (s : State) (h_s : s.Sound) :
    NextSound (execFlueTimeout f s) := by
  unfold execFlueTimeout
  repeat' first
    | with_reducible assumption
    | with_reducible refine sound_ite ?_ ?_
    | with_reducible refine onUnit_sound _ _ ?_
    | with_reducible refine State.at_sound _ _ ?_
    | with_reducible refine State.quickFail_sound _ _ _ _ ?_
    | with_reducible refine State.flueFail_sound _ _ _ _ _ ?_
    | dsimp only [Out.at]
    | split

theorem execFlueUnlaunchedMismatch_sound (f : Nat) (s : State) (h_s : s.Sound) :
    NextSound (execFlueUnlaunchedMismatch f s) := by
  unfold execFlueUnlaunchedMismatch
  repeat' first
    | with_reducible assumption
    | with_reducible refine sound_ite ?_ ?_
    | with_reducible refine onUnit_sound _ _ ?_
    | with_reducible refine State.atAlm_sound _ _ ?_
    | with_reducible refine State.setFlue_sound _ _ _ ?_
    | with_reducible refine State.setEntry_sound _ _ _ _ ?_
    | with_reducible refine State.logFlue_sound _ _ _ ?_
    | with_reducible refine State.flueFlags_sound _ _ ?_
    | with_reducible refine State.sendAborts_sound _ _ _ _ _ _ ?_
    | (lift_lets; intro s1; clear_value s1)
    | dsimp only [Out.at]
    | split

theorem State.ownBlock_sound (s : State) (m : List Byte) (off : Nat) (h_s : s.Sound) :
    (State.ownBlock s m off).2.Sound := by
  unfold State.ownBlock
  repeat' first
    | with_reducible assumption
    | with_reducible refine State.flueRead_sound _ _ _ _ ?_

theorem State.resultParts_sound (s : State) (m : List Byte) (r : FlueRun) (h_s : s.Sound) :
    (State.resultParts s m r).2.Sound := by
  unfold State.resultParts
  repeat' first
    | with_reducible assumption
    | with_reducible refine State.ownBlock_sound _ _ _ ?_
    | with_reducible refine State.freeBytes_sound _ _ ?_
    | (lift_lets; intro s1; clear_value s1)
    | dsimp only [Out.at]
    | split

theorem execFlueComplete_sound (f : Nat) (s : State) (h_s : s.Sound) :
    NextSound (execFlueComplete f s) := by
  unfold execFlueComplete
  repeat' first
    | with_reducible assumption
    | with_reducible refine sound_ite ?_ ?_
    | with_reducible refine onUnit_sound _ _ ?_
    | with_reducible refine State.quickFail_sound _ _ _ _ ?_
    | with_reducible refine State.flueFail_sound _ _ _ _ _ ?_
    | with_reducible refine State.resultParts_sound _ _ _ ?_
    | with_reducible refine State.flueFinish_sound _ _ _ _ ?_
    | (lift_lets; intro s1; clear_value s1)
    | dsimp only [Out.at]
    | split

end Sys2Proof.Machine
end

