-- ==== Sys2Proof/Laws/SoundQuick.lean ====
section
/-! SUPPORT. That the definitions of Machine/Quick.lean keep a state sound. -/
namespace Sys2Proof.Machine

theorem State.sendDown_sound (s : State) (f : Nat) (m : List Byte) (tick : Nat) (gen : Nat) (top : Nat) (v : List Nat) (h_s : s.Sound) :
    (State.sendDown s f m tick gen top v).Sound := by
  unfold State.sendDown
  repeat' first
    | with_reducible assumption
    | with_reducible refine sound_ite ?_ ?_
    | with_reducible refine sound_foldl (fun s a h => ?_) ?_
    | with_reducible refine State.flueSend_sound _ _ _ ?_
    | with_reducible refine State.digPacket_sound _ _ _ ?_

theorem State.quickEnd_sound (s : State) (f : Nat) (r : FlueRun) (top : Nat) (v : List Nat) (h_s : s.Sound) :
    (State.quickEnd s f r top v).Sound := by
  unfold State.quickEnd
  repeat' first
    | with_reducible assumption
    | with_reducible refine sound_ite ?_ ?_
    | with_reducible refine State.sendDown_sound _ _ _ _ _ _ _ ?_
    | with_reducible refine State.setFlue_sound _ _ _ ?_
    | with_reducible refine State.flueFinish_sound _ _ _ _ ?_
    | (lift_lets; intro s1; clear_value s1)
    | (simp only [State.Sound]; with_reducible refine sound_fold ?_; with_reducible refine State.setFlue_sound _ _ _ ?_)

theorem State.noteLate_sound (s : State) (id : Nat) (h_s : s.Sound) :
    (State.noteLate s id).Sound := by
  unfold State.noteLate
  repeat' first
    | with_reducible refine sound_ite ?_ ?_
    | with_reducible refine State.logAt_sound _ _ _ _ _ _ _ ?_
    | with_reducible refine State.relFlag_sound _ _ ?_
    | (simp only [State.Sound]; with_reducible refine sound_fold ?_; with_reducible assumption)

theorem State.judgeArrivals_sound (s : State) (as : List (Nat × Nat)) (h_s : s.Sound) :
    (State.judgeArrivals s as).Sound := by
  unfold State.judgeArrivals
  repeat' first
    | with_reducible assumption
    | with_reducible refine sound_ite ?_ ?_
    | with_reducible refine State.noteLate_sound _ _ ?_
    | split

theorem State.judgeStages_sound (s : State) (f : Nat) (j : Nat) (m : List Byte) (r : FlueRun) (a_5 : List Nat) (h_s : s.Sound) :
    (State.judgeStages s f j m r a_5).1.Sound := by
  induction a_5 generalizing s j with
  | nil => exact h_s
  | cons k ks ih =>
    unfold State.judgeStages
    split
    · exact ih _ _ h_s
    · split
      · exact h_s
      · split
        · exact h_s
        · exact ih _ _ (State.judgeArrivals_sound _ _ h_s)

theorem State.judgeLate_sound (s : State) (f : Nat) (h_s : s.Sound) :
    (State.judgeLate s f).Sound := by
  unfold State.judgeLate
  repeat' first
    | with_reducible assumption
    | with_reducible refine sound_ite ?_ ?_
    | with_reducible refine State.judgeStages_sound _ _ _ _ _ _ ?_
    | with_reducible refine State.setRun_sound _ _ _ ?_
    | dsimp only [Out.at]
    | split

theorem State.quickWork_sound (s : State) (f : Nat) (h_s : s.Sound) :
    (State.quickWork s f).Sound := by
  unfold State.quickWork
  repeat' first
    | with_reducible assumption
    | with_reducible refine sound_ite ?_ ?_
    | with_reducible refine State.judgeLate_sound _ _ ?_
    | with_reducible refine State.quickEnd_sound _ _ _ _ _ ?_
    | with_reducible refine State.flueSend_sound _ _ _ ?_
    | with_reducible refine State.digPacket_sound _ _ _ ?_
    | with_reducible refine State.setRun_sound _ _ _ ?_
    | (lift_lets; intro s1; refine (fun (h1 : State.Sound s1) => ?_) ?_; clear_value s1; rotate_left; dsimp only [s1]; rotate_left)
    | dsimp only [Out.at]
    | split

theorem State.quickOwn_sound (s : State) (m : List Byte) (h_s : s.Sound) :
    (State.quickOwn s m).2.Sound := by
  unfold State.quickOwn
  repeat' first
    | with_reducible assumption
    | with_reducible refine sound_foldl_snd (fun p a h => ?_) ?_
    | with_reducible refine State.flueRead_sound _ _ _ _ ?_
    | (lift_lets; intro s1; clear_value s1)
    | dsimp only [Out.at]
    | split

theorem State.quickOpen_sound (s : State) (f : Nat) (given : Option (List Nat)) (h_s : s.Sound) :
    (State.quickOpen s f given).Sound := by
  unfold State.quickOpen
  repeat' first
    | with_reducible assumption
    | with_reducible refine sound_ite ?_ ?_
    | with_reducible refine State.openRun_sound _ _ ?_
    | with_reducible refine State.quickOwn_sound _ _ ?_
    | with_reducible refine State.setFlue_sound _ _ _ ?_
    | with_reducible refine State.quickFail_sound _ _ _ _ ?_
    | with_reducible refine State.setRun_sound _ _ _ ?_
    | with_reducible refine State.quickWork_sound _ _ ?_
    | split

theorem execQuickLaunch_sound (f : Nat) (s : State) (h_s : s.Sound) :
    NextSound (execQuickLaunch f s) := by
  unfold execQuickLaunch
  repeat' first
    | with_reducible assumption
    | with_reducible refine sound_ite ?_ ?_
    | with_reducible refine onUnit_sound _ _ ?_
    | with_reducible refine State.takeGo_sound _ _ ?_
    | with_reducible refine State.goFails_sound _ _ _ ?_
    | with_reducible refine State.quickOpen_sound _ _ _ ?_
    | with_reducible refine sound_of_snd (by assumption) ?_
    | split

theorem State.quickMismatch_sound (s : State) (f : Nat) (h_s : s.Sound) :
    (State.quickMismatch s f).Sound := by
  unfold State.quickMismatch
  repeat' first
    | with_reducible assumption
    | with_reducible refine State.quickFail_sound _ _ _ _ ?_
    | split

theorem execQuickValue_sound (p : Packet) (s : State) (h_s : s.Sound) :
    NextSound (execQuickValue p s) := by
  unfold execQuickValue
  repeat' first
    | with_reducible assumption
    | with_reducible refine nextSound_next ?_
    | with_reducible refine ite_keeps NextSound ?_ ?_
    | with_reducible refine State.land_sound _ _ ?_
    | with_reducible refine State.quickMismatch_sound _ _ ?_
    | with_reducible refine State.flueSend_sound _ _ _ ?_
    | with_reducible refine State.setRun_sound _ _ _ ?_
    | with_reducible refine State.quickWork_sound _ _ ?_
    | with_reducible refine State.setFlue_sound _ _ _ ?_
    | (lift_lets; intro s1; refine (fun (h1 : State.Sound s1) => ?_) ?_; clear_value s1; rotate_left; dsimp only [s1]; rotate_left)
    | dsimp only [Out.at]
    | split

theorem execQuickDown_sound (p : Packet) (s : State) (h_s : s.Sound) :
    NextSound (execQuickDown p s) := by
  unfold execQuickDown
  repeat' first
    | with_reducible assumption
    | with_reducible refine nextSound_next ?_
    | with_reducible refine ite_keeps NextSound ?_ ?_
    | with_reducible refine State.land_sound _ _ ?_
    | with_reducible refine State.quickMismatch_sound _ _ ?_
    | with_reducible refine State.quickEnd_sound _ _ _ _ _ ?_
    | (lift_lets; intro s1; refine (fun (h1 : State.Sound s1) => ?_) ?_; clear_value s1; rotate_left; dsimp only [s1]; rotate_left)
    | dsimp only [Out.at]
    | split

theorem execQuickResend_sound (f : Nat) (s : State) (h_s : s.Sound) :
    NextSound (execQuickResend f s) := by
  unfold execQuickResend
  repeat' first
    | with_reducible assumption
    | with_reducible refine sound_ite ?_ ?_
    | with_reducible refine onUnit_sound _ _ ?_
    | with_reducible refine State.at_sound _ _ ?_
    | with_reducible refine State.quickFail_sound _ _ _ _ ?_
    | with_reducible refine State.setRun_sound _ _ _ ?_
    | with_reducible refine State.healthAdd_sound _ _ _ ?_
    | with_reducible refine State.count_sound _ _ _ _ ?_
    | with_reducible refine State.flag_sound _ _ _ ?_
    | with_reducible refine State.flueSend_sound _ _ _ ?_
    | (lift_lets; intro s1; clear_value s1)
    | dsimp only [Out.at]
    | split

end Sys2Proof.Machine
end

