-- ==== Sys2Proof/Laws/SoundJobs.lean ====
section
/-! SUPPORT. That the definitions of Machine/Jobs.lean keep a state sound. -/
namespace Sys2Proof.Machine

theorem State.jobFails_sound (s : State) (code : Nat) (h_s : s.Sound) :
    (State.jobFails s code).Sound := by
  unfold State.jobFails
  repeat' first
    | with_reducible assumption
    | with_reducible refine State.logSchedule_sound _ _ _ ?_
    | with_reducible refine State.setPhase_sound _ _ _ ?_

theorem State.arm_sound (s : State) (h_s : s.Sound) :
    (State.arm s).2.Sound := by
  unfold State.arm
  repeat' first
    | with_reducible assumption
    | with_reducible refine State.recordEvent_sound _ _ _ _ ?_
    | with_reducible refine State.jobFails_sound _ _ ?_
    | (lift_lets; intro s1; refine (fun (h1 : State.Sound s1) => ?_) ?_; clear_value s1; rotate_left; dsimp only [s1]; rotate_left)
    | dsimp only [Out.at]
    | split
    | (simp only [State.Sound]; with_reducible refine sound_fold ?_; with_reducible refine State.setFld_sound _ _ _ _ ?_)

theorem State.abortJob_sound (s : State) (h_s : s.Sound) :
    (State.abortJob s).2.Sound := by
  unfold State.abortJob
  repeat' first
    | with_reducible assumption
    | with_reducible refine State.setPhase_sound _ _ _ ?_
    | with_reducible refine State.stopAll_sound _ ?_
    | split

theorem State.writeJobCtl_sound (s : State) (w : Word) (h_s : s.Sound) :
    (State.writeJobCtl s w).2.Sound := by
  unfold State.writeJobCtl
  repeat' first
    | with_reducible assumption
    | with_reducible refine State.abortJob_sound _ ?_
    | with_reducible refine State.arm_sound _ ?_
    | (lift_lets; intro s1; clear_value s1)
    | with_reducible refine sound_of_snd (by assumption) ?_
    | dsimp only [Out.at]
    | split

theorem execArm_sound (s : State) (h_s : s.Sound) :
    NextSound (execArm s) := by
  unfold execArm
  repeat' first
    | with_reducible assumption
    | with_reducible refine nextSound_next ?_
    | with_reducible refine State.writeJobCtl_sound _ _ ?_
    | with_reducible refine State.completed_sound _ _ _ ?_

theorem execJobAbort_sound (s : State) (h_s : s.Sound) :
    NextSound (execJobAbort s) := by
  unfold execJobAbort
  repeat' first
    | with_reducible assumption
    | with_reducible refine nextSound_next ?_
    | with_reducible refine State.writeJobCtl_sound _ _ ?_
    | with_reducible refine State.completed_sound _ _ _ ?_

theorem execArmValidationDone_sound (s : State) (h_s : s.Sound) :
    NextSound (execArmValidationDone s) := by
  unfold execArmValidationDone
  repeat' first
    | with_reducible assumption
    | with_reducible refine nextSound_next ?_
    | with_reducible refine ite_keeps NextSound ?_ ?_
    | with_reducible refine State.at_sound _ _ ?_
    | with_reducible refine State.jobFails_sound _ _ ?_
    | with_reducible refine State.setPhase_sound _ _ _ ?_
    | (lift_lets; intro s1; refine (fun (h1 : State.Sound s1) => ?_) ?_; clear_value s1; rotate_left; dsimp only [s1]; rotate_left)
    | split

theorem execHandshakeOpen_sound (s : State) (h_s : s.Sound) :
    NextSound (execHandshakeOpen s) := by
  unfold execHandshakeOpen
  split
  · exact nextSound_next h_s
  · have h1 : ((s.atAlm (s.epochAt - 100000)).setFld Reg.ALM_JOB_STATUS F.ALM_JOB_STATUS_PHASE 3).Sound :=
      State.setFld_sound _ _ _ _ (State.atAlm_sound _ _ h_s)
    generalize (s.atAlm (s.epochAt - 100000)).setFld Reg.ALM_JOB_STATUS F.ALM_JOB_STATUS_PHASE 3 = t at h1
    have h2 : State.Sound { t with job := { t.job with result := none } } := sound_job _ h1
    dsimp only
    split
    · exact nextSound_next (State.quickOpen_sound _ _ _ h2)
    · exact nextSound_next h2

theorem execHandshakeResult_sound (s : State) (h_s : s.Sound) :
    NextSound (execHandshakeResult s) := by
  unfold execHandshakeResult
  repeat' first
    | with_reducible assumption
    | with_reducible refine nextSound_next ?_
    | with_reducible refine ite_keeps NextSound ?_ ?_
    | with_reducible refine State.setFld_sound _ _ _ _ ?_
    | with_reducible refine State.jobFails_sound _ _ ?_
    | split

theorem execHandshakeTimeout_sound (s : State) (h_s : s.Sound) :
    NextSound (execHandshakeTimeout s) := by
  unfold execHandshakeTimeout
  repeat' first
    | with_reducible assumption
    | with_reducible refine nextSound_next ?_
    | with_reducible refine ite_keeps NextSound ?_ ?_
    | with_reducible refine State.jobFails_sound _ _ ?_
    | with_reducible refine State.atAlm_sound _ _ ?_

theorem execJobStart_sound (s : State) (h_s : s.Sound) :
    NextSound (execJobStart s) := by
  unfold execJobStart
  repeat' first
    | with_reducible assumption
    | with_reducible refine nextSound_next ?_
    | with_reducible refine sound_ite ?_ ?_
    | with_reducible refine ite_keeps NextSound ?_ ?_
    | with_reducible refine sound_foldl (fun s a h => ?_) ?_
    | with_reducible refine State.setMState_sound _ _ ?_
    | with_reducible refine State.atAlm_sound _ _ ?_
    | with_reducible refine State.setShd_sound _ _ ?_
    | with_reducible refine State.setFld_sound _ _ _ _ ?_
    | with_reducible refine State.setReg_sound _ _ _ ?_
    | (lift_lets; intro s1; refine (fun (h1 : State.Sound s1) => ?_) ?_; clear_value s1; rotate_left; dsimp only [s1]; rotate_left)
    | dsimp only [Out.at]
    | split
    | (simp only [State.Sound]; with_reducible refine sound_fold ?_; with_reducible assumption)

theorem execJobEnd_sound (s : State) (h_s : s.Sound) :
    NextSound (execJobEnd s) := by
  unfold execJobEnd
  repeat' first
    | with_reducible assumption
    | with_reducible refine nextSound_next ?_
    | with_reducible refine ite_keeps NextSound ?_ ?_
    | with_reducible refine State.setPhase_sound _ _ _ ?_

end Sys2Proof.Machine
end

