-- ==== Sys2Proof/Laws/SoundSave.lean ====
section
/-! SUPPORT. That the definitions of Machine/Save.lean keep a state sound. -/
namespace Sys2Proof.Machine

theorem State.writeSaveCtl_sound (s : State) (r : RegionId) (w : Word) (h_s : s.Sound) :
    (State.writeSaveCtl s r w).2.Sound := by
  unfold State.writeSaveCtl
  repeat' first
    | with_reducible assumption
    | with_reducible refine State.setFld_sound _ _ _ _ ?_
    | with_reducible refine State.setRegion_sound _ _ _ ?_
    | (lift_lets; intro s1; clear_value s1)
    | dsimp only [Out.at]
    | split

theorem execSyncSave_sound (r : RegionId) (data : Word) (s : State) (h_s : s.Sound) :
    NextSound (execSyncSave r data s) := by
  unfold execSyncSave
  repeat' first
    | with_reducible assumption
    | with_reducible refine onUnit_sound _ _ ?_
    | with_reducible refine State.writeSaveCtl_sound _ _ _ ?_
    | with_reducible refine State.completed_sound _ _ _ ?_

theorem execSyncRestore_sound (r : RegionId) (data : Word) (s : State) (h_s : s.Sound) :
    NextSound (execSyncRestore r data s) := by
  unfold execSyncRestore
  repeat' first
    | with_reducible assumption
    | with_reducible refine onUnit_sound _ _ ?_
    | with_reducible refine State.writeSaveCtl_sound _ _ _ ?_
    | with_reducible refine State.completed_sound _ _ _ ?_

theorem State.setMasks_sound (s : State) (r : RegionId) (t : Nat) (bs : List Byte) (h_s : s.Sound) :
    (State.setMasks s r t bs).Sound := by
  unfold State.setMasks
  repeat' first
    | with_reducible assumption
    | with_reducible refine sound_foldl (fun s a h => ?_) ?_
    | with_reducible refine State.setReg_sound _ _ _ ?_

theorem State.freeSaved_sound (s : State) (r : RegionId) (ctx : Nat) (h_s : s.Sound) :
    (State.freeSaved s r ctx).Sound := by
  unfold State.freeSaved
  repeat' first
    | with_reducible assumption
    | with_reducible refine sound_foldl (fun s a h => ?_) ?_
    | with_reducible refine State.setReg_sound _ _ _ ?_
    | with_reducible refine State.setMasks_sound _ _ _ _ ?_

theorem State.saveCtx_sound (s : State) (r : RegionId) (j : SaveJob) (p : Place) (h_s : s.Sound) :
    (State.saveCtx s r j p).2.Sound := by
  unfold State.saveCtx
  repeat' first
    | with_reducible assumption
    | with_reducible refine sound_ite ?_ ?_
    | with_reducible refine State.freeBytes_sound _ _ ?_
    | with_reducible refine State.placeWrite_sound _ _ _ _ ?_
    | with_reducible refine State.freeSaved_sound _ _ _ ?_
    | (lift_lets; intro s1; clear_value s1)
    | dsimp only [Out.at]
    | split

theorem State.spoilObjs_sound (s : State) (r : RegionId) (ctx : Nat) (h_s : s.Sound) :
    (State.spoilObjs s r ctx).Sound := by
  unfold State.spoilObjs
  repeat' first
    | with_reducible assumption
    | with_reducible refine sound_foldl (fun s a h => ?_) ?_
    | with_reducible refine State.freeWord_sound _ ?_
    | with_reducible refine State.setReg_sound _ _ _ ?_

theorem State.restoreCtx_sound (s : State) (r : RegionId) (j : SaveJob) (p : Place) (h_s : s.Sound) :
    (State.restoreCtx s r j p).2.Sound := by
  unfold State.restoreCtx
  repeat' first
    | with_reducible assumption
    | with_reducible refine sound_ite ?_ ?_
    | with_reducible refine sound_foldl (fun s a h => ?_) ?_
    | with_reducible refine State.placeRead_sound _ _ _ _ ?_
    | with_reducible refine State.spoilObjs_sound _ _ _ ?_
    | with_reducible refine State.setMark_sound _ _ _ _ ?_
    | with_reducible refine State.setReg_sound _ _ _ ?_
    | with_reducible refine State.setMasks_sound _ _ _ _ ?_
    | (lift_lets; intro s1; clear_value s1)
    | dsimp only [Out.at]
    | split

theorem execSyncSaveFinish_sound (r : RegionId) (s : State) (h_s : s.Sound) :
    NextSound (execSyncSaveFinish r s) := by
  unfold execSyncSaveFinish
  repeat' first
    | with_reducible assumption
    | with_reducible refine onUnit_sound _ _ ?_
    | with_reducible refine State.setRegion_sound _ _ _ ?_
    | with_reducible refine State.saveCtx_sound _ _ _ _ ?_
    | with_reducible refine State.restoreCtx_sound _ _ _ _ ?_
    | with_reducible refine State.setFld_sound _ _ _ _ ?_
    | (lift_lets; intro s1; clear_value s1)
    | dsimp only [Out.at]
    | split

end Sys2Proof.Machine
end

