-- ==== Sys2Proof/Laws/SoundAccept.lean ====
section
/-! SUPPORT. That the definitions of Machine/Accept.lean keep a state sound. -/
namespace Sys2Proof.Machine

theorem State.freeInput_sound (s : State) (port : Nat) (p : Packet) (h_s : s.Sound) :
    (State.freeInput s port p).Sound := by
  unfold State.freeInput
  repeat' first
    | with_reducible assumption
    | with_reducible refine State.freeCells_sound _ _ ?_

theorem State.dropBad_sound (s : State) (port : Nat) (p : Packet) (h_s : s.Sound) :
    (State.dropBad s port p).Sound := by
  unfold State.dropBad
  repeat' first
    | with_reducible assumption
    | with_reducible refine State.freeInput_sound _ _ _ ?_
    | with_reducible refine State.count_sound _ _ _ _ ?_
    | with_reducible refine State.flag_sound _ _ _ ?_
    | with_reducible refine State.logPort_sound _ _ _ ?_

theorem State.takeMgmt_sound (s : State) (p : Packet) (h_s : s.Sound) :
    (State.takeMgmt s p).Sound := by
  unfold State.takeMgmt
  repeat' first
    | with_reducible assumption
    | with_reducible refine sound_ite ?_ ?_
    | with_reducible refine State.count_sound _ _ _ _ ?_
    | (lift_lets; intro s1; clear_value s1)
    | (simp only [State.Sound]; with_reducible refine sound_fold ?_; with_reducible assumption)

theorem State.sinkPacket_sound (s : State) (port : Nat) (p : Packet) (h_s : s.Sound) :
    (State.sinkPacket s port p).Sound := by
  unfold State.sinkPacket
  repeat' first
    | with_reducible assumption
    | with_reducible refine sound_ite ?_ ?_
    | with_reducible refine State.takeMgmt_sound _ _ ?_
    | with_reducible refine State.freeInput_sound _ _ _ ?_
    | with_reducible refine State.ethQueue_sound _ _ _ ?_
    | (lift_lets; intro s1; clear_value s1)
    | split
    | (simp only [State.Sound]; with_reducible refine sound_fold ?_; with_reducible assumption)

theorem State.copyOut_sound (s : State) (p : Packet) (port : Option Nat) (h_s : s.Sound) :
    (State.copyOut s p port).Sound := by
  unfold State.copyOut
  repeat' first
    | with_reducible refine State.flushCopies_sound _ _ ?_
    | (lift_lets; intro s1; clear_value s1)
    | (simp only [State.Sound]; with_reducible refine sound_fold ?_; with_reducible assumption)

theorem State.acceptMine_sound (s : State) (port : Nat) (p : Packet) (h_s : s.Sound) :
    (State.acceptMine s port p).Sound := by
  unfold State.acceptMine
  repeat' first
    | with_reducible assumption
    | with_reducible refine sound_ite ?_ ?_
    | with_reducible refine State.recordPacket_sound _ _ _ ?_
    | with_reducible refine State.copyOut_sound _ _ _ ?_
    | with_reducible refine State.sinkPacket_sound _ _ _ ?_

theorem State.forward_sound (s : State) (port : Nat) (p : Packet) (h_s : s.Sound) :
    (State.forward s port p).Sound := by
  unfold State.forward
  repeat' first
    | with_reducible assumption
    | with_reducible refine State.setPort_sound _ _ _ ?_

theorem State.acceptMirrored_sound (s : State) (port : Nat) (p : Packet) (h_s : s.Sound) :
    (State.acceptMirrored s port p).Sound := by
  unfold State.acceptMirrored
  repeat' first
    | with_reducible assumption
    | with_reducible refine sound_ite ?_ ?_
    | with_reducible refine State.freeInput_sound _ _ _ ?_
    | with_reducible refine State.dropBad_sound _ _ _ ?_
    | with_reducible refine State.acceptMine_sound _ _ _ ?_

theorem State.acceptPacket_sound (s : State) (port : Nat) (p : Packet) (h_s : s.Sound) :
    (State.acceptPacket s port p).Sound := by
  unfold State.acceptPacket
  repeat' first
    | with_reducible assumption
    | with_reducible refine sound_ite ?_ ?_
    | with_reducible refine State.acceptMirrored_sound _ _ _ ?_
    | with_reducible refine State.copyOut_sound _ _ _ ?_
    | with_reducible refine State.dropPacket_sound _ _ _ ?_
    | with_reducible refine State.dropBad_sound _ _ _ ?_
    | with_reducible refine State.acceptMine_sound _ _ _ ?_
    | with_reducible refine State.forward_sound _ _ _ ?_

theorem execPacketAccept_sound (port : Nat) (s : State) (h_s : s.Sound) :
    NextSound (execPacketAccept port s) := by
  unfold execPacketAccept
  repeat' first
    | with_reducible assumption
    | with_reducible refine sound_ite ?_ ?_
    | with_reducible refine onUnit_sound _ _ ?_
    | with_reducible refine State.acceptPacket_sound _ _ _ ?_
    | with_reducible refine State.setPort_sound _ _ _ ?_
    | (lift_lets; intro s1; clear_value s1)
    | split

theorem execMirrorPacket_sound (p : Packet) (s : State) (h_s : s.Sound) :
    NextSound (execMirrorPacket p s) := by
  unfold execMirrorPacket
  repeat' first
    | with_reducible assumption
    | with_reducible refine nextSound_next ?_
    | with_reducible refine ite_keeps NextSound ?_ ?_
    | with_reducible refine State.acceptMirrored_sound _ _ _ ?_
    | with_reducible refine State.setPort_sound _ _ _ ?_

end Sys2Proof.Machine
end

