-- ==== Sys2Proof/Laws/SoundShadow.lean ====
section
/-! SUPPORT. That the definitions of Machine/Shadow.lean keep a state sound. -/
namespace Sys2Proof.Machine

theorem State.hearMirror_sound (s : State) (port : Nat) (mtype : Nat) (f : Frame) (h_s : s.Sound) :
    OptSat (fun y33 => y33.1.Sound) (State.hearMirror s port mtype f) := by
  unfold State.hearMirror
  repeat' first
    | with_reducible assumption
    | with_reducible exact optSat_none
    | with_reducible refine optSat_ite ?_ ?_
    | with_reducible refine State.hearCtrl_sound _ _ _ _ ?_

theorem execMirrorHoldTimeout_sound (s : State) (h_s : s.Sound) :
    NextSound (execMirrorHoldTimeout s) := by
  unfold execMirrorHoldTimeout
  repeat' first
    | with_reducible assumption
    | with_reducible refine nextSound_next ?_
    | with_reducible refine ite_keeps NextSound ?_ ?_
    | with_reducible refine State.setFld_sound _ _ _ _ ?_
    | with_reducible refine State.setShd_sound _ _ ?_
    | with_reducible refine State.sendCtrl_sound _ _ _ ?_
    | dsimp only [Out.at]
    | split
    | (simp only [State.Sound]; with_reducible refine sound_fold ?_; with_reducible refine State.at_sound _ _ ?_)

theorem execMirrorStop_sound (port : Nat) (f : Frame) (s : State) (h_s : s.Sound) :
    NextSound (execMirrorStop port f s) := by
  unfold execMirrorStop
  repeat' first
    | with_reducible assumption
    | with_reducible refine sound_ite ?_ ?_
    | with_reducible refine onUnit_sound _ _ ?_
    | with_reducible refine State.hearMirror_sound _ _ _ _ ?_
    | with_reducible refine State.endShadow_sound _ _ _ ?_
    | with_reducible refine State.heardOnly_sound _ _ _ ?_
    | with_reducible refine sound_of_some_fst (by assumption) ?_
    | split

theorem execDigest_sound (port : Nat) (f : Frame) (s : State) (h_s : s.Sound) :
    NextSound (execDigest port f s) := by
  unfold execDigest
  repeat' first
    | with_reducible assumption
    | with_reducible refine sound_ite ?_ ?_
    | with_reducible refine onUnit_sound _ _ ?_
    | with_reducible refine State.hearMirror_sound _ _ _ _ ?_
    | with_reducible refine State.endShadow_sound _ _ _ ?_
    | with_reducible refine State.sweepDigs_sound _ ?_
    | with_reducible refine State.heardOnly_sound _ _ _ ?_
    | with_reducible refine sound_of_some_fst (by assumption) ?_
    | split
    | (simp only [State.Sound]; with_reducible refine sound_fold ?_; with_reducible refine sound_of_some_fst (by assumption) ?_)

theorem execDigestTimeout_sound (tick : Nat) (s : State) (h_s : s.Sound) :
    NextSound (execDigestTimeout tick s) := by
  unfold execDigestTimeout
  repeat' first
    | with_reducible assumption
    | with_reducible refine nextSound_next ?_
    | with_reducible refine sound_ite ?_ ?_
    | with_reducible refine ite_keeps NextSound ?_ ?_
    | with_reducible refine State.sweepDigs_sound _ ?_
    | with_reducible refine State.at_sound _ _ ?_
    | with_reducible refine State.endShadow_sound _ _ _ ?_
    | dsimp only [Out.at]
    | split

theorem State.enterDamped_sound (s : State) (h_s : s.Sound) :
    (State.enterDamped s).Sound := by
  unfold State.enterDamped
  repeat' first
    | with_reducible assumption
    | with_reducible refine sound_ite ?_ ?_
    | with_reducible refine State.stopAll_sound _ ?_
    | with_reducible refine State.setMState_sound _ _ ?_
    | with_reducible refine State.setPhase_sound _ _ _ ?_

theorem State.dropOrigin_sound (s : State) (h_s : s.Sound) :
    (State.dropOrigin s).Sound := by
  unfold State.dropOrigin
  repeat' first
    | with_reducible assumption
    | with_reducible refine sound_foldl (fun s a h => ?_) ?_
    | with_reducible refine State.packetGone_sound _ _ ?_
    | (simp only [State.Sound]; with_reducible refine sound_fold ?_; with_reducible assumption)

theorem State.resolveTake_sound (s : State) (h_s : s.Sound) :
    (State.resolveTake s).Sound := by
  unfold State.resolveTake
  try dsimp only
  repeat' first
    | with_reducible assumption
    | with_reducible refine sound_ite ?_ ?_
    | with_reducible refine State.setShd_sound _ _ ?_
    | with_reducible refine State.setMState_sound _ _ ?_
    | split
    | (simp only [State.Sound]; with_reducible refine sound_fold ?_; first | with_reducible assumption | with_reducible refine State.dropOrigin_sound _ ?_)

theorem execTakeoverJudge_sound (s : State) (h_s : s.Sound) :
    NextSound (execTakeoverJudge s) := by
  unfold execTakeoverJudge
  repeat' first
    | with_reducible assumption
    | with_reducible refine nextSound_next ?_
    | with_reducible refine sound_ite ?_ ?_
    | with_reducible refine ite_keeps NextSound ?_ ?_
    | with_reducible refine State.sweepDigs_sound _ ?_
    | with_reducible refine State.atAlm_sound _ _ ?_
    | with_reducible refine State.setShd_sound _ _ ?_
    | with_reducible refine State.sendCtrl_sound _ _ _ ?_
    | with_reducible refine State.resolveTake_sound _ ?_
    | (lift_lets; intro s1; refine (fun (h1 : State.Sound s1) => ?_) ?_; clear_value s1; rotate_left; dsimp only [s1]; rotate_left)
    | dsimp only [Out.at]
    | split
    | (simp only [State.Sound]; with_reducible refine sound_fold ?_; first | with_reducible assumption | with_reducible refine State.sendCtrl_sound _ _ _ ?_)

theorem execVerdict_sound (port : Nat) (f : Frame) (s : State) (h_s : s.Sound) :
    NextSound (execVerdict port f s) := by
  unfold execVerdict
  repeat' first
    | with_reducible assumption
    | with_reducible refine sound_ite ?_ ?_
    | with_reducible refine onUnit_sound _ _ ?_
    | with_reducible refine State.hearMirror_sound _ _ _ _ ?_
    | with_reducible refine State.resolveTake_sound _ ?_
    | with_reducible refine State.heardOnly_sound _ _ _ ?_
    | with_reducible refine sound_of_some_fst (by assumption) ?_
    | dsimp only [Out.at]
    | split
    | (simp only [State.Sound]; with_reducible refine sound_fold ?_; with_reducible refine sound_of_some_fst (by assumption) ?_)

theorem execVerdictTimeout_sound (s : State) (h_s : s.Sound) :
    NextSound (execVerdictTimeout s) := by
  unfold execVerdictTimeout
  repeat' first
    | with_reducible assumption
    | with_reducible refine nextSound_next ?_
    | with_reducible refine ite_keeps NextSound ?_ ?_
    | with_reducible refine State.resolveTake_sound _ ?_
    | dsimp only [Out.at]
    | split
    | (simp only [State.Sound]; with_reducible refine sound_fold ?_; with_reducible refine State.atAlm_sound _ _ ?_)

theorem State.endRelay_sound (s : State) (h_s : s.Sound) :
    (State.endRelay s).Sound := by
  have h1 : ((s.setShd Shd.ended).setFld Reg.VIG_SHD_CTL F.VIG_SHD_CTL_MODE 0).Sound :=
    State.setFld_sound _ _ _ _ (State.setShd_sound _ _ h_s)
  have h2 := State.enterDamped_sound _ (sound_foldl (l := ((s.setShd Shd.ended).setFld Reg.VIG_SHD_CTL
    F.VIG_SHD_CTL_MODE 0).shadow.copies) (fun s a h => State.packetGone_sound s a h) h1)
  exact sound_shadow _ h2

theorem execRelayEnd_sound (s : State) (h_s : s.Sound) :
    NextSound (execRelayEnd s) := by
  unfold execRelayEnd
  repeat' first
    | with_reducible assumption
    | with_reducible refine nextSound_next ?_
    | with_reducible refine ite_keeps NextSound ?_ ?_
    | with_reducible refine State.endRelay_sound _ ?_
    | with_reducible refine State.atAlm_sound _ _ ?_
    | split

theorem execReplayInject_sound (s : State) (h_s : s.Sound) :
    NextSound (execReplayInject s) := by
  unfold execReplayInject
  repeat' first
    | with_reducible assumption
    | with_reducible refine nextSound_next ?_
    | with_reducible refine ite_keeps NextSound ?_ ?_
    | with_reducible refine State.acceptMine_sound _ _ _ ?_
    | with_reducible refine State.atAlm_sound _ _ ?_
    | dsimp only [Out.at]
    | split
    | (simp only [State.Sound]; with_reducible refine sound_fold ?_; with_reducible assumption)

theorem execReplayEnd_sound (s : State) (h_s : s.Sound) :
    NextSound (execReplayEnd s) := by
  unfold execReplayEnd
  repeat' first
    | with_reducible assumption
    | with_reducible refine nextSound_next ?_
    | with_reducible refine ite_keeps NextSound ?_ ?_
    | with_reducible refine sound_foldl (fun s a h => ?_) ?_
    | with_reducible refine State.sweepDigs_sound _ ?_
    | with_reducible refine State.replayDig_sound _ _ _ ?_
    | with_reducible refine State.setFld_sound _ _ _ _ ?_
    | with_reducible refine State.logAt_sound _ _ _ _ _ _ _ ?_
    | (lift_lets; intro s1; refine (fun (h1 : State.Sound s1) => ?_) ?_; clear_value s1; rotate_left; dsimp only [s1]; rotate_left)
    | dsimp only [Out.at]
    | split
    | (simp only [State.Sound]; with_reducible refine sound_fold ?_; with_reducible refine State.setFld_sound _ _ _ _ ?_)

end Sys2Proof.Machine
end

