-- ==== Sys2Proof/Laws/SoundSpare.lean ====
section
/-! SUPPORT. That the definitions of Machine/Spare.lean keep a state sound. -/
namespace Sys2Proof.Machine

theorem State.stall_sound (s : State) (site : Nat) (unit : Nat) (h_s : s.Sound) :
    (State.stall s site unit).Sound := by
  unfold State.stall
  repeat' first
    | with_reducible assumption
    | with_reducible refine State.freezeRec_sound _ ?_
    | with_reducible refine State.logAt_sound _ _ _ _ _ _ _ ?_
    | with_reducible refine State.relFlag_sound _ _ ?_

theorem execHeartbeat_sound (site : Nat) (stuck : List Nat) (s : State) (h_s : s.Sound) :
    NextSound (execHeartbeat site stuck s) := by
  unfold execHeartbeat
  repeat' first
    | with_reducible assumption
    | with_reducible refine sound_foldl (fun s a h => ?_) ?_
    | with_reducible refine onUnit_sound _ _ ?_
    | with_reducible refine State.stall_sound _ _ _ ?_
    | (simp only [State.Sound]; with_reducible refine sound_fold ?_; with_reducible assumption)

theorem execHeartbeatTimeout_sound (site : Nat) (s : State) (h_s : s.Sound) :
    NextSound (execHeartbeatTimeout site s) := by
  unfold execHeartbeatTimeout
  repeat' first
    | with_reducible assumption
    | with_reducible refine onUnit_sound _ _ ?_
    | with_reducible refine State.stall_sound _ _ _ ?_
    | with_reducible refine State.at_sound _ _ ?_

theorem State.setSlot_sound (s : State) (die : Nat) (region : Nat) (slot : Nat) (st : Nat) (core : Nat) (h_s : s.Sound) :
    (State.setSlot s die region slot st core).Sound := by
  unfold State.setSlot
  repeat' first
    | with_reducible assumption
    | with_reducible refine sound_ite ?_ ?_
    | with_reducible refine State.setFld_sound _ _ _ _ ?_

theorem State.startSub_sound (s : State) (die : Nat) (region : Nat) (core : Nat) (nocopy : Bool) (h_s : s.Sound) :
    (State.startSub s die region core nocopy).Sound := by
  unfold State.startSub
  repeat' first
    | with_reducible assumption
    | with_reducible refine State.setFld_sound _ _ _ _ ?_
    | (lift_lets; intro s1; clear_value s1)
    | dsimp only [Out.at]
    | split
    | (simp only [State.Sound]; with_reducible refine sound_fold ?_; with_reducible refine State.setFld_sound _ _ _ _ ?_)

theorem State.writeSpareCmd_sound (s : State) (die : Nat) (w : Word) (h_s : s.Sound) :
    (State.writeSpareCmd s die w).2.Sound := by
  unfold State.writeSpareCmd
  repeat' first
    | with_reducible assumption
    | with_reducible refine State.startSub_sound _ _ _ _ _ ?_
    | split

theorem execSpareSubstitute_sound (die : Nat) (data : Word) (s : State) (h_s : s.Sound) :
    NextSound (execSpareSubstitute die data s) := by
  unfold execSpareSubstitute
  repeat' first
    | with_reducible assumption
    | with_reducible refine onUnit_sound _ _ ?_
    | with_reducible refine State.writeSpareCmd_sound _ _ _ ?_
    | with_reducible refine State.completed_sound _ _ _ ?_

theorem execAutoSubstitute_sound (c : CoreId) (s : State) (h_s : s.Sound) :
    NextSound (execAutoSubstitute c s) := by
  unfold execAutoSubstitute
  repeat' first
    | with_reducible assumption
    | with_reducible refine sound_ite ?_ ?_
    | with_reducible refine onUnit_sound _ _ ?_
    | with_reducible refine State.startSub_sound _ _ _ _ _ ?_

theorem State.loseCore_sound (s : State) (c : CoreId) (h_s : s.Sound) :
    (State.loseCore s c).Sound := by
  unfold State.loseCore
  dsimp only
  refine State.iwrite_sound _ _ _ _ _ (State.iwrite_sound _ _ _ _ _ (State.freeBytes_sound _ _ (State.freeBytes_sound _ _
    (State.hwrite_sound _ _ _ _ (State.freeBytes_sound _ _ (State.setCore_sound _ _ _ ?_))))))
  exact ⟨h_s.1, h_s.2.1, h_s.2.2.1, h_s.2.2.2.1, regsOk_filter h_s.2.2.2.2.1 _, h_s.2.2.2.2.2⟩

theorem State.moveCore_sound (s : State) (c : CoreId) (h_s : s.Sound) :
    (State.moveCore s c).Sound := by
  unfold State.moveCore
  repeat' first
    | with_reducible assumption
    | with_reducible refine State.setCore_sound _ _ _ ?_

theorem State.resumeHeld_sound (s : State) (c : CoreId) (since : Nat) (h_s : s.Sound) :
    (State.resumeHeld s c since).Sound := by
  unfold State.resumeHeld
  repeat' first
    | (simp only [State.Sound]; with_reducible refine sound_fold ?_; with_reducible assumption)

theorem execSubstitutionDone_sound (die : Nat) (s : State) (h_s : s.Sound) :
    NextSound (execSubstitutionDone die s) := by
  unfold execSubstitutionDone
  repeat' first
    | with_reducible assumption
    | with_reducible refine sound_foldl (fun s a h => ?_) ?_
    | with_reducible refine onUnit_sound _ _ ?_
    | with_reducible refine State.loseCore_sound _ _ ?_
    | with_reducible refine State.moveCore_sound _ _ ?_
    | with_reducible refine State.setSlot_sound _ _ _ _ _ _ ?_
    | with_reducible refine State.setReg_sound _ _ _ ?_
    | with_reducible refine State.setFld_sound _ _ _ _ ?_
    | with_reducible refine State.count_sound _ _ _ _ ?_
    | with_reducible refine State.resumeHeld_sound _ _ _ ?_
    | with_reducible refine State.logAt_sound _ _ _ _ _ _ _ ?_
    | with_reducible refine State.healthAdd_sound _ _ _ ?_
    | with_reducible refine State.lifeAdd_sound _ _ _ ?_
    | (lift_lets; intro s1; clear_value s1)
    | dsimp only [Out.at]
    | split
    | (simp only [State.Sound]; with_reducible refine sound_fold ?_; with_reducible refine State.setFld_sound _ _ _ _ ?_)

theorem State.trainLink_sound (s : State) (l : OnLink) (failing : List Nat) (h_s : s.Sound) :
    (State.trainLink s l failing).Sound := by
  have h1 : ((linkRegs l).foldl (fun s r => s.setReg r.1 (trainedLink (linkGroups l) failing)) s).Sound :=
    sound_foldl (fun s a h => State.setReg_sound _ _ _ h) h_s
  have h2 := sound_life (AMap.set ((linkRegs l).foldl (fun s r => s.setReg r.1 (trainedLink (linkGroups l) failing)) s).life 0
    14 (spareLanes ((linkRegs l).foldl (fun s r => s.setReg r.1 (trainedLink (linkGroups l) failing)) s))) h1
  unfold State.trainLink
  dsimp only
  with_reducible refine sound_ite ?_ ?_
  · exact sound_foldl (fun s a h => State.logAt_sound _ _ _ _ _ _ _ h) h2
  · exact h2

theorem execOnmodLinkRetrain_sound (l : OnLink) (failing : List Nat) (s : State) (h_s : s.Sound) :
    NextSound (execOnmodLinkRetrain l failing s) := by
  unfold execOnmodLinkRetrain
  repeat' first
    | with_reducible assumption
    | with_reducible refine sound_ite ?_ ?_
    | with_reducible refine sound_foldl (fun s a h => ?_) ?_
    | with_reducible refine onUnit_sound _ _ ?_
    | with_reducible refine State.count_sound _ _ _ _ ?_
    | with_reducible refine State.healthAdd_sound _ _ _ ?_
    | with_reducible refine State.lifeAdd_sound _ _ _ ?_
    | with_reducible refine State.logAt_sound _ _ _ _ _ _ _ ?_
    | with_reducible refine State.trainLink_sound _ _ _ ?_
    | split

theorem State.decayLate_sound (s : State) (h_s : s.Sound) :
    (State.decayLate s).Sound := by
  unfold State.decayLate
  repeat' first
    | (lift_lets; intro s1; clear_value s1)
    | dsimp only [Out.at]
    | (simp only [State.Sound]; with_reducible refine sound_fold ?_; with_reducible assumption)

theorem execHealthUpdate_sound (s : State) (h_s : s.Sound) :
    NextSound (execHealthUpdate s) := by
  unfold execHealthUpdate
  repeat' first
    | with_reducible assumption
    | with_reducible refine nextSound_next ?_
    | with_reducible refine sound_ite ?_ ?_
    | with_reducible refine ite_keeps NextSound ?_ ?_
    | with_reducible refine State.atAlm_sound _ _ ?_
    | with_reducible refine State.decayLate_sound _ ?_
    | with_reducible refine State.setFld_sound _ _ _ _ ?_
    | with_reducible refine State.logAt_sound _ _ _ _ _ _ _ ?_
    | with_reducible refine State.relFlag_sound _ _ ?_
    | (lift_lets; intro s1; refine (fun (h1 : State.Sound s1) => ?_) ?_; clear_value s1; rotate_left; dsimp only [s1]; rotate_left)
    | dsimp only [Out.at]
    | (simp only [State.Sound]; with_reducible refine sound_fold ?_; first | with_reducible assumption | with_reducible refine State.setFld_sound _ _ _ _ ?_)

end Sys2Proof.Machine
end

