-- ==== Sys2Proof/Laws/SoundMgmt.lean ====
section
/-! SUPPORT. That the definitions of Machine/Mgmt.lean keep a state sound. -/
namespace Sys2Proof.Machine

theorem State.readReg_sound (s : State) (a : Nat) (r : Row) (h_s : s.Sound) :
    (State.readReg s a r).2.Sound := by
  unfold State.readReg
  repeat' first
    | with_reducible assumption
    | with_reducible refine State.setReg_sound _ _ _ ?_
    | with_reducible refine State.freeWord_sound _ ?_
    | (lift_lets; intro s1; refine (fun (h1 : State.Sound s1.2) => ?_) ?_; clear_value s1; rotate_left; dsimp only [s1]; rotate_left)
    | split

theorem State.mgmtRead_sound (s : State) (a : Nat) (width : Nat) (h_s : s.Sound) :
    (State.mgmtRead s a width).2.2.Sound := by
  unfold State.mgmtRead
  repeat' first
    | with_reducible assumption
    | with_reducible refine State.readEpData_sound _ ?_
    | with_reducible refine State.readReg_sound _ _ _ ?_
    | split

theorem State.plainWrite_sound (s : State) (a : Nat) (r : Row) (w : Word) (h_s : s.Sound) :
    (State.plainWrite s a r w).2.Sound := by
  unfold State.plainWrite
  repeat' first
    | with_reducible assumption
    | with_reducible refine State.setReg_sound _ _ _ ?_

theorem State.guardedWrite_sound (s : State) (checks : List (Bool × Nat)) (a : Nat) (r : Row) (w : Word) (h_s : s.Sound) :
    (State.guardedWrite s checks a r w).2.Sound := by
  unfold State.guardedWrite
  repeat' first
    | with_reducible assumption
    | with_reducible refine State.plainWrite_sound _ _ _ _ ?_
    | split

theorem State.writeBankCtl_sound (s : State) (c : CoreId) (w : Word) (h_s : s.Sound) :
    (State.writeBankCtl s c w).2.Sound := by
  unfold State.writeBankCtl
  repeat' first
    | with_reducible assumption
    | with_reducible refine sound_ite ?_ ?_
    | with_reducible refine State.setFld_sound _ _ _ _ ?_
    | with_reducible refine State.watchSwap_sound _ _ ?_

theorem State.writeCommon_sound (s : State) (c : CoreId) (off : Nat) (r : Row) (w : Word) (h_s : s.Sound) :
    (State.writeCommon s c off r w).2.Sound := by
  unfold State.writeCommon
  repeat' first
    | with_reducible assumption
    | with_reducible refine State.writeBankCtl_sound _ _ _ ?_
    | with_reducible refine State.guardedWrite_sound _ _ _ _ _ ?_
    | with_reducible refine State.plainWrite_sound _ _ _ _ ?_
    | (lift_lets; intro s1; clear_value s1)
    | dsimp only [Out.at]
    | split

theorem State.writeRedInject_sound (s : State) (c : CoreId) (r : Row) (w : Word) (h_s : s.Sound) :
    (State.writeRedInject s c r w).2.Sound := by
  unfold State.writeRedInject
  repeat' first
    | with_reducible assumption
    | with_reducible refine State.guardedWrite_sound _ _ _ _ _ ?_

theorem State.writeTenInject_sound (s : State) (c : CoreId) (r : Row) (w : Word) (h_s : s.Sound) :
    (State.writeTenInject s c r w).2.Sound := by
  unfold State.writeTenInject
  repeat' first
    | with_reducible assumption
    | with_reducible refine State.guardedWrite_sound _ _ _ _ _ ?_

theorem State.writeUnitInject_sound (s : State) (c : CoreId) (e : Cls) (r : Row) (w : Word) (h_s : s.Sound) :
    (State.writeUnitInject s c e r w).2.Sound := by
  unfold State.writeUnitInject
  repeat' first
    | with_reducible assumption
    | with_reducible refine State.guardedWrite_sound _ _ _ _ _ ?_

theorem State.writeMoveReg_sound (s : State) (c : CoreId) (off : Nat) (r : Row) (w : Word) (h_s : s.Sound) :
    (State.writeMoveReg s c off r w).2.Sound := by
  unfold State.writeMoveReg
  repeat' first
    | with_reducible assumption
    | with_reducible refine State.guardedWrite_sound _ _ _ _ _ ?_
    | with_reducible refine State.plainWrite_sound _ _ _ _ ?_
    | (lift_lets; intro s1; clear_value s1)
    | dsimp only [Out.at]
    | split

theorem State.writeEngine_sound (s : State) (c : CoreId) (e : Cls) (off : Nat) (r : Row) (w : Word) (h_s : s.Sound) :
    (State.writeEngine s c e off r w).2.Sound := by
  unfold State.writeEngine
  repeat' first
    | with_reducible assumption
    | with_reducible refine seqCtlWrite_sound _ _ _ _ ?_
    | with_reducible refine State.guardedWrite_sound _ _ _ _ _ ?_
    | with_reducible refine State.plainWrite_sound _ _ _ _ ?_
    | with_reducible refine State.writeRedInject_sound _ _ _ _ ?_
    | with_reducible refine State.writeTenInject_sound _ _ _ _ ?_
    | with_reducible refine State.writeMoveReg_sound _ _ _ _ _ ?_
    | with_reducible refine State.writeUnitInject_sound _ _ _ _ _ ?_
    | (lift_lets; intro s1; clear_value s1)
    | split

theorem State.writeSync_sound (s : State) (r : RegionId) (off : Nat) (row : Row) (w : Word) (h_s : s.Sound) :
    (State.writeSync s r off row w).2.Sound := by
  unfold State.writeSync
  repeat' first
    | with_reducible assumption
    | with_reducible refine State.writeObj_sound _ _ _ _ ?_
    | with_reducible refine State.guardedWrite_sound _ _ _ _ _ ?_
    | with_reducible refine State.writeSaveCtl_sound _ _ _ ?_
    | with_reducible refine State.plainWrite_sound _ _ _ _ ?_
    | (lift_lets; intro s1; clear_value s1)
    | dsimp only [Out.at]
    | split

theorem State.writeGrate_sound (s : State) (r : RegionId) (off : Nat) (row : Row) (w : Word) (h_s : s.Sound) :
    (State.writeGrate s r off row w).2.Sound := by
  unfold State.writeGrate
  repeat' first
    | with_reducible assumption
    | with_reducible refine State.writePool_sound _ _ _ ?_
    | with_reducible refine State.writeReclaim_sound _ _ _ ?_
    | with_reducible refine State.guardedWrite_sound _ _ _ _ _ ?_
    | with_reducible refine State.writeOwner_sound _ _ _ _ ?_
    | with_reducible refine State.plainWrite_sound _ _ _ _ ?_
    | (lift_lets; intro s1; clear_value s1)
    | dsimp only [Out.at]
    | split

theorem State.writeDie_sound (s : State) (die : Nat) (block : Nat) (off : Nat) (r : Row) (w : Word) (h_s : s.Sound) :
    (State.writeDie s die block off r w).2.Sound := by
  unfold State.writeDie
  repeat' first
    | with_reducible assumption
    | with_reducible refine State.writeDsPart_sound _ _ _ ?_
    | with_reducible refine State.writeCwin_sound _ _ _ _ _ ?_
    | with_reducible refine State.plainWrite_sound _ _ _ _ ?_
    | with_reducible refine State.writeSpareCmd_sound _ _ _ ?_
    | with_reducible refine State.setReg_sound _ _ _ ?_
    | (lift_lets; intro s1; clear_value s1)
    | split

theorem State.writeStack_sound (s : State) (k : Nat) (unit : Nat) (off : Nat) (r : Row) (w : Word) (h_s : s.Sound) :
    (State.writeStack s k unit off r w).2.Sound := by
  unfold State.writeStack
  repeat' first
    | with_reducible assumption
    | with_reducible refine State.plainWrite_sound _ _ _ _ ?_
    | with_reducible refine State.writeLinkCtl_sound _ _ _ ?_
    | with_reducible refine State.guardedWrite_sound _ _ _ _ _ ?_
    | with_reducible refine State.writeAwin_sound _ _ _ _ _ ?_
    | (lift_lets; intro s1; clear_value s1)
    | split

theorem State.writeIod_sound (s : State) (a : Nat) (r : Row) (w : Word) (h_s : s.Sound) :
    (State.writeIod s a r w).2.Sound := by
  unfold State.writeIod
  repeat' first
    | with_reducible assumption
    | with_reducible refine State.guardedWrite_sound _ _ _ _ _ ?_
    | with_reducible refine State.plainWrite_sound _ _ _ _ ?_
    | with_reducible refine State.writePortCfg_sound _ _ _ ?_
    | with_reducible refine State.writePortCtl_sound _ _ _ ?_
    | (lift_lets; intro s1; clear_value s1)
    | split

theorem State.writeVigil_sound (s : State) (off : Nat) (r : Row) (w : Word) (h_s : s.Sound) :
    (State.writeVigil s off r w).2.Sound := by
  unfold State.writeVigil
  repeat' first
    | with_reducible assumption
    | with_reducible refine State.guardedWrite_sound _ _ _ _ _ ?_
    | with_reducible refine State.setFld_sound _ _ _ _ ?_
    | with_reducible refine State.writeMark_sound _ _ ?_
    | with_reducible refine State.plainWrite_sound _ _ _ _ ?_
    | (lift_lets; intro s1; clear_value s1)
    | dsimp only [Out.at]
    | split

theorem State.writeIdent_sound (s : State) (inband : Bool) (off : Nat) (r : Row) (w : Word) (h_s : s.Sound) :
    (State.writeIdent s inband off r w).2.Sound := by
  unfold State.writeIdent
  repeat' first
    | with_reducible assumption
    | with_reducible refine State.guardedWrite_sound _ _ _ _ _ ?_
    | with_reducible refine State.plainWrite_sound _ _ _ _ ?_
    | (lift_lets; intro s1; clear_value s1)
    | split

theorem State.writeAlm_sound (s : State) (off : Nat) (r : Row) (w : Word) (h_s : s.Sound) :
    (State.writeAlm s off r w).2.Sound := by
  unfold State.writeAlm
  repeat' first
    | with_reducible assumption
    | with_reducible refine State.writeAlmCtl_sound _ _ ?_
    | with_reducible refine State.writeAlmSet_sound _ _ ?_
    | with_reducible refine State.writeAlmTrim_sound _ _ ?_
    | with_reducible refine State.writeJobCtl_sound _ _ ?_
    | with_reducible refine State.guardedWrite_sound _ _ _ _ _ ?_
    | with_reducible refine State.plainWrite_sound _ _ _ _ ?_
    | (lift_lets; intro s1; clear_value s1)
    | split

theorem State.writeRoute_sound (s : State) (off : Nat) (r : Row) (w : Word) (h_s : s.Sound) :
    (State.writeRoute s off r w).2.Sound := by
  unfold State.writeRoute
  repeat' first
    | with_reducible assumption
    | with_reducible refine State.writeRteMode_sound _ _ ?_
    | with_reducible refine State.writeEpoch_sound _ _ ?_
    | with_reducible refine State.writeEpData_sound _ _ ?_
    | with_reducible refine State.writePools_sound _ _ _ ?_
    | with_reducible refine State.writeMtab_sound _ _ _ _ ?_
    | with_reducible refine State.writeRtePort_sound _ _ _ ?_
    | with_reducible refine State.guardedWrite_sound _ _ _ _ _ ?_
    | (lift_lets; intro s1; clear_value s1)
    | split

theorem State.writeFlueReg_sound (s : State) (off : Nat) (r : Row) (w : Word) (h_s : s.Sound) :
    (State.writeFlueReg s off r w).2.Sound := by
  unfold State.writeFlueReg
  repeat' first
    | with_reducible assumption
    | with_reducible refine State.guardedWrite_sound _ _ _ _ _ ?_
    | with_reducible refine State.writeFluCmd_sound _ _ ?_
    | with_reducible refine State.plainWrite_sound _ _ _ _ ?_
    | (lift_lets; intro s1; clear_value s1)
    | dsimp only [Out.at]
    | split

theorem State.writeFpool_sound (s : State) (off : Nat) (r : Row) (w : Word) (h_s : s.Sound) :
    (State.writeFpool s off r w).2.Sound := by
  unfold State.writeFpool
  repeat' first
    | with_reducible assumption
    | with_reducible refine State.writePool_sound _ _ _ ?_
    | with_reducible refine State.writeReclaim_sound _ _ _ ?_
    | with_reducible refine State.writeOwner_sound _ _ _ _ ?_
    | with_reducible refine State.plainWrite_sound _ _ _ _ ?_
    | split

theorem State.writeDmp_sound (s : State) (off : Nat) (r : Row) (w : Word) (h_s : s.Sound) :
    (State.writeDmp s off r w).2.Sound := by
  unfold State.writeDmp
  repeat' first
    | with_reducible assumption
    | with_reducible refine State.plainWrite_sound _ _ _ _ ?_
    | with_reducible refine State.writeDamper_sound _ _ _ ?_
    | (lift_lets; intro s1; clear_value s1)
    | split

theorem State.writePwr_sound (s : State) (off : Nat) (r : Row) (w : Word) (h_s : s.Sound) :
    (State.writePwr s off r w).2.Sound := by
  unfold State.writePwr
  repeat' first
    | with_reducible assumption
    | with_reducible refine sound_foldl (fun s a h => ?_) ?_
    | with_reducible refine State.guardedWrite_sound _ _ _ _ _ ?_
    | with_reducible refine State.setHold_sound _ _ _ ?_
    | with_reducible refine State.plainWrite_sound _ _ _ _ ?_
    | (lift_lets; intro s1; clear_value s1)
    | dsimp only [Out.at]
    | split

theorem State.writeReg_sound (s : State) (inband : Bool) (a : Nat) (r : Row) (w : Word) (h_s : s.Sound) :
    (State.writeReg s inband a r w).2.Sound := by
  unfold State.writeReg
  repeat' first
    | with_reducible assumption
    | with_reducible refine State.writeEngine_sound _ _ _ _ _ _ ?_
    | with_reducible refine State.writeCommon_sound _ _ _ _ _ ?_
    | with_reducible refine State.writeSync_sound _ _ _ _ _ ?_
    | with_reducible refine State.writeGrate_sound _ _ _ _ _ ?_
    | with_reducible refine State.plainWrite_sound _ _ _ _ ?_
    | with_reducible refine State.writeDie_sound _ _ _ _ _ _ ?_
    | with_reducible refine State.writeVigil_sound _ _ _ _ ?_
    | with_reducible refine State.writeIod_sound _ _ _ _ ?_
    | with_reducible refine State.writeStack_sound _ _ _ _ _ _ ?_
    | with_reducible refine State.writeIdent_sound _ _ _ _ _ ?_
    | with_reducible refine State.writeAlm_sound _ _ _ _ ?_
    | with_reducible refine State.writeRoute_sound _ _ _ _ ?_
    | with_reducible refine State.writeFlueReg_sound _ _ _ _ ?_
    | with_reducible refine State.writeFpool_sound _ _ _ _ ?_
    | with_reducible refine State.writeDmp_sound _ _ _ _ ?_
    | with_reducible refine State.writePwr_sound _ _ _ _ ?_
    | (lift_lets; intro s1; clear_value s1)
    | dsimp only [Out.at]
    | split

theorem State.writeInstr_sound (s : State) (c : CoreId) (bank : Nat) (off : Nat) (w : Word) (h_s : s.Sound) :
    (State.writeInstr s c bank off w).2.Sound := by
  unfold State.writeInstr
  repeat' first
    | with_reducible assumption
    | with_reducible refine State.setMark_sound _ _ _ _ ?_
    | with_reducible refine State.iwrite_sound _ _ _ _ _ ?_
    | (lift_lets; intro s1; clear_value s1)
    | split

theorem State.mgmtWrite_sound (s : State) (inband : Bool) (a : Nat) (width : Nat) (data : Word) (h_s : s.Sound) :
    (State.mgmtWrite s inband a width data).2.Sound := by
  unfold State.mgmtWrite
  repeat' first
    | with_reducible assumption
    | with_reducible refine State.writeInstr_sound _ _ _ _ _ ?_
    | with_reducible refine State.writeReg_sound _ _ _ _ _ ?_
    | (lift_lets; intro s1; clear_value s1)
    | split

theorem mgmtCommand_sound (a : Nat) (width : Nat) (data : Word) (s : State) (h_s : s.Sound) :
    NextSound (mgmtCommand a width data s) := by
  unfold mgmtCommand
  repeat' first
    | with_reducible assumption
    | with_reducible refine nextSound_next ?_
    | with_reducible refine State.mgmtWrite_sound _ _ _ _ _ ?_
    | with_reducible refine State.completed_sound _ _ _ ?_

theorem execRegisterWrite_sound (addr : Nat) (width : Nat) (data : Word) (s : State) (h_s : s.Sound) :
    NextSound (execRegisterWrite addr width data s) := by
  unfold execRegisterWrite
  repeat' first
    | with_reducible assumption
    | with_reducible refine mgmtCommand_sound _ _ _ _ ?_

theorem execInstructionBankWrite_sound (c : CoreId) (bank : Nat) (off : Nat) (width : Nat) (data : Word) (s : State) (h_s : s.Sound) :
    NextSound (execInstructionBankWrite c bank off width data s) := by
  unfold execInstructionBankWrite
  repeat' first
    | with_reducible assumption
    | with_reducible exact nextSound_refused
    | with_reducible refine nextSound_next ?_
    | with_reducible refine ite_keeps NextSound ?_ ?_
    | with_reducible refine mgmtCommand_sound _ _ _ _ ?_
    | with_reducible refine State.completed_sound _ _ _ ?_

theorem execBankArm_sound (c : CoreId) (s : State) (h_s : s.Sound) :
    NextSound (execBankArm c s) := by
  unfold execBankArm
  repeat' first
    | with_reducible assumption
    | with_reducible exact nextSound_refused
    | with_reducible refine ite_keeps NextSound ?_ ?_
    | with_reducible refine mgmtCommand_sound _ _ _ _ ?_

theorem execBankDisarm_sound (c : CoreId) (s : State) (h_s : s.Sound) :
    NextSound (execBankDisarm c s) := by
  unfold execBankDisarm
  repeat' first
    | with_reducible assumption
    | with_reducible exact nextSound_refused
    | with_reducible refine ite_keeps NextSound ?_ ?_
    | with_reducible refine mgmtCommand_sound _ _ _ _ ?_

theorem seqCommand_sound (c : CoreId) (e : Cls) (f : Fld) (s : State) (h_s : s.Sound) :
    NextSound (seqCommand c e f s) := by
  unfold seqCommand
  repeat' first
    | with_reducible assumption
    | with_reducible exact nextSound_refused
    | with_reducible refine ite_keeps NextSound ?_ ?_
    | with_reducible refine mgmtCommand_sound _ _ _ _ ?_

theorem execStart_sound (c : CoreId) (e : Cls) (s : State) (h_s : s.Sound) :
    NextSound (execStart c e s) := by
  unfold execStart
  repeat' first
    | with_reducible assumption
    | with_reducible refine seqCommand_sound _ _ _ _ ?_

theorem execStop_sound (c : CoreId) (e : Cls) (s : State) (h_s : s.Sound) :
    NextSound (execStop c e s) := by
  unfold execStop
  repeat' first
    | with_reducible assumption
    | with_reducible refine seqCommand_sound _ _ _ _ ?_

theorem execClearFault_sound (c : CoreId) (e : Cls) (s : State) (h_s : s.Sound) :
    NextSound (execClearFault c e s) := by
  unfold execClearFault
  repeat' first
    | with_reducible assumption
    | with_reducible refine seqCommand_sound _ _ _ _ ?_

theorem execRetry_sound (c : CoreId) (e : Cls) (s : State) (h_s : s.Sound) :
    NextSound (execRetry c e s) := by
  unfold execRetry
  repeat' first
    | with_reducible assumption
    | with_reducible refine seqCommand_sound _ _ _ _ ?_

theorem execRedInject_sound (c : CoreId) (data : Word) (s : State) (h_s : s.Sound) :
    NextSound (execRedInject c data s) := by
  unfold execRedInject
  repeat' first
    | with_reducible assumption
    | with_reducible exact nextSound_refused
    | with_reducible refine ite_keeps NextSound ?_ ?_
    | with_reducible refine mgmtCommand_sound _ _ _ _ ?_

theorem execTenInject_sound (c : CoreId) (data : Word) (s : State) (h_s : s.Sound) :
    NextSound (execTenInject c data s) := by
  unfold execTenInject
  repeat' first
    | with_reducible assumption
    | with_reducible exact nextSound_refused
    | with_reducible refine ite_keeps NextSound ?_ ?_
    | with_reducible refine mgmtCommand_sound _ _ _ _ ?_

theorem execInject_sound (c : CoreId) (e : Cls) (data : Word) (s : State) (h_s : s.Sound) :
    NextSound (execInject c e data s) := by
  unfold execInject
  repeat' first
    | with_reducible assumption
    | with_reducible exact nextSound_refused
    | with_reducible refine ite_keeps NextSound ?_ ?_
    | with_reducible refine mgmtCommand_sound _ _ _ _ ?_

theorem execDamperConfigWrite_sound (addr : Nat) (width : Nat) (data : Word) (s : State) (h_s : s.Sound) :
    NextSound (execDamperConfigWrite addr width data s) := by
  unfold execDamperConfigWrite
  repeat' first
    | with_reducible assumption
    | with_reducible exact nextSound_refused
    | with_reducible refine ite_keeps NextSound ?_ ?_
    | with_reducible refine mgmtCommand_sound _ _ _ _ ?_

end Sys2Proof.Machine
end

