-- ==== Sys2Proof/Laws/SoundVigil.lean ====
section
/-! SUPPORT. That the definitions of Machine/Vigil.lean keep a state sound. -/
namespace Sys2Proof.Machine

theorem State.sendResponse_sound (s : State) (k : Kept) (h_s : s.Sound) :
    (State.sendResponse s k).Sound := by
  unfold State.sendResponse
  repeat' first
    | with_reducible assumption
    | with_reducible refine State.sendOut_sound _ _ ?_
    | (lift_lets; intro s1; clear_value s1)
    | dsimp only [Out.at]
    | split
    | (simp only [State.Sound]; with_reducible refine sound_fold ?_; with_reducible assumption)

theorem State.respond_sound (s : State) (opc : Nat) (q : Req) (code : Nat) (payload : List Byte) (h_s : s.Sound) :
    (State.respond s opc q code payload).Sound := by
  unfold State.respond
  repeat' first
    | with_reducible assumption
    | with_reducible refine State.sendResponse_sound _ _ ?_
    | (lift_lets; intro s1; clear_value s1)
    | split
    | (simp only [State.Sound]; with_reducible refine sound_fold ?_; first | with_reducible assumption | with_reducible refine State.count_sound _ _ _ _ ?_)

theorem State.takeReq_sound (s : State) (opc : Nat) (q : Req) (h_s : s.Sound) :
    (State.takeReq s opc q).Sound := by
  unfold State.takeReq
  repeat' first
    | with_reducible assumption
    | with_reducible refine State.bump_sound _ _ _ _ ?_
    | (lift_lets; intro s1; clear_value s1)
    | split
    | (simp only [State.Sound]; with_reducible refine sound_fold ?_; with_reducible assumption)

theorem Ran.code_sound (c : Nat) (s : State) (h_s : s.Sound) :
    (Ran.code c s).Sound := by
  unfold Ran.code
  repeat' first
    | with_reducible assumption
    | with_reducible refine ran_done ?_

theorem State.command_sound (s : State) (opc : Nat) (q : Req) (run : State → Ran) (h_s : s.Sound) (h_run : ∀ x0run, (x0run.Sound) → (run x0run).Sound) :
    (State.command s opc q run).Sound := by
  unfold State.command
  repeat' first
    | with_reducible assumption
    | with_reducible refine sound_ite ?_ ?_
    | with_reducible refine State.takeReq_sound _ _ _ ?_
    | with_reducible refine State.sendResponse_sound _ _ ?_
    | with_reducible refine State.respond_sound _ _ _ _ _ ?_
    | with_reducible refine h_run _ ?_
    | with_reducible refine sound_of_done (by assumption) ?_
    | with_reducible refine sound_of_later (by assumption) ?_
    | split

theorem sized_sound (q : Req) (ok : Nat → Bool) (s : State) (run : State → Ran) (h_s : s.Sound) (h_run : ∀ x0run, (x0run.Sound) → (run x0run).Sound) :
    (sized q ok s run).Sound := by
  unfold sized
  repeat' first
    | with_reducible assumption
    | with_reducible refine ite_keeps Ran.Sound ?_ ?_
    | with_reducible refine Ran.code_sound _ _ ?_
    | with_reducible refine h_run _ ?_

theorem State.pwrFlag_sound (s : State) (f : Fld) (h_s : s.Sound) :
    (State.pwrFlag s f).Sound := by
  unfold State.pwrFlag
  repeat' first
    | with_reducible assumption
    | with_reducible refine State.count_sound _ _ _ _ ?_
    | with_reducible refine State.flag_sound _ _ _ ?_

theorem State.logSupply_sound (s : State) (code : Nat) (site : Nat) (details : List Nat) (h_s : s.Sound) :
    (State.logSupply s code site details).Sound := by
  unfold State.logSupply
  repeat' first
    | with_reducible assumption
    | with_reducible refine State.logAt_sound _ _ _ _ _ _ _ ?_

theorem State.countSeconds_sound (s : State) (h_s : s.Sound) :
    (State.countSeconds s).Sound := by
  unfold State.countSeconds
  repeat' first
    | with_reducible assumption
    | with_reducible refine sound_ite ?_ ?_
    | with_reducible refine State.lifeAdd_sound _ _ _ ?_
    | with_reducible refine State.logSupply_sound _ _ _ _ ?_
    | with_reducible refine State.pwrFlag_sound _ _ ?_
    | (simp only [State.Sound]; with_reducible refine sound_fold ?_; with_reducible assumption)

theorem execIdRead_sound (q : Req) (s : State) (h_s : s.Sound) :
    NextSound (execIdRead q s) := by
  unfold execIdRead
  repeat' first
    | with_reducible assumption
    | with_reducible refine ran_done ?_
    | with_reducible refine nextSound_next ?_
    | with_reducible refine State.command_sound _ _ _ _ ?_ ?_
    | with_reducible refine sized_sound _ _ _ _ ?_ ?_
    | with_reducible intro s

theorem execStatusRead_sound (q : Req) (s : State) (h_s : s.Sound) :
    NextSound (execStatusRead q s) := by
  unfold execStatusRead
  repeat' first
    | with_reducible assumption
    | with_reducible refine ran_done ?_
    | with_reducible refine nextSound_next ?_
    | with_reducible refine State.command_sound _ _ _ _ ?_ ?_
    | with_reducible refine sized_sound _ _ _ _ ?_ ?_
    | with_reducible intro s

theorem execAlmRead_sound (q : Req) (s : State) (h_s : s.Sound) :
    NextSound (execAlmRead q s) := by
  unfold execAlmRead
  repeat' first
    | with_reducible assumption
    | with_reducible refine ran_done ?_
    | with_reducible refine nextSound_next ?_
    | with_reducible refine State.command_sound _ _ _ _ ?_ ?_
    | with_reducible refine sized_sound _ _ _ _ ?_ ?_
    | with_reducible intro s

theorem execLifeRead_sound (q : Req) (s : State) (h_s : s.Sound) :
    NextSound (execLifeRead q s) := by
  unfold execLifeRead
  repeat' first
    | with_reducible assumption
    | with_reducible refine ran_done ?_
    | with_reducible refine nextSound_next ?_
    | with_reducible refine State.command_sound _ _ _ _ ?_ ?_
    | with_reducible refine sized_sound _ _ _ _ ?_ ?_
    | with_reducible refine State.countSeconds_sound _ ?_
    | dsimp only [Out.at]
    | with_reducible intro s

theorem execAttest_sound (q : Req) (s : State) (h_s : s.Sound) :
    NextSound (execAttest q s) := by
  unfold execAttest
  repeat' first
    | with_reducible assumption
    | with_reducible refine ran_done ?_
    | with_reducible refine nextSound_next ?_
    | with_reducible refine State.command_sound _ _ _ _ ?_ ?_
    | with_reducible refine sized_sound _ _ _ _ ?_ ?_
    | with_reducible intro s

theorem execCertRead_sound (q : Req) (s : State) (h_s : s.Sound) :
    NextSound (execCertRead q s) := by
  unfold execCertRead
  repeat' first
    | with_reducible assumption
    | with_reducible refine ran_done ?_
    | with_reducible refine nextSound_next ?_
    | with_reducible refine State.command_sound _ _ _ _ ?_ ?_
    | with_reducible refine sized_sound _ _ _ _ ?_ ?_
    | with_reducible refine Ran.code_sound _ _ ?_
    | (lift_lets; intro s1; clear_value s1)
    | dsimp only [Out.at]
    | split
    | with_reducible intro s

theorem execCfgRead_sound (q : Req) (s : State) (h_s : s.Sound) :
    NextSound (execCfgRead q s) := by
  unfold execCfgRead
  repeat' first
    | with_reducible assumption
    | with_reducible refine ran_done ?_
    | with_reducible refine nextSound_next ?_
    | with_reducible refine State.command_sound _ _ _ _ ?_ ?_
    | with_reducible refine sized_sound _ _ _ _ ?_ ?_
    | with_reducible intro s

theorem State.regAccess_sound (s : State) (q : Req) (write : Bool) (i : Nat) (h_s : s.Sound) :
    (State.regAccess s q write i).2.2.Sound := by
  unfold State.regAccess
  repeat' first
    | with_reducible assumption
    | with_reducible refine State.mgmtWrite_sound _ _ _ _ _ ?_
    | with_reducible refine State.mgmtRead_sound _ _ _ ?_
    | dsimp only [Out.at]
    | split

theorem State.regEntries_sound (s : State) (q : Req) (write : Bool) (i : Nat) (a_4 : Nat) (h_s : s.Sound) :
    (State.regEntries s q write i a_4).2.2.Sound := by
  induction a_4 generalizing s i with
  | zero => exact h_s
  | succ n ih =>
    unfold State.regEntries
    dsimp only
    split
    · exact State.regAccess_sound _ _ _ _ h_s
    · exact ih _ _ (State.regAccess_sound _ _ _ _ h_s)

theorem State.regCommand_sound (s : State) (q : Req) (write : Bool) (h_s : s.Sound) :
    (State.regCommand s q write).Sound := by
  unfold State.regCommand
  repeat' first
    | with_reducible assumption
    | with_reducible refine ran_done ?_
    | with_reducible refine ite_keeps Ran.Sound ?_ ?_
    | with_reducible refine State.regEntries_sound _ _ _ _ _ ?_

theorem execRegRead_sound (q : Req) (s : State) (h_s : s.Sound) :
    NextSound (execRegRead q s) := by
  unfold execRegRead
  repeat' first
    | with_reducible assumption
    | with_reducible refine nextSound_next ?_
    | with_reducible refine State.command_sound _ _ _ _ ?_ ?_
    | with_reducible refine State.regCommand_sound _ _ _ ?_
    | with_reducible intro s

theorem execRegWrite_sound (q : Req) (s : State) (h_s : s.Sound) :
    NextSound (execRegWrite q s) := by
  unfold execRegWrite
  repeat' first
    | with_reducible assumption
    | with_reducible refine nextSound_next ?_
    | with_reducible refine State.command_sound _ _ _ _ ?_ ?_
    | with_reducible refine State.regCommand_sound _ _ _ ?_
    | with_reducible intro s

theorem execMemRead_sound (q : Req) (s : State) (h_s : s.Sound) :
    NextSound (execMemRead q s) := by
  unfold execMemRead
  repeat' first
    | with_reducible assumption
    | with_reducible exact ran_waits
    | with_reducible refine ran_done ?_
    | with_reducible refine nextSound_next ?_
    | with_reducible refine State.command_sound _ _ _ _ ?_ ?_
    | with_reducible refine sized_sound _ _ _ _ ?_ ?_
    | with_reducible refine Ran.code_sound _ _ ?_
    | with_reducible refine State.readNoting_sound _ _ _ _ ?_
    | dsimp only [Out.at]
    | split
    | with_reducible intro s

theorem execMemWrite_sound (q : Req) (s : State) (h_s : s.Sound) :
    NextSound (execMemWrite q s) := by
  unfold execMemWrite
  repeat' first
    | with_reducible assumption
    | with_reducible exact ran_waits
    | with_reducible refine nextSound_next ?_
    | with_reducible refine State.command_sound _ _ _ _ ?_ ?_
    | with_reducible refine sized_sound _ _ _ _ ?_ ?_
    | with_reducible refine Ran.code_sound _ _ ?_
    | with_reducible refine State.placeWrite_sound _ _ _ _ ?_
    | dsimp only [Out.at]
    | split
    | with_reducible intro s

theorem State.i3cNext_sound (s : State) (h_s : s.Sound) :
    (State.i3cNext s).2.Sound := by
  unfold State.i3cNext
  repeat' first
    | with_reducible assumption
    | (lift_lets; intro s1; clear_value s1)
    | dsimp only [Out.at]
    | split
    | (simp only [State.Sound]; with_reducible refine sound_fold ?_; with_reducible assumption)

theorem execI3cResponseRead_sound (len : Nat) (s : State) (h_s : s.Sound) :
    NextSound (execI3cResponseRead len s) := by
  unfold execI3cResponseRead
  repeat' first
    | with_reducible assumption
    | with_reducible refine nextSound_next ?_
    | (lift_lets; intro s1; clear_value s1)
    | (simp only [State.Sound]; with_reducible refine sound_fold ?_; with_reducible refine State.i3cNext_sound _ ?_)

theorem execI3cCcc_sound (c : Ccc) (s : State) (h_s : s.Sound) :
    NextSound (execI3cCcc c s) := by
  unfold execI3cCcc
  repeat' first
    | with_reducible assumption
    | with_reducible refine nextSound_next ?_
    | split
    | (simp only [State.Sound]; with_reducible refine sound_fold ?_; with_reducible assumption)

end Sys2Proof.Machine
end

