-- ==== Sys2Proof/Laws/SoundTrust.lean ====
section
/-! SUPPORT. That the definitions of Machine/Trust.lean keep a state sound. -/
namespace Sys2Proof.Machine

theorem State.quorum_sound (s : State) (op : Nat) (q : Req) (run : State → State) (h_s : s.Sound) (h_run : ∀ x0run, (x0run.Sound) → (run x0run).Sound) :
    (State.quorum s op q run).Sound := by
  unfold State.quorum
  repeat' first
    | with_reducible assumption
    | with_reducible refine ite_keeps Ran.Sound ?_ ?_
    | with_reducible refine Ran.code_sound _ _ ?_
    | with_reducible refine State.logAt_sound _ _ _ _ _ _ _ ?_
    | with_reducible refine State.count_sound _ _ _ _ ?_
    | with_reducible refine State.bump_sound _ _ _ _ ?_
    | with_reducible refine h_run _ ?_
    | split

theorem State.flueStop_sound (s : State) (f : Nat) (h_s : s.Sound) :
    (State.flueStop s f).Sound := by
  unfold State.flueStop
  repeat' first
    | with_reducible assumption
    | with_reducible refine sound_ite ?_ ?_
    | with_reducible refine State.quickFail_sound _ _ _ _ ?_
    | with_reducible refine State.flueRecord_sound _ _ _ _ _ _ ?_
    | with_reducible refine State.spoilDests_sound _ _ ?_
    | with_reducible refine State.logFlue_sound _ _ _ ?_
    | with_reducible refine State.flueFlags_sound _ _ ?_
    | with_reducible refine State.closeRun_sound _ _ _ _ ?_
    | with_reducible refine State.freeHeld_sound _ _ _ ?_
    | (lift_lets; intro s1; clear_value s1)
    | dsimp only [Out.at]
    | split

theorem State.stopEngines_sound (s : State) (h_s : s.Sound) :
    (State.stopEngines s).Sound := by
  unfold State.stopEngines
  repeat' first
    | with_reducible assumption
    | with_reducible refine sound_foldl (fun s a h => ?_) ?_
    | with_reducible refine State.stopEngine_sound _ _ _ ?_

theorem State.enterFenced_sound (s : State) (h_s : s.Sound) :
    (State.enterFenced s).Sound := by
  unfold State.enterFenced
  repeat' first
    | with_reducible assumption
    | with_reducible refine sound_ite ?_ ?_
    | with_reducible refine sound_foldl (fun s a h => ?_) ?_
    | with_reducible refine State.fencePort_sound _ _ ?_
    | with_reducible refine State.setMState_sound _ _ ?_
    | with_reducible refine State.stopAll_sound _ ?_
    | with_reducible refine State.setPhase_sound _ _ _ ?_
    | with_reducible refine State.flueStop_sound _ _ ?_
    | with_reducible refine State.freezeRec_sound _ ?_
    | with_reducible refine State.stopEngines_sound _ ?_

theorem State.releaseModule_sound (s : State) (h_s : s.Sound) :
    (State.releaseModule s).Sound := by
  unfold State.releaseModule
  repeat' first
    | with_reducible assumption
    | with_reducible refine sound_foldl (fun s a h => ?_) ?_
    | with_reducible refine State.setFld_sound _ _ _ _ ?_
    | with_reducible refine State.setMState_sound _ _ ?_
    | with_reducible refine State.releasePort_sound _ _ ?_

theorem execFenceModule_sound (q : Req) (s : State) (h_s : s.Sound) :
    NextSound (execFenceModule q s) := by
  unfold execFenceModule
  repeat' first
    | with_reducible assumption
    | with_reducible refine nextSound_next ?_
    | with_reducible refine State.command_sound _ _ _ _ ?_ ?_
    | with_reducible refine State.quorum_sound _ _ _ _ ?_ ?_
    | with_reducible refine State.setFld_sound _ _ _ _ ?_
    | with_reducible refine State.enterFenced_sound _ ?_
    | with_reducible intro s

theorem execFencePort_sound (q : Req) (s : State) (h_s : s.Sound) :
    NextSound (execFencePort q s) := by
  unfold execFencePort
  repeat' first
    | with_reducible assumption
    | with_reducible refine nextSound_next ?_
    | with_reducible refine State.command_sound _ _ _ _ ?_ ?_
    | with_reducible refine State.quorum_sound _ _ _ _ ?_ ?_
    | with_reducible refine State.fencePort_sound _ _ ?_
    | (lift_lets; intro s1; clear_value s1)
    | dsimp only [Out.at]
    | split
    | with_reducible intro s
    | (simp only [State.Sound]; with_reducible refine sound_fold ?_; with_reducible refine State.fencePort_sound _ _ ?_)

theorem execReleasePort_sound (q : Req) (s : State) (h_s : s.Sound) :
    NextSound (execReleasePort q s) := by
  unfold execReleasePort
  repeat' first
    | with_reducible assumption
    | with_reducible refine nextSound_next ?_
    | with_reducible refine State.command_sound _ _ _ _ ?_ ?_
    | with_reducible refine State.quorum_sound _ _ _ _ ?_ ?_
    | (lift_lets; intro s1; clear_value s1)
    | dsimp only [Out.at]
    | with_reducible intro s
    | (simp only [State.Sound]; with_reducible refine sound_fold ?_; with_reducible refine State.releasePort_sound _ _ ?_)

theorem execReleaseModule_sound (q : Req) (s : State) (h_s : s.Sound) :
    NextSound (execReleaseModule q s) := by
  unfold execReleaseModule
  repeat' first
    | with_reducible assumption
    | with_reducible refine nextSound_next ?_
    | with_reducible refine State.command_sound _ _ _ _ ?_ ?_
    | with_reducible refine Ran.code_sound _ _ ?_
    | with_reducible refine State.quorum_sound _ _ _ _ ?_ ?_
    | with_reducible refine State.releaseModule_sound _ ?_
    | split
    | with_reducible intro s

theorem execFenceN_sound (level : Bool) (s : State) (h_s : s.Sound) :
    NextSound (execFenceN level s) := by
  unfold execFenceN
  repeat' first
    | with_reducible assumption
    | with_reducible refine nextSound_next ?_
    | with_reducible refine sound_ite ?_ ?_
    | with_reducible refine State.setFld_sound _ _ _ _ ?_
    | with_reducible refine State.enterFenced_sound _ ?_

theorem execDamp_sound (q : Req) (s : State) (h_s : s.Sound) :
    NextSound (execDamp q s) := by
  unfold execDamp
  repeat' first
    | with_reducible assumption
    | with_reducible refine nextSound_next ?_
    | with_reducible refine State.command_sound _ _ _ _ ?_ ?_
    | with_reducible refine sized_sound _ _ _ _ ?_ ?_
    | with_reducible refine State.setFld_sound _ _ _ _ ?_
    | with_reducible refine State.setShd_sound _ _ ?_
    | with_reducible refine Ran.code_sound _ _ ?_
    | with_reducible refine State.enterDamped_sound _ ?_
    | dsimp only [Out.at]
    | split
    | with_reducible intro s

theorem execBankModule_sound (q : Req) (s : State) (h_s : s.Sound) :
    NextSound (execBankModule q s) := by
  unfold execBankModule
  repeat' first
    | with_reducible assumption
    | with_reducible refine nextSound_next ?_
    | with_reducible refine State.command_sound _ _ _ _ ?_ ?_
    | with_reducible refine sized_sound _ _ _ _ ?_ ?_
    | with_reducible refine Ran.code_sound _ _ ?_
    | with_reducible refine State.setMState_sound _ _ ?_
    | split
    | with_reducible intro s

theorem State.recordEffect_sound (s : State) (b : List Byte) (h_s : s.Sound) :
    (State.recordEffect s b).Sound := by
  unfold State.recordEffect
  repeat' first
    | with_reducible assumption
    | with_reducible refine State.setFld_sound _ _ _ _ ?_
    | (lift_lets; intro s1; clear_value s1)
    | dsimp only [Out.at]
    | split
    | (simp only [State.Sound]; with_reducible refine sound_fold ?_; with_reducible assumption)

theorem execCfgInstall_sound (q : Req) (s : State) (h_s : s.Sound) :
    NextSound (execCfgInstall q s) := by
  unfold execCfgInstall
  repeat' first
    | with_reducible assumption
    | with_reducible refine nextSound_next ?_
    | with_reducible refine State.command_sound _ _ _ _ ?_ ?_
    | with_reducible refine Ran.code_sound _ _ ?_
    | with_reducible refine State.recordEffect_sound _ _ ?_
    | (lift_lets; intro s1; clear_value s1)
    | dsimp only [Out.at]
    | split
    | with_reducible intro s
    | (simp only [State.Sound]; with_reducible refine sound_fold ?_; with_reducible assumption)

theorem State.setStaging_sound (s : State) (x : Option Staging) (h_s : s.Sound) :
    (State.setStaging s x).Sound := by
  unfold State.setStaging
  repeat' first
    | (lift_lets; intro s1; clear_value s1)
    | (simp only [State.Sound]; with_reducible refine sound_fold ?_; with_reducible assumption)

theorem State.storeImage_sound (s : State) (type : Nat) (b : List Byte) (h_s : s.Sound) :
    (State.storeImage s type b).Sound := by
  unfold State.storeImage
  repeat' first
    | with_reducible refine State.logAt_sound _ _ _ _ _ _ _ ?_
    | (lift_lets; intro s1; clear_value s1)
    | (simp only [State.Sound]; with_reducible refine sound_fold ?_; with_reducible assumption)

theorem State.stageChunk_sound (s : State) (b : List Byte) (h_s : s.Sound) :
    (State.stageChunk s b).2.Sound := by
  unfold State.stageChunk
  repeat' first
    | with_reducible assumption
    | with_reducible refine State.setStaging_sound _ _ ?_
    | with_reducible refine State.storeImage_sound _ _ _ ?_
    | (lift_lets; intro s1; clear_value s1)
    | dsimp only [Out.at]
    | split

theorem execImgStage_sound (q : Req) (s : State) (h_s : s.Sound) :
    NextSound (execImgStage q s) := by
  unfold execImgStage
  repeat' first
    | with_reducible assumption
    | with_reducible refine nextSound_next ?_
    | with_reducible refine State.command_sound _ _ _ _ ?_ ?_
    | with_reducible refine sized_sound _ _ _ _ ?_ ?_
    | with_reducible refine Ran.code_sound _ _ ?_
    | with_reducible refine State.stageChunk_sound _ _ ?_
    | (lift_lets; intro s1; clear_value s1)
    | dsimp only [Out.at]
    | split
    | with_reducible intro s

end Sys2Proof.Machine
end

