-- ==== Sys2Proof/Laws/SoundKindling.lean ====
section
/-! SUPPORT. That the definitions of Machine/Kindling.lean keep a state sound. -/
namespace Sys2Proof.Machine

theorem State.setLife_sound (s : State) (w : Nat) (n : Nat) (h_s : s.Sound) :
    (State.setLife s w n).Sound := by
  unfold State.setLife
  repeat' first
    | (simp only [State.Sound]; with_reducible refine sound_fold ?_; with_reducible assumption)

theorem State.commitLife_sound (s : State) (h_s : s.Sound) :
    (State.commitLife s).Sound := by
  unfold State.commitLife
  repeat' first
    | with_reducible assumption
    | with_reducible refine State.setLife_sound _ _ _ ?_
    | (lift_lets; intro s1; refine (fun (h1 : State.Sound s1) => ?_) ?_; clear_value s1; rotate_left; dsimp only [s1]; rotate_left)
    | (simp only [State.Sound]; with_reducible refine sound_fold ?_; with_reducible assumption)

theorem execLifeCommit_sound (s : State) (h_s : s.Sound) :
    NextSound (execLifeCommit s) := by
  unfold execLifeCommit
  repeat' first
    | with_reducible assumption
    | with_reducible refine nextSound_next ?_
    | with_reducible refine State.commitLife_sound _ ?_
    | with_reducible refine State.countSeconds_sound _ ?_

theorem execLifeMirror_sound (s : State) (h_s : s.Sound) :
    NextSound (execLifeMirror s) := by
  unfold execLifeMirror
  repeat' first
    | with_reducible assumption
    | with_reducible refine nextSound_next ?_
    | (simp only [State.Sound]; with_reducible refine sound_fold ?_; with_reducible refine State.countSeconds_sound _ ?_)

theorem State.resetRegs_sound (s : State) (site : Nat) (h_s : s.Sound) :
    (State.resetRegs s site).Sound := by
  exact ⟨h_s.1, h_s.2.1, h_s.2.2.1, h_s.2.2.2.1, regsOk_filter h_s.2.2.2.2.1 _, h_s.2.2.2.2.2⟩

theorem State.resetDie_sound (s : State) (d : Nat) (h_s : s.Sound) :
    (State.resetDie s d).Sound := by
  have h1 : ((failedSlots s d).foldl (fun s x => s.setSlot d x.1 x.2 2 0) (s.resetRegs d)).Sound :=
    sound_foldl (fun s a h => State.setSlot_sound _ _ _ _ _ _ h) (State.resetRegs_sound _ _ h_s)
  unfold State.resetDie
  dsimp only
  refine State.setFld_sound _ _ _ _ (State.unmark_sound _ _ _ _ (State.unmark_sound _ _ _ _ (State.unmark_sound _ _ _ _
    (State.unmark_sound _ _ _ _ ?_))))
  simp only [State.Sound]
  exact ⟨Memory.wf_filter h1.1 _, Memory.wf_filter h1.2.1 _, Memory.wf_filter h1.2.2.1 _, sound_fold h1 |>.2.2.2⟩

theorem State.losePort_sound (s : State) (p : Nat) (h_s : s.Sound) :
    (State.losePort s p).Sound := by
  unfold State.losePort
  repeat' first
    | with_reducible assumption
    | with_reducible refine sound_foldl (fun s a h => ?_) ?_
    | with_reducible refine State.setPort_sound _ _ _ ?_
    | with_reducible refine State.packetGone_sound _ _ ?_

theorem State.resetIod_sound (s : State) (n : Nat) (h_s : s.Sound) :
    (State.resetIod s n).Sound := by
  unfold State.resetIod
  repeat' first
    | with_reducible assumption
    | with_reducible refine sound_ite ?_ ?_
    | with_reducible refine sound_foldl (fun s a h => ?_) ?_
    | with_reducible refine State.losePort_sound _ _ ?_
    | with_reducible refine State.follow_sound _ ?_
    | dsimp only [Out.at]
    | (simp only [State.Sound]; with_reducible refine sound_fold ?_; with_reducible refine State.resetRegs_sound _ _ ?_)

theorem State.resetStack_sound (s : State) (k : Nat) (h_s : s.Sound) :
    (State.resetStack s k).Sound := by
  have h0 := State.resetRegs_sound s (0x80 + k) h_s
  have h1 := sound_ite (c := stackWaits (s.resetRegs (0x80 + k)) k = true)
    (State.setFld_sound _ (Reg.MEM_STACK_STATUS k) F.MEM_STACK_STATUS_STATE 1 h0) h0
  unfold State.resetStack
  dsimp only
  simp only [State.Sound]
  exact ⟨h1.1, h1.2.1, h1.2.2.1, Memory.wf_filter h1.2.2.2.1 _, (sound_fold h1).2.2.2.2⟩

theorem State.resetSite_sound (s : State) (site : Nat) (h_s : s.Sound) :
    (State.resetSite s site).Sound := by
  unfold State.resetSite
  repeat' first
    | with_reducible assumption
    | with_reducible refine sound_ite ?_ ?_
    | with_reducible refine State.resetDie_sound _ _ ?_
    | with_reducible refine State.resetIod_sound _ _ ?_
    | with_reducible refine State.resetStack_sound _ _ ?_

theorem execDomainReset_sound (q : Req) (s : State) (h_s : s.Sound) :
    NextSound (execDomainReset q s) := by
  unfold execDomainReset
  repeat' first
    | with_reducible assumption
    | with_reducible refine ran_later ?_
    | with_reducible refine nextSound_next ?_
    | with_reducible refine State.command_sound _ _ _ _ ?_ ?_
    | with_reducible refine sized_sound _ _ _ _ ?_ ?_
    | with_reducible refine Ran.code_sound _ _ ?_
    | (lift_lets; intro s1; clear_value s1)
    | dsimp only [Out.at]
    | split
    | with_reducible intro s
    | (simp only [State.Sound]; with_reducible refine sound_fold ?_; with_reducible refine State.resetSite_sound _ _ ?_)

theorem execDomainRelease_sound (site : Nat) (s : State) (h_s : s.Sound) :
    NextSound (execDomainRelease site s) := by
  unfold execDomainRelease
  repeat' first
    | with_reducible assumption
    | with_reducible refine sound_foldl (fun s a h => ?_) ?_
    | with_reducible refine onUnit_sound _ _ ?_
    | with_reducible refine State.resetSite_sound _ _ ?_
    | with_reducible refine State.respond_sound _ _ _ _ _ ?_
    | (lift_lets; intro s1; refine (fun (h1 : State.Sound s1) => ?_) ?_; clear_value s1; rotate_left; dsimp only [s1]; rotate_left)
    | dsimp only [Out.at]
    | split
    | (simp only [State.Sound]; with_reducible refine sound_fold ?_; with_reducible assumption)

theorem State.wiped_sound (s : State) (h_s : s.Sound) :
    (State.wiped s).Sound := by
  exact ⟨rfl, rfl, rfl, rfl, regsOk_filter h_s.2.2.2.2.1 _, h_s.2.2.2.2.2⟩

theorem State.goCold_sound (s : State) (triggers : Nat) (h_s : s.Sound) :
    (State.goCold s triggers).Sound := by
  unfold State.goCold
  repeat' first
    | with_reducible assumption
    | with_reducible refine State.wiped_sound _ ?_
    | with_reducible refine State.countSeconds_sound _ ?_
    | with_reducible refine State.commitLife_sound _ ?_
    | (lift_lets; intro s1; clear_value s1)
    | (simp only [State.Sound]; with_reducible refine sound_fold ?_; with_reducible refine State.setMState_sound _ _ ?_)

theorem execPowerDown_sound (q : Req) (s : State) (h_s : s.Sound) :
    NextSound (execPowerDown q s) := by
  unfold execPowerDown
  repeat' first
    | with_reducible assumption
    | with_reducible refine nextSound_next ?_
    | with_reducible refine State.command_sound _ _ _ _ ?_ ?_
    | with_reducible refine sized_sound _ _ _ _ ?_ ?_
    | with_reducible refine Ran.code_sound _ _ ?_
    | with_reducible refine State.goCold_sound _ _ ?_
    | with_reducible intro s

theorem execPwrOffN_sound (level : Bool) (s : State) (h_s : s.Sound) :
    NextSound (execPwrOffN level s) := by
  unfold execPwrOffN
  repeat' first
    | with_reducible assumption
    | with_reducible refine nextSound_next ?_
    | with_reducible refine sound_ite ?_ ?_
    | with_reducible refine State.setFld_sound _ _ _ _ ?_
    | with_reducible refine State.goCold_sound _ _ ?_

theorem State.kindle_sound (s : State) (h_s : s.Sound) :
    (State.kindle s).Sound := by
  unfold State.kindle
  repeat' first
    | with_reducible assumption
    | with_reducible refine sound_ite ?_ ?_
    | with_reducible refine State.setMState_sound _ _ ?_
    | with_reducible refine State.wiped_sound _ ?_
    | with_reducible refine State.countSeconds_sound _ ?_
    | with_reducible refine State.setReg_sound _ _ _ ?_
    | with_reducible refine State.setFld_sound _ _ _ _ ?_
    | with_reducible refine State.setLife_sound _ _ _ ?_
    | with_reducible refine State.lifeAdd_sound _ _ _ ?_
    | (lift_lets; intro s1; clear_value s1)
    | dsimp only [Out.at]
    | split
    | (simp only [State.Sound]; with_reducible refine sound_fold ?_; with_reducible refine State.setFld_sound _ _ _ _ ?_)

theorem execResetModule_sound (q : Req) (s : State) (h_s : s.Sound) :
    NextSound (execResetModule q s) := by
  unfold execResetModule
  repeat' first
    | with_reducible assumption
    | with_reducible refine nextSound_next ?_
    | with_reducible refine State.command_sound _ _ _ _ ?_ ?_
    | with_reducible refine sized_sound _ _ _ _ ?_ ?_
    | with_reducible refine Ran.code_sound _ _ ?_
    | with_reducible refine State.kindle_sound _ ?_
    | with_reducible intro s

theorem execPowerOn_sound (q : Req) (s : State) (h_s : s.Sound) :
    NextSound (execPowerOn q s) := by
  unfold execPowerOn
  repeat' first
    | with_reducible assumption
    | with_reducible refine nextSound_next ?_
    | with_reducible refine State.command_sound _ _ _ _ ?_ ?_
    | with_reducible refine sized_sound _ _ _ _ ?_ ?_
    | with_reducible refine Ran.code_sound _ _ ?_
    | with_reducible refine State.kindle_sound _ ?_
    | split
    | with_reducible intro s

theorem State.islandsUp_sound (s : State) (h_s : s.Sound) :
    (State.islandsUp s).Sound := by
  unfold State.islandsUp
  dsimp only
  refine State.setReg_sound _ _ _ (State.setReg_sound _ _ _ ?_)
  exact ⟨h_s.1, h_s.2.1, h_s.2.2.1, h_s.2.2.2.1, h_s.2.2.2.2.1, Nat.zero_le _⟩

theorem execPowerApply_sound (s : State) (h_s : s.Sound) :
    NextSound (execPowerApply s) := by
  unfold execPowerApply
  repeat' first
    | with_reducible assumption
    | with_reducible refine nextSound_next ?_
    | with_reducible refine sound_ite ?_ ?_
    | with_reducible refine ite_keeps NextSound ?_ ?_
    | with_reducible refine State.islandsUp_sound _ ?_
    | with_reducible refine State.kindle_sound _ ?_

theorem execSupplyRecovery_sound (s : State) (h_s : s.Sound) :
    NextSound (execSupplyRecovery s) := by
  unfold execSupplyRecovery
  repeat' first
    | with_reducible assumption
    | with_reducible refine nextSound_next ?_
    | with_reducible refine ite_keeps NextSound ?_ ?_
    | with_reducible refine State.kindle_sound _ ?_
    | with_reducible refine State.at_sound _ _ ?_

theorem State.stopKindling_sound (s : State) (stage : Nat) (code : Nat) (h_s : s.Sound) :
    (State.stopKindling s stage code).Sound := by
  unfold State.stopKindling
  repeat' first
    | with_reducible assumption
    | with_reducible refine State.setFld_sound _ _ _ _ ?_
    | with_reducible refine State.logAt_sound _ _ _ _ _ _ _ ?_

theorem execKindlingStageTimeout_sound (stage : Nat) (s : State) (h_s : s.Sound) :
    NextSound (execKindlingStageTimeout stage s) := by
  unfold execKindlingStageTimeout
  repeat' first
    | with_reducible assumption
    | with_reducible refine sound_ite ?_ ?_
    | with_reducible refine onUnit_sound _ _ ?_
    | with_reducible refine State.stopKindling_sound _ _ _ ?_
    | with_reducible refine State.at_sound _ _ ?_

theorem execKindlingImageFailure_sound (type : Nat) (s : State) (h_s : s.Sound) :
    NextSound (execKindlingImageFailure type s) := by
  unfold execKindlingImageFailure
  repeat' first
    | with_reducible assumption
    | with_reducible refine sound_ite ?_ ?_
    | with_reducible refine onUnit_sound _ _ ?_
    | with_reducible refine State.stopKindling_sound _ _ _ ?_
    | (lift_lets; intro s1; clear_value s1)
    | (simp only [State.Sound]; with_reducible refine sound_fold ?_; with_reducible assumption)

theorem State.clearAll_sound (s : State) (h_s : s.Sound) :
    (State.clearAll s).Sound := by
  have h := State.wiped_sound s h_s
  exact ⟨h.1, h.2.1, h.2.2.1, h.2.2.2.1, regsOk_filter h.2.2.2.2.1 _, h.2.2.2.2.2⟩

theorem State.trainAll_sound (s : State) (r : KindlingReport) (h_s : s.Sound) :
    (State.trainAll s r).Sound := by
  unfold State.trainAll
  repeat' first
    | with_reducible assumption
    | with_reducible refine sound_foldl (fun s a h => ?_) ?_
    | with_reducible refine State.trainStack_sound _ _ _ ?_
    | with_reducible refine State.trainLink_sound _ _ _ ?_
    | with_reducible refine State.setSlot_sound _ _ _ _ _ _ ?_

theorem execKindlingDone_sound (r : KindlingReport) (s : State) (h_s : s.Sound) :
    NextSound (execKindlingDone r s) := by
  unfold execKindlingDone
  repeat' first
    | with_reducible assumption
    | with_reducible refine nextSound_next ?_
    | with_reducible refine ite_keeps NextSound ?_ ?_
    | with_reducible refine sound_foldl (fun s a h => ?_) ?_
    | with_reducible refine State.at_sound _ _ ?_
    | with_reducible refine State.setFld_sound _ _ _ _ ?_
    | with_reducible refine State.logAt_sound _ _ _ _ _ _ _ ?_
    | with_reducible refine State.trainAll_sound _ _ ?_
    | with_reducible refine State.clearAll_sound _ ?_
    | with_reducible refine State.setMState_sound _ _ ?_

theorem execVigilFailover_sound (s : State) (h_s : s.Sound) :
    NextSound (execVigilFailover s) := by
  unfold execVigilFailover
  repeat' first
    | with_reducible assumption
    | with_reducible refine nextSound_next ?_
    | with_reducible refine ite_keeps NextSound ?_ ?_
    | with_reducible refine State.count_sound _ _ _ _ ?_
    | with_reducible refine State.setFld_sound _ _ _ _ ?_
    | with_reducible refine State.logAt_sound _ _ _ _ _ _ _ ?_
    | (lift_lets; intro s1; clear_value s1)
    | (simp only [State.Sound]; with_reducible refine sound_fold ?_; with_reducible assumption)

theorem execBackupVigilLost_sound (s : State) (h_s : s.Sound) :
    NextSound (execBackupVigilLost s) := by
  unfold execBackupVigilLost
  repeat' first
    | with_reducible assumption
    | with_reducible refine nextSound_next ?_
    | with_reducible refine ite_keeps NextSound ?_ ?_
    | with_reducible refine State.logAt_sound _ _ _ _ _ _ _ ?_
    | (lift_lets; intro s1; clear_value s1)
    | (simp only [State.Sound]; with_reducible refine sound_fold ?_; with_reducible assumption)

end Sys2Proof.Machine
end

