-- ==== Sys2Proof/Laws/SoundPower.lean ====
section
/-! SUPPORT. That the definitions of Machine/Power.lean keep a state sound. -/
namespace Sys2Proof.Machine

theorem State.holding_sound (s : State) (k : Nat) (dur : Nat) (cond : Bool) (h_s : s.Sound) :
    (State.holding s k dur cond).2.Sound := by
  unfold State.holding
  try dsimp only
  repeat' first
    | with_reducible assumption
    | dsimp only [Out.at]
    | split
    | (simp only [State.Sound]; with_reducible refine sound_fold ?_; with_reducible assumption)

theorem State.noteFault_sound (s : State) (f : SupplyFault) (h_s : s.Sound) :
    (State.noteFault s f).Sound := by
  unfold State.noteFault
  repeat' first
    | with_reducible assumption
    | with_reducible refine sound_ite ?_ ?_
    | with_reducible refine State.lifeAdd_sound _ _ _ ?_
    | with_reducible refine State.logSupply_sound _ _ _ _ ?_

theorem State.supplyFaults_sound (s : State) (fs : List SupplyFault) (h_s : s.Sound) :
    (State.supplyFaults s fs).Sound := by
  unfold State.supplyFaults
  repeat' first
    | with_reducible assumption
    | with_reducible refine sound_ite ?_ ?_
    | with_reducible refine sound_foldl (fun s a h => ?_) ?_
    | with_reducible refine State.noteFault_sound _ _ ?_
    | with_reducible refine State.setReg_sound _ _ _ ?_
    | with_reducible refine State.goCold_sound _ _ ?_
    | (lift_lets; intro s1; refine (fun (h1 : State.Sound s1) => ?_) ?_; clear_value s1; rotate_left; dsimp only [s1]; rotate_left)
    | dsimp only [Out.at]
    | split

theorem State.measure_sound (s : State) (volts : List Nat) (amps : List Nat) (h_s : s.Sound) :
    (State.measure s volts amps).Sound := by
  unfold State.measure
  repeat' first
    | with_reducible assumption
    | with_reducible refine sound_foldl (fun s a h => ?_) ?_
    | with_reducible refine State.setReg_sound _ _ _ ?_
    | with_reducible refine State.setFld_sound _ _ _ _ ?_
    | with_reducible refine State.lifeAdd_sound _ _ _ ?_
    | (lift_lets; intro s1; clear_value s1)
    | dsimp only [Out.at]
    | split
    | (simp only [State.Sound]; with_reducible refine sound_fold ?_; first | with_reducible assumption | with_reducible refine State.setReg_sound _ _ _ ?_ | with_reducible refine State.setFld_sound _ _ _ _ ?_)

theorem State.supplyWarn_sound (s : State) (k : Nat) (f : Fld) (volts : List Nat) (low : Nat) (input : Nat) (h_s : s.Sound) :
    (State.supplyWarn s k f volts low input).Sound := by
  unfold State.supplyWarn
  repeat' first
    | with_reducible assumption
    | with_reducible refine sound_ite ?_ ?_
    | with_reducible refine State.holding_sound _ _ _ _ ?_
    | with_reducible refine State.logSupply_sound _ _ _ _ ?_
    | with_reducible refine State.pwrFlag_sound _ _ ?_

theorem execSupplySample_sound (volts : List Nat) (amps : List Nat) (s : State) (h_s : s.Sound) :
    NextSound (execSupplySample volts amps s) := by
  unfold execSupplySample
  repeat' first
    | with_reducible assumption
    | with_reducible refine sound_ite ?_ ?_
    | with_reducible refine onUnit_sound _ _ ?_
    | with_reducible refine State.countSeconds_sound _ ?_
    | with_reducible refine State.at_sound _ _ ?_
    | with_reducible refine State.islandsUp_sound _ ?_
    | with_reducible refine State.measure_sound _ _ _ ?_
    | with_reducible refine State.supplyWarn_sound _ _ _ _ _ _ ?_
    | with_reducible refine State.holding_sound _ _ _ _ ?_
    | with_reducible refine State.supplyFaults_sound _ _ ?_
    | (lift_lets; intro s1; clear_value s1)
    | (simp only [State.Sound]; with_reducible refine sound_fold ?_; with_reducible refine State.countSeconds_sound _ ?_)

theorem execCoolantSample_sound (inlet : Int) (outlet : Int) (flow : Nat) (s : State) (h_s : s.Sound) :
    NextSound (execCoolantSample inlet outlet flow s) := by
  unfold execCoolantSample
  repeat' first
    | with_reducible assumption
    | with_reducible refine nextSound_next ?_
    | with_reducible refine sound_ite ?_ ?_
    | with_reducible refine State.setReg_sound _ _ _ ?_
    | with_reducible refine State.holding_sound _ _ _ _ ?_
    | with_reducible refine State.logSupply_sound _ _ _ _ ?_
    | with_reducible refine State.pwrFlag_sound _ _ ?_
    | with_reducible refine State.supplyFaults_sound _ _ ?_

theorem State.takeReading_sound (rs : List TempReading) (s : State) (r : TempReading) (h_s : s.Sound) :
    (State.takeReading rs s r).Sound := by
  unfold State.takeReading
  repeat' first
    | with_reducible assumption
    | with_reducible refine sound_ite ?_ ?_
    | with_reducible refine State.setFld_sound _ _ _ _ ?_
    | with_reducible refine State.setLife_sound _ _ _ ?_
    | with_reducible refine State.holding_sound _ _ _ _ ?_
    | with_reducible refine State.logSupply_sound _ _ _ _ ?_
    | dsimp only [Out.at]
    | split
    | (simp only [State.Sound]; with_reducible refine sound_fold ?_; first | with_reducible refine State.holding_sound _ _ _ _ ?_ | with_reducible refine State.pwrFlag_sound _ _ ?_)

theorem State.judgeCrit_sound (x : List SupplyFault × State) (r : TempReading) (h_x : x.2.Sound) :
    (State.judgeCrit x r).2.Sound := by
  unfold State.judgeCrit
  repeat' first
    | with_reducible assumption
    | with_reducible refine State.holding_sound _ _ _ _ ?_

theorem execThermalSample_sound (readings : List TempReading) (s : State) (h_s : s.Sound) :
    NextSound (execThermalSample readings s) := by
  unfold execThermalSample
  repeat' first
    | with_reducible assumption
    | with_reducible refine sound_ite ?_ ?_
    | with_reducible refine sound_foldl (fun s a h => ?_) ?_
    | with_reducible refine sound_foldl_snd (fun p a h => ?_) ?_
    | with_reducible refine onUnit_sound _ _ ?_
    | with_reducible refine State.countSeconds_sound _ ?_
    | with_reducible refine State.at_sound _ _ ?_
    | with_reducible refine State.takeReading_sound _ _ _ ?_
    | with_reducible refine State.judgeCrit_sound _ _ ?_
    | with_reducible refine State.supplyFaults_sound _ _ ?_

theorem State.holdDie_sound (s : State) (d : Nat) (h_s : s.Sound) :
    (State.holdDie s d).Sound := by
  unfold State.holdDie
  repeat' first
    | with_reducible assumption
    | with_reducible refine sound_ite ?_ ?_
    | with_reducible refine State.bump_sound _ _ _ _ ?_
    | with_reducible refine State.setHold_sound _ _ _ ?_
    | with_reducible refine State.logSupply_sound _ _ _ _ ?_
    | with_reducible refine State.pwrFlag_sound _ _ ?_

theorem execThrottleUpdate_sound (s : State) (h_s : s.Sound) :
    NextSound (execThrottleUpdate s) := by
  unfold execThrottleUpdate
  split
  · exact nextSound_next h_s
  · exact nextSound_next (sound_power _ (sound_foldl (fun s a h => State.holdDie_sound s a h)
      (State.countSeconds_sound _ (State.atAlm_sound _ _ h_s))))

end Sys2Proof.Machine
end

