-- ==== Sys2Proof/Laws/SoundIdle.lean ====
section
/-! SUPPORT. That the definitions of Machine/Idle.lean keep a state sound. -/
namespace Sys2Proof.Machine

theorem State.idle_sound (s : State) (h_s : s.Sound) :
    (State.idle s).Sound := by
  unfold State.idle
  repeat' first
    | with_reducible assumption
    | with_reducible refine State.sweepDigs_sound _ ?_
    | with_reducible refine State.at_sound _ _ ?_

end Sys2Proof.Machine
end

