-- ==== Sys2Proof/Tests/Slice0.lean ====
section
/-! SUPPORT. Tests: for every statement that has hypotheses, concrete states and operands that meet them, clause by clause
(theorems `witness_…`); ill-formed commands that WellFormed refuses; and effects worked out from the spec by hand (theorems
`test_…`). -/
namespace Sys2Proof.Tests
open Sys2Proof Sys2Proof.Machine
set_option Elab.async false

/-! ## Small states -/

/-- A T-core. -/
def core : CoreId := ⟨0, 0, 16⟩

/-- Its region. -/
def reg0 : RegionId := ⟨0, 0⟩

/-- An instruction word with no wait and no signal. -/
def ins (e : Cls) (op md ops : Nat) : Nat := clsCode e * 2 ^ 124 + op * 2 ^ 118 + md * 2 ^ 114 + ops

/-- The operand bits of handles D, A, B and C and of IMM. -/
def hs (d a b c imm : Nat) : Nat := d + a * 2 ^ 8 + b * 2 ^ 16 + c * 2 ^ 24 + imm * 2 ^ 32

/-- A descriptor of rank 1, and one of rank 2 with rows of `stride` bytes; `long` marks a LONG operand. -/
def vec (fmt base n long : Nat) : List Nat := [1 + fmt * 16 + base * 2 ^ 16, n + 2 ^ 16 + 2 ^ 32 + 2 ^ 48, 0, long]
def mat (fmt base n rows stride : Nat) : List Nat := [5 + fmt * 16 + base * 2 ^ 16, n + rows * 2 ^ 16 + 2 ^ 32 + 2 ^ 48, stride, 0]

/-- Words of `n` bytes stored in the hearth. -/
def put (s : State) (a n : Nat) (xs : List Nat) : State := s.hwrite core a (xs.flatMap (leBytes n))

/-- The core's engine runs one instruction at program counter 0; its descriptor table stands at 0x1000. -/
def st (e : Cls) (w : Nat) (ds : List (List Nat)) (s : State) : State :=
  let s := put s 0x1000 8 ds.flatten
  let s := (s.setFld (Reg.HTH_DESC_TABLE core) F.HTH_DESC_TABLE_BASE 0x1000).setFld (Reg.HTH_DESC_TABLE core)
    F.HTH_DESC_TABLE_COUNT ds.length
  let s := s.iwrite core 0 0 (leBytes 16 w)
  s.setEng core e { Engine.idle with st := .running, queued := 1 }

/-- The instruction reaches its issue point, in a state and with a word that satisfy a test. -/
def issues (s : State) (e : Cls) (sp : OpSpec) (p : State → Nat → Bool) : Bool :=
  match s.issuePoint core e sp with
  | some x => p x.1 (s.headWord core e)
  | none => false

/-- A command answers a next state that satisfies a test. -/
def runs (i : Instr) (s : State) (p : State → Bool) : Bool :=
  match exec i s with
  | .next t => p t
  | _ => false

/-- A command is refused. -/
def refuses (i : Instr) (s : State) : Bool :=
  match exec i s with
  | .refused _ => true
  | _ => false

/-- Code `n` of the last management access. -/
def answers (i : Instr) (s : State) (n : Nat) : Bool := runs i s fun t => t.access.code = n

/-- `reads` reads without an error. -/
def readsOk (s : State) (rs : List (Nat × Nat)) : Bool := (readHearth s core rs).1 = none

/-- The state with one register set. -/
def with_ (a : Nat) (w : Word) : State := State.reset.setReg a w

/-- Context 0 of region 0 maps identifier 0 to local object 0, which holds word `w`. -/
def synced (w : Word) (s : State) : State :=
  ((s.setReg (Reg.SYN_CTXMAP reg0 0) (wordOf [(F.SYN_CTXMAP_VALID, 1), (F.SYN_CTXMAP_COUNT, 1)])).setReg (Reg.SYN_XLAT reg0 0)
    (wordOf [(F.SYN_XLAT_VALID, 1)])).setReg (Reg.SYN_OBJ reg0 0) w

/-- A flag with value `v`, and a counter with value `v`. -/
def flagWord (v : Nat) : Word := wordOf [(F.SYN_OBJ_FLAG_KIND, 1), (F.SYN_OBJ_FLAG_VALUE, v)]
def counterWord (v : Nat) : Word := wordOf [(F.SYN_OBJ_COUNTER_KIND, 2), (F.SYN_OBJ_COUNTER_VALUE, v)]

/-! ## Engine commands -/

/-- ADD with bit 12, a reserved operand bit, set: a fault of form. -/
def badAdd : State := st .tally (ins .tally 0x02 0 0x1000) [] State.reset

theorem witness_RejectionFaults :
    core.has .tally = true ∧ (badAdd.eng core .tally).live = true ∧
    headIs .tally addSpec.op (badAdd.headWord core .tally) = true ∧
    illFormed .tally addSpec (badAdd.headWord core .tally) = true ∧
    (badAdd.toHead core .tally).mark .istore ((badAdd.toHead core .tally).instrPlace core (badAdd.eng core .tally).pc) ≠ 2 ∧
    State.reset.fld (Reg.CR_BASE core .tally) F.CR_BASE_ENTRIES = 0 := by decide +kernel

theorem test_rejected_add : runs (.add core) badAdd (fun t =>
    (t.eng core .tally).st = .faulted && (t.eng core .tally).lastFault = Code.rejFormat) = true := by decide +kernel

theorem witness_FlowRules :
    let g : Engine := { Engine.idle with st := .running }
    let l : LoopFrame := ⟨1, 2, 2⟩
    g.loops = [] ∧ 0 + 1 ≠ l.first + l.len ∧ 2 + 1 = l.first + l.len ∧ 1 < l.remaining ∧
    (g.advance 2 0 .seq).pc = 3 ∧ ({ g with loops := [l] }.advance 2 0 .seq).pc = 1 ∧
    ({ g with loops := [⟨1, 2, 1⟩] }.advance 2 0 .seq).pc = 3 := by decide +kernel

/-- A Tally instruction at its issue point with counter 1 at 5, counter 2 at 9 and comparator 1 set. -/
def tallyAt (op md ops : Nat) : State :=
  let s := ((State.reset.setCtr core 1 5).setCtr core 2 9).setCmp core 1 true
  st .tally (ins .tally op md ops) [] (put s 0x40 8 [0xFFFF_0000_0000_1234])

theorem witness_TallyArithmetic :
    issues (tallyAt 0x00 0 0x71) .tally setiSpec (fun _ _ => true) = true ∧
    issues (tallyAt 0x01 0 0x71) .tally addiSpec (fun _ _ => true) = true ∧
    issues (tallyAt 0x02 0 0x213) .tally addSpec (fun _ _ => true) = true ∧
    issues (tallyAt 0x03 0 0x213) .tally subSpec (fun _ _ => true) = true := by decide +kernel

theorem test_tally_arithmetic :
    runs (.addi core) (tallyAt 0x01 0 0x71) (fun t => t.ctr core 1 = 12) = true ∧
    runs (.sub core) (tallyAt 0x03 0 0x213) (fun t => t.ctr core 3 = (2 : BitVec 48) ^ 48 - 4) = true := by decide +kernel

theorem witness_TallyMemory :
    (issues (tallyAt 0x04 0 (0x40 * 16 + 3)) .tally ldSpec fun s w => bits w 20 4 % 8 = 0 && readsOk s [(bits w 20 4, 8)]) = true ∧
    (issues (tallyAt 0x05 0 (0x40 * 16 + 1)) .tally stSpec fun _ w => bits w 20 4 % 8 = 0) = true ∧
    (issues (tallyAt 0x06 0 (0x40 * 16 + 1 + 8 * 2 ^ 21 + 7 * 2 ^ 27)) .tally stfSpec fun s w =>
      bits w 20 4 % 8 = 0 && bits w 32 27 + 1 ≤ 48 && bits w 26 21 + bits w 32 27 + 1 ≤ 64 &&
      readsOk s [(bits w 20 4, 8)]) = true := by decide +kernel

theorem test_tally_memory :
    runs (.ld core) (tallyAt 0x04 0 (0x40 * 16 + 3)) (fun t => t.ctr core 3 = 0x1234) = true ∧
    runs (.stf core) (tallyAt 0x06 0 (0x40 * 16 + 1 + 8 * 2 ^ 21 + 7 * 2 ^ 27)) (fun t =>
      t.hnat core 0x40 8 = 0xFFFF_0000_0000_0534) = true := by decide +kernel

theorem witness_TallyDecisions :
    issues (tallyAt 0x07 2 0x1210) .tally cmpSpec (fun _ _ => true) = true ∧
    issues (tallyAt 0x08 0 (0x1010 + 5 * 2 ^ 24)) .tally cmpiSpec (fun _ _ => true) = true ∧
    (issues (tallyAt 0x09 0 (0x1000 + 3 * 2 ^ 16)) .tally skipkSpec fun s w =>
      !skipRange (s.eng core .tally) (s.eng core .tally).pc (bits w 21 16)) = true ∧
    (issues (tallyAt 0x0A 0 (1 + 4 * 2 ^ 16)) .tally djnzSpec fun s w =>
      (s.eng core .tally).loops = [] && bits w 25 16 ≤ 767) = true := by decide +kernel

theorem test_tally_decisions :
    runs (.cmp core) (tallyAt 0x07 2 0x1210) (fun t => t.cmpBit core 1) = true ∧
    runs (.skipk core) (tallyAt 0x09 0 (0x1000 + 3 * 2 ^ 16)) (fun t => (t.eng core .tally).pc = 4) = true ∧
    runs (.djnz core) (tallyAt 0x0A 0 (1 + 4 * 2 ^ 16)) (fun t =>
      (t.eng core .tally).pc = 4 && t.ctr core 1 = 4 && (t.eng core .tally).issueAt = 4) = true := by decide +kernel

/-- A common operation of the Reduce engine at its issue point; descriptor 0 has BASE 0x100. -/
def commonAt (op ops : Nat) : State := st .reduce (ins .reduce op 0 ops) [vec 0x00 0x100 2 0] State.reset

/-- SKIP 2 where flag 0 is set. -/
def skipAt : State := st .reduce (ins .reduce 0x3D 0 2 + 1 * 2 ^ 93) [] (synced (flagWord 1) State.reset)

theorem witness_CommonOperations :
    issues (commonAt 0x38 0) .reduce nopSpec (fun _ _ => true) = true ∧
    (issues (commonAt 0x39 0) .reduce haltSpec fun s _ => (s.eng core .reduce).loops = []) = true ∧
    (issues (commonAt 0x3A 0) .reduce bankSpec fun s _ => (s.eng core .reduce).loops = []) = true ∧
    (issues (commonAt 0x3B 767) .reduce jumpSpec fun s w => (s.eng core .reduce).loops = [] && bits w 9 0 ≤ 767) = true ∧
    (issues (commonAt 0x3C (3 + 64 * 2 ^ 16)) .reduce loopSpec fun s w =>
      1 ≤ bits w 25 16 && bits w 25 16 ≤ 64 && (s.eng core .reduce).pc + bits w 25 16 ≤ 767 &&
      (s.eng core .reduce).loops = []) = true ∧
    (issues skipAt .reduce skipSpec fun s w =>
      !skipRange (s.eng core .reduce) 0 (bits w 5 0) &&
      match translate s reg0 (s.fld (Reg.HTH_CTX core) F.HTH_CTX_CONTEXT) (I.wid w) true (waitKind (I.wcond w)) with
      | .ok _ => true
      | .error _ => false) = true ∧
    (issues (commonAt 0x3E (5 * 2 ^ 32)) .reduce (dadvSpec .reduce) fun s w =>
      handleCheck s core true (bits w 7 0) = none &&
      (0 : Int) ≤ (bits (s.hnat core (descAddr s core 0) 8) 32 16 : Int) + toSigned 24 (bits w 55 32) &&
      (bits (s.hnat core (descAddr s core 0) 8) 32 16 : Int) + toSigned 24 (bits w 55 32) ≤ 0x1FFFF) = true := by
  decide +kernel

theorem test_common :
    runs (.jump core .reduce) (commonAt 0x3B 767) (fun t => (t.eng core .reduce).pc = 767) = true ∧
    runs (.skip core .reduce) skipAt (fun t => (t.eng core .reduce).pc = 3) = true ∧
    runs (.dadv core .reduce) (commonAt 0x3E (5 * 2 ^ 32)) (fun t => (readDesc t core 0).base = 0x105) = true := by
  decide +kernel

/-! ## The Move engine -/

/-- A Move instruction at its issue point: locator 1 names fabric byte 0; a packet waits in receive queue 1. -/
def moveAt (op md ops : Nat) : State :=
  let s := (State.reset.setLocator core 1 ⟨BitVec.ofNat 64 (3 * 2 ^ 60), 64⟩).setQueue core 1 [⟨7, 8, 0, 9⟩]
  st .move (ins .move op md ops) [] (put s 0x40 8 [0x3000_0000_0000_0040, 64, 0, 0])

theorem witness_MoveRecords :
    (issues (moveAt 0x02 0 (0x40 + 2 * 2 ^ 17)) .move (moveSpec 0x02 [(20, 0)] 0 setlocOp) fun s w =>
      bits w 16 0 % 16 = 0 && readsOk s [(bits w 16 0, 16)] && s.hnat core (bits w 16 0 + 12) 4 = 0) = true ∧
    (issues (moveAt 0x21 0 (0x80 + 1 * 2 ^ 17)) .move (moveSpec 0x21 [(19, 0)] 0 qrecvOp) fun s w =>
      bits w 16 0 % 32 = 0 && s.hnat core (bits w 16 0 + 24) 8 = 0 && ((s.core core).queue (bits w 19 17)).length = 1) = true ∧
    (issues (moveAt 0x22 0 (1 * 2 ^ 17)) .move (moveSpec 0x22 [(26, 17)] 0 qdropOp) fun s w =>
      bits w 26 20 + 1 ≤ ((s.core core).queue (bits w 19 17)).length) = true ∧
    (issues (moveAt 0x02 0 0x48) .move (moveSpec 0x02 [(20, 0)] 0 setlocOp) fun _ w => bits w 16 0 % 16 ≠ 0) = true ∧
    (issues (moveAt 0x21 0 0x80) .move (moveSpec 0x21 [(19, 0)] 0 qrecvOp) fun s w =>
      bits w 16 0 % 32 = 0 && s.hnat core (bits w 16 0 + 24) 8 = 0 && ((s.core core).queue 0).isEmpty) = true ∧
    (issues (moveAt 0x22 0 0) .move (moveSpec 0x22 [(26, 17)] 0 qdropOp) fun s _ => ((s.core core).queue 0).isEmpty) = true := by
  decide +kernel

theorem test_move_records :
    runs (.setloc core) (moveAt 0x02 0 (0x40 + 2 * 2 ^ 17)) (fun t =>
      (t.core core).locator 2 = ⟨BitVec.ofNat 64 0x3000_0000_0000_0040, 64⟩) = true ∧
    runs (.qrecv core) (moveAt 0x21 0 (0x80 + 1 * 2 ^ 17)) (fun t =>
      t.hnat core 0x80 8 = 7 && t.hnat core 0x90 8 = 9 && ((t.core core).queue 1).isEmpty) = true := by decide +kernel

/-- The hypotheses on a transfer: it passes R81 and R300, moves something, and can be acknowledged. -/
def xferReady (put : Bool) (s : State) (w : Nat) (empty : Bool) : Bool :=
  let l := (s.core core).locator (bits w 14 11)
  let m := xferOf put w l.loc.toNat l.rstride
  match placeOf s core m.loc with
  | .ok p =>
    !m.hearthBad && (xferChecks s core m p).isNone && m.empty = empty && !xferSilent s m p &&
      (match p with | .queue _ => false | _ => true) && (s.eng core .move).inflight = []
  | .error _ => false

theorem witness_MoveTransfers :
    issues (moveAt 0x00 0 (2 * 2 ^ 27 + 1 * 2 ^ 15 + 1 * 2 ^ 11 + 1 + 1 * 2 ^ 39)) .move
      (moveSpec 0x00 [(50, 0)] 1 (moveOp false)) (fun s w => xferReady false s w false) = true ∧
    issues (moveAt 0x01 0 (2 * 2 ^ 27 + 1 * 2 ^ 15 + 1 * 2 ^ 11 + 1 + 1 * 2 ^ 39)) .move
      (moveSpec 0x01 [(50, 0)] 1 (moveOp true)) (fun s w => xferReady true s w false) = true ∧
    issues (moveAt 0x01 0 (1 * 2 ^ 15 + 1 * 2 ^ 11)) .move (moveSpec 0x01 [(50, 0)] 1 (moveOp true))
      (fun s w => xferReady true s w true) = true := by decide +kernel

theorem test_put_copies :
    runs (.put core) (moveAt 0x01 0 (1 * 2 ^ 27 + 1 * 2 ^ 15 + 1 * 2 ^ 11 + 1)) (fun t =>
      t.fread 0 8 = leBytes 8 0x3000_0000_0000_0040) = true := by decide +kernel

theorem witness_MoveRowCopies :
    (moveAt 0x00 0 0).marks = [] ∧ (xferOf true 0 0 0).put = true ∧ (xferOf false 0 0 0).put = false := by decide +kernel

/-- QSEND of the 8 bytes of core buffer 0, which context 0 owns, on queue 0. -/
def qsendAt : State :=
  let r : BufRec := ⟨[some 0, none, none, none], 0, true, false⟩
  let s := State.reset.setReg (Reg.GRT_CPOOL_CFG reg0 16)
    (wordOf [(F.GRT_CPOOL_CFG_ENABLE, 1), (F.GRT_CPOOL_CFG_COUNT, 1), (F.GRT_CPOOL_CFG_BASE, 0x4000)])
  let s := (s.setBuffer (.core core) 0 r).setFld (Reg.MOV_QCFG core 0) F.MOV_QCFG_ENABLE 1
  st .move (ins .move 0x20 0 0x40) [] (put s 0x40 8 [(wordOf [(P.ptype, 1), (P.length, 8)]).toNat, 0, 0x4000, 0])

theorem witness_MoveQueueSend :
    (issues qsendAt .move (moveSpec 0x20 [(19, 0)] 0 qsendOp) fun s w =>
      let a := bits w 16 0
      let q := bits w 19 17
      let w0 : Word := BitVec.ofNat 64 (s.hnat core a 8)
      let buf := s.hnat core (a + 16) 8
      a % 32 = 0 && readsOk s [(a, 32)] && s.hnat core (a + 24) 8 = 0 && F.MOV_QCFG_ENABLE.on (queueCfg s core q) &&
      P.length.get w0 ≤ 8192 && (grateCheck s core .free (s.contextOf core) 0 [] 0 buf).isNone &&
      match placeOf s core buf with
      | .ok pl =>
        let r := s.readNoting core.die pl (P.length.get w0)
        r.1.1 ≠ Code.failMemory &&
        (match (r.2.tryInject (r.2.contextOf core) (some core) 0 false
          [r.2.queued core q (r.2.contextOf core) w0 (BitVec.ofNat 64 (r.2.hnat core (a + 8) 8)) r.1.2 buf]).1 with
        | some k => Code.family k = 0
        | none => false)
      | .error _ => false) = true := by decide +kernel

/-- A Grate operation of context 0 on a list at 0x40 of one buffer: core buffer 0 of two, owned by `slots`. -/
def grateAt (op ops : Nat) (slots : List (Option Nat)) : State :=
  let s := State.reset.setReg (Reg.GRT_CPOOL_CFG reg0 16)
    (wordOf [(F.GRT_CPOOL_CFG_ENABLE, 1), (F.GRT_CPOOL_CFG_COUNT, 2), (F.GRT_CPOOL_CFG_BASE, 0x4000)])
  let s := s.setReg (Reg.GRT_CPOOL_OWNER reg0 16 0) (wordOf [(F.GRT_CPOOL_OWNER_VALID, 1), (F.GRT_CPOOL_OWNER_MAX, 2)])
  st .move (ins .move op 0 ops) [] (put (s.setBuffer (.core core) 0 ⟨slots, 0, true, false⟩) 0x40 8 [0x4000])

/-- One buffer of context 0 alone. -/
def mine : List (Option Nat) := [some 0, none, none, none]

/-- The list of a FREE, SHARE or GIVE passes R361. -/
def listReady (op : GrateOp) (s : State) (w : Nat) : Bool :=
  let locs := (List.range (gCount w)).map fun i => s.hnat core (gList w + 8 * i) 8
  !listBad w && readsOk s [(gList w, 8 * gCount w)] && (op = .free || ownerOk (gOwner w)) &&
    (grateChecks s core op (s.contextOf core) (gOwner w) locs.zipIdx locs.zipIdx).isNone

theorem witness_GrateOperations :
    (issues (grateAt 0x10 0x80 mine) .move (grateSpec 0x10 [(16, 0), (20, 17), (22, 21), (24, 23)] true allocOp) fun s w =>
      !listBad w && gLast w < 3 && gFirst w ≤ gLast w &&
      (s.request (s.contextOf core) (chainOf core (gFirst w) (gLast w)) (gCount w) true).1.isSome) = true ∧
    issues (grateAt 0x11 0x40 mine) .move (grateSpec 0x11 [(16, 0), (20, 17)] false (ownersOp .free)) (listReady .free) = true ∧
    issues (grateAt 0x12 (0x40 + 1 * 2 ^ 25) mine) .move (grateSpec 0x12 [(16, 0), (20, 17), (37, 25)] false (ownersOp .share))
      (listReady .share) = true ∧
    issues (grateAt 0x13 (0x40 + 1 * 2 ^ 25) mine) .move (grateSpec 0x13 [(16, 0), (20, 17), (37, 25)] false (ownersOp .give))
      (listReady .give) = true := by decide +kernel

theorem test_grate_owners :
    runs (.give core) (grateAt 0x13 (0x40 + 1 * 2 ^ 25) mine) (fun t =>
      (t.buffer (.core core) 0).slots = [some 1, none, none, none]) = true ∧
    runs (.share core) (grateAt 0x12 (0x40 + 1 * 2 ^ 25) mine) (fun t =>
      (t.buffer (.core core) 0).slots = [some 0, some 1, none, none]) = true ∧
    runs (.free core) (grateAt 0x11 0x40 mine) (fun t => t.buffer (.core core) 0 = BufRec.free) = true := by decide +kernel

theorem witness_GrateOwners :
    let s := grateAt 0x11 0x40 mine
    let t := grateAt 0x11 0x40 [some 0, some 1, none, none]
    (placeOf s core 0x4000).toOption.bind s.bufferAt = some (.core core, 0) ∧
    (s.buffer (.core core) 0).withdrawn = false ∧ ((s.buffer (.core core) 0).slots.all fun x => x = none || x = some 0) = true ∧
    (placeOf t core 0x4000).toOption.bind t.bufferAt = some (.core core, 0) ∧
    ((t.buffer (.core core) 0).slots.any fun x => x ≠ none && x ≠ some 0) = true ∧
    (Pool.fabric).bufKey 0 ≠ (Pool.core core).bufKey 0 := by decide +kernel

/-! ## The compute engines -/

/-- Two FP32 terms, 1.0 and 2.5, at 0x300; two INT32, 3 and −4, at 0x310. -/
def data (s : State) : State := put (put s 0x300 4 [0x3F800000, 0x40200000]) 0x310 4 [3, 2 ^ 32 - 4]

/-- A Reduce instruction at its issue point, over held lanes `l`. -/
def reduceAt (op md ops : Nat) (ds : List (List Nat)) (l : Lanes) : State :=
  st .reduce (ins .reduce op md ops) ds (data (State.reset.setLanes core l))

theorem witness_ReduceLanes :
    (issues (reduceAt 0x00 0 (hs 255 255 255 255 0) [] Lanes.none) .reduce clrSpec fun s w =>
      (handlesCheck s core (handleNeeds w .unused .unused .unused .unused)).isNone && I.imm w % 8 = 0 && sumFmt (I.imm w / 8)) = true ∧
    (issues (reduceAt 0x00 0 (hs 255 255 255 255 2) [] Lanes.none) .reduce clrSpec fun _ w =>
      I.imm w % 8 = 2 && I.imm w / 8 ≤ 0x0D) = true ∧
    (issues (reduceAt 0x00 0 (hs 255 255 255 255 (8 * 4 + 6)) [] Lanes.none) .reduce clrSpec fun _ w =>
      I.imm w % 8 = 6 && intFmt (I.imm w / 8)) = true ∧
    (issues (reduceAt 0x0A 0 (hs 0 255 255 255 1) [vec 0x00 0x400 1 0] (Lanes.fresh 0 0)) .reduce outSpec fun s w =>
      let d := readDesc s core (I.d w)
      let l := s.lanes core
      (handlesCheck s core (handleNeeds w .required .unused .unused .unused)).isNone &&
      (redChecks [(some d, true, false, false)]).isNone && l.kind = 0 && sumFmt d.fmt && d.rank = 1 && d.d0 = 1 &&
      d.d0 ≤ l.lanes.length && !d.empty) = true ∧
    (issues (reduceAt 0x0B 0 (hs 0 255 255 255 0) [vec 0x00 0x400 2 1] (Lanes.fresh 0 0)) .reduce spillSpec fun s w =>
      let d := readDesc s core (I.d w)
      let l := s.lanes core
      (handlesCheck s core (handleNeeds w .required .unused .unused .unused)).isNone &&
      (redChecks [(some d, true, true, true)]).isNone && l.kind ≤ 1 && d.fmt = l.fmt && d.rank = 1 && d.d0 ≤ l.lanes.length &&
      !d.empty && (laneClass l.fmt).isSome) = true ∧
    (issues (reduceAt 0x0C 0 (hs 255 0 255 255 0) [vec 0x00 0x400 2 1] (Lanes.fresh 0 0)) .reduce fillSpec fun s w =>
      let a := readDesc s core (I.a w)
      let l := s.lanes core
      (handlesCheck s core (handleNeeds w .unused .required .unused .unused)).isNone &&
      (redChecks [(some a, false, true, true)]).isNone && l.kind ≤ 1 && a.fmt = l.fmt && a.rank = 1 && a.d0 ≤ l.lanes.length &&
      !a.empty && (laneClass l.fmt).isSome && readsOk s a.redRanges) = true := by decide +kernel

theorem witness_LongImage :
    let x : Accum := ⟨5, 3, false, false, false, true, true⟩
    laneClass 0x00 = some ⟨4, 320, 149⟩ ∧ x.value < 2 ^ 320 ∧ x.terms < 2 ^ 43 ∧ 0 < 32 ∧
    (⟨4, 320, 149⟩ : LaneClass).slices = 4 ∧ x.image ⟨4, 320, 149⟩ 0 < 2 ^ (8 * 48) ∧
    bits (x.image ⟨4, 320, 149⟩ 0) 319 0 = bits (x.image ⟨4, 320, 149⟩ 1) 319 0 ∧
    bits (bits (x.image ⟨4, 320, 149⟩ 0) 383 320) 52 48 = bits (bits (x.image ⟨4, 320, 149⟩ 1) 383 320) 52 48 ∧
    bits (bits (x.image ⟨4, 320, 149⟩ 0) 383 320) 42 0 = bits (bits (x.image ⟨4, 320, 149⟩ 1) 383 320) 42 0 := by decide +kernel

theorem witness_SumOrderFree : [0x3F800000, 0x40200000].Perm [0x40200000, 0x3F800000] := List.Perm.swap _ _ _

/-- The hypotheses on SUM or IADD up to the choice of form. -/
def sumReady (int : Bool) (s : State) (w : Nat) : Bool :=
  let a := readDesc s core (I.a w)
  let b := operand s core (I.b w)
  (handlesCheck s core (handleNeeds w .optional .required .optional .unused)).isNone &&
  (redChecks [(operand s core (I.d w), true, true, false), (some a, false, true, false), (b, false, true, true)]).isNone &&
  (if int then intFmt a.fmt else sumFmt a.fmt) && b.all (fun b => b.fmt = a.fmt)

/-- A holds two FP32 terms in one row each; D is one FP32 element, or its LONG image. -/
def sumRows : List (List Nat) := [vec 0x00 0x400 1 0, mat 0x00 0x300 1 2 4, vec 0x00 0x400 1 1, vec 0x00 0x300 2 0]

theorem witness_ReduceSums :
    (issues (reduceAt 0x01 0 (hs 255 3 255 255 0) sumRows (Lanes.fresh 0 0)) .reduce sumSpec fun s w =>
      let a := readDesc s core (I.a w)
      sumReady false s w && I.d w = 255 && (operand s core (I.b w)).isNone && (s.lanes core).kind = 0 &&
      (s.lanes core).fmt = a.fmt && a.d0 ≤ (s.lanes core).lanes.length && readsOk s a.redRanges) = true ∧
    (issues (reduceAt 0x02 0 (hs 255 0 255 255 0) [vec 0x04 0x310 2 0] (Lanes.fresh 1 4)) .reduce iaddSpec fun s w =>
      sumReady true s w && (s.lanes core).kind = 1) = true ∧
    (issues (reduceAt 0x01 0 (hs 0 1 255 255 0) [vec 0x00 0x400 1 0, vec 0x00 0x300 1 0] Lanes.none) .reduce sumSpec fun s w =>
      let d := readDesc s core (I.d w)
      let a := readDesc s core (I.a w)
      sumReady false s w && I.d w ≠ 255 && streamShapes d a none false && !d.empty && readsOk s a.redRanges && !d.long &&
      sumFmt d.fmt) = true ∧
    (issues (reduceAt 0x01 0 (hs 0 1 255 255 0) [vec 0x00 0x400 1 1, vec 0x00 0x300 1 0] Lanes.none) .reduce sumSpec fun s w =>
      let d := readDesc s core (I.d w)
      let a := readDesc s core (I.a w)
      sumReady false s w && streamShapes d a none false && !d.empty && readsOk s a.redRanges && d.long && d.fmt = a.fmt &&
      (laneClass a.fmt).isSome) = true := by decide +kernel

theorem test_sum : runs (.sum core) (reduceAt 0x01 0 (hs 0 1 255 255 0) [mat 0x00 0x400 1 1 4, mat 0x00 0x300 1 2 4] Lanes.none)
    (fun t => t.hnat core 0x400 4 = 0x40600000) = true := by decide +kernel

/-- The hypotheses on MAX, MIN, AND, OR and XOR in the held or the streamed form. -/
def compareReady (kind : Nat) (held : Bool) (s : State) (w : Nat) : Bool :=
  let d := readDesc s core (I.d w)
  let a := readDesc s core (I.a w)
  let l := s.lanes core
  (handlesCheck s core (handleNeeds w .optional .required .unused .unused)).isNone &&
  (redChecks [(operand s core (I.d w), true, false, false), (some a, false, false, false)]).isNone &&
  (kind < 4 || intFmt a.fmt) && readsOk s a.redRanges &&
  if held then I.d w = 255 && l.kind = kind && l.fmt = a.fmt && a.d0 ≤ l.lanes.length
  else I.d w ≠ 255 && d.fmt = a.fmt && streamShapes d a none false && !d.empty

/-- Two INT32 to one in a row, and the held form's operand. -/
def intVecs : List (List Nat) := [vec 0x04 0x400 2 0, vec 0x04 0x310 2 0, mat 0x04 0x310 1 2 4, mat 0x04 0x400 1 1 4]

theorem witness_ReduceCompares :
    issues (reduceAt 0x03 0 (hs 255 1 255 255 0) intVecs (Lanes.fresh 2 4)) .reduce maxSpec (compareReady 2 true) = true ∧
    issues (reduceAt 0x04 0 (hs 0 1 255 255 0) intVecs Lanes.none) .reduce minSpec (compareReady 3 false) = true ∧
    issues (reduceAt 0x07 0 (hs 0 1 255 255 0) intVecs Lanes.none) .reduce andSpec (compareReady 4 false) = true ∧
    issues (reduceAt 0x08 0 (hs 0 1 255 255 0) intVecs Lanes.none) .reduce orSpec (compareReady 5 false) = true ∧
    issues (reduceAt 0x09 0 (hs 255 1 255 255 0) intVecs (Lanes.fresh 6 4)) .reduce xorSpec (compareReady 6 true) = true := by
  decide +kernel

theorem test_max : runs (.max core) (reduceAt 0x03 0 (hs 3 2 255 255 0) intVecs Lanes.none)
    (fun t => t.hnat core 0x400 4 = 3) = true := by decide +kernel

/-- The hypotheses on ARGMAX and ARGMIN. -/
def argReady (s : State) (w : Nat) : Bool :=
  let d := readDesc s core (I.d w)
  let a := readDesc s core (I.a w)
  let b := operand s core (I.b w)
  (handlesCheck s core (handleNeeds w .required .required .optional .unused)).isNone &&
  (redChecks [(some d, true, false, false), (some a, false, false, false), (b, true, false, false)]).isNone &&
  d.fmt = 0x04 && b.all (fun b => b.fmt = a.fmt) && streamShapes d a b true && !d.empty && readsOk s a.redRanges

theorem witness_ReduceArgs :
    issues (reduceAt 0x05 0 (hs 0 1 255 255 7) intVecs Lanes.none) .reduce argmaxSpec argReady = true ∧
    issues (reduceAt 0x06 0 (hs 3 2 0 255 7) [mat 0x04 0x500 1 1 4, vec 0 0 0 0, mat 0x04 0x310 1 2 4, mat 0x04 0x400 1 1 4] Lanes.none) .reduce argminSpec argReady = true := by
  decide +kernel

theorem test_argmin : runs (.argmin core) (reduceAt 0x06 0 (hs 3 2 255 255 7) intVecs Lanes.none)
    (fun t => t.hnat core 0x400 4 = 8) = true := by decide +kernel

/-- A Shape instruction at its issue point: a table of two rows of two INT32 at 0x300, indices 1 and 0 at 0x320, a mask 0, 1 at
0x330, and a comparand 3 at 0x310. -/
def shapeAt (op md ops : Nat) : State :=
  st .shape (ins .shape op md ops)
    [mat 0x04 0x400 2 2 8, mat 0x04 0x300 2 2 8, vec 0x04 0x320 2 0, vec 0x06 0x330 2 0, vec 0x04 0x440 1 0,
     vec 0x06 0x400 2 0, vec 0x04 0x310 1 0, vec 0x05 0x400 1 0, vec 0x04 0x400 2 0, vec 0x04 0x310 2 0]
    (put (put (data State.reset) 0x320 4 [1, 0]) 0x330 1 [0, 1])

/-- The hypotheses on GATHER and SCATTER, with every index in range, or with MOD 1. -/
def rowsReady (gather skip : Bool) (s : State) (w : Nat) : Bool :=
  let d := readDesc s core (I.d w)
  let a := readDesc s core (I.a w)
  let b := readDesc s core (I.b w)
  let es := ((allCodes s core b).getD 0 []).map (effIndex b.fmt (I.imm w) (if gather then a else d).d1)
  (handlesCheck s core (handleNeeds w .required .required .required .unused)).isNone &&
  (plainChecks [(some d, true), (some a, false), (some b, false)]).isNone && d.rank = 2 && a.rank = 2 && rowsAlike d a &&
  indexFmt b.fmt && b.rank = 1 && b.blk = 0 && (if gather then d else a).d1 = b.d0 && destOk d false [a, b] [] &&
  readsOk s (a.spans ++ b.spans) && (if skip then I.mod w = 1 else es.all Option.isSome) && !b.empty

theorem witness_ShapeRows :
    issues (shapeAt 0x00 0 (hs 0 1 2 255 0)) .shape (shapeSpec 0x00 (fun _ => false) (fun m => m < 2) (moveRows true))
      (rowsReady true false) = true ∧
    issues (shapeAt 0x01 1 (hs 0 1 2 255 1)) .shape (shapeSpec 0x01 (fun _ => false) (fun m => m < 2) (moveRows false))
      (rowsReady false true) = true := by decide +kernel

theorem test_gather : runs (.gather core) (shapeAt 0x00 0 (hs 0 1 2 255 0)) (fun t =>
    t.hnat core 0x400 8 = 0 && t.hnat core 0x408 8 = 0x3F800000 + 0x40200000 * 2 ^ 32) = true := by decide +kernel

/-- The hypotheses that FILTER and COUNT share. -/
def threeReady (s : State) (w : Nat) : Bool :=
  let d := readDesc s core (I.d w)
  let a := readDesc s core (I.a w)
  let b := readDesc s core (I.b w)
  (handlesCheck s core (handleNeeds w .required .required .required .unused)).isNone &&
  (plainChecks [(some d, true), (some a, false), (some b, false)]).isNone && I.mod w % 8 ≤ 5 && d.blk = 0 &&
  comparandOk a b && destOk d true [a, b] [] && !a.empty

theorem witness_ShapeCounts :
    (issues (shapeAt 0x02 0 (hs 0 1 3 4 0)) .shape (shapeSpec 0x02 (fun w => I.imm w ≠ 0) (fun m => m = 0) compactOp) fun s w =>
      let d := readDesc s core (I.d w)
      let a := readDesc s core (I.a w)
      let b := readDesc s core (I.b w)
      let n := readDesc s core (I.c w)
      (handlesCheck s core (handleNeeds w .required .required .required .required)).isNone &&
      (plainChecks [(some d, true), (some a, false), (some b, false), (some n, true)]).isNone && d.rank = 2 && a.rank = 2 &&
      rowsAlike d a && b.fmt = 0x06 && b.rank = 1 && b.blk = 0 && b.d0 = a.d1 && n.fmt = 0x04 && n.rank = 1 && n.d0 = 1 &&
      n.blk = 0 && destOk d true [a, b] [n] && destOk n true [a, b] [d] && !a.empty && readsOk s (a.spans ++ b.spans)) = true ∧
    (issues (shapeAt 0x03 0 (hs 5 9 6 255 0)) .shape (shapeSpec 0x03 (fun w => I.imm w ≠ 0) (fun m => m < 8) filterOp) fun s w =>
      let d := readDesc s core (I.d w)
      let a := readDesc s core (I.a w)
      threeReady s w && d.fmt = 0x06 && sameDims d a && readsOk s (a.spans ++ (readDesc s core (I.b w)).spans)) = true ∧
    (issues (shapeAt 0x05 8 (hs 7 9 6 255 0)) .shape (shapeSpec 0x05 (fun w => I.imm w ≠ 0) (fun _ => true) countOp) fun s w =>
      let d := readDesc s core (I.d w)
      let a := readDesc s core (I.a w)
      threeReady s w && d.fmt = 0x05 && d.count = 1 &&
      readsOk s (a.spans ++ (readDesc s core (I.b w)).spans ++ d.spans)) = true ∧
    (issues (shapeAt 0x04 2 (hs 8 2 255 255 0)) .shape (shapeSpec 0x04 (fun _ => false) (fun m => m < 4) histOp) fun s w =>
      let d := readDesc s core (I.d w)
      let a := readDesc s core (I.a w)
      (handlesCheck s core (handleNeeds w .required .required .unused .unused)).isNone &&
      (plainChecks [(some d, true), (some a, false)]).isNone && d.fmt = 0x04 && d.rank = 1 && indexFmt a.fmt && a.rank = 1 &&
      a.blk = 0 && destOk d false [a] [] && readsOk s (a.spans ++ d.spans) && !a.empty && !d.empty &&
      (((allCodes s core a).getD 0 []).map (effIndex a.fmt (I.imm w) d.d0)).all Option.isSome) = true := by decide +kernel

theorem test_shape_counts :
    runs (.compact core) (shapeAt 0x02 0 (hs 0 1 3 4 0)) (fun t =>
      t.hnat core 0x440 4 = 1 && t.hnat core 0x400 8 = t.hnat core 0x308 8) = true ∧
    runs (.count core) (shapeAt 0x05 0 (hs 7 9 6 255 0)) (fun t => t.hnat core 0x400 8 = 1) = true := by decide +kernel

theorem witness_SortIsStable :
    ([⟨2, 0, true, false⟩, ⟨1, 1, true, false⟩] : List Entry).all Entry.real = true := by decide +kernel

/-- A Sort instruction at its issue point over the two INT32 of `data` and two values at 0x300. -/
def sortAt (op md ops : Nat) : State :=
  st .sort (ins .sort op md ops)
    [vec 0x04 0x400 2 0, vec 0x04 0x310 2 0, vec 0x04 0x300 2 0, vec 0x04 0x420 2 0, vec 0x04 0x400 1 0, vec 0x04 0x420 1 0,
     vec 0x04 0x310 1 0, vec 0x04 0x314 1 0] (data State.reset)

/-- The hypotheses on SORT and SORTKV. -/
def sortReady (kv : Bool) (s : State) (w : Nat) : Bool :=
  let need (p q : Need) : Need := if kv then p else q
  let d := operand s core (I.d w)
  let a := readDesc s core (I.a w)
  let b := operand s core (I.b w)
  let v := operand s core (I.c w)
  let pos := kv && b.isNone
  (handlesCheck s core (handleNeeds w (need .optional .required) .required (need .optional .unused)
    (need .required .unused))).isNone &&
  (sortChecks [(d, true, false), (some a, false, false), (b, false, false), (v, true, pos)]).isNone && a.blk = 0 &&
  (d.toList ++ b.toList ++ v.toList).all (fun o => o.blk = 0 && sameDims o a) && keyFmt a.fmt && d.all (fun x => x.fmt = a.fmt) &&
  b.all (fun x => valueFmt x.fmt) && v.all (fun x => if pos then posFmt x.fmt else valueFmt x.fmt) &&
  (!bitAt (I.mod w) 3 || intKey a.fmt) && (pos || b.map Desc.fmt = v.map Desc.fmt) && a.rank ≤ 2 && a.d0 ≤ 1024 &&
  d.all (fun x => destOk x true (a :: b.toList) v.toList) && v.all (fun x => destOk x true (a :: b.toList) d.toList) &&
  !a.empty && readsOk s (a.spans ++ (b.map Desc.spans).getD [])

theorem witness_SortRows :
    issues (sortAt 0x00 8 (hs 0 1 255 255 0)) .sort (sortSpec 0x00 (fun w => I.imm w ≠ 0) 9 (sortOp false)) (sortReady false) = true ∧
    issues (sortAt 0x01 0 (hs 0 1 2 3 0)) .sort (sortSpec 0x01 (fun w => I.imm w ≠ 0) 9 (sortOp true)) (sortReady true) = true ∧
    issues (sortAt 0x01 1 (hs 255 1 255 3 0)) .sort (sortSpec 0x01 (fun w => I.imm w ≠ 0) 9 (sortOp true)) (sortReady true) = true := by
  decide +kernel

theorem test_sort :
    runs (.sort core) (sortAt 0x00 0 (hs 0 1 255 255 0)) (fun t => t.hnat core 0x400 8 = (2 ^ 32 - 4) + 3 * 2 ^ 32) = true ∧
    runs (.sortkv core) (sortAt 0x01 0 (hs 255 1 255 3 0)) (fun t => t.hnat core 0x420 8 = 1) = true := by decide +kernel

theorem witness_SortSelects :
    (issues (sortAt 0x02 0 (hs 4 1 255 5 1)) .sort (sortSpec 0x02 (fun w => 2047 < I.imm w) 11 topkOp) fun s w =>
      let d := readDesc s core (I.d w)
      let a := readDesc s core (I.a w)
      let v := readDesc s core (I.c w)
      let k := I.imm w
      (handlesCheck s core (handleNeeds w .required .required .optional .required)).isNone && (operand s core (I.b w)).isNone &&
      (sortChecks [(some d, true, false), (some a, false, false), (none, false, false), (some v, true, true)]).isNone &&
      a.blk = 0 && d.blk = 0 && v.blk = 0 && keyFmt a.fmt && d.fmt = a.fmt && posFmt v.fmt && a.rank ≤ 2 && 1 ≤ k && k ≤ 1024 &&
      d.rank ≤ 2 && v.rank ≤ 2 && d.d0 = k && v.d0 = k && d.d1 = a.d1 && v.d1 = a.d1 && destOk d true [a] [v] &&
      destOk v true [a] [d] && !d.empty && readsOk s a.spans) = true ∧
    (issues (sortAt 0x03 0 (hs 0 6 7 3 0)) .sort (sortSpec 0x03 (fun w => I.imm w ≠ 0) 9 mergeOp) fun s w =>
      let d := readDesc s core (I.d w)
      let a := readDesc s core (I.a w)
      let b := readDesc s core (I.b w)
      let v := readDesc s core (I.c w)
      let n := a.d0 + b.d0
      (handlesCheck s core (handleNeeds w .required .required .required .required)).isNone &&
      (sortChecks [(some d, true, false), (some a, false, false), (some b, false, false), (some v, true, true)]).isNone &&
      a.blk = 0 && d.blk = 0 && v.blk = 0 && keyFmt a.fmt && d.fmt = a.fmt && b.blk = 0 && b.fmt = a.fmt && posFmt v.fmt &&
      a.rank = 1 && b.rank = 1 && 1 ≤ n && n ≤ 65535 && d.rank = 1 && v.rank = 1 && d.d0 = n && v.d0 = n &&
      destOk d true [a, b] [v] && destOk v true [a, b] [d] && readsOk s (a.spans ++ b.spans)) = true := by decide +kernel

theorem test_topk : runs (.topk core) (sortAt 0x02 0 (hs 4 1 255 5 1)) (fun t =>
    t.hnat core 0x400 4 = 3 && t.hnat core 0x420 4 = 0) = true := by decide +kernel

/-- A Scale instruction at its issue point: FP32 sources at 0x300, and an FP8 source with one scale of 2. -/
def scaleAt (op md ops : Nat) : State :=
  let f8 := [1 + 0x08 * 16 + 0x340 * 2 ^ 16 + 1 * 2 ^ 9 + 0x350 * 2 ^ 47, 8 + 2 ^ 16 + 2 ^ 32 + 2 ^ 48, 0, 0]
  let q8 := [1 + 0x08 * 16 + 0x440 * 2 ^ 16 + 1 * 2 ^ 9 + 0x450 * 2 ^ 47, 8 + 2 ^ 16 + 2 ^ 32 + 2 ^ 48, 0, 0]
  st .scale (ins .scale op md ops) [vec 0x00 0x400 2 0, vec 0x00 0x300 2 0, f8, q8, vec 0x00 0x360 8 0, vec 0x00 0x400 8 0]
    (put (put (data State.reset) 0x340 1 [0x38]) 0x350 1 [128])

/-- The hypotheses on a Scale operation. -/
def scaleReady (op : Nat) (s : State) (w : Nat) : Bool :=
  let d := readDesc s core (I.d w)
  let a := readDesc s core (I.a w)
  let b := operand s core (I.b w)
  (handlesCheck s core (handleNeeds w .required .required (if op = 0x03 then .required else .unused) .unused)).isNone &&
  (plainChecks [(some d, true), (some a, false), (b, false)]).isNone && scaleFmtOk op a d && sameDims d a &&
  b.all (fun x => sameDims x a && x.fmt = a.fmt) && destOk d true (a :: b.toList) [] && !a.empty &&
  readsOk s (a.spans ++ (b.map Desc.spans).getD [])

theorem witness_ScaleOperations :
    issues (scaleAt 0x00 0 (hs 3 4 255 255 0)) .scale (scaleSpec 0x00) (scaleReady 0x00) = true ∧
    issues (scaleAt 0x01 0 (hs 5 2 255 255 0)) .scale (scaleSpec 0x01) (scaleReady 0x01) = true ∧
    issues (scaleAt 0x02 0 (hs 0 1 255 255 0)) .scale (scaleSpec 0x02) (scaleReady 0x02) = true ∧
    issues (scaleAt 0x03 0 (hs 0 1 1 255 0)) .scale (scaleSpec 0x03) (scaleReady 0x03) = true ∧
    issues (scaleAt 0x04 0 (hs 0 1 255 255 0)) .scale (scaleSpec 0x04) (scaleReady 0x04) = true ∧
    issues (scaleAt 0x05 0 (hs 0 1 255 255 0)) .scale (scaleSpec 0x05) (scaleReady 0x05) = true ∧
    issues (scaleAt 0x06 0 (hs 0 1 255 255 0)) .scale (scaleSpec 0x06) (scaleReady 0x06) = true ∧
    issues (scaleAt 0x07 0 (hs 0 1 255 255 0)) .scale (scaleSpec 0x07) (scaleReady 0x07) = true := by decide +kernel

theorem test_scale :
    runs (.dequant core) (scaleAt 0x01 0 (hs 5 2 255 255 0)) (fun t => t.hnat core 0x400 4 = 0x40000000) = true ∧
    runs (.div core) (scaleAt 0x03 0 (hs 0 1 1 255 0)) (fun t => t.hnat core 0x400 4 = 0x3F800000) = true := by decide +kernel

/-- A Tensor instruction at its issue point: FP32 operands of one element each, 1.0 and 2.5, and a cleared tile 0 of KIND 0. -/
def tensorAt (op md ops : Nat) (ready : Nat) : State :=
  st .tensor (ins .tensor op md ops) [vec 0x00 0x400 1 0, mat 0x00 0x300 1 1 4, mat 0x00 0x304 1 1 4]
    (data (State.reset.setTile core 0 { kind := 0, elems := List.replicate 1024 0, ready := ready }))

theorem witness_TensorOperations :
    (issues (tensorAt 0x00 0 (hs 255 255 255 255 8) 0) .tensor zeroSpec fun s w =>
      (s.tile core (tileOf w)).ready ≤ s.now && (handlesCheck s core (handleNeeds w .unused .unused .unused .unused)).isNone &&
      I.imm w / 4 ≤ 2) = true ∧
    (issues (tensorAt 0x01 0 (hs 255 1 2 255 0) 0) .tensor (mmaSpec core) fun s w =>
      let a := readDesc s core (I.a w)
      let b := readDesc s core (I.b w)
      let sh := mmaShape a b (I.mod w = 1)
      (s.tile core (tileOf w)).ready ≤ s.now &&
      (handlesCheck s core (handleNeeds w .unused .required .required .unused)).isNone &&
      (plainChecks [(some a, false), (some b, false)]).isNone && (mmaCheck a b sh (s.tile core (tileOf w)).kind).isNone &&
      sh.k ≠ 0 && sh.m ≠ 0 && sh.n ≠ 0 && readsOk s (a.spans ++ b.spans)) = true ∧
    (issues (tensorAt 0x02 0 (hs 0 255 255 255 0) 0) .tensor rdSpec fun s w =>
      let t := s.tile core (tileOf w)
      let d := readDesc s core (I.d w)
      t.ready ≤ s.now && (handlesCheck s core (handleNeeds w .required .unused .unused .unused)).isNone &&
      (plainChecks [(some d, true)]).isNone && bits (I.imm w) 5 2 + d.d1 ≤ 16 && bits (I.imm w) 11 6 + d.d0 ≤ 64 && d.rank ≤ 2 &&
      d.blk = 0 && t.kind ≠ 7 && rdFmtOk t.kind d.fmt && !d.empty) = true ∧
    (issues (tensorAt 0x00 0 (hs 255 255 255 255 8) 50) .tensor zeroSpec fun s w =>
      s.now < (s.tile core (tileOf w)).ready && (handlesCheck s core (handleNeeds w .unused .unused .unused .unused)).isNone &&
      I.imm w / 4 ≤ 2) = true := by decide +kernel

theorem test_mma : runs (.mma core) (tensorAt 0x01 0 (hs 255 1 2 255 0) 0) (fun t =>
    (t.tile core 0).elems.getD 0 0 = 0x40200000) = true := by decide +kernel

/-! ## Management writes and the sequencer -/

theorem witness_AccessCodes :
    let r : Row := ⟨"R", 0, [], 32, [⟨⟨31, 16⟩, .rw, 0⟩, ⟨⟨15, 0⟩, .w1c, 0⟩]⟩
    (r.fields.all fun f => f.fld.lo ≤ f.fld.hi && f.fld.hi < 64) = true ∧
    r.fields.Pairwise (fun f g => f.fld.hi < g.fld.lo ∨ g.fld.hi < f.fld.lo) ∧
    (∀ f ∈ r.fields, 40 < f.fld.lo ∨ f.fld.hi < 40) := by decide +kernel

/-- A register of width 32. -/
def width32 (a : Nat) : Bool := match regRow a with | some x => x.1.width = 32 | none => false

/-- A register whose writes the access codes alone rule. -/
def okSpot (s : State) (a width : Nat) : Bool := match s.spot a width with | .ok (.reg _ _) => true | _ => false

theorem witness_RegisterWrites :
    let a := Reg.HTH_CTX core
    okSpot State.reset a 32 = true ∧ (match State.reset.spot a 64 with | .error _ => true | .ok _ => false) = true ∧
    regRow (State.reset.homeOf (unitBase 0xF0 7 0)) = none ∧ State.reset.atBackup (unitBase 0xF0 7 0) = false ∧
    0x40 ≤ siteOf (unitBase 0xF0 7 0) := by decide +kernel

theorem witness_AccessWidth :
    let a := Reg.HTH_CTX core
    State.reset.atBackup a = false ∧ offsetOf a < 0x8000 ∧
    width32 a = true ∧ State.reset.homeOf a = a ∧
    siteOf (coreBase core + 0x8000) < 0x40 ∧ blockOf (coreBase core + 0x8000) < 80 ∧ unitOf (coreBase core + 0x8000) < 0x42 ∧
    0x8000 ≤ offsetOf (coreBase core + 0x8000) ∧ offsetOf (coreBase core + 0x8000) < 0xE000 ∧ (32 : Nat) ≠ 64 := by
  decide +kernel

theorem test_register_write :
    answers (.registerWrite (Reg.HTH_CTX core) 32 5) State.reset Code.done = true ∧
    runs (.registerWrite (Reg.HTH_CTX core) 32 5) State.reset (fun t => t.fld (Reg.HTH_CTX core) F.HTH_CTX_CONTEXT = 5) = true ∧
    answers (.registerWrite (Reg.HTH_CTX core) 64 5) State.reset Code.rejRange = true ∧
    answers (.registerWrite (unitBase 0xF0 7 0) 32 5) State.reset Code.rejRange = true := by decide +kernel

/-- The Reduce engine of the core has ENTRY valid at 3; a swap is armed and watched. -/
def swapAt : State :=
  let s := (with_ (Reg.ENTRY core .reduce) (wordOf [(F.ENTRY_VALID, 1), (F.ENTRY_PC, 3)])).setFld (Reg.HTH_BANK_CTL core)
    F.HTH_BANK_CTL_ARMED 1
  s.watchSwap core

theorem witness_BankControl :
    core.ok = true ∧ State.reset.siteDown core.die core.region = false ∧ swapAt.swapReady core = true ∧
    (swapAt.core core).swapFrom = some 0 ∧ core.has .reduce = true ∧
    swapAt.isOn (Reg.ENTRY core .reduce) F.ENTRY_VALID = true ∧ swapAt.isOn (Reg.ENTRY core .sort) F.ENTRY_VALID = false ∧
    State.reset.swapReady core = false ∧ 1 ≠ F.HTH_BANK_CTL_ACTIVE.get (State.reset.reg (Reg.HTH_BANK_CTL core)) ∧
    F.HTH_BANK_CTL_ARMED.on (State.reset.reg (Reg.HTH_BANK_CTL core)) = false ∧
    0 = F.HTH_BANK_CTL_ACTIVE.get (State.reset.reg (Reg.HTH_BANK_CTL core)) := by decide +kernel

theorem test_bank_swap : runs (.bankSwap core) swapAt (fun t =>
    t.fld (Reg.HTH_BANK_CTL core) F.HTH_BANK_CTL_ACTIVE = 1 && (t.eng core .reduce).st = .running &&
      (t.eng core .reduce).issueAt = 6 && (t.eng core .sort).st = .halted) = true := by decide +kernel

/-- An engine that FAULTED with a family-1 code. -/
def faultedAt : State := State.reset.setEng core .move { Engine.idle with st := .faulted, lastFault := 0x10, faultPc := 4 }

theorem witness_SequencerControl :
    let s := with_ (Reg.ENTRY core .move) (wordOf [(F.ENTRY_VALID, 1), (F.ENTRY_PC, 3)])
    core.has .move = true ∧ s.siteDown core.die core.region = false ∧ (s.eng core .move).st = .halted ∧
    s.isOn (Reg.ENTRY core .move) F.ENTRY_VALID = true ∧ State.reset.isOn (Reg.ENTRY core .move) F.ENTRY_VALID = false ∧
    (faultedAt.eng core .move).st = .faulted ∧ Code.family (faultedAt.eng core .move).lastFault = 1 ∧
    (State.reset.eng core .move).st ≠ .faulted := by decide +kernel

/-- An issued instruction that awaits nothing. -/
def flying (code : Nat) : Inflight :=
  { pc := 2, word := ins .move 0x38 0 0, issued := 0, doneAt := 0, awaits := .time, code := code, sat := 0, flush := 0, sig := none,
    take := none, dst := [], unit := 0, haddr := 0, stages := 0, mismatches := 0, macs := 0, busy := 0, remote := none }

/-- The Move engine with one instruction issued. -/
def issuedAt (code : Nat) : State := State.reset.setEng core .move { Engine.idle with st := .running, inflight := [flying code] }

/-- The Move engine waits since cycle 3 for flag 0, which is clear, at most 100 cycles. -/
def waitingAt : State :=
  let s := synced (flagWord 0) (with_ (Reg.WAIT_LIMIT core .move) (wordOf [(F.WAIT_LIMIT_LIMIT, 100)]))
  let s := st .move (ins .move 0x38 0 0 + 1 * 2 ^ 93) [] s
  s.setEng core .move { s.eng core .move with st := .waiting, waitFrom := some 3 }

/-- The Move engine has run past instruction 767. -/
def pastAt : State := State.reset.setEng core .move { Engine.idle with st := .running, pc := 768 }

theorem witness_SequencerEnds :
    core.has .move = true ∧ (State.reset.eng core .move).held = none ∧ (State.reset.eng core .move).inflight = [] ∧
    ((issuedAt 0).eng core .move).inflight = [flying 0] ∧ (flying 0).awaits = .time ∧ (flying 0).mismatches = 0 ∧
    ((issuedAt 0).meetInject core .move (flying 0)).isNone = true ∧ Code.family (flying 0).code = 0 ∧ (flying 0).sig = none ∧
    (flying 0).macs = 0 ∧ I.cr (flying 0).word = false ∧ Code.family (flying 0x33).code ≠ 0 ∧
    ((issuedAt 0x33).meetInject core .move (flying 0x33)).isNone = true ∧
    (waitingAt.eng core .move).st = .waiting ∧ (waitingAt.eng core .move).waitFrom = some 3 ∧
    (match translateHead waitingAt core (waitingAt.headWord core .move) with
     | .ok h => h.wait.isSome | .error _ => false) = true ∧
    waitingAt.fld (Reg.WAIT_LIMIT core .move) F.WAIT_LIMIT_LIMIT ≠ 0 ∧
    waitHolds 1 0 (waitingAt.reg (Reg.SYN_OBJ reg0 0)) = false ∧
    State.reset.fld (Reg.WAIT_LIMIT core .tally) F.WAIT_LIMIT_LIMIT ≤ 2 ^ 32 ∧
    (with_ (Reg.WAIT_LIMIT core .move) 0).fld (Reg.WAIT_LIMIT core .move) F.WAIT_LIMIT_LIMIT = 0 ∧
    (pastAt.eng core .move).st = .running ∧ (pastAt.eng core .move).ending = .none ∧ 768 ≤ (pastAt.eng core .move).pc ∧
    (pastAt.eng core .move).inflight = [] ∧ (State.reset.eng core .move).pc < 768 := by decide +kernel

theorem test_sequencer_ends :
    runs (.waitTimeout core .move) waitingAt (fun t =>
      (t.eng core .move).lastFault = Code.failTimeout && t.now = 103) = true ∧
    runs (.instructionComplete core .move) (issuedAt 0) (fun t => (t.eng core .move).inflight = []) = true ∧
    runs (.fetchPastEnd core .move) pastAt (fun t => (t.eng core .move).faultPc = 767) = true := by decide +kernel

/-- INJECT is on. -/
def injectAt : State := State.reset.setFld Reg.VIG_REPRO_ID F.VIG_REPRO_ID_INJECT 1

theorem witness_Injections :
    core.ok = true ∧ injectAt.siteDown core.die core.region = false ∧ injectAt.injectOn = true ∧
    width32 (Reg.RED_INJECT core) = true ∧ F.RED_INJECT_STAGE.get 0x4F ≠ 3 ∧ F.RED_INJECT_BIT.get 0x4F = 79 ∧
    core.has .tensor = true ∧ width32 (Reg.TEN_INJECT core) = true ∧ width32 (Reg.UNIT_INJECT core .sort) = true ∧
    width32 (Reg.UNIT_INJECT core .shape) = true ∧ width32 (Reg.UNIT_INJECT core .scale) = true ∧
    F.UNIT_INJECT_UNIT.get 0 ≤ lastUnit .shape ∧ State.reset.injectOn = false := by decide +kernel

theorem test_inject :
    answers (.redInject core 0x4F) injectAt Code.done = true ∧ answers (.redInject core 0x4F) State.reset Code.rejState = true ∧
    refuses (.tenInject ⟨0, 0, 1⟩ 0) injectAt = true := by decide +kernel

/-- A DATA packet of 8 bytes for receive queue 0 of the core. -/
def dataPkt : Packet :=
  { w0 := wordOf [(P.ptype, 0), (P.dmod, 1), (P.length, 8)], w1 := wordOf [(P.core, 16)], payload := leBytes 8 5 }

/-- Receive queue 0 is enabled with room for one packet, and the core pool has a buffer. -/
def queueOpen : State :=
  let s := (State.reset.setFld (Reg.MOV_QCFG core 8) F.MOV_QCFG_ENABLE 1).setFld (Reg.MOV_QCFG core 8) F.MOV_QCFG_DEPTH 1
  s.setReg (Reg.GRT_CPOOL_CFG reg0 16)
    (wordOf [(F.GRT_CPOOL_CFG_ENABLE, 1), (F.GRT_CPOOL_CFG_COUNT, 1), (F.GRT_CPOOL_CFG_BASE, 0x4000)])

/-- The queue is open and its context has an owner entry. -/
def queueReady : State :=
  queueOpen.setReg (Reg.GRT_CPOOL_OWNER reg0 16 0) (wordOf [(F.GRT_CPOOL_OWNER_VALID, 1), (F.GRT_CPOOL_OWNER_MAX, 1)])

/-- A packet held at the core's router port since cycle 2. -/
def heldAt : State := { State.reset with flight := [{ Flying.of dataPkt none none 0 with held := some 2 }] }

theorem witness_PacketsForCores :
    forCore dataPkt = true ∧ (queueReady.arrivalOf dataPkt).2.substituting core = false ∧
    ((queueReady.arrivalOf dataPkt).2.flight.all fun g => g.held.isNone) = true ∧
    ((queueReady.arrivalOf dataPkt).2.enterQueue (queueReady.arrivalOf dataPkt).1).1.isSome = true ∧
    ((State.reset.arrivalOf dataPkt).2.enterQueue (State.reset.arrivalOf dataPkt).1).1.isNone = true ∧
    (heldAt.flight.find? (fun g => g.held.isSome && dataCore g.pkt = core)).isSome = true ∧
    heldAt.substituting core = false ∧ ({ flying 0 with awaits := .requests } : Inflight).awaits = .requests := by decide +kernel

theorem test_packet_arrival : runs (.packetArrival dataPkt) State.reset (fun t => t.flight.length = 1) = true := by
  decide +kernel

/-- An ALLOC of core 16 waits in its region. -/
def waitq (s : State) : State := s.setRegion reg0 { s.region reg0 with waitq := [⟨16, 2, 5, 1, 0, 0, 0x40⟩] }

theorem witness_GrateWaiting :
    reg0.ok = true ∧ ((waitq queueReady).serveWait reg0 ((waitq queueReady).region reg0).waitq).isSome = true ∧
    ((waitq State.reset).region reg0).waitq = [⟨16, 2, 5, 1, 0, 0, 0x40⟩] ∧ spaceOk (.region reg0) = true ∧ 3 < 8192 ∧
    State.reset.isOn (reclaimReg (.region reg0)) F.GRT_RCTL_BUSY = false ∧ ownerOk 3 = true ∧
    (with_ (reclaimReg .fabric) (wordOf [(F.GRT_RCTL_BUSY, 1)])).isOn (reclaimReg .fabric) F.GRT_RCTL_BUSY = true := by
  decide +kernel

theorem test_reclaim :
    answers (.reclaim (.region reg0) 3) State.reset Code.done = true ∧
    runs (.allocWaitTimeout reg0) (waitq State.reset) (fun t => ((t.region reg0).waitq).isEmpty) = true := by decide +kernel

/-! ## Sync files, the Almanac and Calendars -/

/-- A REMOTE_SIGNAL packet from module 1 for object 0 of the region, and a SIGACK of token 0. -/
def sigPkt : Packet := { w0 := wordOf [(P.ptype, 1), (P.smod, 1)], w1 := wordOf [(P.sact, 1)], payload := [] }
def ackPkt : Packet := { w0 := wordOf [(P.ptype, 2)], w1 := 0, payload := [] }

/-- The signal's packet came from region 1 of the module; a signal of the region is not acknowledged; a barrier carries. -/
def flightAt : State := { State.reset with flight := [.of sigPkt (some ⟨0, 1⟩) none 0] }
def outAt : State := State.reset.setRegion reg0 { Region.idle with out := [⟨0, ⟨2, 1, 0, 0, 0, 0, 1, 1, 0⟩, 5, 0⟩] }
def carryAt : State := State.reset.setRegion reg0 { Region.idle with carry := [(7, 9)] }

theorem witness_RemoteSignals :
    reg0.ok = true ∧ Reg.SYN_OBJ reg0 0 ∉ State.reset.setsIn 3 ∧
    Reg.SYN_OBJ reg0 0 ∈ (State.reset.applySig reg0 0 3 1 0 none).setsIn 3 ∧
    State.reset.fld (Reg.SYN_OBJ reg0 0) F.SYN_OBJ_COUNTER_VALUE + 5 < 2 ^ 24 ∧
    2 ^ 24 ≤ (synced (counterWord (2 ^ 24 - 1)) State.reset).fld (Reg.SYN_OBJ reg0 0) F.SYN_OBJ_COUNTER_VALUE + 1 ∧
    h0 sigPkt P.ptype = 1 ∧ (flightAt.land sigPkt).1 = some (.of sigPkt (some ⟨0, 1⟩) none 0) ∧
    (State.reset.land sigPkt).1 = none ∧ h0 ackPkt P.ptype = 2 ∧
    (takeFirst (fun x : OutSig => x.token = 0) (outAt.region reg0).out).isSome = true ∧
    (carryAt.region reg0).carry.find? (fun x => x.1 = 7) = some (7, 9) := by decide +kernel

theorem test_remote_signal :
    runs (.remoteSignal sigPkt) (synced (flagWord 0) State.reset) (fun t =>
      t.fld (Reg.SYN_OBJ reg0 0) F.SYN_OBJ_FLAG_VALUE = 1) = true ∧
    runs (.remoteSignalLost reg0 0) outAt (fun t => t.now = 20005 && t.fld (Reg.SYN_LOST reg0) F.SYN_LOST_COUNT = 1) = true := by
  decide +kernel

/-- Context 0 is valid; saves go to fabric address 0. -/
def saveAt : State := (synced (flagWord 1) State.reset).setReg (Reg.SYN_SAVE_LOC reg0) (BitVec.ofNat 64 (3 * 2 ^ 60))

/-- A save that is under way. -/
def savingAt : State := saveAt.setRegion reg0 { Region.idle with save := some ⟨1, 0, false, BitVec.ofNat 64 (3 * 2 ^ 60), 0, 0⟩ }

theorem witness_SyncSaves :
    (match placeOf saveAt ⟨0, 0, 0⟩ (saveAt.reg (Reg.SYN_SAVE_LOC reg0)).toNat with | .ok p => p = .fabric 0 | _ => false) = true ∧
    (saveAt.reg (Reg.SYN_SAVE_LOC reg0)).toNat % 64 = 0 ∧
    saveAt.isOn (Reg.SYN_SAVE_CTL reg0) F.SYN_SAVE_CTL_BUSY = false ∧
    saveAt.isOn (Reg.SYN_CTXMAP reg0 0) F.SYN_CTXMAP_VALID = true ∧ contextBusy saveAt reg0 0 = false ∧
    (saveAt.setFld (Reg.SYN_SAVE_CTL reg0) F.SYN_SAVE_CTL_BUSY 1).isOn (Reg.SYN_SAVE_CTL reg0) F.SYN_SAVE_CTL_BUSY = true ∧
    (savingAt.region reg0).save.isSome = true ∧ (State.reset.region reg0).save = none := by decide +kernel

theorem test_sync_save : runs (.syncSave reg0 0) saveAt (fun t => (t.region reg0).save.isSome) = true := by decide +kernel

/-- Port `p` is UP. -/
def upPort (p : Nat) (s : State) : State := s.setReg (Reg.LNK_PORT_STATUS p) (wordOf [(F.LNK_PORT_STATUS_STATE, 3)])

/-- The module is a follower whose parent is port 4. -/
def child (s : State) : State :=
  ((s.setFld Reg.ALM_CTL F.ALM_CTL_ROOT 0).setFld Reg.ALM_CTL F.ALM_CTL_PARENT_VALID 1).setFld Reg.ALM_CTL
    F.ALM_CTL_PARENT_PORT 4

/-- Port 4 is UP and has just sent time message 0. -/
def timedAt : State :=
  (upPort 4 State.reset).setPortTime 4 { PortTime.none with seq := 1, sent := [(0, 0, List.replicate 10 0)] }

/-- A time message that echoes message 0, one that echoes message 9, and a DOWN message. -/
def timeFrame (echo : Nat) : Frame :=
  { hdr := wordOf [(L.ftype, 2)], credit := 0, body := ctrlBody 1 (List.replicate 12 0 ++ leBytes 2 echo) }
def downFrame : Frame := { hdr := wordOf [(L.ftype, 2)], credit := 0, body := ctrlBody 2 [1] }

/-- The frame is heard as a time message, and its echo is known or not. -/
def echoes (s : State) (f : Frame) (known : Bool) : Bool :=
  match s.hearCtrl 4 1 f with
  | some (u, m) => ((u.portTime 4).sent.any fun k => k.1 = leAt m 12 2 && decide (u.now ≤ k.2.1 + 4000)) = known
  | none => false

theorem witness_TimeKeeping :
    timedAt.isUp 4 = true ∧ timedAt.isEth 4 = false ∧ State.reset.isUp 4 = false ∧
    (State.reset.hear 4 (timeFrame 0)).isNone = true ∧
    echoes timedAt (timeFrame 9) false = true ∧ echoes timedAt (timeFrame 0) true = true ∧
    (followed (child timedAt)).map Prod.fst = some 4 ∧ isParent (child timedAt) 4 = true ∧
    echoes (child timedAt) (timeFrame 0) true = true ∧
    (followed timedAt).map Prod.fst ≠ some 4 ∧ isParent timedAt 4 = false ∧
    ({ (with_ Reg.ALM_STATUS (wordOf [(F.ALM_STATUS_STATE, 3)])) with lock := ⟨false, 0, 0, some 7⟩ } : State).almState = 3 ∧
    (child timedAt).mstate = MState.banked ∧ freeRuns (child timedAt) = false ∧
    trained (child timedAt) (F.ALM_CTL_PARENT_PORT.get ((child timedAt).reg Reg.ALM_CTL)) = true ∧
    8 ≤ F.ALM_CTL_K.get ((child timedAt).reg Reg.ALM_CTL) ∧ F.ALM_CTL_K.get ((child timedAt).reg Reg.ALM_CTL) ≤ 20 ∧
    F.ALM_CTL_BACKUP_VALID.on ((child timedAt).reg Reg.ALM_CTL) = false ∧
    (State.reset.setMState MState.damped).mstate ≠ MState.banked ∧
    (State.reset.setFld Reg.ALM_CTL F.ALM_CTL_ROOT 1).isOn Reg.ALM_CTL F.ALM_CTL_ROOT = true ∧
    State.reset.mstate ≠ MState.lit ∧ State.reset.mstate ≠ MState.shadow ∧ State.reset.jobIdle = true ∧
    (child State.reset).isOn Reg.ALM_CTL F.ALM_CTL_ROOT = false := by decide +kernel

theorem test_time :
    runs (.timeMessageSend 4) timedAt (fun t => (t.port 4).ctrl.length = 1) = true ∧
    runs (.relock) (child timedAt) (fun t => t.lock.step) = true ∧
    runs (.almSet 77) (State.reset.setFld Reg.ALM_CTL F.ALM_CTL_ROOT 1) (fun t => t.alm = 77) = true := by decide +kernel

/-- A Flue image with the settings of the handshake: kind 1, eight values, each a MIN. -/
def hsImage : List Byte :=
  [0, 0, 0, 0, 1] ++ List.replicate 17 0 ++ [8] ++ List.replicate 17 0 ++ leBytes 4 0x11111111 ++ List.replicate 20 0

/-- The module is the Almanac's root and Flue 0 is ready for the handshake; the job is in a phase. -/
def jobAt (phase : Nat) : State :=
  let s := (State.reset.setFld Reg.ALM_CTL F.ALM_CTL_ROOT 1).setFlue 0 { FlueRec.empty with image := hsImage }
  ((s.setFld (Reg.FLU_ENTRY 0) F.FLU_ENTRY_STATE 2).setFld Reg.ALM_EPOCH F.ALM_EPOCH_EPOCH 0x100000).setFld Reg.ALM_JOB_STATUS
    F.ALM_JOB_STATUS_PHASE phase

/-- A handshake result that agrees, and one that does not. -/
def goodWords : List Nat := List.replicate 4 5 ++ List.replicate 4 (2 ^ 64 - 6)

/-- The handshake's result has come in. -/
def answered (v : List Nat) : State := { jobAt 3 with job := { (jobAt 3).job with result := some (5, v) } }

/-- A Calendar of die 0 with no table where it should be. -/
def badTable : State := (jobAt 1).setFld (Reg.ALM_CAL_LEN 0) F.ALM_CAL_LEN_ENTRIES 1

theorem witness_JobCommands :
    (State.reset.setMState MState.damped).mstate ≠ MState.banked ∧ (jobAt 1).jobIdle = false ∧
    (jobAt 0).mstate = MState.banked ∧ (jobAt 0).jobIdle = true ∧
    (jobAt 0).fld Reg.ALM_EPOCH F.ALM_EPOCH_EPOCH % 2 ^ tickK (jobAt 0) = 0 ∧
    handshakeReady (jobAt 0) (hsFlue (jobAt 0)) = true ∧ (jobAt 0).replayArmed = false ∧ (jobAt 0).isLocked = true ∧
    (child (jobAt 0)).isLocked = false ∧ handshakeReady (child (jobAt 0)) 0 = true ∧
    (jobAt 1).phase = 1 ∧ validation badTable = some Code.rejRange ∧ validation (jobAt 1) = none ∧
    (jobAt 1).alm + 100000 ≤ (jobAt 1).epochAt ∧ (jobAt 1).shdMode ≠ 2 ∧ (jobAt 1).replay = none ∧
    handshakeReady (jobAt 2) (hsFlue (jobAt 2)) = true ∧ (jobAt 2).flueSt (hsFlue (jobAt 2)) = FSt.idle ∧
    handshakeAgrees goodWords = true ∧ handshakeAgrees [] = false ∧ 5 + 10000 ≤ (answered goodWords).epochAt ∧
    (answered []).phase = 3 ∧ (jobAt 3).job.result = none ∧ (jobAt 4).shdMode ≠ 2 ∧ (jobAt 4).mstate = MState.banked ∧
    ((List.range 64).all fun d => dieDone (jobAt 5) d) = true := by decide +kernel

theorem test_job :
    runs .arm (jobAt 0) (fun t => t.phase = 1) = true ∧
    runs .armValidationDone (jobAt 1) (fun t => t.phase = 2) = true ∧
    runs .handshakeResult (answered goodWords) (fun t => t.phase = 4) = true ∧
    runs .jobStart (jobAt 4) (fun t => t.mstate = MState.lit && t.alm = 0x100000) = true ∧
    runs .jobEnd (jobAt 5) (fun t => t.phase = 6) = true := by decide +kernel

/-- Die 0's Calendar holds one entry that launches at tick 0 and sets flag 0 of region 0, with a check that flag 0 is set at
tick 1. -/
def calAt : State :=
  let e := [1 * 2 ^ 7, 2 ^ 32 + 1 * 2 ^ 13, 0, 0]
  let s := (synced (flagWord 0) (jobAt 5)).swrite 0 0 (e.flatMap (leBytes 8))
  (s.setReg (Reg.ALM_CAL_LOC 0) (BitVec.ofNat 64 (2 * 2 ^ 60))).setFld (Reg.ALM_CAL_LEN 0) F.ALM_CAL_LEN_ENTRIES 1

/-- A check of flag 0 is pending on die 0. -/
def checkAt : State := { jobAt 5 with job := { (jobAt 5).job with checks := [(0, [⟨0, 1, 0, 0, 1, 0, 0⟩])] } }

theorem witness_CalendarCommands :
    (nextEntry calAt 0).isSome = true ∧ nextEntry (jobAt 5) 0 = none ∧
    AMap.get checkAt.job.checks [] 0 = [⟨0, 1, 0, 0, 1, 0, 0⟩] ∧ checkAt.phase = 5 ∧
    AMap.get (jobAt 5).job.checks [] 0 = [] := by decide +kernel

theorem test_calendar :
    runs (.calendarLaunch 0) calAt (fun t => t.fld (Reg.SYN_OBJ reg0 0) F.SYN_OBJ_FLAG_VALUE = 1 &&
      (AMap.get t.job.checks [] 0).length = 1) = true ∧
    runs (.calendarCheck 0) checkAt (fun t => t.fld Reg.ALM_OVR_COUNT F.ALM_OVR_COUNT_COUNT = 1) = true := by decide +kernel

/-! ## Memory stacks and on-module links -/

/-- Cache window 1 of die 0 covers granules 0 to 7; window 0 of stack 0 adds 32-bit integers in the granules 0 to 7. -/
def windowAt : State :=
  (State.reset.setReg (Reg.MEM_CWIN_CTL 0 1) (wordOf [(F.MEM_CWIN_CTL_ENABLE, 1), (F.MEM_CWIN_CTL_SIZE, 8)])).setReg
    (Reg.MEM_AWIN_CTL 0 0) (wordOf [(F.MEM_AWIN_CTL_ENABLE, 1), (F.MEM_AWIN_CTL_SIZE, 8), (F.MEM_AWIN_CTL_FMT, 2)])

/-- Stack 0 in a state. -/
def stackAt (st : Nat) : State := State.reset.setFld (Reg.MEM_STACK_STATUS 0) F.MEM_STACK_STATUS_STATE st

theorem witness_CacheCommands :
    State.reset.mstate = MState.banked ∧ poolsFit State.reset 0 (2 * 0x1000000) = true ∧
    (State.reset.setMState MState.damped).mstate ≠ MState.banked ∧ 8 < F.MEM_DS_PART_SCRATCH.get 9 ∧
    windowAt.isOn (Reg.MEM_CWIN_CTL 0 1) F.MEM_CWIN_CTL_BUSY = false ∧
    windowAt.isOn (Reg.MEM_CWIN_CTL 0 1) F.MEM_CWIN_CTL_ENABLE = true ∧
    rangesTouch 8 4 (windowAt.fld (Reg.MEM_CWIN_BASE 0 1) F.MEM_CWIN_BASE_BASE / 512)
      (windowAt.fld (Reg.MEM_CWIN_CTL 0 1) F.MEM_CWIN_CTL_SIZE) = false ∧
    (with_ (Reg.MEM_CWIN_CTL 0 1) (wordOf [(F.MEM_CWIN_CTL_BUSY, 1)])).isOn (Reg.MEM_CWIN_CTL 0 1) F.MEM_CWIN_CTL_BUSY = true ∧
    F.MEM_CWIN_BASE_BASE.get 1 % 512 ≠ 0 := by decide +kernel

theorem test_cache :
    answers (.dsPartWrite 0 (F.MEM_DS_PART_SCRATCH.only 2)) State.reset Code.done = true ∧
    answers (.dsPartWrite 0 (F.MEM_DS_PART_SCRATCH.only 9)) State.reset Code.rejRange = true ∧
    runs (.cacheWindowWrite 0 1 true (wordOf [(F.MEM_CWIN_CTL_ENABLE, 1), (F.MEM_CWIN_CTL_SIZE, 4)])) windowAt (fun t =>
      t.isOn (Reg.MEM_CWIN_CTL 0 1) F.MEM_CWIN_CTL_BUSY) = true := by decide +kernel

theorem witness_StackRequests :
    2 ^ 41 < 2 ^ 41 + 1 ∧ fabWaits (stackAt 0) 0 8 = true ∧ stackWaits State.reset 0 = false ∧
    stackFailed (stackAt 2) 0 = true ∧ stackWaits (stackAt 2) 0 = false ∧ stackOf 0 = 0 ∧ stackFailed State.reset 0 = false ∧
    windowOf State.reset 0 0 = none ∧ windowOf windowAt 0 0 = some ⟨0, 0, 2, false⟩ ∧
    Window.whole ⟨0, 0, 2, false⟩ 4 8 = true ∧ Window.whole ⟨0, 0, 2, false⟩ 4 6 = false ∧
    State.reset.marks = [] := by decide +kernel

theorem test_stack_add :
    runs (.stackWriteRequest 4 (leBytes 4 5)) (windowAt.fwrite 4 (leBytes 4 7)) (fun t => leNat (t.fread 4 4) = 12) = true ∧
    runs (.stackWriteRequest 4 (leBytes 6 5)) windowAt (fun t => t.answer.code = Code.failMemory) = true := by decide +kernel

theorem witness_LinkRetrains :
    (stackAt 0).fld (Reg.MEM_STACK_STATUS 0) F.MEM_STACK_STATUS_STATE = 0 ∧
    linkLost [0, 1, 2] 128 8 = true ∧ linkLost [0, 1, 128] 128 8 = false ∧ OnLink.ok (.mesh 9 1) = true ∧
    ((linkRegs (.mesh 9 1)).all fun r => State.reset.fld r.1 F.RTE_MESH_LINK_STATE ≠ 2) = true ∧
    ((linkRegs (.attach 3 1)).any fun r =>
      (with_ (Reg.RTE_IOD_ATTACH 3 1) (wordOf [(F.RTE_MESH_LINK_STATE, 2)])).fld r.1 F.RTE_MESH_LINK_STATE = 2) = true := by
  decide +kernel

theorem test_stack_retrain :
    runs (.stackRetrainDone 0 [0, 1, 128]) (stackAt 0) (fun t =>
      t.fld (Reg.MEM_STACK_STATUS 0) F.MEM_STACK_STATUS_STATE = 1 &&
        t.fld (Reg.MEM_STACK_STATUS 0) F.MEM_STACK_STATUS_SPARES_USED = 3) = true := by decide +kernel

/-! ## Jorvief Link -/

/-- Port 0 has 4 lanes; its configuration word. -/
def cfgWord : Word := wordOf [(F.LNK_PORT_CFG_WIDTH, 3), (F.LNK_PORT_CFG_RATES, 3), (F.LNK_PORT_CFG_MAXVER, 1)]

/-- Port 0 is configured and enabled; it is in a state. -/
def portAt (st : Nat) : State :=
  ((with_ (Reg.LNK_PORT_CFG 0) cfgWord).setFld (Reg.LNK_PORT_CFG 0) F.LNK_PORT_CFG_ENABLE 1).setFld (Reg.LNK_PORT_STATUS 0)
    F.LNK_PORT_STATUS_STATE st

/-- A DATA frame with FSEQ `q`, whose body begins a packet and holds all of it. -/
def dataFrame (q : Nat) : Frame :=
  { hdr := wordOf [(L.ftype, 1), (L.fseq, q), (L.ack, 4095), (L.fill, 6)],
    credit := wordOf [(L.poola, 1), (L.limita, 40), (L.poolb, 2), (L.limitb, 41)],
    body := slice (packetBytes dataPkt) 0 620 }

theorem witness_ReceivedFrames :
    State.reset.isUp 0 = false ∧ (portAt 3).isUp 0 = true ∧ (portAt 3).isEth 0 = false ∧
    L.poola.get (dataFrame 0).credit < 10 ∧ L.poola.get (dataFrame 0).credit ≠ L.poolb.get (dataFrame 0).credit ∧
    L.ftype.get (dataFrame 0).hdr = 1 ∧ L.fseq.get (dataFrame 0).hdr = ((portAt 3).port 0).expect ∧
    L.fseq.get (dataFrame 7).hdr ≠ ((portAt 3).port 0).expect ∧
    L.nak.on (wordOf [(L.nak, 1), (L.nakid, 1)]) = true ∧ L.nakid.get (wordOf [(L.nak, 1), (L.nakid, 1)]) ≠ 0 ∧
    ((portAt 3).port 0).replay.length = 0 ∧ (0 : Nat) < (L.ack.get (wordOf [(L.ack, 5)]) + 1 + 4096 - 0) % 4096 ∧
    (State.reset.port 0).train = none := by decide +kernel

theorem test_data_frame :
    runs (.dataFrame 0 (dataFrame 0)) (portAt 3) (fun t =>
      (t.port 0).arrived = [dataPkt] && (t.port 0).expect = 1) = true ∧
    runs (.dataFrame 0 (dataFrame 7)) (portAt 3) (fun t => (t.port 0).nakOpen && (t.port 0).arrived.isEmpty) = true := by
  decide +kernel

/-- Port 0 as a sender: with a frame to send again, with a CTRL message, with a packet to send. -/
def replayAt (n : Nat) : State := (portAt 3).setPort 0 { Port.idle with replay := [⟨4, 255, 0, [], n, 0⟩], toReplay := 1 }
def ctrlAt : State := (portAt 3).setPort 0 { Port.idle with ctrl := [downFrame.body] }
def streamAt : State := (portAt 3).setPort 0 { Port.idle with stream := [(.of dataPkt none none 0, packetBytes dataPkt)] }

/-- A training attempt at a step, with every lane's 16 good frames but one of lane 0's, and port 0 in it. -/
def tr (step : Nat) : Train :=
  { start := 0, step := step, good := [(0, 15), (1, 16), (2, 16), (3, 16)], rate := 2, rateAt := 0, own := [(2, 15)],
    peer := [(2, 15)], result := 0x39, offset := 0, txd := 3, rxd := 4, told := step = 5, heard := none }
def trainAt (step : Nat) : State :=
  ((portAt 2).setReg (Reg.LNK_PEER 0) (wordOf [(F.LNK_PEER_RATES, 3), (F.LNK_PEER_WIDTH, 3)])).setPort 0
    { Port.idle with train := some (tr step) }

theorem witness_SentFrames :
    (portAt 3).portState 0 = 3 ∧ ((replayAt 1).port 0).toReplay ≠ 0 ∧
    ((replayAt 1).port 0).replay[((replayAt 1).port 0).replay.length - ((replayAt 1).port 0).toReplay]? = some ⟨4, 255, 0, [], 1, 0⟩ ∧
    1 + 1 < 8 ∧ 8 ≤ 7 + 1 ∧ (ctrlAt.port 0).ctrl = [downFrame.body] ∧ (ctrlAt.port 0).toReplay = 0 ∧
    (streamAt.port 0).stream ≠ [] ∧ (streamAt.port 0).replay.length < 256 * streamAt.width 0 ∧
    ((portAt 3).port 0).stream = [] ∧ (trainAt 5).portState 0 = 2 ∧ ((trainAt 5).port 0).train = some (tr 5) ∧
    ((trainAt 5).port 0).ctrl = [] := by decide +kernel

theorem test_frame_send :
    runs (.frameSend 0) streamAt (fun t => (t.port 0).stream.isEmpty && (t.port 0).replay.length = 1 &&
      ((t.port 0).lastTx.map fun f => L.ftype.get f.hdr) = some 1) = true ∧
    runs (.frameSend 0) (replayAt 7) (fun t => t.fld (Reg.LNK_PORT_STATUS 0) F.LNK_PORT_STATUS_DOWN_REASON = 3) = true := by
  decide +kernel

theorem witness_PortsGoingDown :
    (portAt 3).isUp 0 = true ∧ ((portAt 3).hearCtrl 0 2 downFrame).isSome = true ∧ State.reset.isUp 0 = false ∧
    1 < (portAt 3).width 0 ∧
    (let s := (portAt 3).setFld (Reg.LNK_PORT_STATUS 0) F.LNK_PORT_STATUS_TWIDTH 1
     s.fld (Reg.LNK_PORT_STATUS 0) F.LNK_PORT_STATUS_TOFFSET ≤ 0 ∧
       ¬ 1 < s.fld (Reg.LNK_PORT_STATUS 0) F.LNK_PORT_STATUS_TOFFSET + lanesOf (s.fld (Reg.LNK_PORT_STATUS 0)
         F.LNK_PORT_STATUS_TWIDTH)) ∧
    (portAt 3).isEth 0 = false ∧ ((replayAt 1).port 0).replay ≠ [] := by decide +kernel

theorem test_port_down : runs (.down 0 downFrame) (portAt 3) (fun t =>
    t.portState 0 = 1 && t.fld (Reg.LNK_PORT_STATUS 0) F.LNK_PORT_STATUS_DOWN_REASON = 5) = true := by decide +kernel

theorem witness_PortControl :
    let a := Reg.LNK_PORT_CFG 0
    let s := with_ a cfgWord
    s.isOn a F.LNK_PORT_CFG_ENABLE = false ∧ s.mstate = MState.banked ∧ s.portState 0 ≠ 4 ∧
    s.badPortCfg 0 (F.LNK_PORT_CFG_ENABLE.put (s.reg a) 1 &&& 0xFFFC000000000000) = false ∧
    (portAt 4).portState 0 = 4 ∧ (portAt 3).isOn a F.LNK_PORT_CFG_ENABLE = true ∧
    (portAt 3).badPortCfg 0 (F.LNK_PORT_CFG_ENABLE.put ((portAt 3).reg a) 0 &&& 0xFFFC000000000000) = false ∧
    (portAt 3).mstate = MState.banked ∧ ((portAt 3).setMState MState.lit).mstate = MState.lit ∧
    (portAt 3).widthCode 0 ≠ 0 := by decide +kernel

theorem test_port_enable :
    answers (.portEnable 0) (with_ (Reg.LNK_PORT_CFG 0) cfgWord) Code.done = true ∧
    answers (.portRetrain 0) (portAt 4) Code.rejState = true := by decide +kernel

/-- A TRAIN frame's body: capability with a width, step, and at the end the result and offset. -/
def trainBody (w step result : Nat) : List Byte :=
  leBytes 8 (wordOf [(F.LNK_PEER_RATES, 3), (F.LNK_PEER_WIDTH, w)]).toNat ++ leBytes 1 step ++ leBytes 1 15 ++ leBytes 2 7 ++
    leBytes 2 8 ++ leBytes 1 result ++ leBytes 1 0

theorem witness_PortTraining :
    (bestChoice [(1, 3, 0), (2, 3, 0)]).isSome = true ∧ (State.reset.port 0).train = none ∧
    ((trainAt 1).port 0).train = some (tr 1) ∧ (tr 1).step = 1 ∧ (trainAt 1).isEth 0 = false ∧
    AMap.get (tr 3).own 0 (tr 3).rate &&& AMap.get (tr 3).peer 0 (tr 3).rate &&& (trainAt 3).laneMask 0 = (trainAt 3).laneMask 0 ∧
    ((trainAt 3).commonRates 0).find? (fun q => q < 2) = some 1 ∧
    AMap.get ({ tr 3 with own := [] } : Train).own 0 2 &&& AMap.get (tr 3).peer 0 2 &&& (trainAt 3).laneMask 0 ≠
      (trainAt 3).laneMask 0 ∧
    (((trainAt 3).commonRates 0).all fun q => 1 ≤ q) = true ∧
    0 < (trainAt 2).width 0 ∧ F.LNK_PEER_WIDTH.get (BitVec.ofNat 64 (leAt (trainBody 2 2 0) 0 8)) ≠ (trainAt 2).widthCode 0 ∧
    F.LNK_PEER_WIDTH.get (BitVec.ofNat 64 (leAt (trainBody 3 2 0) 0 8)) = (trainAt 2).widthCode 0 ∧
    ((List.range 4).all fun i => 16 ≤ AMap.get (AMap.set (tr 2).good 0 0 16) 0 i) = true ∧
    AMap.get (AMap.set (tr 2).good 0 1 17) 0 0 < 16 ∧
    (tr 4).step = 4 ∧ 5 ≤ leAt (trainBody 3 5 0x39) 8 1 ∧ leAt (trainBody 3 5 0x39) 14 1 = (tr 4).result ∧
    leAt (trainBody 3 5 0x39) 15 1 = (tr 4).offset ∧ (tr 5).told = true ∧
    (((portAt 1).setPort 0 { Port.idle with failedAt := some 9 }).port 0).failedAt = some 9 ∧ (portAt 1).portState 0 = 1 ∧
    (portAt 1).isOn (Reg.LNK_PORT_CFG 0) F.LNK_PORT_CFG_ENABLE = true ∧ (State.reset.port 0).failedAt = none ∧
    ((portAt 2).setFld (Reg.LNK_PORT_CFG 0) F.LNK_PORT_CFG_PERS 1).isEth 0 = true ∧ (portAt 2).portState 0 = 2 := by
  decide +kernel

theorem test_training :
    runs (.trainFrame 0 0 (trainBody 3 5 0x39)) (trainAt 5) (fun t => t.portState 0 = 3 &&
      t.fld (Reg.LNK_PORT_STATUS 0) F.LNK_PORT_STATUS_RATE = 2 && (t.port 0).train.isNone) = true ∧
    runs (.rateMeasurementEnd 0) (trainAt 3) (fun t =>
      ((t.port 0).train.map fun x => (x.step, x.result, x.offset)) = some (4, 0x39, 0)) = true ∧
    runs (.trainTimeout 0) (trainAt 2) (fun t => (t.port 0).failedAt = some 10000000) = true := by decide +kernel

/-! ## Routing, flow control and scheduling -/

/-- A DATA packet for module 1 on a VC. -/
def pkt (vc : Nat) : Packet :=
  { w0 := wordOf [(P.ptype, 0), (P.vc, vc), (P.dmod, 1), (P.dest, 1), (P.length, 8)], w1 := 0, payload := leBytes 8 5 }

/-- Port 0 is UP with a credit limit for every pool; port 1 is UP with none. -/
def linkAt (limit : Nat) : State :=
  ((upPort 0 (upPort 1 State.reset)).setPort 0 { Port.idle with limit := (List.range 10).map fun k => (k, limit) }).setReg
    (Reg.RTE_MTAB0 1) (wordOf [(F.RTE_MTAB0_VALID, 1), (F.RTE_MTAB0_CMASK, 3), (F.RTE_MTAB0_CAND0, 1), (F.RTE_MTAB0_CAND1, 0)])

/-- Module 1's candidate is port 1, which has no credit; its escape port is port 0. -/
def stuckAt : State :=
  (linkAt 100).setReg (Reg.RTE_MTAB0 1) (wordOf [(F.RTE_MTAB0_VALID, 1), (F.RTE_MTAB0_CMASK, 1), (F.RTE_MTAB0_CAND0, 1)])

/-- A packet of this module offers itself to routing. -/
def offer (vc : Nat) (s : State) : State := { s with origin := [.of (pkt vc) none none 0] }

/-- A takeover is being decided. -/
def decidingAt : State := State.reset.setShd Shd.deciding

/-- A packet waits at port 0 for its start. -/
def queuedAt : State := (linkAt 100).assign (.of (pkt 2) none none 0) 0 2

theorem witness_PacketRouting :
    let f := Flying.of (pkt 2) none none 0
    sourceOk .origin = true ∧ sourceOk (.port 3 9) = true ∧
    routeNow (linkAt 100) f = .to 0 2 ∧ escapeOnly f.pkt = false ∧
    (match look (linkAt 100) f.pkt with | .entry e => candidates e = [1, 0] | _ => false) = true ∧
    routeNow (linkAt 100) (.of (pkt 7) none none 0) = .to 0 7 ∧ escapeOnly (pkt 7) = true ∧
    decidingAt.shdState = Shd.deciding ∧ (linkAt 100).shdState ≠ Shd.deciding ∧ (linkAt 100).shadow.copies = [] ∧
    ((offer 2 (linkAt 100)).offered .origin).find? (fun k => routeNow (offer 2 (linkAt 100)) k ≠ .wait) = some f ∧
    (((offer 2 (linkAt 0)).offered .origin).all fun k => routeNow (offer 2 (linkAt 0)) k = .wait) = true ∧
    ((offer 2 stuckAt).offered .origin).find? (fun k => routeEscape (offer 2 stuckAt) k ≠ .wait) = some f ∧
    routeEscape (offer 2 stuckAt) f = .to 0 7 ∧ queuedAt.carries 0 = true ∧
    sumNat ((queuedAt.port 0).stream.map fun k => k.2.length) < 620 ∧
    ((queuedAt.retag 0).heads 0).length = 1 ∧
    (pickHead (queuedAt.retag 0) 0 ((queuedAt.retag 0).heads 0)).isSome = true ∧ State.reset.carries 0 = false := by
  decide +kernel

theorem test_routing :
    runs (.packetRoute .origin) (offer 2 (linkAt 100)) (fun t => t.origin.isEmpty && (AMap.get (t.port 0).outq [] 2).length = 1) = true ∧
    runs (.escapeRoute .origin) (offer 2 stuckAt) (fun t => (AMap.get (t.port 0).outq [] 7).length = 1) = true ∧
    runs (.portPacketStart 0) queuedAt (fun t => (t.port 0).stream.length = 1) = true := by decide +kernel

/-- Packet `p` has arrived at port 0 of module 5. -/
def arrivedAt (p : Packet) : State :=
  (with_ Reg.VIG_MODULE_ID (wordOf [(F.VIG_MODULE_ID_VALID, 1), (F.VIG_MODULE_ID_ID, 5)])).setPort 0 { Port.idle with arrived := [p] }

/-- The packet for this module, and one whose DEST names no module. -/
def forHere : Packet := { pkt 2 with w0 := wordOf [(P.vc, 2), (P.dmod, 1), (P.dest, 5), (P.length, 8)] }
def lost : Packet := { pkt 2 with w0 := wordOf [(P.vc, 2), (P.dmod, 1), (P.dest, 5000), (P.length, 8)] }

theorem witness_PacketAcceptance :
    (State.reset.port 0).arrived = [] ∧ ((arrivedAt forHere).port 0).arrived = [forHere] ∧
    (arrivedAt forHere).shdState ≠ Shd.deciding ∧ (arrivedAt forHere).mstate ≠ MState.shadow ∧
    badHeader (arrivedAt lost) 0 (entered lost) = true ∧
    badHeader (arrivedAt (pkt 2)) 0 (entered (pkt 2)) = false ∧ (arrivedAt (pkt 2)).isMine (entered (pkt 2)) = false ∧
    badHeader (arrivedAt forHere) 0 (entered forHere) = false ∧ (arrivedAt forHere).isMine (entered forHere) = true ∧
    (arrivedAt forHere).shdMode ≠ 1 ∧ ((arrivedAt forHere).setShd Shd.deciding).shdState = Shd.deciding := by decide +kernel

theorem test_accept :
    runs (.packetAccept 0) (arrivedAt forHere) (fun t => t.flight.length = 1) = true ∧
    runs (.packetAccept 0) (arrivedAt lost) (fun t => t.fld (Reg.LNK_BADHDR 0) F.LNK_BADHDR_COUNT = 1) = true := by
  decide +kernel

/-- The flip is armed; the flip drains; the endpoint table is in use by no epoch. -/
def armedAt : State := State.reset.setFld Reg.RTE_EPOCH F.RTE_EPOCH_ARMED 1
def drainingAt : State := State.reset.setFld Reg.RTE_EPOCH F.RTE_EPOCH_DRAINING 1
def splitAt : State := State.reset.setFld Reg.RTE_MODE F.RTE_MODE_SPLIT 1

theorem witness_EquinoxFlip :
    let s := State.reset.setFld Reg.RTE_FLIP_AT F.RTE_FLIP_AT_COUNT 20000
    s.isOn Reg.RTE_MODE F.RTE_MODE_SPLIT = false ∧ s.isOn Reg.RTE_EPOCH F.RTE_EPOCH_ARMED = false ∧
    s.isOn Reg.RTE_EPOCH F.RTE_EPOCH_DRAINING = false ∧ s.alm + 10000 ≤ s.fld Reg.RTE_FLIP_AT F.RTE_FLIP_AT_COUNT ∧
    splitAt.isOn Reg.RTE_MODE F.RTE_MODE_SPLIT = true ∧ armedAt.isOn Reg.RTE_EPOCH F.RTE_EPOCH_ARMED = true ∧
    drainingAt.isOn Reg.RTE_EPOCH F.RTE_EPOCH_DRAINING = true ∧ bankLocked splitAt 0 = false ∧ bankLocked splitAt 1 = false ∧
    bankLocked State.reset 0 = true ∧
    bits ((0xFF00 : Word) &&& 0xFFFFFF00FFFFFF00).toNat 31 0 ≠
      bits (AMap.get State.reset.endpoints (0 : Word) 0).toNat 31 0 := by decide +kernel

theorem test_flip :
    runs .equinoxFlip armedAt (fun t => t.epoch = 1 && t.isOn Reg.RTE_EPOCH F.RTE_EPOCH_DRAINING) = true ∧
    answers (.epDataAccess true 0xFF00) State.reset Code.rejState = true ∧
    answers (.epDataAccess true 0xFF00) splitAt Code.done = true := by decide +kernel

/-- A MEMRD packet of `n` units at unit `a`, and a MEMWR packet of 64 bytes there; port 0 admits requests. -/
def rdPkt (a n : Nat) : Packet := { w0 := wordOf [(P.ptype, 6)], w1 := wordOf [(P.maddr, a), (P.rdlen, n)], payload := [] }
def wrPkt (a : Nat) : Packet :=
  { w0 := wordOf [(P.ptype, 7), (P.length, 64)], w1 := wordOf [(P.maddr, a)], payload := List.replicate 64 7 }
def memPort : State := State.reset.setFld (Reg.LNK_PORT_CFG 0) F.LNK_PORT_CFG_MEM_EN 1

theorem witness_MemoryRequests :
    h0 (rdPkt 2 1) P.ptype = 6 ∧ State.reset.isOn (Reg.LNK_PORT_CFG (State.reset.entryPort 0 (rdPkt 2 1))) F.LNK_PORT_CFG_MEM_EN = false ∧
    memPort.isOn (Reg.LNK_PORT_CFG (memPort.entryPort 0 (rdPkt 2 1))) F.LNK_PORT_CFG_MEM_EN = true ∧
    h1 (rdPkt 2 0) P.rdlen = 0 ∧ 128 < h1 (rdPkt 2 129) P.rdlen ∧ 0 < h1 (rdPkt 2 1) P.rdlen ∧
    fabSilent memPort (64 * 2) 64 = false ∧ h0 (wrPkt 2) P.ptype = 7 ∧
    2 ^ 41 < 64 * h1 (wrPkt (2 ^ 35 - 1)) P.maddr + 64 + 1 ∧
    2 ^ 41 < 64 * h1 { wrPkt (2 ^ 35 - 1) with payload := List.replicate 128 7 } P.maddr + 128 := by decide +kernel

theorem test_memory_requests :
    runs (.memwr 0 (wrPkt 2)) memPort (fun t => leNat (t.fread 128 2) = 0x0707 && t.origin.length = 1) = true ∧
    runs (.memrd 0 (rdPkt 2 1)) State.reset (fun t =>
      (t.origin.map fun f => h1 f.pkt P.status) = [Code.rejPriv]) = true := by decide +kernel

/-- A frame of 64 bytes with a type, and port 0 as an UP Ethernet port with table entry 0. -/
def ethFrame (kind : Nat) : List Byte :=
  let bs := List.replicate 12 0 ++ (leBytes 2 kind).reverse ++ List.replicate 46 0
  bs ++ leBytes 4 (fcsOf bs)
def ethAt (action : Nat) : State :=
  (((upPort 0 State.reset).setFld (Reg.LNK_PORT_CFG 0) F.LNK_PORT_CFG_PERS 1).setReg (Reg.LNK_ETH_FIB_W0 0 0)
    (wordOf [(F.LNK_ETH_FIB_W0_VALID, 1), (F.LNK_ETH_FIB_W0_VLAN_ANY, 1)])).setReg (Reg.LNK_ETH_FIB_W1 0 0)
    (wordOf [(F.LNK_ETH_FIB_W1_ACTION, action), (F.LNK_ETH_FIB_W1_MODULE, 1)])
def ethHeld : State := State.reset.setPort 0 { Port.idle with ethTx := [(4, ethFrame 0x800)] }

theorem witness_EthernetFrames :
    State.reset.isUp 0 = false ∧ (ethAt 0).isUp 0 = true ∧ (ethAt 0).isEth 0 = true ∧ (ethAt 0).mstate ≠ MState.fenced ∧
    ethOk [] = false ∧ ethOk (ethFrame 0x8808) = true ∧ beAt (ethFrame 0x8808) 12 2 = 0x8808 ∧ ethOk (ethFrame 0x800) = true ∧
    beAt (ethFrame 0x800) 12 2 ≠ 0x8808 ∧ fibMatch (ethAt 0) 0 (ethFrame 0x800) = some 0 ∧
    (((fibMatch State.reset 0 (ethFrame 0x800)) : Option Nat)).isNone = true ∧
    F.LNK_ETH_FIB_W1_ACTION.get ((ethAt 1).reg (Reg.LNK_ETH_FIB_W1 0 0)) = 1 ∧
    F.LNK_ETH_FIB_W1_ACTION.get ((ethAt 2).reg (Reg.LNK_ETH_FIB_W1 0 0)) = 2 ∧ (ethAt 2).moduleId ≠ some 1 ∧
    (with_ Reg.VIG_MODULE_ID (wordOf [(F.VIG_MODULE_ID_VALID, 1), (F.VIG_MODULE_ID_ID, 1)])).moduleId = some 1 ∧
    (ethHeld.port 0).ethTx = [(4, ethFrame 0x800)] ∧ (State.reset.port 0).ethTx = [] := by decide +kernel

theorem test_ethernet :
    runs (.ethFrame 0 (ethFrame 0x800)) (ethAt 2) (fun t => t.origin.length = 1) = true ∧
    runs (.ethHoldDrop 0) ethHeld (fun t => t.now = 1000004 && (t.port 0).ethTx.isEmpty) = true := by decide +kernel

/-- Damper 0 of a level at RATE 5 and BURST 8 with period 2^4; the map is enabled at K 8. -/
def damperAt : State :=
  ((with_ (Reg.DMP_L0_CFG 0) (wordOf [(F.DMP_L0_CFG_EN, 1), (F.DMP_L0_CFG_PSHIFT, 4), (F.DMP_L0_CFG_RATE, 5)])).setFld
    (Reg.DMP_L0_TOK 0) F.DMP_L0_TOK_BURST 8).setReg Reg.RTE_CMAP_CTL (wordOf [(F.RTE_CMAP_CTL_EN, 1), (F.RTE_CMAP_CTL_K, 8)])
def damperWord (k : Nat) : Word := wordOf [(F.DMP_L0_CFG_EN, 1), (F.DMP_L0_CFG_PSHIFT, k), (F.DMP_L0_CFG_RATE, 7)]

theorem witness_DampersAndMaps :
    AMap.get damperAt.damperNext 0 0 ≤ damperAt.alm ∧ okSpot State.reset (Reg.DMP_L0_CFG 0) 64 = true ∧
    State.reset.isOn (Reg.DMP_L0_CFG 0) F.DMP_L0_CFG_EN = false ∧ F.DMP_L0_CFG_PSHIFT.get (damperWord 9) = 9 ∧
    egressClash State.reset 0 (damperWord 9) = false ∧ F.DMP_L0_CFG_PORT.get (damperWord 9) = 0 ∧
    F.DMP_L0_CFG_VCMASK.get (damperWord 9) = 0 ∧ F.DMP_L0_CFG_EN.on (damperWord 9) = true ∧
    damperAt.isOn (Reg.DMP_L0_CFG 0) F.DMP_L0_CFG_EN = true ∧
    F.DMP_L0_CFG_PORT.get (wordOf [(F.DMP_L0_CFG_PORT, 3)]) ≠ damperAt.fld (Reg.DMP_L0_CFG 0) F.DMP_L0_CFG_PORT ∧
    F.DMP_L0_CFG_PSHIFT.get (damperWord 3) < 4 ∧ 20 < F.DMP_L0_CFG_PSHIFT.get (damperWord 21) ∧
    F.RTE_CMAP_CTL_EN.on (damperAt.reg Reg.RTE_CMAP_CTL) = true ∧ F.RTE_CMAP_CTL_EN.on (State.reset.reg Reg.RTE_CMAP_CTL) = false := by
  decide +kernel

theorem test_damper :
    runs (.damperRefill 0 0) damperAt (fun t => t.alm = 0 && t.fld (Reg.DMP_L0_TOK 0) F.DMP_L0_TOK_TOKENS = 5) = true ∧
    answers (.damperConfigWrite (Reg.DMP_L0_CFG 0) 64 (damperWord 21)) State.reset Code.rejRange = true := by decide +kernel

/-- Owner 0's injection waits; its entry has room for `q` cells and a Damper where `den`. -/
def admitAt (q den : Nat) : State :=
  { with_ (Reg.DMP_ADMIT 0) (wordOf [(F.DMP_ADMIT_VALID, 1), (F.DMP_ADMIT_MAXQ, q), (F.DMP_ADMIT_DEN, den)]) with
    admitQ := [⟨0, some core, 0, 0, false, false, [.of (pkt 2) none none 0]⟩] }

/-- Its Damper is enabled and owes a token. -/
def dampedAt : State :=
  ((admitAt 4 1).setFld (Reg.DMP_L0_CFG 0) F.DMP_L0_CFG_EN 1).setFld (Reg.DMP_L0_TOK 0) F.DMP_L0_TOK_TOKENS (ofSigned 24 (-1))

theorem witness_Admission :
    takeFirst (fun x : AdmitWait => x.owner = 0) State.reset.admitQ = none ∧
    (takeFirst (fun x : AdmitWait => x.owner = 0) (admitAt 4 0).admitQ).isSome = true ∧
    admitEntry (admitAt 4 0) 0 = some 0 ∧ admitRoom (admitAt 4 0) 0 1 = true ∧ admitDamper (admitAt 4 0) 0 = true ∧
    admitEntry { State.reset with admitQ := (admitAt 4 0).admitQ } 0 = none ∧
    admitRoom ((admitAt 4 0).setReg (Reg.DMP_ADMIT_Q 0) (wordOf [(F.DMP_ADMIT_Q_CELLS, 4)])) 0 1 = false ∧
    admitRoom dampedAt 0 1 = true ∧ admitDamper dampedAt 0 = false := by decide +kernel

theorem test_admission :
    runs (.admissionGrant 0) (admitAt 4 0) (fun t => t.admitQ.isEmpty && t.origin.length = 1) = true ∧
    runs (.admissionTimeout 0) (admitAt 4 0) (fun t => t.admitQ.isEmpty && t.origin.isEmpty) = true := by decide +kernel

/-! ## Flues -/

/-- An image with the given fields: offset, bytes and value. -/
def image (fields : List (Nat × Nat × Nat)) : List Byte :=
  (List.range 560).map fun i =>
    match fields.find? fun x => x.1 ≤ i && i < x.1 + x.2.1 with
    | some x => BitVec.ofNat 8 (x.2.2 / 2 ^ (8 * (i - x.1)))
    | none => 0

/-- A plan of one stage with this module at position 0 and module 1, Flue 5, at position 1. -/
def stagePlan (root : Nat) : List (Nat × Nat × Nat) :=
  [(48, 2, 1), (64, 2, 2), (68, 2, root), (72, 4, 256), (80, 2, 1), (96, 2, 1), (148, 4, 272), (156, 4, 288), (160, 4, 304),
   (260, 4, 1 + 5 * 4096), (272, 8, 3 * 2 ^ 60 + 0x1000)]

/-- A reduction of 16 elements of 4 bytes with one source and one hub at the core; KIND 2, or 11 with an update. -/
def redImage (kind : Nat) : List Byte :=
  image ([(4, 1, kind), (6, 2, 4), (8, 2, 4), (10, 2, 4), (12, 4, 16), (16, 2, 16), (18, 2, 1), (20, 1, 1), (24, 8, 16),
    (34, 2, 1), (36, 2, 1), (38, 1, 1), (288, 4, 16), (292, 8, 1 + 2 * 2 ^ 12 + 3 * 2 ^ 24 + 4 * 2 ^ 36)] ++ stagePlan 0)

/-- A quick sum of one value; ROOTPOS of its stage. -/
def quickImage (root : Nat) : List Byte := image ([(4, 1, 1), (22, 1, 1)] ++ stagePlan root)

/-- Flue 0 holds an image, in a state, with an instance; objects 0 and 2 are counters at 1. -/
def flueAt (m : List Byte) (st : Nat) (r : Option FlueRun) : State :=
  let s := (State.reset.setReg (Reg.SYN_OBJ reg0 0) (counterWord 1)).setReg (Reg.SYN_OBJ reg0 2) (counterWord 1)
  (s.setFlue 0 { FlueRec.empty with image := m, run := r }).setFld (Reg.FLU_ENTRY 0) F.FLU_ENTRY_STATE st

/-- An instance that has just opened, with one buffer. -/
def fresh : FlueRun := { FlueRun.fresh State.reset 7 with held := [3 * 2 ^ 60 + 0x20000], free := [3 * 2 ^ 60 + 0x20000] }

/-- The core pool has a buffer for Flue 0. -/
def pooled (s : State) : State :=
  (s.setReg (Reg.GRT_CPOOL_CFG reg0 16)
    (wordOf [(F.GRT_CPOOL_CFG_ENABLE, 1), (F.GRT_CPOOL_CFG_COUNT, 1), (F.GRT_CPOOL_CFG_BASE, 0x4000)])).setReg
    (Reg.GRT_CPOOL_OWNER reg0 16 0)
    (wordOf [(F.GRT_CPOOL_OWNER_VALID, 1), (F.GRT_CPOOL_OWNER_OWNER, 4096), (F.GRT_CPOOL_OWNER_MAX, 1)])

/-- A take of GO, as a number. -/
def goTake (s : State) : Nat :=
  match (s.takeGo (s.flue 0).image).1 with
  | .passes => 0
  | .waits => 1
  | .fails => 2

/-- The module is LIT. -/
def lit (s : State) : State := s.setMState MState.lit

/-- FLU_CMD is BUSY with a load of Flue 1. -/
def loadingAt : State :=
  { State.reset.setFld Reg.FLU_CMD F.FLU_CMD_BUSY 1 with flueCmd := some ⟨1, true, 3 * 2 ^ 60, []⟩ }

theorem witness_FlueControl :
    State.reset.isOn Reg.FLU_CMD F.FLU_CMD_BUSY = false ∧ State.reset.flueSt 0 = FSt.empty ∧
    State.reset.mstate = MState.banked ∧ loadingAt.isOn Reg.FLU_CMD F.FLU_CMD_BUSY = true ∧ loadingAt.flueCmd.isSome = true ∧
    (flueAt [] 2 none).flueSt 0 = FSt.idle ∧ (flueAt [] 3 (some fresh)).flueSt 0 = FSt.running ∧
    ((flueAt [] 3 (some fresh)).flue 0).run = some fresh ∧ (flueAt [] 4 none).flueSt 0 = FSt.faulted ∧
    ({ State.reset with flueCmd := some ⟨1, false, 0, []⟩ } : State).flueCmd = some ⟨1, false, 0, []⟩ ∧
    State.reset.flueCmd = none ∧
    Im.quick (redImage 2) = false ∧ Im.quick (quickImage 0) = true ∧
    (lit (flueAt (redImage 2) 2 none)).mstate = MState.lit ∧ goTake (lit (flueAt (redImage 2) 2 none)) = 0 ∧
    goTake ((lit (flueAt (redImage 2) 2 none)).setReg (Reg.SYN_OBJ reg0 0) (counterWord 0)) = 1 ∧
    goTake ((lit (flueAt (redImage 2) 2 none)).setReg (Reg.SYN_OBJ reg0 0) (flagWord 1)) = 2 ∧
    ((lit (pooled (flueAt (redImage 2) 2 none))).request (flueOwner 0) (flueChain (redImage 2)) (Im.minBuf (redImage 2))
      true).1.isSome = true ∧
    ((lit (flueAt (redImage 2) 2 none)).request (flueOwner 0) (flueChain (redImage 2)) (Im.minBuf (redImage 2)) true).1 = none ∧
    (State.reset.flue 0).run = none ∧ goTake (flueAt (quickImage 0) 2 none) = 0 ∧
    goTake ((flueAt (quickImage 0) 2 none).setReg (Reg.SYN_OBJ reg0 0) (counterWord 0)) = 1 ∧
    goTake ((flueAt (quickImage 0) 2 none).setReg (Reg.SYN_OBJ reg0 0) (flagWord 1)) = 2 ∧
    handshakeReady (flueAt (quickImage 0) 2 none) 0 = false ∧
    earlierDraw (pooled (flueAt (redImage 2) 3 (some { fresh with waiting := true }))) 0 (redImage 2)
      { fresh with waiting := true } = false ∧
    ((pooled (flueAt (redImage 2) 3 (some { fresh with waiting := true }))).request (flueOwner 0) (flueChain (redImage 2)) 1
      false).1.isSome = true ∧
    Code.family Code.failTimeout ≠ 0 ∧ Code.failTimeout < 256 := by decide +kernel

theorem test_flue_launch :
    runs (.flueLaunch 0) (lit (flueAt (redImage 2) 2 none)) (fun t => ((t.flue 0).run.map fun r => r.waiting) = some true) = true ∧
    answers (.clear 0) (flueAt [] 4 none) Code.done = true ∧ answers (.unload 0) (flueAt [] 3 (some fresh)) Code.rejState = true := by
  decide +kernel

/-- A message to Flue 0 from position 1 for an instance of launch tick 7. -/
def msg (code inst : Nat) : Packet :=
  { w0 := wordOf [(P.ptype, 4), (P.smod, 1), (P.src, 1), (P.length, 32)], w1 := wordOf [(P.stage, 1)],
    payload := leBytes 8 (inst * 2 ^ 32 + code * 2 ^ 56) ++ leBytes 8 7 ++ leBytes 8 (2 ^ 52) ++ leBytes 8 0 }

/-- An instance whose piece from position 1 is open. -/
def opened (n : Nat) : FlueRun := { fresh with pieces := [⟨1, false, 1, 0, [], 0, n⟩] }

/-- The link to position 1 in the up phase and in the down phase. -/
def upLink : FLink := ⟨1, false, 1, 1, 5⟩
def downLink : FLink := ⟨1, true, 1, 1, 5⟩

theorem witness_FlueMessages :
    let m := redImage 2
    let s := flueAt m 3 (some fresh)
    h0 (msg Msg.grant 0) P.ptype = 4 ∧ msgCode (msg Msg.grant 0) = Msg.grant ∧ msgCode (msg Msg.abort 0) = Msg.abort ∧
    msgCode (msg Msg.resend 0) = Msg.resend ∧ msgCode (msg Msg.count 0) = Msg.count ∧ Im.quick m = false ∧
    (s.flue 0).run = some fresh ∧ notLaunched (flueAt m 2 none) 0 (msg Msg.grant 1) = true ∧
    notLaunched (flueAt m 2 none) 0 (msg Msg.grant 0) = false ∧ (flueAt m 4 none).flueSt 0 ≠ FSt.idle ∧
    msgGroup (msg Msg.grant 0) = Im.group m ∧ msgInst (msg Msg.grant 0) = s.instance_ 0 ∧ msgTick (msg Msg.grant 0) = fresh.tick ∧
    senderOf m (msg Msg.grant 0) = some upLink ∧
    senderOf m { msg Msg.grant 0 with w0 := wordOf [(P.ptype, 4), (P.smod, 1), (P.src, 9)] } = none ∧
    msgInst (msg Msg.grant 3) ≠ s.instance_ 0 ∧
    (0 + 65536 - msgInst (msg Msg.abort 65535)) % 65536 < 32768 ∧ (State.reset.flue 0).run = none ∧
    (flueLinks m).find? (fun k => k.module = 1 && k.down = false && ((opened 0).piece k 0).isSome) = some upLink ∧
    (opened 3).piece upLink 0 = some ⟨1, false, 1, 0, [], 0, 3⟩ ∧
    (linkPieces s m (opened 0) upLink false).find? (fun y => y.1 = 0) = some (0, 64) ∧
    FPiece.bytes ⟨1, false, 1, 0, [], 0, 3⟩ < 64 ∧ s.mstate ≠ MState.shadow ∧
    ((flueAt m 2 none).setFlue 0 { FlueRec.empty with image := m, early := [msg Msg.grant 1] }).flueSt 0 = FSt.idle ∧
    ((flueAt m 2 none).flue 0).early = [] := by decide +kernel

theorem test_flue_messages :
    runs (.abort (msg Msg.abort 0)) (flueAt (redImage 2) 3 (some fresh)) (fun t => t.flueSt 0 = FSt.faulted &&
      t.fld (Reg.FLU_ENTRY 0) F.FLU_ENTRY_LAST_STATUS = Code.failAborted) = true ∧
    runs (.grant (msg Msg.grant 1)) (flueAt (redImage 2) 3 (some fresh)) (fun t =>
      t.fld (Reg.FLU_ENTRY 0) F.FLU_ENTRY_LAST_STATUS = Code.failMismatch) = true ∧
    runs (.pieceResendTimeout 0 1 0 false) (flueAt (redImage 2) 3 (some (opened 3))) (fun t =>
      t.fld (Reg.FLU_ENTRY 0) F.FLU_ENTRY_LAST_STATUS = Code.failLink) = true := by decide +kernel

/-- The chunk of position 1's piece, and one that says another length. -/
def chunk (len : Nat) : Packet :=
  { w0 := wordOf [(P.ptype, 3), (P.smod, 1), (P.src, 1), (P.length, 64)], w1 := wordOf [(P.last, 1), (P.segLen, len)],
    payload := List.replicate 64 1 }

/-- The piece has come in: its bytes stand in the buffer; then the task is given; then the result is held and sent. -/
def received : FlueRun :=
  { fresh with free := [], pieces := [⟨1, false, 1, 0, [(0, 64)], 0, 0⟩], ins := [⟨1, false, 1, 0, 0, 3 * 2 ^ 60 + 0x20000, 64⟩] }
def given : FlueRun := { received with ins := [], given := [(0, 0, 0)], tasks := [⟨0, 0, 0, 0, 0, false⟩] }
def finished : FlueRun :=
  { given with tasks := [], vals := [⟨resultStep, 0, 0, List.replicate 64 2⟩], chans := [⟨1, true, 1, 0, 0, 0, none, 1, 1, 1⟩] }

theorem witness_FlueWork :
    let m := redImage 2
    let s := flueAt m 3 (some fresh)
    (State.reset.flue 0).run = none ∧ h1 (chunk 64) P.flue = 0 ∧ h0 (chunk 64) P.ptype = 3 ∧
    pieceOf s m fresh { chunk 64 with w0 := wordOf [(P.ptype, 3), (P.src, 9)] } = none ∧
    pieceOf s m fresh (chunk 64) = some (upLink, 0, 64) ∧ h1 (chunk 65) P.segLen ≠ 64 ∧
    (64 * h1 (chunk 64) P.offset) % chunkBytes m false = 0 ∧ ¬ 64 < 0 + (chunk 64).payload.length ∧
    ({ received with pieces := [⟨1, false, 1, 0, [(0, 64)], 0, 1⟩] }).piece upLink 0 = some ⟨1, false, 1, 0, [(0, 64)], 0, 1⟩ ∧
    received.free = [] ∧ fresh.free = [3 * 2 ^ 60 + 0x20000] ∧ Im.tasked m = true ∧
    nextTask m fresh 0 = none ∧ freeSlot m given 0 = none ∧
    nextTask m received 0 = some (0, ⟨1, 0⟩, 0, 0) ∧ freeSlot m received 0 = some 0 ∧ 0 < Im.nhub m ∧
    earlierTask (flueAt m 3 (some received)) 0 m received 0 = false ∧
    (takeFirst (fun y : FTask => y.hub = 0 && y.upd = false) given.tasks).isSome = true ∧
    (takeFirst (fun y : FTask => y.hub = 0 && y.upd = false) received.tasks) = none ∧
    ((flueAt m 3 (some given)).takeHub m 0 1).1 = true ∧ ((flueAt m 3 (some given)).takeHub m 0 3).1 = false ∧
    0 + 1 = (hubSteps (redImage 11)).length ∧ Im.kind (redImage 11) = 11 ∧
    bitAt (AMap.get ({ s with flueNotes := [(0, 4)] } : State).flueNotes 0 0) 2 = true ∧ bitAt (AMap.get s.flueNotes 0 0) 2 = false ∧
    finished.waiting = false ∧ mayGrant m finished = true ∧ tasksDone m finished = true ∧
    ((flueLinks m).all fun l => linkDone (flueAt m 3 (some finished)) m finished l) = true ∧
    ((flueLinks m).all fun l => linkDone s m fresh l) = false := by decide +kernel

theorem test_flue_work :
    runs (.flueChunk (chunk 65)) (flueAt (redImage 2) 3 (some fresh)) (fun t =>
      t.fld (Reg.FLU_ENTRY 0) F.FLU_ENTRY_LAST_STATUS = Code.failMismatch) = true ∧
    runs (.flueComplete 0) (flueAt (redImage 2) 3 (some finished)) (fun t => t.flueSt 0 = FSt.idle) = true := by decide +kernel

/-- A QUICK value from position 1. -/
def value (gen down : Nat) : Packet :=
  { w0 := wordOf [(P.ptype, 4), (P.smod, 1), (P.src, 1), (P.length, 8)],
    w1 := wordOf [(P.gen, gen), (P.stage, 1), (P.down, down)], payload := leBytes 8 5 }

/-- A quick instance of this module, whose own value is 2, at a stage, sent again so often. -/
def quickRun (stage again : Nat) : FlueRun := { FlueRun.fresh State.reset 7 with own := [2], stage := stage, again := again }

theorem witness_QuickPath :
    let s := flueAt (quickImage 0) 3 (some (quickRun 0 0))
    let w := flueAt (quickImage 1) 3 (some (quickRun 1 3))
    Im.quick (quickImage 0) = true ∧ (quickImage 0).isEmpty = false ∧ h0 (value 0 0) P.ptype = 4 ∧ h1 (value 0 0) P.down = 0 ∧
    quickSender (quickImage 0) 1 (value 0 0) = some 1 ∧
    quickSender (quickImage 0) 1 { value 0 0 with w0 := wordOf [(P.ptype, 4)] } = none ∧
    ((flueAt (quickImage 0) 2 none).setFlue 0 { FlueRec.empty with image := quickImage 0, last := some (0, [7]) }).gen 0 = 0 ∧
    ((s.flue 0).run.isSome = true ∧ h1 (value 0 0) P.gen = s.gen 0) ∧ (s.flue 0).last = none ∧
    Im.pos (quickImage 1) 1 ≠ Im.rootPos (quickImage 1) 1 ∧ Im.pos (quickImage 0) 1 = Im.rootPos (quickImage 0) 1 ∧
    h1 (value 1 0) P.gen = (s.gen 0 + 1) % 2 ^ 14 ∧
    ((s.flue 0).ups.any fun y => y.gen = 0 && y.stage = 1 && y.pos = 1) = false ∧
    (({ s.flue 0 with ups := [⟨0, 1, 1, [5], 0⟩] } : FlueRec).ups.any fun y => y.gen = 0 && y.stage = 1 && y.pos = 1) = true ∧
    h1 (value 0 1) P.down = 1 ∧ (quickRun 1 3).stage = 1 ∧ (w.flue 0).run = some (quickRun 1 3) ∧
    quickSender (quickImage 1) 1 (value 0 1) = some (Im.rootPos (quickImage 1) 1) ∧ (quickRun 0 0).stage ≠ 1 ∧
    3 ≤ (quickRun 1 3).again ∧ (quickRun 1 2).again < 3 ∧ (State.reset.flue 0).run = none := by decide +kernel

theorem test_quick :
    runs (.quickValue (value 0 0)) (flueAt (quickImage 0) 3 (some (quickRun 0 0))) (fun t =>
      t.flueSt 0 = FSt.idle && (t.flue 0).last = some (0, [7]) && t.origin.length = 1) = true ∧
    runs (.quickDown (value 0 1)) (flueAt (quickImage 1) 3 (some (quickRun 1 0))) (fun t => (t.flue 0).last = some (0, [5])) = true ∧
    runs (.quickResend 0) (flueAt (quickImage 1) 3 (some (quickRun 1 3))) (fun t =>
      t.fld (Reg.FLU_ENTRY 0) F.FLU_ENTRY_LAST_STATUS = Code.failTimeout) = true := by decide +kernel

/-! ## Spares, shadowing, the recorder and replay -/

/-- HTH_SPARE_CMD for region 3, core 5. -/
def spareWord (go nocopy : Nat) : Word :=
  wordOf [(F.HTH_SPARE_CMD_REGION, 3), (F.HTH_SPARE_CMD_CORE, 5), (F.HTH_SPARE_CMD_GO, go), (F.HTH_SPARE_CMD_NOCOPY, nocopy)]

/-- A substitution of that core is under way in slot 1; slot 0 serves it. -/
def substAt (nocopy : Bool) : State :=
  { with_ (Reg.HTH_SPARE_MAP 0 3) (wordOf [(F.HTH_SPARE_MAP_STATE0, 1), (F.HTH_SPARE_MAP_CORE0, 5)]) with
    subst := [(0, some ⟨3, 5, 1, nocopy, 0⟩)] }

/-- A core with a running engine. -/
def busyCore : State := State.reset.setEng ⟨0, 3, 5⟩ .move { Engine.idle with st := .running }

/-- Core 5 of region 3 is marked, and AUTO is on. -/
def markedAt : State :=
  ((State.reset.setFld (Reg.HTH_SPARE_CTL 0) F.HTH_SPARE_CTL_AUTO 1).setReg (Reg.HTH_SPARE_MARK 0 3) 0x20)

/-- No slot of region 3 is free. -/
def fullAt : State := with_ (Reg.HTH_SPARE_MAP 0 3) (wordOf [(F.HTH_SPARE_MAP_STATE0, 1), (F.HTH_SPARE_MAP_STATE1, 2)])

/-- Health scoring is on with an update every 2^10 ns. -/
def healthAt : State := with_ Reg.VIG_HEALTH_CTL (wordOf [(F.VIG_HEALTH_CTL_MODE, 1), (F.VIG_HEALTH_CTL_HK, 10)])

theorem witness_SparesAndHealth :
    siteOk 0x80 = true ∧ (4 ∈ AMap.get ({ State.reset with stuck := [(0x80, [4])] } : State).stuck [] 0x80) ∧
    (4 ∉ AMap.get State.reset.stuck [] 0x80) ∧
    (with_ (Reg.HTH_SPARE_CMD 0) (wordOf [(F.HTH_SPARE_CMD_BUSY, 1)])).isOn (Reg.HTH_SPARE_CMD 0) F.HTH_SPARE_CMD_BUSY = true ∧
    State.reset.isOn (Reg.HTH_SPARE_CMD 0) F.HTH_SPARE_CMD_BUSY = false ∧ State.reset.mstate = MState.banked ∧
    coreResting State.reset ⟨0, 3, 5⟩ = true ∧ coreResting busyCore ⟨0, 3, 5⟩ = false ∧
    F.HTH_SPARE_CMD_GO.on (spareWord 0 0) = false ∧ F.HTH_SPARE_CMD_GO.on (spareWord 1 0) = true ∧
    subRefused State.reset 0 3 5 = none ∧ freeSpare State.reset 0 3 = some 0 ∧ subRefused fullAt 0 3 5 = some Code.rejState ∧
    subRefused State.reset 0 80 5 = some Code.rejRange ∧
    State.reset.subJob 0 = none ∧ (substAt false).subJob 0 = some ⟨3, 5, 1, false, 0⟩ ∧
    slotState (substAt false) 0 3 0 = 1 ∧ slotCore (substAt false) 0 3 0 = 5 ∧
    markedAt.isOn (Reg.HTH_SPARE_CTL 0) F.HTH_SPARE_CTL_AUTO = true ∧
    bitAt (markedAt.reg (Reg.HTH_SPARE_MARK 0 3)).toNat 5 = true ∧ subRefused markedAt 0 3 5 = none ∧
    F.VIG_HEALTH_CTL_MODE.get (healthAt.reg Reg.VIG_HEALTH_CTL) % 2 = 1 ∧
    F.VIG_HEALTH_CTL_MODE.get ((with_ Reg.VIG_HEALTH_CTL 0).reg Reg.VIG_HEALTH_CTL) % 2 = 0 := by decide +kernel

theorem test_spares :
    runs (.spareSubstitute 0 (spareWord 1 0)) State.reset (fun t => t.subJob 0 = some ⟨3, 5, 0, false, 0⟩) = true ∧
    runs (.substitutionDone 0) (substAt false) (fun t => slotState t 0 3 0 = 2 && slotState t 0 3 1 = 1 && slotCore t 0 3 1 = 5) = true ∧
    runs .healthUpdate { healthAt with health := [(7, 1)] } (fun t => t.alm = 0 && t.health.isEmpty) = true := by decide +kernel

/-- A primary or a shadow, mirroring over port 4, which is UP; a takeover is set for tick 0. -/
def shadowAt (mode mstate st : Nat) : State :=
  let s := upPort 4 (with_ Reg.VIG_SHD_CTL (wordOf [(F.VIG_SHD_CTL_MODE, mode), (F.VIG_SHD_CTL_PORT, 4)]))
  ((s.setMState mstate).setShd st).setReg Reg.VIG_SHD_TAKE (wordOf [(F.VIG_SHD_TAKE_VALID, 1)])

/-- A copy that waits for credit. -/
def copyAt : State :=
  { shadowAt 1 MState.lit 1 with shadow := { Shadow.none with copies := [.of (pkt 2) none none 3] } }

/-- A CTRL frame of a type with a content. -/
def ctrlFrame (mtype : Nat) (content : List Byte) : Frame :=
  { hdr := wordOf [(L.ftype, 2)], credit := 0, body := ctrlBody mtype content }

/-- A takeover that is being decided, with both verdicts. -/
def verdicts (mode mstate : Nat) (own peer : Bool) : State :=
  { shadowAt mode mstate 2 with shadow := { Shadow.none with judged := some (0, 9), own := some own, peer := some (0, peer) } }

/-- The message is heard on the mirror port. -/
def heard (s : State) (mtype : Nat) (f : Frame) (p : State → List Byte → Bool) : Bool :=
  match s.hearMirror 4 mtype f with
  | some (u, m) => p u m
  | none => false

/-- A digest of tick 5, final at cycle 2, and one received. -/
def dig5 : TickDig := ⟨5, 77, 1, 0, false, some 2⟩

theorem witness_Shadowing :
    let sh := shadowAt 2 MState.shadow 1
    let pr := shadowAt 1 MState.lit 1
    sh.mstate = MState.shadow ∧ sh.shdMode = 2 ∧ State.reset.mstate ≠ MState.shadow ∧
    (copyAt.shadow.copies.length = 1 ∧ copyAt.shdMode = 1 ∧ copyAt.shdState = Shd.mirroring) ∧ State.reset.shdMode ≠ 1 ∧
    sh.shadowing = true ∧ State.reset.shadowing = false ∧
    heard sh 5 (ctrlFrame 5 [1]) (fun _ m => leAt m 0 1 = 1) = true ∧
    heard pr 3 (ctrlFrame 3 []) (fun u _ => !u.shadowing) = true ∧
    heard sh 3 (ctrlFrame 3 (List.replicate 20 0 ++ [1])) (fun u m => u.shadowing && leAt m 20 1 = 1) = true ∧
    heard sh 3 (ctrlFrame 3 []) (fun u m => u.shadowing && leAt m 20 1 ≠ 1) = true ∧ State.reset.isUp 4 = false ∧
    ([dig5].find? fun y => y.tick = 5 && y.finalAt.isSome) = some dig5 ∧
    ({ sh with peerDigs := [⟨5, 77, 1, 4⟩] } : State).sweepDigs.shadowing = true ∧
    (({ sh with peerDigs := [⟨5, 77, 1, 4⟩] } : State).sweepDigs.peerDigs.find? fun y => y.tick = 5) = some ⟨5, 77, 1, 4⟩ ∧
    (({ sh with peerDigs := [⟨5, 77, 1, 4⟩] } : State).sweepDigs.digs.find? fun y => y.tick = 5 && y.finalAt.isSome) = none ∧
    (({ sh with digs := [dig5] } : State).sweepDigs.digs.find? fun y => y.tick = 5 && y.finalAt.isSome) = some dig5 ∧
    pr.isOn Reg.VIG_SHD_TAKE F.VIG_SHD_TAKE_VALID = true ∧ pr.shadow.judged = none ∧ pr.mstate = MState.lit ∧
    ((pr.atAlm (tickAt pr pr.takeTick)).sweepDigs.shdState = Shd.mirroring) ∧
    ((shadowAt 1 MState.banked 1).mstate ≠ MState.lit) ∧
    (verdicts 1 MState.lit true true).shadow.own = some true ∧ (verdicts 1 MState.lit true false).shadow.peer = some (0, false) ∧
    (verdicts 2 MState.shadow true true).shdMode ≠ 1 ∧
    heard (verdicts 1 MState.lit true true) 4 (ctrlFrame 4 []) (fun u m => leAt m 4 8 = u.takeTick) = true ∧
    heard pr 4 (ctrlFrame 4 (leBytes 4 1 ++ leBytes 8 6)) (fun u m => leAt m 4 8 ≠ u.takeTick) = true ∧
    ({ shadowAt 1 MState.lit 4 with shadow := { Shadow.none with relayEnd := some 60 } } : State).shdState = Shd.relaying := by
  decide +kernel

theorem test_shadowing :
    runs .mirrorHoldTimeout copyAt (fun t => t.shdState = Shd.ended && t.shadow.copies.isEmpty) = true ∧
    runs .takeoverJudge (shadowAt 1 MState.lit 1) (fun t => t.shdState = Shd.deciding && t.shadow.own = some true) = true ∧
    runs .verdictTimeout (verdicts 1 MState.lit true true) (fun t => t.alm = 2009 && t.shdState = Shd.mirroring) = true ∧
    runs (.verdict 4 (ctrlFrame 4 (leBytes 4 1))) (verdicts 2 MState.shadow true false) (fun t =>
      t.shdState = Shd.taken && t.mstate = MState.lit) = true ∧
    runs .relayEnd { shadowAt 1 MState.lit 4 with shadow := { Shadow.none with relayEnd := some 60 } } (fun t =>
      t.mstate = MState.damped && t.alm = 60) = true := by decide +kernel

/-- The recorder is enabled on a ring of two granules; records were lost. -/
def recAt (lost : Nat) : State :=
  { (with_ Reg.VIG_REC_CTL (wordOf [(F.VIG_REC_CTL_EN, 1)])).setReg Reg.VIG_REC_SIZE (wordOf [(F.VIG_REC_SIZE_GRANULES, 2)]) with
    recLost := lost }

/-- A MARK record. -/
def markRec : RecEntry := { iod := 0, alm := 0, port := 0, kind := 1, word3 := 6, content := leBytes 8 0 }

/-- A stack that is training keeps the recorder from writing. -/
def recStuck : State := (recAt 0).setFld (Reg.MEM_STACK_STATUS 0) F.MEM_STACK_STATUS_STATE 0

/-- A replay in a shadow: one record to inject, or at its end with a recorded digest that was never matched. -/
def replayRun (recs : List RecEntry) : State :=
  { State.reset.setMState MState.shadow with replay := some ⟨recs, 0, 0, [], none⟩, alm := 40 }

theorem witness_RecorderAndReplay :
    State.reset.recording = false ∧ (recAt 0).recording = true ∧ (recAt 0).recLost = 0 ∧ (recAt 0).transit = [] ∧
    ({ recAt 0 with transit := [markRec] }.writeRec markRec).isSome = true ∧
    ({ recStuck with transit := [markRec] }.writeRec markRec).isNone = true ∧ recStuck.recording = true ∧
    (recAt 3).recLost ≠ 0 ∧ (replayRun [{ markRec with kind := 0 }]).mstate = MState.shadow ∧ State.reset.replay = none ∧
    ((replayRun []).sweepDigs.replay = some ⟨[], 0, 0, [], none⟩) ∧ (replayRun []).sweepDigs.mstate = MState.shadow ∧
    ((replayRun [markRec]).sweepDigs.replay = some ⟨[markRec], 0, 0, [], none⟩) ∧ State.reset.sweepDigs.replay = none := by
  decide +kernel

theorem test_recorder :
    runs (.recMark 6) (recAt 0) (fun t => t.fld Reg.VIG_REC_SEQ F.VIG_REC_SEQ_COUNT = 1 && leNat (t.fread 24 8) = 6 &&
      t.fld Reg.VIG_REC_HEAD F.VIG_REC_HEAD_OFFSET = 64) = true ∧
    runs .recGap (recAt 3) (fun t => t.recLost = 0 && leNat (t.fread 24 8) = 3) = true ∧
    runs .replayEnd (replayRun []) (fun t => t.isOn Reg.VIG_RPL_STATUS F.VIG_RPL_STATUS_DONE && t.replay.isNone) = true := by
  decide +kernel

/-! ## The Vigil -/

/-- A command on a path with a payload. -/
def req (path : Path) (b : List Byte) : Req := { path := path, tag := 7, smod := false, src := 0, payload := b }

/-- A response kept for it. -/
def keptOne : Kept := { path := .i3c, tag := 7, smod := false, src := 0, opc := 1, status := 0, payload := [] }

/-- The module's state and what the Vigils keep. -/
def vigilAt (mstate : Nat) : State := State.reset.setMState mstate
def keptAt : State := { State.reset with vigil := { Vigil.fresh with kept := [keptOne] } }
def noPower : State := { State.reset with power := { Power.fresh with applied := false } }

/-- An I3C controller finds a report, a response, or the rest of a response. -/
def readyAt (rest : List Byte) (ks : List Kept) : State :=
  { State.reset with vigil := { Vigil.fresh with i3cOut := rest, i3cReady := ks } }

/-- REG_READ of the register at an address and REG_WRITE to it. -/
def regBytes (a v : Nat) : List Byte := leBytes 8 a ++ leBytes 8 v

/-- A MEM command's arguments. -/
def memArgs (loc n : Nat) : List Byte := leBytes 8 loc ++ leBytes 8 n

theorem witness_VigilReads :
    noPower.power.applied = false ∧ State.reset.power.applied = true ∧
    keptAt.vigil.kept.find? (fun x => x.answers (req .i3c [])) = some keptOne ∧
    State.reset.vigil.kept.find? (fun x => x.answers (req .i3c [])) = none ∧
    State.reset.gate 0x20 (req .i3c []) = some Code.rejState ∧ State.reset.gate 0x01 (req .i3c []) = none ∧
    ((List.range 0x35).all fun o => !(acceptedIn o).getD MState.banked false || State.reset.gate o (req .ihlyelA []) = none) = true ∧
    (with_ Reg.VIG_INBAND_CTL 0).isOn Reg.VIG_INBAND_CTL F.VIG_INBAND_CTL_EN = false ∧ (acceptedIn 0x22).getD MState.banked false = false ∧
    Code.family Code.rejState = 2 ∧ Code.family Code.done ≠ 2 ∧
    bits (leAt (leBytes 8 3) 0 8) 1 0 = 3 ∧ bits (leAt (leBytes 8 (64 * 2 ^ 32)) 0 8) 47 32 = 64 ∧
    1000 < bits (leAt (leBytes 8 (1001 * 2 ^ 32)) 0 8) 47 32 ∧ regSize 16 = true ∧ regSize 24 = false ∧
    Code.family (State.reset.regAccess (req .i3c (regBytes 0 0)) false 0).1 ≠ 0 ∧
    Code.family (State.reset.regAccess (req .i3c (regBytes (Reg.HTH_CTX core) 0)) false 0).1 = 0 ∧
    (match State.reset.memPlace (req .i3c (memArgs (3 * 2 ^ 60) 64)) false with | .ok x => x = (.fabric 0, 64) | _ => false) = true ∧
    (match State.reset.memPlace (req .i3c (memArgs (3 * 2 ^ 60) 65)) false with | .error c => c = Code.rejFormat | _ => false) = true ∧
    silent (stackAt 0) (.fabric 0) 64 = true ∧ silent State.reset (.fabric 0) 64 = false ∧
    (readyAt [1, 2] []).vigil.i3cOut ≠ [] ∧ (readyAt [] [keptOne]).vigil.i3cReady = [keptOne] ∧
    (readyAt [] []).vigil.i3cReady.isEmpty = true ∧ State.reset.vigil.i3cAddr = none := by decide +kernel

theorem test_vigil_reads :
    runs (.regRead (req .i3c (regBytes (Reg.HTH_CTX core) 0))) (with_ (Reg.HTH_CTX core) 5) (fun t =>
      (t.vigil.i3cReady.map fun k => (k.status, k.payload)) = [(0, leBytes 8 1 ++ leBytes 8 5)]) = true ∧
    runs (.memRead (req .i3c (memArgs (3 * 2 ^ 60) 64))) (State.reset.fwrite 0 [9]) (fun t =>
      (t.vigil.i3cReady.map fun k => leAt k.payload 0 64) = [9]) = true ∧
    runs (.i3cResponseRead 1) (readyAt [1, 2] []) (fun t => t.vigil.i3cReport = [1] && t.vigil.i3cOut = [2]) = true := by
  decide +kernel

theorem witness_CommandStates :
    State.reset.power.applied = true ∧ State.reset.vigil.kept = [] ∧ State.reset.vigil.romOnly = false ∧
    (vigilAt MState.lit).mstate ∉ [0] ∧ (vigilAt MState.lit).mstate ∈ [3, 4] ∧ (vigilAt MState.damped).mstate ∈ [5] ∧
    inbandOk (with_ Reg.VIG_INBAND_CTL (wordOf [(F.VIG_INBAND_CTL_EN, 1)])) 0x0A = true ∧
    (req .i3c (List.replicate 240 0)).payload.length ≤ 240 := by decide +kernel

theorem test_damp :
    runs (.damp (req .i3c [])) (vigilAt MState.lit) (fun t => t.mstate = MState.damped) = true ∧
    runs (.damp (req .i3c [])) State.reset (fun t => (t.vigil.i3cReady.map fun k => k.status) = [Code.rejState]) = true := by
  decide +kernel

/-- The public key of RFC 6979, A.2.5. -/
def pubKey : List Byte :=
  beBytes 32 0x60FED4BA255A9D31C961EB74C6356D68C049B8923B61FA6CE669622E60F29FB6 ++
    beBytes 32 0x7903FE1008B8BC99A41AE9E95628BC64F2F1B20C2D7E9F5177A3C294D4462299

/-- RFC 6979, A.2.5: the signature of "sample"; and the digest of "abc" (FIPS 180-4). -/
theorem test_crypto :
    ecdsaVerify pubKey (sha256 [0x73, 0x61, 0x6D, 0x70, 0x6C, 0x65])
      (beBytes 32 0xEFD48B2AACB6A8FD1140DD9CD45E81D69D2C877B56AAF991C34D0EA84EAF3716)
      (beBytes 32 0xF7CB1C942D657C41D436C7A1B6E29F65F3E900DBB9AFF4064DC4AB2F843ACDA8) = true ∧
    ecdsaVerify pubKey (sha256 [0x73, 0x61, 0x6D, 0x70, 0x6C])
      (beBytes 32 0xEFD48B2AACB6A8FD1140DD9CD45E81D69D2C877B56AAF991C34D0EA84EAF3716)
      (beBytes 32 0xF7CB1C942D657C41D436C7A1B6E29F65F3E900DBB9AFF4064DC4AB2F843ACDA8) = false ∧
    beNat (sha256 [0x61, 0x62, 0x63]) = 0xBA7816BF8F01CFEA414140DE5DAE2223B00361A396177A9CB410FF61F20015AD := by decide +kernel

/-- Module 5 has that one manager key, of which one must sign; port 0 exists. -/
def managed (mstate : Nat) : State :=
  let s := (with_ Reg.VIG_QKEYS (wordOf [(F.VIG_QKEYS_N, 1), (F.VIG_QKEYS_K, 1)])).setReg Reg.VIG_MODULE_ID
    (wordOf [(F.VIG_MODULE_ID_VALID, 1), (F.VIG_MODULE_ID_ID, 5)])
  { (s.setReg (Reg.LNK_PORT_CFG 0) cfgWord).setMState mstate with
    vigil := { Vigil.fresh with records := [(2, List.replicate 48 0 ++ leBytes 2 80 ++ List.replicate 86 0 ++ pubKey)] } }

/-- A quorum request for module 5 at NONCE 0, with that key's signature. -/
def quorumReq (op sig : Nat) : Req :=
  req .ihlyelA ([BitVec.ofNat 8 op, 1, 0, 0, 5, 0, 0, 0] ++ leBytes 8 0 ++ leBytes 8 1000 ++ List.replicate 16 0 ++
    beBytes 32 0x6EEAD4CD6ECBE7FC3AD6EAFC30074D0CFD6D8796F708BFCB88951A457E02A466 ++ beBytes 32 sig)
def fenceReq : Req := quorumReq 1 0x1768EC362645FE84E96AE2488DC1CDC53C42F29D105464A496D10C186C05F17C

theorem witness_QuorumCommands :
    quorumCode (managed MState.banked) fenceReq.payload = none ∧
    (32 ≤ fenceReq.payload.length ∧ fenceReq.payload.length = 32 + 72 * Q.nsig fenceReq.payload ∧ Q.op fenceReq.payload = 1) ∧
    quorumCode (managed MState.banked) (quorumReq 1 1).payload = some Code.rejSignature ∧
    (req .i3c []).payload.length < 32 ∧ (managed MState.banked).gate 0x06 fenceReq = none ∧
    (managed MState.fenced).gate 0x0A fenceReq = none ∧ (managed MState.banked).gate 0x05 fenceReq = none ∧
    (managed MState.banked).isOn Reg.VIG_STATE F.VIG_STATE_FENCE_PIN = false ∧
    (State.reset.setFld Reg.VIG_STATE F.VIG_STATE_FENCE_PIN 1).isOn Reg.VIG_STATE F.VIG_STATE_FENCE_PIN = true ∧
    (upPort 0 State.reset).portState 0 ≠ 4 ∧ (with_ (Reg.LNK_PORT_STATUS 0) (wordOf [(F.LNK_PORT_STATUS_STATE, 4)])).portState 0 = 4 ∧
    (vigilAt MState.lit).gate 0x21 (req .i3c []) = none ∧ (vigilAt MState.damped).gate 0x22 (req .i3c []) = none ∧
    bankReady State.reset = true ∧ bankReady busyCore = false := by decide +kernel

theorem witness_QuorumCommands_others :
    quorumCode (managed MState.banked) (quorumReq 2 0x82BB8A208FB5C9739E4A9D849C07979A8222E87DC808D85985E70C7E55C3138B).payload = none ∧
    quorumCode (managed MState.banked) (quorumReq 3 0xC099EC3B36904022D0C29F5EC8094B6D1AA1A8808EC2168D07D2F2DD8DEC13EF).payload = none ∧
    quorumCode (managed MState.fenced) (quorumReq 4 0x22FB17DA40D8B4D2010569F3E80AAD9D8E7AE6527AE3F5361AB45B1304249725).payload = none := by
  decide +kernel

theorem test_quorum :
    runs (.fenceModule fenceReq) (managed MState.banked) (fun t => t.mstate = MState.fenced &&
      t.fld Reg.VIG_QNONCE F.VIG_QNONCE_NONCE = 1) = true ∧
    runs (.fenceModule (quorumReq 1 1)) (managed MState.banked) (fun t => t.mstate = MState.banked &&
      t.fld Reg.VIG_QREJECTS F.VIG_QREJECTS_COUNT = 1) = true := by decide +kernel

/-- An OWNER record that signs itself. -/
def ownerRecord : List Byte :=
  leBytes 4 0x31524341 ++ [1, 2, 0, 0] ++ List.replicate 40 0 ++ leBytes 2 64 ++ List.replicate 14 0 ++ pubKey ++ pubKey ++
    beBytes 32 0x6EEAD4CD6ECBE7FC3AD6EAFC30074D0CFD6D8796F708BFCB88951A457E02A466 ++
    beBytes 32 0x494CD75643CDBF589380C9244CC2D09EEF298C3679B31E74F5C265C4BD90AD1A

/-- A chunk of an image of 80 bytes. -/
def imgChunk (off final n : Nat) : List Byte :=
  [1, 0, 0, 0, 0, 0, 0, 0] ++ leBytes 4 off ++ leBytes 4 80 ++ [BitVec.ofNat 8 final] ++ List.replicate 47 0 ++ List.replicate n 3

/-- A module that has powered down for a reason, as a bit mask. -/
def coldAt (triggers : Nat) : State := (State.reset.goCold triggers)

theorem witness_ControlCommands :
    State.reset.gate 0x07 (req .i3c (leBytes 8 3)) = none ∧ siteOk 0x60 = false ∧ siteOk 3 = true ∧
    pendingReset State.reset (req .i3c (leBytes 8 3)) = false ∧
    (3 ∈ ({ State.reset with inReset := [3] } : State).inReset) ∧ (3 ∉ State.reset.inReset) ∧ core.die = 0 ∧ core.die ≠ 3 ∧
    stackOf (0 / 512) = 0x80 - 0x80 ∧ stackOf (512 / 512) ≠ 0x80 - 0x80 ∧
    (coldAt 1).gate 0x20 (req .i3c []) = none ∧ mayPowerOn (coldAt 1) = true ∧ mayPowerOn (coldAt 2) = false ∧
    (coldAt 8).power.triggers = 8 ∧ (coldAt 16).power.triggers = 16 ∧
    State.reset.gate 0x11 (req .i3c (regBytes 0 0)) = none ∧ State.reset.gate 0x13 (req .i3c []) = none ∧
    (match State.reset.memPlace (req .i3c (memArgs (3 * 2 ^ 60) 64 ++ List.replicate 112 1)) true with
      | .ok x => x = (.fabric 0, 64) | _ => false) = true ∧
    (match State.reset.memPlace (req .i3c (List.replicate 64 0)) true with | .error _ => true | _ => false) = true ∧
    badRecord ownerRecord = false ∧ rangeRecord State.reset ownerRecord = false ∧ recordSigned State.reset ownerRecord = true ∧
    badRecord [] = true ∧ Cr.rtype ownerRecord = 1 ∧ State.reset.mstate = MState.banked ∧
    leAt (imgChunk 0 0 40) 0 1 = 1 ∧ anyByte (imgChunk 0 0 40) 1 7 = false ∧ anyByte (imgChunk 0 0 40) 17 47 = false ∧
    leAt (imgChunk 0 1 80) 12 4 = (imgChunk 0 1 80).length - 64 ∧
    State.reset.vigil.staging = none := by decide +kernel

theorem test_control :
    runs (.cfgInstall (req .ihlyelA ownerRecord)) State.reset (fun t => t.isOn Reg.VIG_IDENT F.VIG_IDENT_OWNER) = true ∧
    runs (.imgStage (req .i3c (imgChunk 0 0 40))) State.reset (fun t =>
      (t.vigil.staging.map fun g => g.bytes.length) = some 40) = true ∧
    runs (.domainReset (req .i3c (leBytes 8 0))) (State.reset.hwrite core 0 [1]) (fun t => t.hearth.isEmpty && t.inReset = [0]) = true ∧
    runs (.powerDown (req .ihlyelA [])) State.reset (fun t => t.mstate = MState.cold) = true := by decide +kernel

/-- Kindling is under way at stage 1. -/
def kindlingAt : State := State.reset.kindle

theorem witness_PinsAndKindling :
    (coldAt 1).mstate = MState.cold ∧ (coldAt 1).isOn Reg.VIG_STATE F.VIG_STATE_PWROFF_PIN = false ∧
    (coldAt 2).power.triggers ∈ [2, 4, 6] ∧ State.reset.mstate ≠ MState.cold ∧
    ((coldAt 1).power.triggers ∉ [2, 4, 6] ∧ (coldAt 1).power.triggers < 64) ∧
    Reg.HTH_CTX core ∉ keptRegs ∧ kindlingAt.kindling = true ∧ State.reset.kindling = false ∧
    State.reset.leadSite ≠ 0x48 ∧ State.reset.vigil.spareLost = false ∧
    ({ State.reset with vigil := { Vigil.fresh with spareLost := true } } : State).vigil.spareLost = true := by decide +kernel

theorem test_kindling :
    runs (.kindlingStageTimeout 2) kindlingAt (fun t => t.fld Reg.VIG_BOOT_STATUS F.VIG_BOOT_STATUS_STAGE = 2 && !t.kindling) = true ∧
    runs (.fenceN false) State.reset (fun t => t.mstate = MState.fenced) = true ∧
    runs .supplyRecovery (coldAt 2) (fun t => t.mstate = MState.kindling && t.now = 100000000) = true ∧
    runs .vigilFailover State.reset (fun t => t.leadSite = 0x48) = true := by decide +kernel

/-- Condition 5 has held since cycle 9. -/
def holdAt (mark : Nat) : State := { State.reset with power := { Power.fresh with holds := [(5, 10), (2 ^ 32 + 5, mark)] } }

/-- Die 0 is at 100.0 °C with throttling enabled. -/
def hotAt : State :=
  (State.reset.setFld (Reg.PWR_DIE 0) F.PWR_DIE_TEMP 1000).setFld Reg.PWR_THERM_CTL F.PWR_THERM_CTL_THROTTLE_EN 1

/-- A reading of a compute die's sensor. -/
def warm (v : Int) : TempReading := { site := 0, unit := 0, value := v }

theorem witness_Power :
    (coldAt 1).mstate = MState.cold ∧ ([4800, 4800, 4800, 4800] : List Nat).length = 4 ∧
    ([0, 0, 0, 0] : List Nat).foldl Nat.max 0 < 3000 ∧ State.reset.mstate ≠ MState.cold ∧
    State.reset.heldSince 5 = 0 ∧ (holdAt 0).heldSince 5 = 9 + 1 ∧ (holdAt 0).heldSince (2 ^ 32 + 5) = 0 ∧
    (holdAt 1).heldSince (2 ^ 32 + 5) ≠ 0 ∧ sensorOk (warm 500) = true ∧ sensorOk { warm 500 with site := 0x60 } = false ∧
    (warm 500).value < (sensorLimits (warm 500)).2 ∧ hotAt.isOn Reg.PWR_THERM_CTL F.PWR_THERM_CTL_THROTTLE_EN = true ∧
    (State.reset.setFld Reg.PWR_THERM_CTL F.PWR_THERM_CTL_THROTTLE_EN 0).isOn Reg.PWR_THERM_CTL F.PWR_THERM_CTL_THROTTLE_EN = false ∧
    (({ State.reset with now := 2000000000 } : State).now - State.reset.power.countedTo) / 1000000000 ≠ 0 := by decide +kernel

theorem test_power :
    runs .throttleUpdate hotAt (fun t => t.alm = 100000 && t.fld (Reg.PWR_DIE 0) F.PWR_DIE_HOLD = 1) = true ∧
    runs (.supplySample [4800, 4800, 4800, 4800] [10, 10, 10, 10]) State.reset (fun t => t.now = 1000 &&
      t.fld (Reg.PWR_PAIR 2) F.PWR_PAIR_VOLTS = 4800 && t.mstate = MState.banked) = true ∧
    runs (.thermalSample [warm 500]) State.reset (fun t => t.fld (Reg.PWR_DIE 0) F.PWR_DIE_TEMP = 500) = true ∧
    runs .lifeCommit State.reset (fun t => t.lifeKept.length = 1) = true := by decide +kernel

/-! ## Steps and well-formedness -/

/-- A sound state with a command waiting whose effect is a next state: a counter holds a value, the hearth bytes, an engine an
instruction. -/
def readyStep : State := { tallyAt 0x01 0 0x71 with pending := [.addi core] }

theorem witness_StepKeepsSound :
    readyStep.Sound ∧ (match step readyStep with | .next t => decide (t.ctr core 1 = 12) | _ => false) = true := by
  unfold State.Sound regsOk
  decide +kernel

theorem witness_StepServesQueue :
    State.reset.pending = [] ∧ State.reset.digs = [] ∧ State.reset.peerDigs = [] := by decide +kernel

theorem witness_EngineVerdict :
    engineOp (.addi core) = some (core, .tally, addiSpec) ∧
    issues (tallyAt 0x01 0 0x71) .tally addiSpec (fun _ _ => true) = true := ⟨rfl, by decide +kernel⟩

/-- IssueFrames, where the instruction has no wait; and a core whose key differs. -/
theorem witness_IssueFrames :
    (match (tallyAt 0x01 0 0x71).issuePoint core .tally addiSpec with
      | some (_, h, _) => h.wait.isNone
      | none => false) = true ∧
    coreKey ⟨0, 0, 17⟩ ≠ coreKey core ∧ clsCode .move ≠ clsCode .tally := by decide +kernel

/-- A packet too long to be one. -/
def longPacket : Packet := ⟨0, 0, List.replicate 8193 0⟩

/-- One ill-formed command for every check of `Instr.wf`. -/
def illFormedCommands : List Instr :=
  [.registerWrite (2 ^ 40) 32 0, .registerWrite 0 16 0, .instructionBankWrite ⟨64, 0, 0⟩ 0 0 64 0,
   .instructionBankWrite core 2 0 64 0, .instructionBankWrite core 0 0 8 0, .bankArm ⟨0, 80, 0⟩, .bankSwap ⟨0, 0, 64⟩,
   .start ⟨0, 0, 17⟩ .tensor, .seti ⟨64, 0, 0⟩, .halt ⟨0, 80, 0⟩ .move, .get ⟨0, 0, 64⟩, .sum ⟨64, 0, 0⟩, .mma ⟨0, 0, 17⟩,
   .redInject ⟨64, 0, 0⟩ 0, .tenInject ⟨0, 0, 1⟩ 0, .inject core .move 0, .inject ⟨0, 80, 0⟩ .sort 0] ++
  [.packetArrival longPacket, .rxHoldDrop ⟨0, 0, 64⟩, .remoteSignal longPacket, .sigack longPacket,
   .remoteSignalLost ⟨0, 80⟩ 0, .barrierCarry ⟨64, 0⟩ 0, .barrierCarry reg0 4096, .syncSave ⟨0, 80⟩ 0,
   .syncSaveFinish ⟨64, 0⟩, .timeMessageSend 1024, .calendarLaunch 64, .dsPartWrite 64 0, .cacheWindowWrite 64 0 true 0,
   .cacheWindowWrite 0 8 false 0, .cacheInvalidateDone 0 8, .stackReadRequest (2 ^ 41) 1, .stackWriteRequest (2 ^ 41) [0],
   .scrub 64, .stackRetrain 64 true, .onmodLinkRetrain (.mesh 0 0) [], .onmodLinkRetrain (.attach 16 0) [],
   .allocWaitGrant ⟨0, 80⟩, .reclaim (.region ⟨64, 0⟩) 0] ++
  [.frameSend 1024, .down 1024 ⟨0, 0, []⟩, .trainFrame 1024 0 [], .trainFrame 0 8 [], .laneSignalLoss 0 8,
   .packetRoute (.port 1024 0), .escapeRoute (.port 0 10), .damperRefill 0 1024, .damperRefill 1 128,
   .damperConfigWrite (2 ^ 40) 32 0, .damperConfigWrite 0 16 0, .admissionGrant 8192, .load 4096, .grant longPacket,
   .pieceResendTimeout 4096 0 0 false, .hubTask 4096 0, .hubTask 0 4096, .taskTakeback 4096 0 false, .heartbeat 0x50 [],
   .heartbeatTimeout 0xC0, .spareSubstitute 64 0, .autoSubstitute ⟨0, 0, 64⟩, .mirrorPacket longPacket, .digest 1024 ⟨0, 0, []⟩,
   .domainRelease 0x7F, .kindlingStageTimeout 0, .kindlingStageTimeout 6, .supplySample [1] [1, 2, 3, 4],
   .supplySample [1, 2, 3, 4] [], .thermalSample [warm 0, { warm 0 with unit := 4 }], .codewordLock 1024,
   .kindlingImageFailure 0, .kindlingImageFailure 5]

theorem test_ill_formed : illFormedCommands.all (fun i => !i.wf) = true := by decide +kernel

theorem test_well_formed :
    [.registerWrite 0 32 0, .seti core, .mma core, .inject core .sort 0, .packetArrival ⟨0, 0, []⟩, .barrierCarry reg0 0,
     .onmodLinkRetrain (.mesh 0 1) [], .packetRoute (.port 3 9), .hubTask 0 4095, .heartbeat 0x80 [],
     .thermalSample [warm 0], .kindlingStageTimeout 5, .supplySample [1, 2, 3, 4] [1, 2, 3, 4]].all Instr.wf = true := by
  decide +kernel

end Sys2Proof.Tests
end

section
/-! SUPPORT. An access that its width refuses (R13, R33): where the address leads, and that a refused access leaves the state as it was. -/
namespace Sys2Proof.Machine

section
variable {s : State} {a width code : Nat}

/-- An instruction bank's window is accessed at 64 bits only (R33). -/
theorem State.spot_bankWindow_width (hw : width ≠ 64)
    (h : siteOf a < 0x40 ∧ blockOf a < 80 ∧ unitOf a < 0x42 ∧ 0x8000 ≤ offsetOf a ∧ offsetOf a < 0xE000) :
    s.spot a width = .error Code.rejRange := by
  simp [State.spot, h, hw]

/-- A register is accessed at its own width only (R13). At a Vigil that does not lead, the register is the leading one's. -/
theorem State.spot_register_width {r : Row} {ps : List Nat}
    (h : ¬ (siteOf a < 0x40 ∧ blockOf a < 80 ∧ unitOf a < 0x42 ∧ 0x8000 ≤ offsetOf a ∧ offsetOf a < 0xE000))
    (hr : regRow (if s.atBackup a then unitBase 0x40 0x20 0 + offsetOf a else s.homeOf a) = some (r, ps))
    (hw : r.width ≠ width) : s.spot a width = .error Code.rejRange := by
  unfold State.spot
  dsimp only
  rw [if_neg (by simpa [and_assoc] using h), hr]
  exact if_pos hw

section
variable (h : s.spot a width = .error code)
include h

theorem State.mgmtWrite_refused (inband : Bool) (data : Word) : s.mgmtWrite inband a width data = (code, s) := by
  unfold State.mgmtWrite
  rw [h]

theorem State.mgmtRead_refused : s.mgmtRead a width = (code, 0, s) := by
  unfold State.mgmtRead
  rw [h]

theorem exec_registerWrite_refused (data : Word) :
    exec (.registerWrite a width data) s = .next (s.completed code 0) := by
  change mgmtCommand a width data s = _
  unfold mgmtCommand
  rw [State.mgmtWrite_refused h]

end
end

/-- Settles O24: either kind of wrong width makes `State.spot` answer REJ_RANGE, and a refused access changes nothing. -/
theorem accessWidth : Obligations.AccessWidth := by
  unfold Obligations.AccessWidth
  intro s a width data inband r ps same window hwrong
  have hspot : s.spot a width = .error Code.rejRange := by
    rcases hwrong with ⟨hout, hrow, hwidth⟩ | ⟨hin, hwidth⟩
    · exact State.spot_register_width hout hrow hwidth
    · exact State.spot_bankWindow_width hwidth hin
  exact ⟨exec_registerWrite_refused hspot data, State.mgmtWrite_refused hspot inband data, State.mgmtRead_refused hspot⟩

end Sys2Proof.Machine
end

section
/-! SUPPORT. Long images of the Reduce engine (R225): where an image holds VALUE, the padding and the side word, and that an accumulator comes
back from its image. -/
namespace Sys2Proof.Machine

/-- The side word of an image of a lane class. -/
def imageSide (k : LaneClass) (n : Nat) : Nat := bits n (8 * imageSize k - 1) (8 * imageSize k - 64)

/-- The fields of an accumulator's side word as one number. -/
def Accum.sideWord (f : Nat) (x : Accum) : Nat :=
  x.terms + x.nan.toNat * 2 ^ 48 + x.pinf.toNat * 2 ^ 49 + x.ninf.toNat * 2 ^ 50 + x.notNeg0.toNat * 2 ^ 51 +
    x.notPos0.toNat * 2 ^ 52 + f * 2 ^ 56

/-- A lane class has a VALUE, and a side word of 8 bytes follows it in the image. -/
structure LaneClass.LaidOut (k : LaneClass) : Prop where
  width_pos : 0 < k.width
  side_fits : 64 ≤ 8 * imageSize k
  value_below_side : k.width ≤ 8 * imageSize k - 64

section
variable {k : LaneClass} {fmt f n m : Nat} {x : Accum}

/-- The table of R210 has five classes. -/
theorem laneClass_cases (h : laneClass fmt = some k) :
    k = ⟨4, 320, 149⟩ ∨ k = ⟨2, 160, 24⟩ ∨ k = ⟨1, 80, 16⟩ ∨ k = ⟨1, 80, 0⟩ ∨ k = ⟨2, 160, 0⟩ := by
  unfold laneClass at h
  split at h <;> simp_all

theorem imageSize_of_laneClass (h : laneClass fmt = some k) :
    imageSize k = if k.slices = 1 then 24 else if k.slices = 2 then 32 else 48 := by
  obtain rfl | rfl | rfl | rfl | rfl := laneClass_cases h <;> rfl

theorem laidOut_of_laneClass (h : laneClass fmt = some k) : k.LaidOut := by
  obtain rfl | rfl | rfl | rfl | rfl := laneClass_cases h <;> constructor <;> decide

/-! ## The side word -/

theorem bitAt_eq_of_div_mod {i : Nat} {p : Bool} (h : n / 2 ^ i % 2 = p.toNat) : bitAt n i = p := by
  rw [bitAt, Nat.testBit_eq_decide_div_mod_eq, h]
  cases p <;> rfl

/-- The flags are single bits: what `omega` needs to place them. -/
theorem Accum.flags_le (x : Accum) :
    x.nan.toNat ≤ 1 ∧ x.pinf.toNat ≤ 1 ∧ x.ninf.toNat ≤ 1 ∧ x.notNeg0.toNat ≤ 1 ∧ x.notPos0.toNat ≤ 1 :=
  ⟨Bool.toNat_le _, Bool.toNat_le _, Bool.toNat_le _, Bool.toNat_le _, Bool.toNat_le _⟩

theorem Accum.sideWord_lt (ht : x.terms < 2 ^ 43) (hf : f < 32) : x.sideWord f < 2 ^ 64 := by
  have hflags := x.flags_le
  unfold Accum.sideWord
  omega

/-- What a read takes from the side word does not depend on FMT. -/
theorem Accum.sideWord_read (ht : x.terms < 2 ^ 43) :
    bits (x.sideWord f % 2 ^ 64) 42 0 = x.terms ∧ bitAt (x.sideWord f % 2 ^ 64) 48 = x.nan ∧
    bitAt (x.sideWord f % 2 ^ 64) 49 = x.pinf ∧ bitAt (x.sideWord f % 2 ^ 64) 50 = x.ninf ∧
    bitAt (x.sideWord f % 2 ^ 64) 51 = x.notNeg0 ∧ bitAt (x.sideWord f % 2 ^ 64) 52 = x.notPos0 := by
  have hflags := x.flags_le
  unfold Accum.sideWord bits
  refine ⟨?_, ?_, ?_, ?_, ?_, ?_⟩
  · omega
  all_goals
    apply bitAt_eq_of_div_mod
    omega

theorem Accum.sideWord_fmt (ht : x.terms < 2 ^ 43) (hf : f < 32) : bits (x.sideWord f % 2 ^ 64) 60 56 = f := by
  have hflags := x.flags_le
  unfold Accum.sideWord bits
  omega

theorem Accum.sideWord_reserved (ht : x.terms < 2 ^ 43) (hf : f < 32) :
    bits (x.sideWord f % 2 ^ 64) 63 61 = 0 ∧ bits (x.sideWord f % 2 ^ 64) 55 53 = 0 ∧
    bits (x.sideWord f % 2 ^ 64) 47 43 = 0 := by
  have hflags := x.flags_le
  unfold Accum.sideWord bits
  omega

/-! ## Writing an image -/

theorem Accum.image_eq_sideWord (k : LaneClass) (f : Nat) (x : Accum) :
    x.image k f = x.value + x.sideWord f * 2 ^ (8 * imageSize k - 64) := by
  have hpos : 8 * (imageSize k - 8) = 8 * imageSize k - 64 := by omega
  have hbit : ∀ (p : Bool) (i : Nat), (if p then 2 ^ i else 0) = p.toNat * 2 ^ i := fun p i => by
    cases p
    · exact (Nat.zero_mul _).symm
    · exact (Nat.one_mul _).symm
  simp only [Accum.image, Accum.sideWord, hpos, hbit]

section
variable (hk : k.LaidOut)
include hk

theorem bits_value_eq_mod (n : Nat) : bits n (k.width - 1) 0 = n % 2 ^ k.width := by
  rw [bits, Nat.pow_zero, Nat.div_one, Nat.sub_zero, Nat.sub_add_cancel hk.width_pos]

theorem imageSide_eq_div_mod (n : Nat) : imageSide k n = n / 2 ^ (8 * imageSize k - 64) % 2 ^ 64 := by
  have hwidth : 8 * imageSize k - 1 + 1 - (8 * imageSize k - 64) = 64 := by
    have := hk.side_fits
    omega
  rw [imageSide, bits, hwidth]

/-- The same number cut above VALUE: the padding is the low part of what follows. -/
theorem Accum.image_eq_above_value (x : Accum) (f : Nat) :
    x.image k f = x.value + x.sideWord f * 2 ^ (8 * imageSize k - 64 - k.width) * 2 ^ k.width := by
  rw [Accum.image_eq_sideWord, Nat.mul_assoc, ← Nat.pow_add, Nat.sub_add_cancel hk.value_below_side]

section
variable (hv : x.value < 2 ^ k.width)
include hv

theorem Accum.bits_image_value (f : Nat) : bits (x.image k f) (k.width - 1) 0 = x.value := by
  rw [bits_value_eq_mod hk, Accum.image_eq_above_value hk, Nat.add_mul_mod_self_right, Nat.mod_eq_of_lt hv]

theorem Accum.bits_image_padding (f : Nat) : bits (x.image k f) (8 * imageSize k - 65) k.width = 0 := by
  have hwidth : 8 * imageSize k - 65 + 1 - k.width = 8 * imageSize k - 64 - k.width := by
    have := hk.width_pos
    have := hk.value_below_side
    omega
  rw [bits, hwidth, Accum.image_eq_above_value hk, Nat.add_mul_div_right _ _ (Nat.two_pow_pos _), Nat.div_eq_of_lt hv, Nat.zero_add,
    Nat.mul_mod_left]

theorem Accum.value_lt_side : x.value < 2 ^ (8 * imageSize k - 64) :=
  Nat.lt_of_lt_of_le hv (Nat.pow_le_pow_right Nat.two_pos hk.value_below_side)

theorem Accum.imageSide_image (f : Nat) : imageSide k (x.image k f) = x.sideWord f % 2 ^ 64 := by
  rw [imageSide_eq_div_mod hk, Accum.image_eq_sideWord, Nat.add_mul_div_right _ _ (Nat.two_pow_pos _),
    Nat.div_eq_of_lt (Accum.value_lt_side hk hv), Nat.zero_add]

theorem Accum.image_lt (ht : x.terms < 2 ^ 43) (hf : f < 32) : x.image k f < 2 ^ (8 * imageSize k) := by
  rw [Accum.image_eq_sideWord]
  calc x.value + x.sideWord f * 2 ^ (8 * imageSize k - 64)
      < 2 ^ (8 * imageSize k - 64) + x.sideWord f * 2 ^ (8 * imageSize k - 64) :=
        Nat.add_lt_add_right (Accum.value_lt_side hk hv) _
    _ = (x.sideWord f + 1) * 2 ^ (8 * imageSize k - 64) := by rw [Nat.add_comm, Nat.add_mul, Nat.one_mul]
    _ ≤ 2 ^ 64 * 2 ^ (8 * imageSize k - 64) := Nat.mul_le_mul_right _ (Accum.sideWord_lt ht hf)
    _ = 2 ^ (8 * imageSize k) := by rw [← Nat.pow_add, Nat.add_sub_cancel' hk.side_fits]

end

/-! ## Reading an image -/

/-- A read takes VALUE's bits and the side word's TERMS and flags, and nothing else. -/
theorem Accum.ofImage_eq (n : Nat) :
    Accum.ofImage k n =
      { value := bits n (k.width - 1) 0, terms := bits (imageSide k n) 42 0,
        nan := bitAt (imageSide k n) 48 || decide (2 ^ 42 < bits (imageSide k n) 42 0), pinf := bitAt (imageSide k n) 49,
        ninf := bitAt (imageSide k n) 50, notNeg0 := bitAt (imageSide k n) 51, notPos0 := bitAt (imageSide k n) 52 } := by
  have hpos : 8 * (imageSize k - 8) = 8 * imageSize k - 64 := by omega
  have hterms : ∀ w, bits (w % 2 ^ 64) 42 0 = bits w 42 0 := fun w => by
    unfold bits
    omega
  have hflag : ∀ w, ∀ i < 64, bitAt (w % 2 ^ 64) i = bitAt w i := fun w i hi => by
    rw [bitAt, Nat.testBit_mod_two_pow, decide_eq_true hi, Bool.true_and, bitAt]
  simp only [Accum.ofImage, hpos, bits_value_eq_mod hk, imageSide_eq_div_mod hk, hterms, hflag, Nat.reduceLT]

/-- Padding, reserved bits and FMT are not read. -/
theorem Accum.ofImage_congr (hvalue : bits n (k.width - 1) 0 = bits m (k.width - 1) 0)
    (hflags : bits (imageSide k n) 52 48 = bits (imageSide k m) 52 48)
    (hterms : bits (imageSide k n) 42 0 = bits (imageSide k m) 42 0) : Accum.ofImage k n = Accum.ofImage k m := by
  have hflag : ∀ i < 5, bitAt (imageSide k n) (48 + i) = bitAt (imageSide k m) (48 + i) := fun i hi => by
    have h := congrArg (Nat.testBit · i) hflags
    simpa [testBit_bits, hi, bitAt] using h
  rw [Accum.ofImage_eq hk, Accum.ofImage_eq hk, hvalue, hterms, hflag 0 (by decide), hflag 1 (by decide), hflag 2 (by decide),
    hflag 3 (by decide), hflag 4 (by decide)]

theorem Accum.ofImage_image (f : Nat) (hv : x.value < 2 ^ k.width) (ht : x.terms < 2 ^ 43)
    (hnan : 2 ^ 42 < x.terms → x.nan = true) : Accum.ofImage k (x.image k f) = x := by
  obtain ⟨hterms, hn, hp, hi, hneg, hpos⟩ := Accum.sideWord_read (f := f) ht
  have hsat : (x.nan || decide (2 ^ 42 < x.terms)) = x.nan := by
    by_cases h : 2 ^ 42 < x.terms
    · rw [hnan h, Bool.true_or]
    · rw [decide_eq_false h, Bool.or_false]
  rw [Accum.ofImage_eq hk, Accum.bits_image_value hk hv, Accum.imageSide_image hk hv, hterms, hn, hp, hi, hneg, hpos, hsat]

end
end

/-- Settles O14: an image is VALUE below a side word that begins 64 bits under its end, and a read takes those two alone. -/
theorem longImage : Obligations.LongImage := by
  unfold Obligations.LongImage
  intro k fmt f n m x size im side hclass
  have hk := laidOut_of_laneClass hclass
  refine ⟨imageSize_of_laneClass hclass, fun hv ht hf => ?_,
    fun _ _ hvalue hflags hterms => Accum.ofImage_congr hk hvalue hflags hterms, Accum.ofImage_image hk f⟩
  obtain ⟨hterms, hn, hp, hi, hneg, hpos⟩ := Accum.sideWord_read (f := f) ht
  obtain ⟨hhigh, hmid, hlow⟩ := Accum.sideWord_reserved ht hf
  have hside : side im = x.sideWord f % 2 ^ 64 := Accum.imageSide_image hk hv f
  rw [hside]
  exact ⟨Accum.image_lt hk hv ht hf, Accum.bits_image_value hk hv f, Accum.bits_image_padding hk hv f, hhigh,
    Accum.sideWord_fmt ht hf, hmid, hpos, hneg, hi, hp, hn, hlow, hterms⟩

end Sys2Proof.Machine
end

section
/-! SUPPORT. Control port commands and the module states that accept them (R538, R543, R544): when the gate refuses for the state, when it lets
a command through, and what a refused command answers. -/
namespace Sys2Proof.Machine

section
variable {s : State} {q : Req} {o code : Nat} {states : List Nat} {i : Instr}

/-! ## The marks of R543 -/

/-- A row of R543 as `acceptedIn` holds it: for each of the seven states, whether it is listed. -/
def marks (states : List Nat) : List Bool := (List.range 7).map fun m => decide (m ∈ states)

theorem marks_getD (h : ∀ m ∈ states, m < 7) (m : Nat) : (marks states).getD m false = decide (m ∈ states) := by
  rcases Nat.lt_or_ge m 7 with hm | hm
  · rw [List.getD_eq_getElem?_getD, marks, List.getElem?_map, List.getElem?_range hm]
    rfl
  · have hlen : (marks states).length ≤ m := by rwa [marks, List.length_map, List.length_range]
    have hout : m ∉ states := fun hmem => Nat.not_lt.mpr hm (h m hmem)
    rw [List.getD_eq_getElem?_getD, List.getElem?_eq_none hlen, decide_eq_false hout]
    rfl

/-! ## The gate -/

section
variable (hpriv : q.path = .inband → inbandOk s o = true)
include hpriv

/-- Nothing but the in-band rules comes before the state (R544). -/
theorem State.gate_of_state_unmarked (h : (acceptedIn o).getD s.mstate false = false) : s.gate o q = some Code.rejState := by
  have hallowed : (decide (q.path = .inband) && !inbandOk s o) = false := by
    simpa only [Bool.and_eq_false_imp, decide_eq_true_eq, Bool.not_eq_false'] using hpriv
  unfold State.gate
  rw [hallowed, h]
  rfl

theorem State.gate_of_state_marked (h : (acceptedIn o).getD s.mstate false = true) (hrom : s.vigil.romOnly = false)
    (hlen : q.path = .i3c → q.payload.length ≤ 240) : s.gate o q = none := by
  have hallowed : (decide (q.path = .inband) && !inbandOk s o) = false := by
    simpa only [Bool.and_eq_false_imp, decide_eq_true_eq, Bool.not_eq_false'] using hpriv
  have hfits : (decide (q.path = .i3c) && decide (240 < q.payload.length)) = false := by
    simpa only [Bool.and_eq_false_imp, decide_eq_true_eq, decide_eq_false_iff_not, Nat.not_lt] using hlen
  unfold State.gate
  rw [hallowed, h, hrom, hfits]
  rfl

end

/-! ## A refused command -/

theorem refusalPayload_eq (o : Nat) : refusalPayload o = if o = 0x10 ∨ o = 0x11 then List.replicate 8 0 else [] := by
  simp only [refusalPayload, Bool.or_eq_true, decide_eq_true_eq]
  rfl

/-- A command that its gate refuses is taken from its path and answered, whatever it would have run. -/
theorem State.command_refused (hpower : s.power.applied = true) (hkept : s.vigil.kept.find? (fun x => x.answers q) = none)
    (hgate : s.gate o q = some code) (run : State → Ran) :
    s.command o q run = (s.takeReq o q).respond o q code (refusalPayload o) := by
  unfold State.command
  rw [hpower, hkept, hgate]
  rfl

/-! ## A row of R543 -/

/-- A command goes through the gate of opcode `o`, which `acceptedIn` marks for exactly the module states listed. -/
structure AcceptedExactlyIn (q : Req) (i : Instr) (o : Nat) (states : List Nat) : Prop where
  exec_eq : ∃ run, ∀ s, exec i s = .next (s.command o q run)
  acceptedIn_eq : acceptedIn o = marks states
  states_lt : ∀ m ∈ states, m < 7

theorem AcceptedExactlyIn.marked (h : AcceptedExactlyIn q i o states) (m : Nat) :
    (acceptedIn o).getD m false = decide (m ∈ states) := by
  rw [h.acceptedIn_eq, marks_getD h.states_lt]

theorem AcceptedExactlyIn.exec_unlisted (h : AcceptedExactlyIn q i o states)
    (hpower : s.power.applied = true) (hkept : s.vigil.kept.find? (fun x => x.answers q) = none)
    (hpriv : q.path = .inband → inbandOk s o = true) (hstate : s.mstate ∉ states) :
    exec i s = .next ((s.takeReq o q).respond o q Code.rejState (refusalPayload o)) := by
  obtain ⟨run, hexec⟩ := h.exec_eq
  have hgate : s.gate o q = some Code.rejState :=
    State.gate_of_state_unmarked hpriv (by rw [h.marked, decide_eq_false hstate])
  rw [hexec, State.command_refused hpower hkept hgate]

end

/-- Settles O56: every row of the table is the marks of its opcode, so a state outside the row is refused right after the in-band rules. -/
theorem commandStates : Obligations.CommandStates := by
  unfold Obligations.CommandStates
  intro s q table hpower hkept
  have hrows : ∀ x ∈ table, AcceptedExactlyIn q x.1 x.2.1 x.2.2 := by
    simp only [table, List.forall_mem_cons, List.not_mem_nil, false_implies, implies_true, and_true]
    and_intros
    all_goals exact ⟨⟨_, fun _ => rfl⟩, rfl, by decide⟩
  intro x hx hpriv
  have hrow := hrows x hx
  refine ⟨fun hstate => ?_, fun hstate hrom hlen => ?_⟩
  · rw [← refusalPayload_eq]
    exact hrow.exec_unlisted hpower hkept hpriv hstate
  · exact State.gate_of_state_marked hpriv (by rw [hrow.marked, decide_eq_true hstate]) hrom hlen

end Sys2Proof.Machine
end

section
/-! SUPPORT. Every command keeps a sound state sound: the lemmas of the Sound files, one for each arm of `exec`, put together. -/
namespace Sys2Proof.Machine

/-- Whatever the command, the state it answers is sound where the state it is served in is. -/
theorem exec_sound (i : Instr) (s : State) (hs : s.Sound) : NextSound (exec i s) := by
  cases i with
  | registerWrite addr width data => exact execRegisterWrite_sound addr width data s hs
  | instructionBankWrite c bank off width data => exact execInstructionBankWrite_sound c bank off width data s hs
  | bankArm c => exact execBankArm_sound c s hs
  | bankDisarm c => exact execBankDisarm_sound c s hs
  | bankSwap c => exact execBankSwap_sound c s hs
  | start c e => exact execStart_sound c e s hs
  | stop c e => exact execStop_sound c e s hs
  | clearFault c e => exact execClearFault_sound c e s hs
  | retry c e => exact execRetry_sound c e s hs
  | instructionComplete c e => exact execInstructionComplete_sound c e s hs
  | waitTimeout c e => exact execWaitTimeout_sound c e s hs
  | fetchPastEnd c e => exact execFetchPastEnd_sound c e s hs
  | seti c => exact execSeti_sound c s hs
  | addi c => exact execAddi_sound c s hs
  | add c => exact execAdd_sound c s hs
  | sub c => exact execSub_sound c s hs
  | ld c => exact execLd_sound c s hs
  | st c => exact execSt_sound c s hs
  | stf c => exact execStf_sound c s hs
  | cmp c => exact execCmp_sound c s hs
  | cmpi c => exact execCmpi_sound c s hs
  | skipk c => exact execSkipk_sound c s hs
  | djnz c => exact execDjnz_sound c s hs
  | nop c e => exact execNop_sound c e s hs
  | halt c e => exact execHalt_sound c e s hs
  | bank c e => exact execBank_sound c e s hs
  | jump c e => exact execJump_sound c e s hs
  | loop c e => exact execLoop_sound c e s hs
  | skip c e => exact execSkip_sound c e s hs
  | dadv c e => exact execDadv_sound c e s hs
  | get c => exact execGet_sound c s hs
  | put c => exact execPut_sound c s hs
  | setloc c => exact execSetloc_sound c s hs
  | alloc c => exact execAlloc_sound c s hs
  | free c => exact execFree_sound c s hs
  | share c => exact execShare_sound c s hs
  | give c => exact execGive_sound c s hs
  | qsend c => exact execQsend_sound c s hs
  | qrecv c => exact execQrecv_sound c s hs
  | qdrop c => exact execQdrop_sound c s hs
  | moveRequestTimeout c => exact execMoveRequestTimeout_sound c s hs
  | clr c => exact execClr_sound c s hs
  | sum c => exact execSum_sound c s hs
  | iadd c => exact execIadd_sound c s hs
  | max c => exact execMax_sound c s hs
  | min c => exact execMin_sound c s hs
  | argmax c => exact execArgmax_sound c s hs
  | argmin c => exact execArgmin_sound c s hs
  | and c => exact execAnd_sound c s hs
  | or c => exact execOr_sound c s hs
  | xor c => exact execXor_sound c s hs
  | out c => exact execOut_sound c s hs
  | spill c => exact execSpill_sound c s hs
  | fill c => exact execFill_sound c s hs
  | gather c => exact execGather_sound c s hs
  | scatter c => exact execScatter_sound c s hs
  | compact c => exact execCompact_sound c s hs
  | filter c => exact execFilter_sound c s hs
  | hist c => exact execHist_sound c s hs
  | count c => exact execCount_sound c s hs
  | sort c => exact execSort_sound c s hs
  | sortkv c => exact execSortkv_sound c s hs
  | topk c => exact execTopk_sound c s hs
  | merge c => exact execMerge_sound c s hs
  | quant c => exact execQuant_sound c s hs
  | dequant c => exact execDequant_sound c s hs
  | cvt c => exact execCvt_sound c s hs
  | div c => exact execDiv_sound c s hs
  | sqrt c => exact execSqrt_sound c s hs
  | exp c => exact execExp_sound c s hs
  | log c => exact execLog_sound c s hs
  | rsqrt c => exact execRsqrt_sound c s hs
  | zero c => exact execZero_sound c s hs
  | mma c => exact execMma_sound c s hs
  | rd c => exact execRd_sound c s hs
  | redInject c data => exact execRedInject_sound c data s hs
  | tenInject c data => exact execTenInject_sound c data s hs
  | inject c e data => exact execInject_sound c e data s hs
  | packetArrival p => exact execPacketArrival_sound p s hs
  | rxHoldDrop c => exact execRxHoldDrop_sound c s hs
  | remoteSignal p => exact execRemoteSignal_sound p s hs
  | sigack p => exact execSigack_sound p s hs
  | remoteSignalLost r token => exact execRemoteSignalLost_sound r token s hs
  | barrierCarry r obj => exact execBarrierCarry_sound r obj s hs
  | syncSave r data => exact execSyncSave_sound r data s hs
  | syncRestore r data => exact execSyncRestore_sound r data s hs
  | syncSaveFinish r => exact execSyncSaveFinish_sound r s hs
  | timeMessageSend port => exact execTimeMessageSend_sound port s hs
  | time port f => exact execTime_sound port f s hs
  | holdoverTimeout => exact execHoldoverTimeout_sound s hs
  | relock => exact execRelock_sound s hs
  | almSet count => exact execAlmSet_sound count s hs
  | arm => exact execArm_sound s hs
  | armValidationDone => exact execArmValidationDone_sound s hs
  | handshakeOpen => exact execHandshakeOpen_sound s hs
  | handshakeResult => exact execHandshakeResult_sound s hs
  | handshakeTimeout => exact execHandshakeTimeout_sound s hs
  | jobStart => exact execJobStart_sound s hs
  | jobAbort => exact execJobAbort_sound s hs
  | jobEnd => exact execJobEnd_sound s hs
  | calendarLaunch die => exact execCalendarLaunch_sound die s hs
  | calendarLateLaunch die => exact execCalendarLateLaunch_sound die s hs
  | calendarCheck die => exact execCalendarCheck_sound die s hs
  | dsPartWrite die data => exact execDsPartWrite_sound die data s hs
  | cacheWindowWrite die w ctl data => exact execCacheWindowWrite_sound die w ctl data s hs
  | cacheInvalidateDone die w => exact execCacheInvalidateDone_sound die w s hs
  | stackReadRequest addr len => exact execStackReadRequest_sound addr len s hs
  | stackWriteRequest addr data => exact execStackWriteRequest_sound addr data s hs
  | scrub stack => exact execScrub_sound stack s hs
  | stackRetrain stack byWrite => exact execStackRetrain_sound stack byWrite s hs
  | stackRetrainDone stack failing => exact execStackRetrainDone_sound stack failing s hs
  | onmodLinkRetrain l failing => exact execOnmodLinkRetrain_sound l failing s hs
  | allocWaitGrant r => exact execAllocWaitGrant_sound r s hs
  | allocWaitTimeout r => exact execAllocWaitTimeout_sound r s hs
  | reclaim sp owner => exact execReclaim_sound sp owner s hs
  | reclaimDone sp => exact execReclaimDone_sound sp s hs
  | frameSend port => exact execFrameSend_sound port s hs
  | dataFrame port f => exact execDataFrame_sound port f s hs
  | replayFrame port f => exact execReplayFrame_sound port f s hs
  | idleFrame port f => exact execIdleFrame_sound port f s hs
  | badFrame port undecoded replayed => exact execBadFrame_sound port undecoded replayed s hs
  | trainFrame port lane body => exact execTrainFrame_sound port lane body s hs
  | trainTimeout port => exact execTrainTimeout_sound port s hs
  | trainRetry port => exact execTrainRetry_sound port s hs
  | down port f => exact execDown_sound port f s hs
  | laneSignalLoss port lane => exact execLaneSignalLoss_sound port lane s hs
  | silentTimeout port => exact execSilentTimeout_sound port s hs
  | stallTimeout port => exact execStallTimeout_sound port s hs
  | portEnable port => exact execPortEnable_sound port s hs
  | portDisable port => exact execPortDisable_sound port s hs
  | portRetrain port => exact execPortRetrain_sound port s hs
  | packetAccept port => exact execPacketAccept_sound port s hs
  | packetRoute src => exact execPacketRoute_sound src s hs
  | escapeRoute src => exact execEscapeRoute_sound src s hs
  | portPacketStart port => exact execPortPacketStart_sound port s hs
  | memrd port p => exact execMemrd_sound port p s hs
  | memwr port p => exact execMemwr_sound port p s hs
  | ethFrame port frame => exact execEthFrame_sound port frame s hs
  | ethHoldDrop port => exact execEthHoldDrop_sound port s hs
  | flipArm => exact execFlipArm_sound s hs
  | equinoxFlip => exact execEquinoxFlip_sound s hs
  | drainEnd => exact execDrainEnd_sound s hs
  | epDataAccess write data => exact execEpDataAccess_sound write data s hs
  | congestionMap => exact execCongestionMap_sound s hs
  | damperRefill level d => exact execDamperRefill_sound level d s hs
  | damperConfigWrite addr width data => exact execDamperConfigWrite_sound addr width data s hs
  | admissionGrant owner => exact execAdmissionGrant_sound owner s hs
  | admissionTimeout owner => exact execAdmissionTimeout_sound owner s hs
  | load f => exact execLoad_sound f s hs
  | unload f => exact execUnload_sound f s hs
  | flueAbortCmd f => exact execFlueAbortCmd_sound f s hs
  | clear f => exact execClear_sound f s hs
  | flueLoadDone => exact execFlueLoadDone_sound s hs
  | flueLaunch f => exact execFlueLaunch_sound f s hs
  | quickLaunch f => exact execQuickLaunch_sound f s hs
  | flueBufferGrant f => exact execFlueBufferGrant_sound f s hs
  | flueBufferTimeout f => exact execFlueBufferTimeout_sound f s hs
  | grant p => exact execGrant_sound p s hs
  | grantRepeat f => exact execGrantRepeat_sound f s hs
  | resend p => exact execResend_sound p s hs
  | pieceResendTimeout f peer seg down => exact execPieceResendTimeout_sound f peer seg down s hs
  | abort p => exact execAbort_sound p s hs
  | flueTimeout f => exact execFlueTimeout_sound f s hs
  | flueUnlaunchedMismatch f => exact execFlueUnlaunchedMismatch_sound f s hs
  | flueChunk p => exact execFlueChunk_sound p s hs
  | countMessage p => exact execCountMessage_sound p s hs
  | hubTask f hub => exact execHubTask_sound f hub s hs
  | taskTakeback f hub upd => exact execTaskTakeback_sound f hub upd s hs
  | flueComplete f => exact execFlueComplete_sound f s hs
  | quickValue p => exact execQuickValue_sound p s hs
  | quickDown p => exact execQuickDown_sound p s hs
  | quickResend f => exact execQuickResend_sound f s hs
  | heartbeat site stuck => exact execHeartbeat_sound site stuck s hs
  | heartbeatTimeout site => exact execHeartbeatTimeout_sound site s hs
  | spareSubstitute die data => exact execSpareSubstitute_sound die data s hs
  | autoSubstitute c => exact execAutoSubstitute_sound c s hs
  | substitutionDone die => exact execSubstitutionDone_sound die s hs
  | healthUpdate => exact execHealthUpdate_sound s hs
  | mirrorPacket p => exact execMirrorPacket_sound p s hs
  | mirrorHoldTimeout => exact execMirrorHoldTimeout_sound s hs
  | mirrorStop port f => exact execMirrorStop_sound port f s hs
  | digest port f => exact execDigest_sound port f s hs
  | digestTimeout tick => exact execDigestTimeout_sound tick s hs
  | takeoverJudge => exact execTakeoverJudge_sound s hs
  | verdict port f => exact execVerdict_sound port f s hs
  | verdictTimeout => exact execVerdictTimeout_sound s hs
  | relayEnd => exact execRelayEnd_sound s hs
  | recMark id => exact execRecMark_sound id s hs
  | recGap => exact execRecGap_sound s hs
  | replayInject => exact execReplayInject_sound s hs
  | replayEnd => exact execReplayEnd_sound s hs
  | vigilFailover => exact execVigilFailover_sound s hs
  | idRead q => exact execIdRead_sound q s hs
  | statusRead q => exact execStatusRead_sound q s hs
  | almRead q => exact execAlmRead_sound q s hs
  | lifeRead q => exact execLifeRead_sound q s hs
  | fencePort q => exact execFencePort_sound q s hs
  | fenceModule q => exact execFenceModule_sound q s hs
  | releasePort q => exact execReleasePort_sound q s hs
  | releaseModule q => exact execReleaseModule_sound q s hs
  | domainReset q => exact execDomainReset_sound q s hs
  | domainRelease site => exact execDomainRelease_sound site s hs
  | powerDown q => exact execPowerDown_sound q s hs
  | powerOn q => exact execPowerOn_sound q s hs
  | damp q => exact execDamp_sound q s hs
  | bankModule q => exact execBankModule_sound q s hs
  | resetModule q => exact execResetModule_sound q s hs
  | regRead q => exact execRegRead_sound q s hs
  | regWrite q => exact execRegWrite_sound q s hs
  | memRead q => exact execMemRead_sound q s hs
  | memWrite q => exact execMemWrite_sound q s hs
  | attest q => exact execAttest_sound q s hs
  | certRead q => exact execCertRead_sound q s hs
  | cfgInstall q => exact execCfgInstall_sound q s hs
  | cfgRead q => exact execCfgRead_sound q s hs
  | imgStage q => exact execImgStage_sound q s hs
  | i3cResponseRead len => exact execI3cResponseRead_sound len s hs
  | fenceN level => exact execFenceN_sound level s hs
  | pwrOffN level => exact execPwrOffN_sound level s hs
  | powerApply => exact execPowerApply_sound s hs
  | kindlingDone r => exact execKindlingDone_sound r s hs
  | kindlingStageTimeout stage => exact execKindlingStageTimeout_sound stage s hs
  | supplySample volts amps => exact execSupplySample_sound volts amps s hs
  | coolantSample inlet outlet flow => exact execCoolantSample_sound inlet outlet flow s hs
  | thermalSample readings => exact execThermalSample_sound readings s hs
  | throttleUpdate => exact execThrottleUpdate_sound s hs
  | lifeCommit => exact execLifeCommit_sound s hs
  | lifeMirror => exact execLifeMirror_sound s hs
  | referenceTakeover => exact execReferenceTakeover_sound s hs
  | codewordLock port => exact execCodewordLock_sound port s hs
  | rateMeasurementEnd port => exact execRateMeasurementEnd_sound port s hs
  | ethAlignmentLock port => exact execEthAlignmentLock_sound port s hs
  | backupVigilLost => exact execBackupVigilLost_sound s hs
  | kindlingImageFailure type => exact execKindlingImageFailure_sound type s hs
  | supplyRecovery => exact execSupplyRecovery_sound s hs
  | i3cCcc c => exact execI3cCcc_sound c s hs

/-- Settles O3: an idle step and every command keep a sound state sound. -/
theorem stepKeepsSound : Obligations.StepKeepsSound := by
  unfold Obligations.StepKeepsSound
  intro s t hs hstep
  unfold step at hstep
  cases hp : s.pending with
  | nil =>
    rw [hp] at hstep
    cases hstep
    exact State.idle_sound s hs
  | cons i rest =>
    rw [hp] at hstep
    have hrest : State.Sound { s with pending := rest } := hs
    exact exec_sound i _ hrest t hstep

end Sys2Proof.Machine
end

section
/-! SUPPORT. The block as a whole: what one step does with and without a command, and the state that Kindling leaves. -/
namespace Sys2Proof.Machine

/-- A cycle in which no tick digest is outstanding counts the clock and the Almanac and does nothing else (R148). -/
theorem State.idle_of_no_digests {s : State} (hd : s.digs = []) (hp : s.peerDigs = []) :
    s.idle = { s with now := s.now + 1, alm := s.alm + 1 } := by
  have hat : s.at (s.now + 1) = { s with now := s.now + 1, alm := s.alm + 1 } := by
    unfold State.at
    rw [if_pos (Nat.lt_succ_self _), Nat.add_sub_cancel_left]
  unfold State.idle State.sweepDigs
  rw [hat]
  simp only [hd, hp, List.filter_nil, List.foldl_nil]

/-- Settles O1: `step` is `exec` of the front command, or an idle cycle. -/
theorem stepServesQueue : Obligations.StepServesQueue := by
  unfold Obligations.StepServesQueue
  refine ⟨fun s i => rfl, fun s hq => ?_⟩
  have hstep : step s = .next s.idle := by
    unfold step
    rw [hq]
  exact ⟨⟨_, hstep⟩, fun hd hp => by rw [hstep, State.idle_of_no_digests hd hp]⟩

/-- A memory that lists no byte reads as zeros. -/
theorem Mem.read_nil (a n : Nat) : Mem.read [] a n = List.replicate n 0 := by
  induction n generalizing a with
  | zero => rfl
  | succ n ih => simp only [Mem.read, ih, List.replicate_succ, Mem.get, AMap.get]

/-- Settles O2: nothing is listed in the reset state, so every read of it gives the default of what is read. -/
theorem machineAtReset : Obligations.MachineAtReset := by
  unfold Obligations.MachineAtReset
  refine ⟨⟨rfl, rfl, rfl, rfl, ⟨List.Pairwise.nil, ?_⟩, Nat.zero_le _⟩, by decide, fun a => rfl, ?_, ?_, ?_, ?_, ?_, rfl⟩
  · exact fun x hx => absurd hx List.not_mem_nil
  · exact fun c a n => Mem.read_nil _ n
  · exact fun a n => Mem.read_nil _ n
  · exact fun d a n => Mem.read_nil _ n
  · exact fun c b a n => Mem.read_nil _ n
  · exact fun c e => ⟨rfl, rfl⟩

end Sys2Proof.Machine
end

section
/-! SUPPORT. Engine commands in general: an engine command's verdict, and where execution goes (R51, R88 to R90). -/
namespace Sys2Proof.Machine

/-- Settles O4: an engine command is its engine's operation, which comes to its effect's verdict at the issue point. -/
theorem engineVerdict : Obligations.EngineVerdict := by
  unfold Obligations.EngineVerdict
  intro i s s1 c e sp h take hi hp
  rw [exec_engineOp hi, runOp_at hp]

/-! ## Where execution goes -/

theorem loopNext_nil (next : Nat) : loopNext [] next = (next, []) := rfl

theorem loopNext_inside {l : LoopFrame} {ls : List LoopFrame} {next : Nat} (h : next ≠ l.first + l.len) :
    loopNext (l :: ls) next = (next, l :: ls) := by
  rw [loopNext, if_neg h]

theorem loopNext_again {l : LoopFrame} {ls : List LoopFrame} {next : Nat} (h : next = l.first + l.len)
    (hr : 1 < l.remaining) : loopNext (l :: ls) next = (l.first, { l with remaining := l.remaining - 1 } :: ls) := by
  rw [loopNext, if_pos h, if_pos hr]

theorem loopNext_over {l : LoopFrame} {ls : List LoopFrame} {next : Nat} (h : next = l.first + l.len)
    (hr : l.remaining ≤ 1) : loopNext (l :: ls) next = loopNext ls next := by
  rw [loopNext, if_pos h, if_neg (by omega)]

/-- Settles O7: each flow goes to what `loopNext` gives for its next program counter. -/
theorem flowRules : Obligations.FlowRules := by
  unfold Obligations.FlowRules
  intro g pc t p l ls k
  refine ⟨fun h => ?_, fun h hn => ?_, fun h hn hr => ?_, fun h hn hr => ?_, fun h => ?_, fun h => ?_, fun hn => ?_, rfl, rfl⟩
  all_goals dsimp only [Engine.advance]
  · rw [h, loopNext_nil]
    exact ⟨rfl, rfl, rfl⟩
  · rw [h, loopNext_inside hn]
    exact ⟨rfl, rfl⟩
  · rw [h, loopNext_again hn hr]
    exact ⟨rfl, rfl⟩
  · rw [h, loopNext_over hn hr, loopNext_nil]
    exact ⟨rfl, rfl⟩
  · rw [h, loopNext_nil]
    exact ⟨rfl, rfl⟩
  · rw [h, loopNext_nil]
    exact ⟨rfl, rfl⟩
  · rw [loopNext_inside hn]
    exact ⟨rfl, rfl⟩

end Sys2Proof.Machine
end

section
/-! SUPPORT. The Tally instructions (R83 to R85) and the common operations (R87 to R92): each meets its issue point with the checks of its
row passed, and issues with its effect. -/
namespace Sys2Proof.Machine

/-! ## What an outcome's parts read once it has issued -/

section
variable {s : State} {c : CoreId} {e : Cls} {w : Nat} {h : Heads} {take : Option Sig} {o : Out}

theorem State.issued_hearth : (s.issued c e w h take o).hearth = o.st.hearth := rfl

/-- Issuing changes no counter: the engine is the only part of the core it sets. -/
theorem State.issued_ctr (k : CoreId) (j : Nat) : (s.issued c e w h take o).ctr k j = o.st.ctr k j := by
  unfold State.ctr State.issued State.setEng
  by_cases hk : coreKey k = coreKey c
  · rw [State.core_setCore, if_pos hk]
    unfold State.core
    rw [hk]
    rfl
  · rw [State.core_setCore_ne _ _ hk]

end

/-- A counter reads as set, every other counter of the core as before. -/
theorem State.ctr_setCtr (s : State) (c : CoreId) (i j : Nat) (v : BitVec 48) :
    (s.setCtr c i v).ctr c j = if j = i then v else s.ctr c j := by
  unfold State.ctr State.setCtr
  rw [State.core_setCore_self]
  exact AMap.get_set _ _ _ _ _

/-- An effect whose words all read without an uncorrectable error goes on with what the reads leave (R315). -/
theorem withReads_of_clean {s s2 : State} {c : CoreId} {rs : List (Nat × Nat)} (hr : readHearth s c rs = (none, s2)) (t : Nat)
    (dst : List (Nat × Nat)) (k : State → Res) : withReads c t rs dst s k = k s2 := by
  unfold withReads
  rw [hr]

theorem State.inLoop_of_nil {s : State} {x : Ctx} (h : (s.eng x.c x.e).loops = []) : s.inLoop x = false := by
  unfold State.inLoop
  rw [h]
  rfl

theorem leBytes_length (n x : Nat) : (leBytes n x).length = n := by
  induction n generalizing x with
  | zero => rfl
  | succ n ih => rw [leBytes, List.length_cons, ih]

/-! ## The effects of the Tally instructions -/

section
variable {x : Ctx} {s s2 : State}

theorem ldSpec_body (ha : fh x % 8 = 0) (hr : readHearth s x.c [(fh x, 8)] = (none, s2)) :
    ldSpec.body x s = .ok (Out.at (s2.setCtr x.c (fd x) (BitVec.ofNat 48 (s2.hnat x.c (fh x) 8))) x.t) :=
  (if_neg (not_not_intro ha)).trans (withReads_of_clean hr _ _ _)

theorem stSpec_body (ha : fh x % 8 = 0) :
    stSpec.body x s =
      .ok { Out.at (s.hwrite x.c (fh x) (stBytes (s.ctr x.c (fd x)))) x.t with dst := [(fh x, 8)] } :=
  if_neg (not_not_intro ha)

theorem stfSpec_body (ha : fh x % 8 = 0) (hn : bits x.w 32 27 + 1 ≤ 48) (hl : bits x.w 26 21 + (bits x.w 32 27 + 1) ≤ 64)
    (hr : readHearth s x.c [(fh x, 8)] = (none, s2)) :
    stfSpec.body x s = .ok { Out.at (s2.hwrite x.c (fh x)
      (leBytes 8 (setBits (s2.hnat x.c (fh x) 8) (bits x.w 26 21 + (bits x.w 32 27 + 1) - 1) (bits x.w 26 21)
        (s2.ctr x.c (fd x)).toNat))) x.t with dst := [(fh x, 8)] } := by
  refine (if_neg ?_).trans (withReads_of_clean hr _ _ _)
  simp only [Bool.or_eq_true, decide_eq_true_eq]
  omega

theorem skipkSpec_body (hs : skipRange (s.eng x.c x.e) x.pc (bits x.w 21 16) = false) :
    skipkSpec.body x s = .ok { Out.at s x.t with
      flow := if s.cmpBit x.c (fk x) = decide (I.mod x.w = 0) ∧ bits x.w 21 16 ≠ 0
        then .removed (x.pc + 1 + bits x.w 21 16) else .seq } := by
  have hcond : ((s.cmpBit x.c (fk x) = true) = (I.mod x.w = 0)) = (s.cmpBit x.c (fk x) = decide (I.mod x.w = 0)) := by
    cases s.cmpBit x.c (fk x) <;> simp
  refine (if_neg (ne_true_of_eq_false hs)).trans ?_
  simp only [Bool.and_eq_true, decide_eq_true_eq, hcond]

theorem djnzSpec_body (hl : (s.eng x.c x.e).loops = []) (hb : bits x.w 25 16 ≤ 767) :
    djnzSpec.body x s = .ok { Out.at (s.setCtr x.c (fd x) (s.ctr x.c (fd x) - 1)) x.t with
      flow := if s.ctr x.c (fd x) - 1 = 0 then .seq else .removed (bits x.w 25 16) } :=
  (if_neg (ne_true_of_eq_false (State.inLoop_of_nil hl))).trans (if_neg (Nat.not_lt.2 hb))

/-! ## The effects of the common operations -/

theorem haltSpec_body (hl : (s.eng x.c x.e).loops = []) :
    haltSpec.body x s = .ok { Out.at s x.t with flow := .stop .halt } :=
  if_neg (ne_true_of_eq_false (State.inLoop_of_nil hl))

theorem bankSpec_body (hl : (s.eng x.c x.e).loops = []) :
    bankSpec.body x s = .ok { Out.at s x.t with flow := .stop .bank } :=
  if_neg (ne_true_of_eq_false (State.inLoop_of_nil hl))

theorem jumpSpec_body (hl : (s.eng x.c x.e).loops = []) (hb : bits x.w 9 0 ≤ 767) :
    jumpSpec.body x s = .ok { Out.at s x.t with flow := .jump (bits x.w 9 0) } :=
  (if_neg (ne_true_of_eq_false (State.inLoop_of_nil hl))).trans (if_neg (Nat.not_lt.2 hb))

theorem loopSpec_body (h1 : 1 ≤ bits x.w 25 16) (h64 : bits x.w 25 16 ≤ 64) (hend : x.pc + bits x.w 25 16 ≤ 767)
    (hdepth : (s.eng x.c x.e).loops.length < 2)
    (hin : ∀ l ∈ (s.eng x.c x.e).loops.head?, x.pc + 1 + bits x.w 25 16 ≤ l.first + l.len) :
    loopSpec.body x s = .ok { Out.at s x.t with
      flow := if bits x.w 15 0 = 0 then .removed (x.pc + 1 + bits x.w 25 16)
        else .enter ⟨x.pc + 1, bits x.w 25 16, bits x.w 15 0⟩ } := by
  have hbody : (decide (bits x.w 25 16 = 0) || decide (64 < bits x.w 25 16)) = false := by
    simp only [Bool.or_eq_false_iff, decide_eq_false_iff_not]
    omega
  unfold loopSpec common
  dsimp only
  rw [hbody, decide_eq_false (Nat.not_lt.2 hend), decide_eq_false (Nat.not_le.2 hdepth)]
  cases hg : (s.eng x.c x.e).loops with
  | nil => rfl
  | cons l ls =>
    have hle := hin l (by rw [hg]; rfl)
    dsimp only
    rw [decide_eq_false (Nat.not_lt.2 hle)]
    rfl

theorem skipSpec_body {t : Target} (hs : skipRange (s.eng x.c x.e) x.pc (bits x.w 5 0) = false)
    (ht : translate s (regionOf x.c) (s.fld (Reg.HTH_CTX x.c) F.HTH_CTX_CONTEXT) (I.wid x.w) true (waitKind (I.wcond x.w)) =
      .ok t) :
    skipSpec.body x s = .ok { Out.at s x.t with
      flow := if waitHolds (I.wcond x.w) (I.wval x.w) (s.v0 (Reg.SYN_OBJ (regionOf x.c) t.obj)) = true ∧ bits x.w 5 0 ≠ 0
        then .removed (x.pc + 1 + bits x.w 5 0) else .seq } := by
  refine (if_neg (ne_true_of_eq_false hs)).trans ?_
  rw [ht]
  simp only [Bool.and_eq_true, decide_eq_true_eq]

/-- The field of a descriptor's first word that DADV rewrites: SCALE_BASE or BASE (R92). -/
def dadvField (w : Nat) : Nat × Nat := if bitAt w 8 then (63, 47) else (32, 16)

/-- What DADV makes of the field in a first word `w0`. -/
def dadvValue (w w0 : Nat) : Int := (bits w0 (dadvField w).1 (dadvField w).2 : Int) + toSigned 24 (bits w 55 32)

theorem dadvSpec_body {e : Cls} (hh : handleCheck s x.c true (bits x.w 7 0) = none)
    (h0 : 0 ≤ dadvValue x.w (s.hnat x.c (descAddr s x.c (bits x.w 7 0)) 8))
    (h1 : dadvValue x.w (s.hnat x.c (descAddr s x.c (bits x.w 7 0)) 8) ≤ 0x1FFFF) :
    (dadvSpec e).body x s = .ok (Out.at (s.hwrite x.c (descAddr s x.c (bits x.w 7 0))
      (leBytes 8 (setBits (s.hnat x.c (descAddr s x.c (bits x.w 7 0)) 8) (dadvField x.w).1 (dadvField x.w).2
        (dadvValue x.w (s.hnat x.c (descAddr s x.c (bits x.w 7 0)) 8)).toNat))) x.t) := by
  unfold dadvSpec common
  dsimp only
  rw [hh]
  refine if_neg ?_
  simp only [Bool.or_eq_true, decide_eq_true_eq, not_or]
  exact ⟨Int.not_lt.2 h0, Int.not_lt.2 h1⟩

end

/-- Settles O8: each instruction's effect at its issue point, by the checks of its row. -/
theorem tallyCommands : Obligations.TallyCommands := by
  unfold Obligations.TallyCommands
  refine ⟨?_, ?_, ?_⟩
  · intro s s1 c h take w imm d a b sets
    refine ⟨fun hp => exec_issues hp rfl rfl, fun hp => exec_issues hp rfl rfl, fun hp => exec_issues hp rfl rfl,
      fun hp => exec_issues hp rfl rfl, fun v j => ?_⟩
    rw [State.issued_ctr]
    exact State.ctr_setCtr s1 c d j v
  · intro s s1 s2 c h take w d a lo n stores ha
    refine ⟨fun hp hr => exec_issues hp rfl (ldSpec_body ha hr), fun hp => exec_issues hp rfl (stSpec_body ha),
      fun hp hn hl hr => exec_issues hp rfl (stfSpec_body ha hn hl hr), fun u bs k hbs hk => ?_⟩
    rw [State.issued_hearth]
    exact Mem.get_write_out (hbs ▸ hk)
  · intro s s1 c h take w k a v n pc goes
    exact ⟨fun hp => exec_issues hp rfl rfl, fun hp => exec_issues hp rfl rfl,
      fun hp hs => exec_issues hp rfl (skipkSpec_body hs), fun hp hl hb => exec_issues hp rfl (djnzSpec_body hl hb)⟩

/-- Settles O9: each common operation's effect at its issue point, by the checks of R89, R91 and R92. -/
theorem commonOperations : Obligations.CommonOperations := by
  unfold Obligations.CommonOperations
  intro s s1 c e h take w g goes n len
  exact ⟨fun hp => exec_issues hp rfl rfl, fun hp hl => exec_issues hp rfl (haltSpec_body hl),
    fun hp hl => exec_issues hp rfl (bankSpec_body hl), fun hp hl hb => exec_issues hp rfl (jumpSpec_body hl hb),
    fun hp h1 h64 hend h2 hin => exec_issues hp rfl (loopSpec_body h1 h64 hend h2 hin),
    fun t hp hs ht => exec_issues hp rfl (skipSpec_body hs ht),
    fun hp hh h0 h1 => exec_issues hp rfl (dadvSpec_body hh h0 h1)⟩

end Sys2Proof.Machine
end

section
/-! SUPPORT. The Reduce engine's operations at their issue point, where the checks of their operands pass (R211 to R235). -/
namespace Sys2Proof.Machine

section
variable {x : Ctx} {s s2 : State}

/-! ## CLR, OUT, SPILL and FILL -/

theorem clrSpec_body (hh : handlesCheck s x.c (handleNeeds x.w .unused .unused .unused .unused) = none)
    (hk : I.imm x.w % 8 = 0 ∧ sumFmt (I.imm x.w / 8) = true ∨
      (I.imm x.w % 8 = 2 ∨ I.imm x.w % 8 = 3) ∧ I.imm x.w / 8 ≤ 0x0D ∨
      (I.imm x.w % 8 = 1 ∨ I.imm x.w % 8 = 4 ∨ I.imm x.w % 8 = 5 ∨ I.imm x.w % 8 = 6) ∧ intFmt (I.imm x.w / 8) = true) :
    clrSpec.body x s = .ok (Out.at (s.setLanes x.c (Lanes.fresh (I.imm x.w % 8) (I.imm x.w / 8))) x.t) := by
  unfold clrSpec reduce
  dsimp only
  rw [hh]
  refine if_pos ?_
  obtain ⟨h0, hf⟩ | ⟨h2, hf⟩ | ⟨h1, hf⟩ := hk
  · rw [if_pos h0]
    exact hf
  · rcases h2 with h | h <;> simp [h, hf]
  · rcases h1 with h | h | h | h <;> simp [h, hf]

/-- The elements OUT writes: all lanes joined into one, or the first `n` lanes (R224). -/
def outElems (l : Lanes) (w n fmt : Nat) : List Rounded :=
  (if I.imm w = 1 then [l.fold] else l.lanes.take n).map fun e => e.emit l.kind l.fmt fmt (I.mod w % 4) (bitAt (I.mod w) 2)

theorem outSpec_body {d : Desc} {l : Lanes} (hd : readDesc s x.c (I.d x.w) = d) (hl : s.lanes x.c = l)
    (hh : handlesCheck s x.c (handleNeeds x.w .required .unused .unused .unused) = none)
    (hr : redChecks [(some d, true, false, false)] = none) (h7 : l.kind < 7) (hm : l.kind = 0 ∨ I.mod x.w = 0)
    (hf : (if l.kind = 0 then sumFmt d.fmt else if l.kind = 1 then intFmt d.fmt else d.fmt = l.fmt) = true)
    (hrank : d.rank = 1) (hfold : I.imm x.w = 1 → d.d0 = 1) (hlen : d.d0 ≤ l.lanes.length) (hne : d.empty = false) :
    outSpec.body x s = .ok
      { Out.at (storeRounded s x.c d [outElems l x.w d.d0 d.fmt])
          (x.t + 10 + ceilDiv d.rowBytes 64 + (if I.imm x.w = 1 then 6 else 0)) with
        sat := countSat (outElems l x.w d.d0 d.fmt), flush := countFlush (outElems l x.w d.d0 d.fmt), dst := d.redRanges,
        stages := (if I.imm x.w = 1 ∧ l.kind ≤ 1 then 1 else 0) + (if l.kind = 0 then 4 else 0) } := by
  unfold outSpec reduce
  dsimp only
  rw [hh, hd, hl, hr]
  dsimp only
  rw [hf, hne, if_neg, if_neg (Nat.not_lt.2 hlen), if_neg Bool.false_ne_true]
  · simp only [Bool.and_eq_true, decide_eq_true_eq]
    rfl
  · simp only [Bool.or_eq_true, Bool.and_eq_true, decide_eq_true_eq, Bool.not_true, Bool.false_eq_true]
    rintro ((((h | ⟨hk, hn⟩) | h) | h) | ⟨h1, hn⟩)
    · omega
    · exact hm.elim hk hn
    · exact h
    · exact h hrank
    · exact hn (hfold h1)

theorem imageOp_of_checked {d : Desc} {dest : Bool} {k : LaneClass} (cont : LaneClass → Res)
    (hr : redChecks [(some d, dest, true, true)] = none) (hk : (s.lanes x.c).kind ≤ 1) (hf : d.fmt = (s.lanes x.c).fmt)
    (hrank : d.rank = 1) (hlen : d.d0 ≤ (s.lanes x.c).lanes.length) (hne : d.empty = false)
    (hc : laneClass (s.lanes x.c).fmt = some k) : imageOp x s d dest cont = cont k := by
  unfold imageOp
  dsimp only
  rw [hr]
  dsimp only
  rw [hc, hne, if_neg, if_neg (Nat.not_lt.2 hlen), if_neg Bool.false_ne_true]
  simp only [Bool.or_eq_true, decide_eq_true_eq]
  omega

theorem spillSpec_body {d : Desc} {l : Lanes} {k : LaneClass} (hd : readDesc s x.c (I.d x.w) = d) (hl : s.lanes x.c = l)
    (hh : handlesCheck s x.c (handleNeeds x.w .required .unused .unused .unused) = none)
    (hr : redChecks [(some d, true, true, true)] = none) (hk : l.kind ≤ 1) (hf : d.fmt = l.fmt) (hrank : d.rank = 1)
    (hlen : d.d0 ≤ l.lanes.length) (hne : d.empty = false) (hc : laneClass l.fmt = some k) :
    spillSpec.body x s = .ok
      { Out.at (writeRowsAs s x.c d d.elemBits [(l.lanes.take d.d0).map fun e => e.acc.image k l.fmt])
          (x.t + ceilDiv d.redRow 64) with dst := d.redRanges } := by
  subst hd hl
  unfold spillSpec reduce
  dsimp only
  rw [hh]
  exact imageOp_of_checked _ hr hk hf hrank hlen hne hc

theorem fillSpec_body {a : Desc} {l : Lanes} {k : LaneClass} (ha : readDesc s x.c (I.a x.w) = a) (hl : s.lanes x.c = l)
    (hh : handlesCheck s x.c (handleNeeds x.w .unused .required .unused .unused) = none)
    (hr : redChecks [(some a, false, true, true)] = none) (hk : l.kind ≤ 1) (hf : a.fmt = l.fmt) (hrank : a.rank = 1)
    (hlen : a.d0 ≤ l.lanes.length) (hne : a.empty = false) (hc : laneClass l.fmt = some k)
    (hread : readHearth s x.c a.redRanges = (none, s2)) :
    fillSpec.body x s = .ok
      (Out.at (s2.setLanes x.c { l with lanes := l.lanes.zipIdx.map fun y =>
          if y.2 < a.d0 then { y.1 with acc := Accum.ofImage k (((rowsAs s2 x.c a a.elemBits).getD 0 []).getD y.2 0) }
          else y.1 })
        (x.t + ceilDiv a.redRow 64)) := by
  subst ha hl
  unfold fillSpec reduce
  dsimp only
  rw [hh]
  exact (imageOp_of_checked _ hr hk hf hrank hlen hne hc).trans (withReads_of_clean hread _ _ _)

end

/-- Settles O13: the four operations' effects at their issue point. -/
theorem reduceLanes : Obligations.ReduceLanes := by
  unfold Obligations.ReduceLanes
  intro s s1 s2 c h take k w m kind fmt d a l fold outs images goes
  exact ⟨fun hp hh hk => exec_issues hp rfl (clrSpec_body hh hk),
    fun hp hh hr h7 hm hf hrank hfold hlen hne =>
      exec_issues hp rfl (outSpec_body rfl rfl hh hr h7 hm hf hrank hfold hlen hne),
    fun hp hh hr hk hf hrank hlen hne hc => exec_issues hp rfl (spillSpec_body rfl rfl hh hr hk hf hrank hlen hne hc),
    fun hp hh hr hk hf hrank hlen hne hc hread =>
      exec_issues hp rfl (fillSpec_body rfl rfl hh hr hk hf hrank hlen hne hc hread)⟩

end Sys2Proof.Machine
end

section
/-! SUPPORT. The sums and comparisons of the Reduce engine, held and streamed (R212 to R222, R226 to R233). -/
namespace Sys2Proof.Machine

section
variable {x : Ctx} {s s2 : State}

theorem operand_of_ne {c : CoreId} {h : Nat} (hh : h ≠ 0xFF) : operand s c h = some (readDesc s c h) := if_neg hh

theorem operand_of_eq {c : CoreId} {h : Nat} (hh : h = 0xFF) : operand s c h = none := if_pos hh

/-- An optional operand of which every value has a property fails no test for its absence. -/
theorem any_bne_of_forall {o : Option Desc} {n : Nat} (h : ∀ b ∈ o, b.fmt = n) : (o.any fun b => b.fmt != n) = false := by
  cases o with
  | none => rfl
  | some b =>
    rw [Option.any_some, h b rfl, bne_self_eq_false]

theorem heldOp_of_ok {kind stages : Nat} {a : Desc} (hk : (s.lanes x.c).kind = kind) (hf : (s.lanes x.c).fmt = a.fmt)
    (hlen : a.d0 ≤ (s.lanes x.c).lanes.length) (hread : readHearth s x.c a.redRanges = (none, s2)) :
    heldOp x s kind a stages = .ok
      { Out.at (s2.setLanes x.c (heldLanes (s.lanes x.c) a (rowsAs s2 x.c a a.elemBits))) (x.t + heldCycles a + 10) with
        stages := if a.empty then 0 else stages } := by
  unfold heldOp
  dsimp only
  rw [if_neg (by simp [hk, hf]), if_neg (Nat.not_lt.2 hlen)]
  exact withReads_of_clean hread _ _ _

/-! ## SUM and IADD -/

/-- The element formats that a sum of a KIND takes: floating-point for SUM, integer for IADD (R226, R227). -/
def sumFmtOf (kind fmt : Nat) : Bool := if kind = 0 then sumFmt fmt else intFmt fmt

theorem sumFmtOf_eq (kind fmt : Nat) : (if kind = 0 then sumFmt else intFmt) fmt = sumFmtOf kind fmt := by
  unfold sumFmtOf
  split <;> rfl

theorem sumOp_held {kind : Nat} {a : Desc} (ha : readDesc s x.c (I.a x.w) = a)
    (hh : handlesCheck s x.c (handleNeeds x.w .optional .required .optional .unused) = none)
    (hr : redChecks [(operand s x.c (I.d x.w), true, true, false), (some a, false, true, false),
      (operand s x.c (I.b x.w), false, true, true)] = none)
    (hf : sumFmtOf kind a.fmt = true) (hd : I.d x.w = 0xFF) (hb : operand s x.c (I.b x.w) = none) :
    sumOp kind x s = heldOp x s kind a (if kind = 0 then 3 else 1) := by
  have hfmt : (if kind = 0 then sumFmt else intFmt) a.fmt = true := by
    rw [← hf]
    exact sumFmtOf_eq kind a.fmt
  unfold sumOp
  dsimp only
  rw [hh, ha]
  dsimp only
  rw [hr, operand_of_eq hd, hb]
  dsimp only
  rw [hfmt]
  rfl

/-- The lanes that a streamed sum gathers: the rows of A, and the images of B where there is one (R220). -/
def sumLanes (s : State) (c : CoreId) (kind : Nat) (a : Desc) (b : Option Desc) : List (List Lane) :=
  streamLanes kind a (rowsAs s c a a.elemBits) (b.map fun b => rowsAs s c b b.elemBits)

/-- The adder stages a streamed sum has steps in: none where there is nothing to add (R237). -/
def sumStages (kind : Nat) (a : Desc) (b : Option Desc) : Nat :=
  if a.d1 = 0 && b.isNone then 0 else if kind = 0 then 3 else 1

/-- Where its checks pass, a streamed sum gathers its lanes, clears the held ones, and writes images or rounded elements. -/
theorem sumOp_streamed {kind : Nat} {d a : Desc} {b : Option Desc} (hd : readDesc s x.c (I.d x.w) = d)
    (ha : readDesc s x.c (I.a x.w) = a) (hb : operand s x.c (I.b x.w) = b)
    (hh : handlesCheck s x.c (handleNeeds x.w .optional .required .optional .unused) = none)
    (hr : redChecks [(operand s x.c (I.d x.w), true, true, false), (some a, false, true, false), (b, false, true, true)] = none)
    (hf : sumFmtOf kind a.fmt = true) (hbf : ∀ b' ∈ b, b'.fmt = a.fmt) (hn : I.d x.w ≠ 0xFF)
    (hdf : (if d.long then d.fmt != a.fmt else !sumFmtOf kind d.fmt) = false)
    (hsh : streamShapes d a b false = true) (hne : d.empty = false)
    (hread : readHearth s x.c (a.redRanges ++ (b.map Desc.redRanges).getD []) = (none, s2)) :
    let s3 := s2.setLanes x.c (s2.lanes x.c).cleared
    let lanes := sumLanes s2 x.c kind a b
    let t := x.t + streamCycles d a b (laneCount kind a.fmt) + 10
    let out := lanes.map fun r => r.map fun l => l.emit kind a.fmt d.fmt (I.mod x.w % 4) (bitAt (I.mod x.w) 2)
    (d.long = false → sumOp kind x s = .ok
      { Out.at (storeRounded s3 x.c d out) t with
        sat := sumNat (out.map countSat), flush := sumNat (out.map countFlush),
        stages := if kind = 0 then sumStages kind a b + 4 else sumStages kind a b, dst := d.redRanges }) ∧
    (∀ k, d.long = true → laneClass a.fmt = some k → sumOp kind x s = .ok
      { Out.at (writeRowsAs s3 x.c d d.elemBits (lanes.map fun r => r.map fun l => l.acc.image k a.fmt)) t with
        stages := sumStages kind a b, dst := d.redRanges }) := by
  have hfmt : ∀ n, (if kind = 0 then sumFmt else intFmt) n = sumFmtOf kind n := sumFmtOf_eq kind
  have hdest : ((some d).any fun d => if d.long then d.fmt != a.fmt else !sumFmtOf kind d.fmt) = false := hdf
  intro s3 lanes t out
  refine ⟨fun hl => ?_, fun k hl hc => ?_⟩
  all_goals
    unfold sumOp
    dsimp only
    rw [hh, ha, hb]
    dsimp only
    rw [hr, operand_of_ne hn, hd]
    dsimp only
    simp only [hfmt]
    rw [hf, hdest, any_bne_of_forall hbf, hsh]
    refine (withReads_of_clean hread _ _ _).trans ?_
    rw [hne, hl]
  · rfl
  · rw [hc]
    rfl

/-- A destination of rounded elements has one of the sum's formats (R218). -/
theorem sumDest_rounded {kind : Nat} {d a : Desc} (hl : d.long = false) (h : sumFmtOf kind d.fmt = true) :
    (if d.long then d.fmt != a.fmt else !sumFmtOf kind d.fmt) = false := by
  rw [hl, h]
  rfl

/-- A destination of images has the format of A (R219). -/
theorem sumDest_long {kind : Nat} {d a : Desc} (hl : d.long = true) (h : d.fmt = a.fmt) :
    (if d.long then d.fmt != a.fmt else !sumFmtOf kind d.fmt) = false := by
  rw [hl, h]
  exact bne_self_eq_false _

theorem sumStages_eq (kind : Nat) (a : Desc) (b : Option Desc) :
    sumStages kind a b = if a.d1 = 0 ∧ b = none then 0 else if kind = 0 then 3 else 1 := by
  unfold sumStages
  simp only [Bool.and_eq_true, decide_eq_true_eq, Option.isNone_iff_eq_none]

/-! ## MAX, MIN, AND, OR and XOR -/

section
variable {kind : Nat} {a d : Desc} (ha : readDesc s x.c (I.a x.w) = a)
  (hh : handlesCheck s x.c (handleNeeds x.w .optional .required .unused .unused) = none)
  (hr : redChecks [(operand s x.c (I.d x.w), true, false, false), (some a, false, false, false)] = none)
  (hf : 4 ≤ kind → intFmt a.fmt = true)
include ha hh hr hf

omit ha hh hr in
theorem bitwiseFmt_ok : (decide (4 ≤ kind) && !intFmt a.fmt) = false := by
  by_cases h : 4 ≤ kind
  · rw [hf h, Bool.not_true, Bool.and_false]
  · rw [decide_eq_false h, Bool.false_and]

theorem compareOp_held (hd : I.d x.w = 0xFF) : compareOp kind x s = heldOp x s kind a 0 := by
  unfold compareOp
  dsimp only
  rw [hh, ha]
  dsimp only
  rw [hr, operand_of_eq hd]
  dsimp only
  rw [bitwiseFmt_ok hf]
  rfl

theorem compareOp_streamed (hd : readDesc s x.c (I.d x.w) = d) (hn : I.d x.w ≠ 0xFF) (hdf : d.fmt = a.fmt)
    (hsh : streamShapes d a none false = true) (hne : d.empty = false)
    (hread : readHearth s x.c a.redRanges = (none, s2)) :
    compareOp kind x s = .ok
      { Out.at (storeRounded (s2.setLanes x.c (s2.lanes x.c).cleared) x.c d
            ((streamLanes kind a (rowsAs s2 x.c a a.elemBits) none).map fun r =>
              r.map fun l => l.emit kind a.fmt d.fmt 0 false))
          (x.t + streamCycles d a none 64 + 10) with dst := d.redRanges } := by
  have hdest : ((some d).any fun d => d.fmt != a.fmt) = false := any_bne_of_forall fun b hb => by cases hb; exact hdf
  unfold compareOp
  dsimp only
  rw [hh, ha]
  dsimp only
  rw [hr, operand_of_ne hn, hd]
  dsimp only
  rw [bitwiseFmt_ok hf, hdest, hsh]
  refine (withReads_of_clean hread _ _ _).trans ?_
  rw [hne]
  rfl

end

/-! ## ARGMAX and ARGMIN -/

/-- The winner of every output with its position, if it has a term (R230). -/
def argWins (isMax : Bool) (a : Desc) (src : List (List Nat)) : List (List (Option (Nat × Nat))) :=
  (List.range (a.d2 * a.d3)).map fun o => (List.range a.d0).map fun i =>
    argWin isMax a.fmt (((src.drop (a.d1 * o)).take a.d1).map fun r => r.getD i 0) 0 none

/-- The position that ARGMAX writes of an output: IMM plus the winner's, or all ones (R231). -/
def argIndex (w : Nat) : Option (Nat × Nat) → Nat
  | some (_, i) => (I.imm w + i) % 2 ^ 32
  | none => 0xFFFFFFFF

/-- The positions of the winners stored in D, and their codes in B where there is one (R231). -/
def State.storeArgs (s : State) (c : CoreId) (isMax : Bool) (w : Nat) (d a : Desc) (b : Option Desc)
    (wins : List (List (Option (Nat × Nat)))) : State :=
  let s := writeRowsAs s c d 32 (wins.map fun r => r.map (argIndex w))
  match b with
  | some b => writeRowsAs s c b (fmtBits b.fmt) (wins.map fun r => r.map fun y => winnerCode isMax a.fmt (y.map Prod.fst))
  | none => s

theorem argOp_ok {isMax : Bool} {d a : Desc} {b : Option Desc} (hd : readDesc s x.c (I.d x.w) = d)
    (ha : readDesc s x.c (I.a x.w) = a) (hb : operand s x.c (I.b x.w) = b)
    (hh : handlesCheck s x.c (handleNeeds x.w .required .required .optional .unused) = none)
    (hr : redChecks [(some d, true, false, false), (some a, false, false, false), (b, true, false, false)] = none)
    (hdf : d.fmt = 0x04) (hbf : ∀ b' ∈ b, b'.fmt = a.fmt) (hsh : streamShapes d a b true = true) (hne : d.empty = false)
    (hread : readHearth s x.c a.redRanges = (none, s2)) :
    argOp isMax x s = .ok
      { Out.at ((s2.setLanes x.c (s2.lanes x.c).cleared).storeArgs x.c isMax x.w d a b
          (argWins isMax a (rowsAs s2 x.c a a.elemBits))) (x.t + streamCycles d a b 64 + 10) with
        dst := d.redRanges ++ (b.map Desc.redRanges).getD [] } := by
  unfold argOp
  dsimp only
  rw [hh, hd, ha, hb]
  dsimp only
  rw [hr]
  dsimp only
  rw [hsh, any_bne_of_forall hbf, if_neg (by simp [hdf])]
  refine (withReads_of_clean hread _ _ _).trans ?_
  rw [hne]
  cases b with
  | none => rfl
  | some b => rfl

end

/-- Settles O16: SUM and IADD are one operation of two KINDs; the held form adds its rows, the streamed form writes its sums. -/
theorem reduceSums : Obligations.ReduceSums := by
  unfold Obligations.ReduceSums
  intro s s1 s2 c h take int k w m cmd kind okFmt d a b l reads lanes s3 t adds outs goes hp hh hr hf hbf
  have hi : engineOp cmd = some (c, .reduce, if int then iaddSpec else sumSpec) := by cases int <;> rfl
  have hbody : (if int then iaddSpec else sumSpec).body = sumOp kind := by cases int <;> rfl
  have hfmt : okFmt = sumFmtOf kind := by cases int <;> rfl
  have hadds : sumStages kind a b = adds := by
    rw [sumStages_eq]
    cases int <;> rfl
  have hstages : (if kind = 0 then adds + 4 else adds) = if int then adds else adds + 4 := by cases int <;> rfl
  let x : Ctx := ⟨c, .reduce, w, (s1.eng c .reduce).pc, s1.now⟩
  rw [hfmt] at hf
  refine ⟨fun hd hb hk hlf hlen hread => ?_, fun hn hsh hne hread => ⟨fun hl hdf => ?_, fun hl hdf hc => ?_⟩⟩
  · have hout := (sumOp_held (x := x) rfl hh hr hf hd hb).trans (heldOp_of_ok hk hlf hlen hread)
    refine exec_issues hp hi ?_
    rw [hbody]
    refine hout.trans ?_
    cases int <;> rfl
  · rw [hfmt] at hdf
    have hout := (sumOp_streamed (x := x) rfl rfl rfl hh hr hf hbf hn (sumDest_rounded hl hdf) hsh hne hread).1 hl
    rw [hadds, hstages] at hout
    refine exec_issues hp hi ?_
    rw [hbody]
    exact hout
  · have hout := (sumOp_streamed (x := x) rfl rfl rfl hh hr hf hbf hn (sumDest_long hl hdf) hsh hne hread).2 k hl hc
    rw [hadds] at hout
    refine exec_issues hp hi ?_
    rw [hbody]
    exact hout

/-- Settles O17: each comparison's and each argument search's effect at its issue point. -/
theorem reduceCompareCommands : Obligations.ReduceCompareCommands := by
  unfold Obligations.ReduceCompareCommands
  refine ⟨?_, ?_⟩
  · intro s s1 s2 c h take cmd spec kind w d a l lanes goes hmem hp hh hr hf hread
    have hop : engineOp cmd = some (c, .reduce, spec) ∧ spec.body = compareOp kind := by
      simp only [List.mem_cons, List.not_mem_nil, or_false, Prod.mk.injEq] at hmem
      rcases hmem with ⟨rfl, rfl, rfl⟩ | ⟨rfl, rfl, rfl⟩ | ⟨rfl, rfl, rfl⟩ | ⟨rfl, rfl, rfl⟩ | ⟨rfl, rfl, rfl⟩ <;>
        exact ⟨rfl, rfl⟩
    obtain ⟨hi, hbody⟩ := hop
    let x : Ctx := ⟨c, .reduce, w, (s1.eng c .reduce).pc, s1.now⟩
    refine ⟨fun hd hk hlf hlen => ?_, fun hn hdf hsh hne => ?_⟩
    · have hout := (compareOp_held (x := x) rfl hh hr hf hd).trans (heldOp_of_ok hk hlf hlen hread)
      rw [ite_self] at hout
      refine exec_issues hp hi ?_
      rw [hbody]
      exact hout
    · refine exec_issues hp hi ?_
      rw [hbody]
      exact compareOp_streamed (x := x) rfl hh hr hf rfl hn hdf hsh hne hread
  · intro s s1 s2 c h take isMax w cmd d a b dst src wins s3 s4 hp hh hr hdf hbf hsh hne hread
    have hi : engineOp cmd = some (c, .reduce, if isMax then argmaxSpec else argminSpec) := by cases isMax <;> rfl
    have hbody : (if isMax then argmaxSpec else argminSpec).body = argOp isMax := by cases isMax <;> rfl
    let x : Ctx := ⟨c, .reduce, w, (s1.eng c .reduce).pc, s1.now⟩
    have hout := argOp_ok (x := x) (isMax := isMax) rfl rfl rfl hh hr hdf hbf hsh hne hread
    have hs4 : (s2.setLanes c (s2.lanes c).cleared).storeArgs c isMax w d a b wins = s4 := by
      clear_value b
      cases b <;> rfl
    refine exec_issues hp hi ?_
    rw [hbody, ← hs4]
    exact hout

end Sys2Proof.Machine
end

section
/-! SUPPORT. The Scale engine's operations at their issue point, where the checks of their operands pass (R293 to R297). -/
namespace Sys2Proof.Machine

/-- The results of a Scale operation, element by element: of QUANT under the destination's own scales, of the others from A, and
B where it has one (R198, R294 to R296). -/
def scaleOuts (s : State) (c : CoreId) (op w : Nat) (d a : Desc) (b : Option Desc) : List (List Rounded) :=
  let va := allVals s c a
  let vb := match b with
    | some b => allVals s c b
    | none => va
  if op = 0x00 then quantRows d (quantScales d va) va (I.mod w % 4)
  else va.zipWith (fun ra rb => ra.zipWith (fun p q => scaleElem op d.fmt p q (I.mod w % 4) (bitAt (I.mod w) 2)) rb) vb

/-- An optional operand of which every value agrees with A fails no test for its absence. -/
theorem any_unlike_of_forall {o : Option Desc} {a : Desc} (h : ∀ b ∈ o, sameDims b a = true ∧ b.fmt = a.fmt) :
    (o.any fun b => !sameDims b a || b.fmt != a.fmt) = false := by
  cases o with
  | none => rfl
  | some b =>
    obtain ⟨hd, hf⟩ := h b rfl
    rw [Option.any_some, hd, hf, bne_self_eq_false]
    rfl

theorem scaleOp_ok {x : Ctx} {s s2 : State} {op : Nat} {d a : Desc} {b : Option Desc} (hd : readDesc s x.c (I.d x.w) = d)
    (ha : readDesc s x.c (I.a x.w) = a) (hb : operand s x.c (I.b x.w) = b)
    (hh : handlesCheck s x.c (handleNeeds x.w .required .required (if op = 0x03 then .required else .unused) .unused) = none)
    (hp : plainChecks [(some d, true), (some a, false), (b, false)] = none) (hf : scaleFmtOk op a d = true)
    (hda : sameDims d a = true) (hba : ∀ y ∈ b, sameDims y a = true ∧ y.fmt = a.fmt)
    (hdst : destOk d true (a :: b.toList) [] = true) (hne : a.empty = false)
    (hread : readHearth s x.c (a.spans ++ (b.map Desc.spans).getD []) = (none, s2)) :
    let outs := scaleOuts s2 x.c op x.w d a b
    let s3 := if op = 0x00 then writeScales s2 x.c d (quantScales d (allVals s2 x.c a)) else s2
    scaleOp op x s = .ok
      { Out.at (writeCodes s3 x.c d (outs.map fun r => r.map Rounded.code)) (x.t + scaleCycles op d a b) with
        sat := sumNat (outs.map countSat), flush := sumNat (outs.map countFlush), dst := d.spans,
        stages := if op ≤ 0x02 then 1 else if op ≤ 0x04 then 2 else 4 } := by
  intro outs s3
  unfold scaleOp
  dsimp only
  rw [hh, hd, ha, hb]
  dsimp only
  rw [hp]
  dsimp only
  rw [hf, hda, any_unlike_of_forall hba, hdst, if_neg (by simp), if_neg (by simp [hne])]
  refine (withReads_of_clean hread _ _ _).trans ?_
  by_cases h0 : op = 0x00
  · rw [if_pos h0]
    simp only [outs, s3, scaleOuts, if_pos h0]
  · rw [if_neg h0]
    cases b <;> simp only [outs, s3, scaleOuts, if_neg h0]

/-- Settles O21: the eight operations are one effect, `scaleOp`, of their OP. -/
theorem scaleOperations : Obligations.ScaleOperations := by
  unfold Obligations.ScaleOperations
  intro s s1 s2 c h take cmd op w m d a b va vb scales outs s3 hmem hp hh hpl hf hda hba hdst hne hread
  have hi : engineOp cmd = some (c, .scale, scaleSpec op) := by
    simp only [List.mem_cons, List.not_mem_nil, or_false, Prod.mk.injEq] at hmem
    rcases hmem with ⟨rfl, rfl⟩ | ⟨rfl, rfl⟩ | ⟨rfl, rfl⟩ | ⟨rfl, rfl⟩ | ⟨rfl, rfl⟩ | ⟨rfl, rfl⟩ | ⟨rfl, rfl⟩ | ⟨rfl, rfl⟩ <;> rfl
  let x : Ctx := ⟨c, .scale, w, (s1.eng c .scale).pc, s1.now⟩
  have hout := scaleOp_ok (x := x) rfl rfl rfl hh hpl hf hda hba hdst hne hread
  have houts : scaleOuts s2 c op w d a b = outs := by
    clear_value b
    cases b <;> rfl
  have hbody : (scaleSpec op).body = scaleOp op := rfl
  refine exec_issues hp hi ?_
  rw [hbody, ← houts]
  exact hout

end Sys2Proof.Machine
end

section
/-! SUPPORT. The Shape engine's operations at their issue point, where the checks of their operands pass (R272 to R281). -/
namespace Sys2Proof.Machine

/-- An engine command whose operation's effect is the function `body` answers what `body` makes of the issue point. -/
theorem exec_issues_of_body {i : Instr} {c : CoreId} {e : Cls} {sp : OpSpec} {s s1 : State} {h : Heads} {take : Option Sig}
    {o : Out} {body : Ctx → State → Res} (hp : s.issuePoint c e sp = some (s1, h, take))
    (hi : engineOp i = some (c, e, sp)) (hbody : sp.body = body)
    (ho : body ⟨c, e, s.headWord c e, (s1.eng c e).pc, s1.now⟩ s1 = .ok o) :
    exec i s = .next (s1.issued c e (s.headWord c e) h take o) := by
  subst hbody
  exact exec_issues hp hi ho

/-- The effective indices that an index operand names, one for each of its elements (R273). -/
def shapeIndices (s : State) (c : CoreId) (b : Desc) (base extent : Nat) : List (Option Nat) :=
  ((allCodes s c b).getD 0 []).map (effIndex b.fmt base extent)

/-- Where every index selects a row, or those that do not are skipped, no index refuses the instruction (R274). -/
theorem indices_accepted {skip : Prop} [Decidable skip] {es : List (Option Nat)} (h : skip ∨ ∀ e ∈ es, e ≠ none) :
    (!decide skip && es.any Option.isNone) = false := by
  rcases h with h | h
  · rw [decide_eq_true h]
    rfl
  · have hany : es.any Option.isNone = false := by
      rw [List.any_eq_false]
      intro e he hn
      exact h e he (Option.isNone_iff_eq_none.1 hn)
    rw [hany, Bool.and_false]

/-- One index of GATHER or SCATTER with its position: the row that it moves (R275, R276). -/
def moveRow (gather : Bool) (c : CoreId) (d : Desc) (src : List (List Byte × List Byte)) (u : State)
    (x : Option Nat × Nat) : State :=
  match gather, x.1 with
  | true, some e => putRow u c d x.2 (src.getD e ([], []))
  | true, none => putRow u c d x.2 (zeroRow d)
  | false, some e => putRow u c d e (src.getD x.2 ([], []))
  | false, none => u

section
variable {x : Ctx} {s s2 : State} {d a b : Desc}

theorem moveRows_ok {gather : Bool} {es : List (Option Nat)} (hd : readDesc s x.c (I.d x.w) = d)
    (ha : readDesc s x.c (I.a x.w) = a) (hb : readDesc s x.c (I.b x.w) = b)
    (hes : shapeIndices s2 x.c b (I.imm x.w) (if gather then a else d).d1 = es)
    (hh : handlesCheck s x.c (handleNeeds x.w .required .required .required .unused) = none)
    (hp : plainChecks [(some d, true), (some a, false), (some b, false)] = none) (hdr : d.rank = 2) (har : a.rank = 2)
    (hal : rowsAlike d a = true) (hbf : indexFmt b.fmt = true) (hbr : b.rank = 1) (hbb : b.blk = 0)
    (hext : (if gather then d else a).d1 = b.d0) (hdst : destOk d false [a, b] [] = true)
    (hread : readHearth s x.c (a.spans ++ b.spans) = (none, s2)) (hskip : I.mod x.w = 1 ∨ ∀ e ∈ es, e ≠ none)
    (hne : b.empty = false) :
    let rows := if gather then d else a
    let moved := es.zipIdx.foldl (moveRow gather x.c d ((List.range a.rows).map (rowOf s2 x.c a))) s2
    moveRows gather x s = .ok
      { Out.at (moved.noteSkips x.c (es.countP Option.isNone))
          (x.t + (sumNat ((List.range rows.rows).map (rowCycles rows)) +
            (if I.mod x.w = 1 then 0 else ceilDiv b.rowBytes 64)) + 10) with dst := d.spans, stages := 1 } := by
  intro rows moved
  unfold moveRows
  dsimp only
  rw [hh, hd, ha, hb]
  dsimp only
  rw [hp]
  dsimp only
  rw [if_neg (by simp [hdr, har, hal, hbf, hbr, hbb, hext, hdst])]
  refine (withReads_of_clean hread _ _ _).trans ?_
  unfold shapeIndices at hes
  simp only [hes]
  rw [indices_accepted hskip, hne]
  rfl

theorem compactOp_ok {n : Desc} (hd : readDesc s x.c (I.d x.w) = d) (ha : readDesc s x.c (I.a x.w) = a)
    (hb : readDesc s x.c (I.b x.w) = b) (hn : readDesc s x.c (I.c x.w) = n)
    (hh : handlesCheck s x.c (handleNeeds x.w .required .required .required .required) = none)
    (hp : plainChecks [(some d, true), (some a, false), (some b, false), (some n, true)] = none) (hdr : d.rank = 2)
    (har : a.rank = 2) (hal : rowsAlike d a = true) (hbf : b.fmt = 0x06) (hbr : b.rank = 1) (hbb : b.blk = 0)
    (hext : b.d0 = a.d1) (hnf : n.fmt = 0x04) (hnr : n.rank = 1) (hn0 : n.d0 = 1) (hnb : n.blk = 0)
    (hdst : destOk d true [a, b] [n] = true) (hndst : destOk n true [a, b] [d] = true) (hne : a.empty = false)
    (hread : readHearth s x.c (a.spans ++ b.spans) = (none, s2)) :
    let picked := ((((allCodes s2 x.c b).getD 0 []).zipIdx.filter fun y => y.1 ≠ 0).map Prod.snd).map (rowOf s2 x.c a)
    compactOp x s = .ok
      { Out.at (writeCodes (((picked.take d.d1).zipIdx.foldl (fun u y => putRow u x.c d y.2 y.1) s2).noteLost x.c
            (picked.length - d.d1)) x.c n [[picked.length]])
          (x.t + Nat.max 1 (ceilDiv a.rowBytes 64) * a.rows + 10) with dst := d.spans ++ n.spans, stages := 3 } := by
  unfold compactOp
  dsimp only
  rw [hh, hd, ha, hb, hn]
  dsimp only
  rw [hp]
  dsimp only
  rw [if_neg (by simp [hdr, har, hal, hbf, hbr, hbb, hext, hnf, hnr, hn0, hnb, hdst, hndst])]
  refine (withReads_of_clean hread _ _ _).trans ?_
  rw [hne]
  rfl

section
variable (hd : readDesc s x.c (I.d x.w) = d) (ha : readDesc s x.c (I.a x.w) = a) (hb : readDesc s x.c (I.b x.w) = b)
  (hh : handlesCheck s x.c (handleNeeds x.w .required .required .required .unused) = none)
  (hp : plainChecks [(some d, true), (some a, false), (some b, false)] = none) (hcond : I.mod x.w % 8 ≤ 5)
  (hdb : d.blk = 0) (hcmp : comparandOk a b = true) (hdst : destOk d true [a, b] [] = true) (hne : a.empty = false)
include hd ha hb hh hp hcond hdb hcmp hdst hne

theorem filterOp_ok (hdf : d.fmt = 0x06) (hdim : sameDims d a = true)
    (hread : readHearth s x.c (a.spans ++ b.spans) = (none, s2)) :
    filterOp x s = .ok
      { Out.at (writeCodes s2 x.c d ((shapeTests s2 x.c a b (I.mod x.w % 8)).map fun row => row.map fun p => if p then 1 else 0))
          (x.t + ceilDiv (a.rowBytes * a.rows) 64 + 6) with dst := d.spans, stages := 2 } := by
  unfold filterOp
  dsimp only
  rw [hh, hd, ha, hb]
  dsimp only
  rw [hp]
  dsimp only
  rw [if_neg (by simp [hdf, hdb, hdim, hcmp, hdst, hcond]), if_neg (by simp [hne])]
  exact withReads_of_clean hread _ _ _

/-- What COUNT finds in D before it counts (R278). -/
def countOld (s : State) (c : CoreId) (w : Nat) (d : Desc) : Int :=
  if bitAt (I.mod w) 3 then toSigned 64 (s.hnat c d.base 8) else 0

theorem countOp_ok (hdf : d.fmt = 0x05) (hd1 : d.count = 1)
    (hread : readHearth s x.c (a.spans ++ b.spans ++ (if bitAt (I.mod x.w) 3 then d.spans else [])) = (none, s2)) :
    let sum : Int := countOld s2 x.c x.w d +
      (sumNat ((shapeTests s2 x.c a b (I.mod x.w % 8)).map fun row => row.countP id) : Nat)
    countOp x s = .ok
      { Out.at (writeCodes s2 x.c d [[ofSigned 64 (min (2 ^ 63 - 1) sum)]])
          (x.t + ceilDiv (a.rowBytes * a.rows) 64 + 6) with
        sat := if 2 ^ 63 - 1 < sum then 1 else 0, dst := d.spans, stages := 2 } := by
  unfold countOp
  dsimp only
  rw [hh, hd, ha, hb]
  dsimp only
  rw [hp]
  dsimp only
  rw [if_neg (by simp [hdf, hdb, hd1, hcmp, hdst, hcond])]
  refine (withReads_of_clean hread _ _ _).trans ?_
  rw [hne]
  rfl

end

/-- What HIST finds in the bins before it counts (R279). -/
def histOld (s : State) (c : CoreId) (w : Nat) (d : Desc) : List Nat :=
  if bitAt (I.mod w) 1 then (allCodes s c d).getD 0 [] else List.replicate d.d0 0

theorem histOp_ok {es : List (Option Nat)} (hd : readDesc s x.c (I.d x.w) = d) (ha : readDesc s x.c (I.a x.w) = a)
    (hes : shapeIndices s2 x.c a (I.imm x.w) d.d0 = es)
    (hh : handlesCheck s x.c (handleNeeds x.w .required .required .unused .unused) = none)
    (hp : plainChecks [(some d, true), (some a, false)] = none) (hdf : d.fmt = 0x04) (hdr : d.rank = 1)
    (haf : indexFmt a.fmt = true) (har : a.rank = 1) (hab : a.blk = 0) (hdst : destOk d false [a] [] = true)
    (hread : readHearth s x.c (a.spans ++ (if bitAt (I.mod x.w) 1 then d.spans else [])) = (none, s2))
    (hskip : bitAt (I.mod x.w) 0 = true ∨ ∀ e ∈ es, e ≠ none) (hne : a.empty = false) (hde : d.empty = false) :
    let bins := (histOld s2 x.c x.w d).zipIdx.map fun y => binAdd (toSigned 32 y.1) (es.countP fun e => e = some y.2)
    histOp x s = .ok
      { Out.at ((writeCodes s2 x.c d [bins.map fun p => ofSigned 32 p.1]).noteSkips x.c (es.countP Option.isNone))
          (x.t + ceilDiv a.d0 16 + 12) with sat := bins.countP Prod.snd, dst := d.spans, stages := 1 } := by
  have hacc := indices_accepted hskip
  rw [Bool.decide_eq_true] at hacc
  unfold histOp
  dsimp only
  rw [hh, hd, ha]
  dsimp only
  rw [hp]
  dsimp only
  rw [if_neg (by simp [hdf, hdr, haf, har, hab, hdst])]
  refine (withReads_of_clean hread _ _ _).trans ?_
  unfold shapeIndices at hes
  simp only [hes]
  rw [hacc, hne, hde]
  rfl

end

/-- Settles O18: each operation's effect at its issue point. -/
theorem shapeCommands : Obligations.ShapeCommands := by
  unfold Obligations.ShapeCommands
  refine ⟨?_, ?_⟩
  · intro s s1 s2 c h take gather w cmd d a b table rows es src moved hp hh hpl hdr har hal hbf hbr hbb hext hdst hread hskip hne
    have hi : engineOp cmd =
        some (c, .shape, shapeSpec (if gather then 0x00 else 0x01) (fun _ => false) (fun m => m < 2) (moveRows gather)) := by
      cases gather <;> rfl
    let x : Ctx := ⟨c, .shape, w, (s1.eng c .shape).pc, s1.now⟩
    have hout := moveRows_ok (x := x) (gather := gather) (es := es) rfl rfl rfl rfl hh hpl hdr har hal hbf hbr hbb hext hdst
      hread hskip hne
    exact exec_issues_of_body (body := moveRows gather) hp hi rfl hout
  · intro s s1 s2 c h take w md d a b n goes three tests stream
    let x : Ctx := ⟨c, .shape, w, (s1.eng c .shape).pc, s1.now⟩
    refine ⟨?_, ?_, ?_, ?_⟩
    · intro hp hh hpl hdr har hal hbf hbr hbb hext hnf hnr hn0 hnb hdst hndst hne hread
      have hout := compactOp_ok (x := x) rfl rfl rfl rfl hh hpl hdr har hal hbf hbr hbb hext hnf hnr hn0 hnb hdst
         hndst hne hread
      exact exec_issues_of_body (body := compactOp) hp rfl rfl hout
    · rintro hp ⟨hh, hpl, hcond, hdb, hcmp, hdst⟩ hdf hdim hne hread
      have hout := filterOp_ok (x := x) rfl rfl rfl hh hpl hcond hdb hcmp hdst hne hdf hdim hread
      exact exec_issues_of_body (body := filterOp) hp rfl rfl hout
    · rintro hp ⟨hh, hpl, hcond, hdb, hcmp, hdst⟩ hdf hd1 hne hread
      have hout := countOp_ok (x := x) rfl rfl rfl hh hpl hcond hdb hcmp hdst hne hdf hd1 hread
      exact exec_issues_of_body (body := countOp) hp rfl rfl hout
    · intro hp hh hpl hdf hdr haf har hab hdst hread es old bins hskip hne hde
      have hout := histOp_ok (x := x) rfl rfl rfl hh hpl hdf hdr haf har hab hdst hread hskip hne hde
      exact exec_issues_of_body (body := histOp) hp rfl rfl hout

end Sys2Proof.Machine
end

section
/-! SUPPORT. The Sort engine's run order (R284, R285): merging keeps the entries, the order and the source order of equal keys, and so does
the sort that merges runs in pairs until one is left. -/
namespace Sys2Proof.Machine

/-- Key order of two entries: rising, or falling with DESC (R284). -/
def runLe (desc : Bool) (x y : Entry) : Prop := if desc then y.key ≤ x.key else x.key ≤ y.key

theorem runLe_trans {desc : Bool} {x y z : Entry} (h1 : runLe desc x y) (h2 : runLe desc y z) : runLe desc x z := by
  unfold runLe at *
  cases desc
  · exact Nat.le_trans h1 h2
  · exact Nat.le_trans h2 h1

theorem runLe_of_not {desc : Bool} {x y : Entry} (h : ¬ runLe desc x y) : runLe desc y x := by
  unfold runLe at *
  cases desc
  · exact Nat.le_of_not_le h
  · exact Nat.le_of_not_le h

theorem runLe_congr {desc : Bool} {x y z : Entry} (h : y.key = z.key) : runLe desc x y ↔ runLe desc x z := by
  unfold runLe
  rw [h]

/-- A run: its entries are all present, and their keys are in order. -/
def IsRun (desc : Bool) (xs : List Entry) : Prop := (∀ e ∈ xs, e.real = true) ∧ xs.Pairwise (runLe desc)

theorem IsRun.tail {desc : Bool} {x : Entry} {xs : List Entry} (h : IsRun desc (x :: xs)) : IsRun desc xs :=
  ⟨fun e he => h.1 e (List.mem_cons_of_mem _ he), (List.pairwise_cons.1 h.2).2⟩

/-- The strict order `lt` is the key order on entries that are present. -/
def OrdersRuns (desc : Bool) (lt : Entry → Entry → Bool) : Prop :=
  ∀ x y : Entry, x.real = true → y.real = true → (lt y x = true ↔ ¬ runLe desc x y)

/-! ## Two runs merged -/

section
variable {desc : Bool} {lt : Entry → Entry → Bool}

theorem mergeRuns_perm (n : Nat) (xs ys : List Entry) : (mergeRuns lt n xs ys).Perm (xs ++ ys) := by
  fun_induction mergeRuns lt n xs ys with
  | case1 xs ys => exact List.Perm.refl _
  | case2 ys => exact List.Perm.refl _
  | case3 xs => rw [List.append_nil]
  | case4 n x xs y ys hlt ih => exact (ih.cons y).trans List.perm_middle.symm
  | case5 n x xs y ys hlt ih => exact ih.cons x

theorem mem_mergeRuns {n : Nat} {xs ys : List Entry} {e : Entry} : e ∈ mergeRuns lt n xs ys ↔ e ∈ xs ∨ e ∈ ys :=
  (mergeRuns_perm n xs ys).mem_iff.trans List.mem_append

theorem mergeRuns_isRun (hlt : OrdersRuns desc lt) {n : Nat} {xs ys : List Entry} (hn : xs.length + ys.length ≤ n)
    (hx : IsRun desc xs) (hy : IsRun desc ys) : IsRun desc (mergeRuns lt n xs ys) := by
  fun_induction mergeRuns lt n xs ys with
  | case1 xs ys =>
    have hnil : xs = [] := List.eq_nil_of_length_eq_zero (by omega)
    rw [hnil]
    exact hy
  | case2 ys => exact hy
  | case3 xs => exact hx
  | case4 n x xs y ys h ih =>
    have hyx : runLe desc y x :=
      runLe_of_not ((hlt x y (hx.1 x List.mem_cons_self) (hy.1 y List.mem_cons_self)).1 h)
    have hrest := ih (by simp only [List.length_cons] at *; omega) hx hy.tail
    refine ⟨?_, List.pairwise_cons.2 ⟨fun e he => ?_, hrest.2⟩⟩
    · exact List.forall_mem_cons.2 ⟨hy.1 y List.mem_cons_self, hrest.1⟩
    · rcases mem_mergeRuns.1 he with h' | h'
      · rcases List.mem_cons.1 h' with rfl | h'
        · exact hyx
        · exact runLe_trans hyx ((List.pairwise_cons.1 hx.2).1 e h')
      · exact (List.pairwise_cons.1 hy.2).1 e h'
  | case5 n x xs y ys h ih =>
    have hxy : runLe desc x y := by
      refine Classical.byContradiction fun hnot => ?_
      exact h ((hlt x y (hx.1 x List.mem_cons_self) (hy.1 y List.mem_cons_self)).2 hnot)
    have hrest := ih (by simp only [List.length_cons] at *; omega) hx.tail hy
    refine ⟨?_, List.pairwise_cons.2 ⟨fun e he => ?_, hrest.2⟩⟩
    · exact List.forall_mem_cons.2 ⟨hx.1 x List.mem_cons_self, hrest.1⟩
    · rcases mem_mergeRuns.1 he with h' | h'
      · exact (List.pairwise_cons.1 hx.2).1 e h'
      · rcases List.mem_cons.1 h' with rfl | h'
        · exact hxy
        · exact runLe_trans hxy ((List.pairwise_cons.1 hy.2).1 e h')

/-- Where an entry comes ahead of a run's first, no entry of the run has its key. -/
theorem filter_key_eq_nil {x y : Entry} {xs : List Entry} (hx : IsRun desc (x :: xs)) (hxy : ¬ runLe desc x y) :
    (x :: xs).filter (fun e => decide (e.key = y.key)) = [] := by
  rw [List.filter_eq_nil_iff]
  intro e he
  rw [decide_eq_true_eq]
  intro hkey
  refine hxy ((runLe_congr hkey).1 ?_)
  rcases List.mem_cons.1 he with rfl | he
  · exact (Bool.eq_false_or_eq_true desc).elim (fun h => by simp [runLe, h]) (fun h => by simp [runLe, h])
  · exact (List.pairwise_cons.1 hx.2).1 e he

/-- Merging keeps the source order of equal keys, those of the first run ahead of those of the second (R285, R290). -/
theorem filter_mergeRuns (hlt : OrdersRuns desc lt) (k n : Nat) {xs ys : List Entry} (hx : IsRun desc xs) (hy : IsRun desc ys) :
    (mergeRuns lt n xs ys).filter (fun e => decide (e.key = k)) =
      xs.filter (fun e => decide (e.key = k)) ++ ys.filter (fun e => decide (e.key = k)) := by
  fun_induction mergeRuns lt n xs ys with
  | case1 xs ys => exact List.filter_append _ _
  | case2 ys => rfl
  | case3 xs => rw [List.filter_nil, List.append_nil]
  | case4 n x xs y ys h ih =>
    have hxy : ¬ runLe desc x y := (hlt x y (hx.1 x List.mem_cons_self) (hy.1 y List.mem_cons_self)).1 h
    rw [List.filter_cons, ih hx hy.tail]
    by_cases hk : y.key = k
    · subst hk
      rw [filter_key_eq_nil hx hxy, if_pos (decide_eq_true rfl), List.filter_cons, if_pos (decide_eq_true rfl)]
      rfl
    · rw [if_neg (by simpa using hk), List.filter_cons (x := y), if_neg (by simpa using hk)]
  | case5 n x xs y ys h ih =>
    rw [List.filter_cons, ih hx.tail hy, List.filter_cons (x := x)]
    split <;> rfl

/-! ## Runs merged in pairs -/

theorem mergePairs_length (runs : List (List Entry)) : (mergePairs lt runs).length = (runs.length + 1) / 2 := by
  fun_induction mergePairs lt runs with
  | case1 x y rest ih =>
    simp only [List.length_cons, ih]
    omega
  | case2 runs h =>
    match runs, h with
    | [], _ => rfl
    | [x], _ => simp
    | x :: y :: rest, h => exact absurd rfl (h x y rest)

theorem mergePairs_perm (runs : List (List Entry)) : (mergePairs lt runs).flatten.Perm runs.flatten := by
  fun_induction mergePairs lt runs with
  | case1 x y rest ih =>
    rw [List.flatten_cons, List.flatten_cons, List.flatten_cons, ← List.append_assoc]
    exact (mergeRuns_perm _ x y).append ih
  | case2 runs h => exact List.Perm.refl _

theorem mergePairs_isRun (hlt : OrdersRuns desc lt) {runs : List (List Entry)} (h : ∀ r ∈ runs, IsRun desc r) :
    ∀ r ∈ mergePairs lt runs, IsRun desc r := by
  fun_induction mergePairs lt runs with
  | case1 x y rest ih =>
    obtain ⟨hx, hy, hrest⟩ := by simpa only [List.forall_mem_cons] using h
    exact List.forall_mem_cons.2 ⟨mergeRuns_isRun hlt (Nat.le_refl _) hx hy, ih hrest⟩
  | case2 runs hr => exact h

theorem filter_mergePairs (hlt : OrdersRuns desc lt) (k : Nat) {runs : List (List Entry)} (h : ∀ r ∈ runs, IsRun desc r) :
    (mergePairs lt runs).flatten.filter (fun e => decide (e.key = k)) = runs.flatten.filter (fun e => decide (e.key = k)) := by
  fun_induction mergePairs lt runs with
  | case1 x y rest ih =>
    obtain ⟨hx, hy, hrest⟩ := by simpa only [List.forall_mem_cons] using h
    simp only [List.flatten_cons, List.filter_append, filter_mergeRuns hlt k _ hx hy, ih hrest, List.append_assoc]
  | case2 runs hr => rfl

/-! ## The sort -/

theorem mergeAll_perm (n : Nat) (runs : List (List Entry)) : (mergeAll lt n runs).Perm runs.flatten := by
  fun_induction mergeAll lt n runs with
  | case1 runs => exact List.Perm.refl _
  | case2 => exact List.Perm.refl _
  | case3 n r => rw [List.flatten_singleton]
  | case4 n runs h0 h1 ih => exact ih.trans (mergePairs_perm runs)

/-- With fuel to halve the runs down to one, the sort leaves one run. -/
theorem mergeAll_isRun (hlt : OrdersRuns desc lt) {n : Nat} {runs : List (List Entry)} (hn : runs.length ≤ 2 ^ n)
    (h : ∀ r ∈ runs, IsRun desc r) : IsRun desc (mergeAll lt n runs) := by
  fun_induction mergeAll lt n runs with
  | case1 runs =>
    match runs, hn with
    | [], _ => exact ⟨fun e he => absurd he List.not_mem_nil, List.Pairwise.nil⟩
    | [r], _ =>
      rw [List.flatten_singleton]
      exact h r List.mem_cons_self
    | _ :: _ :: _, hn => simp at hn
  | case2 => exact ⟨fun e he => absurd he List.not_mem_nil, List.Pairwise.nil⟩
  | case3 n r => exact h r List.mem_cons_self
  | case4 n runs h0 h1 ih =>
    refine ih ?_ (mergePairs_isRun hlt h)
    rw [mergePairs_length]
    rw [Nat.pow_succ] at hn
    omega

theorem filter_mergeAll (hlt : OrdersRuns desc lt) (k n : Nat) {runs : List (List Entry)} (h : ∀ r ∈ runs, IsRun desc r) :
    (mergeAll lt n runs).filter (fun e => decide (e.key = k)) = runs.flatten.filter (fun e => decide (e.key = k)) := by
  fun_induction mergeAll lt n runs with
  | case1 runs => rfl
  | case2 => rfl
  | case3 n r => rw [List.flatten_singleton]
  | case4 n runs h0 h1 ih => rw [ih (mergePairs_isRun hlt h), filter_mergePairs hlt k h]

theorem flatten_singletons (xs : List Entry) : (xs.map fun x => [x]).flatten = xs := by
  rw [← List.flatMap_def, List.flatMap_singleton']

theorem singletons_areRuns {xs : List Entry} (h : ∀ e ∈ xs, e.real = true) : ∀ r ∈ xs.map (fun x => [x]), IsRun desc r := by
  intro r hr
  obtain ⟨e, he, rfl⟩ := List.mem_map.1 hr
  refine ⟨fun y hy => ?_, List.pairwise_singleton _ _⟩
  rw [List.mem_singleton.1 hy]
  exact h e he

theorem sortEntries_perm (xs : List Entry) : (sortEntries lt xs).Perm xs := by
  have h := mergeAll_perm (lt := lt) (xs.length.log2 + 2) (xs.map fun x => [x])
  rwa [flatten_singletons] at h

theorem sortEntries_isRun (hlt : OrdersRuns desc lt) {xs : List Entry} (h : ∀ e ∈ xs, e.real = true) :
    IsRun desc (sortEntries lt xs) := by
  refine mergeAll_isRun hlt ?_ (singletons_areRuns h)
  rw [List.length_map]
  exact Nat.le_trans (Nat.le_of_lt Nat.lt_log2_self) (Nat.pow_le_pow_right (by omega) (by omega))

theorem filter_sortEntries (hlt : OrdersRuns desc lt) (k : Nat) {xs : List Entry} (h : ∀ e ∈ xs, e.real = true) :
    (sortEntries lt xs).filter (fun e => decide (e.key = k)) = xs.filter (fun e => decide (e.key = k)) := by
  have hf := filter_mergeAll hlt k (xs.length.log2 + 2) (singletons_areRuns (desc := desc) h)
  rwa [flatten_singletons] at hf

end

/-- The run order of unsigned keys is the order of their codes (R284). -/
theorem ahead_ordersRuns (fmt : Nat) (desc : Bool) : OrdersRuns desc (Entry.ahead fmt true desc) := by
  intro x y hx hy
  unfold Entry.ahead ahead rankBelow runLe
  rw [hx, hy]
  cases desc <;> simp

end Sys2Proof.Machine
end

section
/-! SUPPORT. SORT, SORTKV, TOPK and MERGE at their issue point, where the checks of their operands pass (R283 to R291). -/
namespace Sys2Proof.Machine

/-- The first code of a list of checks is none where every check passes. -/
theorem firstCode_eq_none {checks : List (Bool × Nat)} (h : ∀ p ∈ checks, p.1 = false) : firstCode checks = none := by
  induction checks with
  | nil => rfl
  | cons p rest ih =>
    obtain ⟨bad, code⟩ := p
    obtain ⟨hbad, hrest⟩ := List.forall_mem_cons.1 h
    dsimp only at hbad
    rw [firstCode, hbad]
    exact ih hrest

/-- An operand that is absent, or that has a property, fails no test for the property's absence. -/
theorem any_not_of_forall {o : Option Desc} {p : Desc → Bool} (h : ∀ d ∈ o, p d = true) : (o.any fun d => !p d) = false := by
  cases o with
  | none => rfl
  | some d => rw [Option.any_some, h d rfl, Bool.not_true]

theorem any_fmt_ne_of_forall {o : Option Desc} {n : Nat} (h : ∀ d ∈ o, d.fmt = n) :
    (o.any fun d => decide (d.fmt ≠ n)) = false := by
  cases o with
  | none => rfl
  | some d => rw [Option.any_some, h d rfl, decide_eq_false (fun hn => hn rfl)]

/-- Unsigned order asks an integer key format (R284). -/
theorem unsigned_fits {uns ok : Bool} (h : uns = true → ok = true) : (uns && !ok) = false := by
  cases uns
  · rfl
  · rw [h rfl]
    rfl

/-- Codes stored at an operand, where it is present. -/
def storeCodes (s : State) (c : CoreId) (o : Option Desc) (rows : List (List Nat)) : State :=
  match o with
  | some d => writeCodes s c d rows
  | none => s

/-- The rows of keys in run order, with the values of B or the positions of their elements (R285, R286). -/
def sortRows (s : State) (c : CoreId) (w : Nat) (a : Desc) (b v : Option Desc) : List (List Entry) :=
  (allCodes s c a).zipIdx.map fun x => sortEntries (Entry.ahead a.fmt (bitAt (I.mod w) 3) (bitAt (I.mod w) 0))
    (match b.map fun b => allCodes s c b with
      | some y => withVals x.1 (y.getD x.2 [])
      | none => withPos v 0 x.1)

/-- Bytes of an element of an operand, where it is present. -/
def operandElemBytes (o : Option Desc) : Nat :=
  match o with
  | some d => elemBytes d.fmt
  | none => 0

section
variable {x : Ctx} {s s2 : State} {d b v : Option Desc} {a : Desc} {kv : Bool}

theorem sortOp_ok (hd : operand s x.c (I.d x.w) = d) (ha : readDesc s x.c (I.a x.w) = a) (hb : operand s x.c (I.b x.w) = b)
    (hv : operand s x.c (I.c x.w) = v)
    (hh : handlesCheck s x.c (handleNeeds x.w (if kv then .optional else .required) .required
      (if kv then .optional else .unused) (if kv then .required else .unused)) = none)
    (hp : sortChecks [(d, true, false), (some a, false, false), (b, false, false), (v, true, kv && b.isNone)] = none)
    (hab : a.blk = 0) (hoth : ∀ o ∈ d.toList ++ b.toList ++ v.toList, o.blk = 0 ∧ sameDims o a = true)
    (hkf : keyFmt a.fmt = true) (hdf : ∀ y ∈ d, y.fmt = a.fmt) (hbf : ∀ y ∈ b, valueFmt y.fmt = true)
    (hvf : ∀ y ∈ v, (if kv && b.isNone then posFmt y.fmt else valueFmt y.fmt) = true)
    (huns : bitAt (I.mod x.w) 3 = true → intKey a.fmt = true)
    (hpos : (kv && b.isNone) = false → b.map Desc.fmt = v.map Desc.fmt) (har : a.rank ≤ 2) (had : a.d0 ≤ 1024)
    (hdd : ∀ y ∈ d, destOk y true (a :: b.toList) v.toList = true)
    (hvd : ∀ y ∈ v, destOk y true (a :: b.toList) d.toList = true) (hne : a.empty = false)
    (hread : readHearth s x.c (a.spans ++ (b.map Desc.spans).getD []) = (none, s2)) :
    let rows := sortRows s2 x.c x.w a b v
    let kb := elemBytes a.fmt
    let perRow := ceilDiv (a.d0 * kb) 64 + Nat.max 1 (clog2 a.d0 - 4) * ceilDiv a.d0 32 +
      ceilDiv (a.d0 * ((if d.isSome then kb else 0) + operandElemBytes v)) 64
    sortOp kv x s = .ok
      { Out.at (storeCodes (storeCodes s2 x.c d (rows.map fun r => r.map Entry.key)) x.c v (rows.map fun r => r.map Entry.val))
          (x.t + perRow * a.rows + 12) with
        sat := sumNat (rows.map satEntries), dst := (d.map Desc.spans).getD [] ++ (v.map Desc.spans).getD [],
        stages := 2 ^ 32 - 1 } := by
  have hblk : ((d.toList ++ b.toList ++ v.toList).any fun o => decide (o.blk ≠ 0)) = false := by
    rw [List.any_eq_false]
    intro o ho
    simp [(hoth o ho).1]
  have hdim : ((d.toList ++ b.toList ++ v.toList).any fun o => !sameDims o a) = false := by
    rw [List.any_eq_false]
    intro o ho
    simp [(hoth o ho).2]
  have hcodes : (!(kv && b.isNone) && (b.map Desc.fmt != v.map Desc.fmt)) = false := by
    cases hq : kv && b.isNone
    · rw [hpos hq, bne_self_eq_false, Bool.and_false]
    · rfl
  have hvany : (v.any fun c => if kv && b.isNone then !posFmt c.fmt else !valueFmt c.fmt) = false := by
    cases hq : kv && b.isNone <;> rw [hq] at hvf <;> exact any_not_of_forall hvf
  intro rows kb perRow
  unfold sortOp
  dsimp only
  rw [hh, hd, ha, hb, hv]
  dsimp only
  rw [hp]
  dsimp only
  rw [firstCode_eq_none (by
    simp only [List.forall_mem_cons]
    refine ⟨?_, ?_, unsigned_fits huns, hcodes, ?_, ?_, hdim, ?_, fun p hp => absurd hp List.not_mem_nil⟩
    · rw [hblk]
      simp [hab]
    · rw [hkf, any_fmt_ne_of_forall hdf, any_not_of_forall hbf, hvany]
      rfl
    · simp [lowRank, har]
    · simp [had]
    · rw [any_not_of_forall hdd, any_not_of_forall hvd]
      rfl)]
  dsimp only
  rw [if_neg (by simp [hne])]
  refine (withReads_of_clean hread _ _ _).trans ?_
  cases d <;> cases b <;> cases v <;> rfl

end

/-- The entries that TOPK starts a row with: those that D and C hold, under ACC (R288). -/
def topHeld (s : State) (c : CoreId) (w : Nat) (d v : Desc) (r : Nat) : List Entry :=
  if bitAt (I.mod w) 1 then
    ((rowCodes s c d r).zip (rowCodes s c v r)).map fun x => ⟨x.1, x.2, x.2 ≠ 2 ^ fmtBits v.fmt - 1, false⟩
  else []

/-- The entries of a source row of TOPK: its keys with their values or positions (R286, R287). -/
def topFresh (s : State) (c : CoreId) (a v : Desc) (b : Option Desc) (r : Nat) : List Entry :=
  match b with
  | some b => withVals (if a.empty then [] else rowCodes s c a r) (if a.empty then [] else rowCodes s c b r)
  | none => withPos (some v) 0 (if a.empty then [] else rowCodes s c a r)

/-- The lists that TOPK writes, one for each row (R287 to R289). -/
def topLists (s : State) (c : CoreId) (w : Nat) (d a v : Desc) (b : Option Desc) : List (List Entry) :=
  (List.range d.rows).map fun r =>
    topList a.fmt (bitAt (I.mod w) 3) (bitAt (I.mod w) 0) (I.imm w) (2 ^ fmtBits v.fmt - 1)
      (topHeld s c w d v r ++ topFresh s c a v b r)

section
variable {x : Ctx} {s s2 : State} {d a v : Desc}

theorem topkOp_ok {b : Option Desc} (hd : readDesc s x.c (I.d x.w) = d) (ha : readDesc s x.c (I.a x.w) = a)
    (hb : operand s x.c (I.b x.w) = b) (hv : readDesc s x.c (I.c x.w) = v)
    (hh : handlesCheck s x.c (handleNeeds x.w .required .required .optional .required) = none)
    (hp : sortChecks [(some d, true, false), (some a, false, false), (b, false, false), (some v, true, b.isNone)] = none)
    (hblk : a.blk = 0 ∧ d.blk = 0 ∧ v.blk = 0) (hkf : keyFmt a.fmt = true) (hdf : d.fmt = a.fmt)
    (huns : bitAt (I.mod x.w) 3 = true → intKey a.fmt = true)
    (hbs : ∀ y ∈ b, y.blk = 0 ∧ valueFmt y.fmt = true ∧ y.fmt = v.fmt ∧ sameDims y a = true)
    (hvf : (if b.isNone then posFmt v.fmt else valueFmt v.fmt) = true) (har : a.rank ≤ 2)
    (hk : 1 ≤ I.imm x.w ∧ I.imm x.w ≤ 1024)
    (hext : d.rank ≤ 2 ∧ v.rank ≤ 2 ∧ d.d0 = I.imm x.w ∧ v.d0 = I.imm x.w ∧ d.d1 = a.d1 ∧ v.d1 = a.d1)
    (hdst : destOk d true (a :: b.toList) [v] = true) (hvst : destOk v true (a :: b.toList) [d] = true)
    (hde : d.empty = false) (hae : bitAt (I.mod x.w) 1 = true → a.empty = false)
    (hread : readHearth s x.c
      (a.spans ++ (b.map Desc.spans).getD [] ++ (if bitAt (I.mod x.w) 1 then d.spans ++ v.spans else [])) = (none, s2)) :
    let best := topLists s2 x.c x.w d a v b
    let list := ceilDiv (I.imm x.w * (elemBytes a.fmt + elemBytes v.fmt)) 64
    topkOp x s = .ok
      { Out.at (writeCodes (writeCodes s2 x.c d (best.map fun y => y.map Entry.key)) x.c v (best.map fun y => y.map Entry.val))
          (x.t + (ceilDiv (a.d0 * elemBytes a.fmt) 64 + list + (if bitAt (I.mod x.w) 1 then list else 0)) * d.rows + 12) with
        sat := sumNat (best.map satEntries), dst := d.spans ++ v.spans, stages := 2 ^ 32 - 1 } := by
  obtain ⟨hab, hdb, hvb⟩ := hblk
  obtain ⟨hdr, hvr, hd0, hv0, hd1, hv1⟩ := hext
  have hbb : (b.any fun b => decide (b.blk ≠ 0)) = false := by
    cases b with
    | none => rfl
    | some b => simp [(hbs b rfl).1]
  have hvfOk : (if b.isNone = true then !posFmt v.fmt else !valueFmt v.fmt) = false := by
    cases hq : b.isNone <;> rw [hq] at hvf <;> simpa using hvf
  intro best list
  unfold topkOp
  dsimp only
  rw [hh, hd, ha, hb, hv]
  dsimp only
  rw [hp]
  dsimp only
  rw [firstCode_eq_none (by
    simp only [List.forall_mem_cons]
    refine ⟨?_, ?_, unsigned_fits huns, any_fmt_ne_of_forall fun y hy => (hbs y hy).2.2.1, ?_, ?_, ?_, ?_,
      fun p hp => absurd hp List.not_mem_nil⟩
    · rw [hbb]
      simp [hab, hdb, hvb]
    · rw [hkf, any_not_of_forall fun y hy => (hbs y hy).2.1, hvfOk]
      simp [hdf]
    · rw [any_not_of_forall fun y hy => (hbs y hy).2.2.2]
      simp [lowRank, har]
    · simp [hk]
      omega
    · simp [lowRank, hdr, hvr, hd0, hv0, hd1, hv1]
    · rw [hdst, hvst]
      rfl)]
  dsimp only
  rw [if_neg (by cases hm : bitAt (I.mod x.w) 1 <;> simp_all)]
  refine (withReads_of_clean hread _ _ _).trans ?_
  cases b <;> rfl

theorem mergeOp_ok {b : Desc} (hd : readDesc s x.c (I.d x.w) = d) (ha : readDesc s x.c (I.a x.w) = a)
    (hb : readDesc s x.c (I.b x.w) = b) (hv : readDesc s x.c (I.c x.w) = v)
    (hh : handlesCheck s x.c (handleNeeds x.w .required .required .required .required) = none)
    (hp : sortChecks [(some d, true, false), (some a, false, false), (some b, false, false), (some v, true, true)] = none)
    (hblk : a.blk = 0 ∧ d.blk = 0 ∧ v.blk = 0) (hkf : keyFmt a.fmt = true) (hdf : d.fmt = a.fmt)
    (huns : bitAt (I.mod x.w) 3 = true → intKey a.fmt = true) (hbb : b.blk = 0) (hbf : b.fmt = a.fmt)
    (hvf : posFmt v.fmt = true) (hrank : a.rank = 1 ∧ b.rank = 1) (hn : 1 ≤ a.d0 + b.d0 ∧ a.d0 + b.d0 ≤ 65535)
    (hext : d.rank = 1 ∧ v.rank = 1 ∧ d.d0 = a.d0 + b.d0 ∧ v.d0 = a.d0 + b.d0)
    (hdst : destOk d true [a, b] [v] = true) (hvst : destOk v true [a, b] [d] = true)
    (hread : readHearth s x.c (a.spans ++ b.spans) = (none, s2)) :
    let es := mergeRuns (Entry.ahead a.fmt (bitAt (I.mod x.w) 3) (bitAt (I.mod x.w) 0)) (a.d0 + b.d0)
      (withPos (some v) 0 ((allCodes s2 x.c a).getD 0 [])) (withPos (some v) a.d0 ((allCodes s2 x.c b).getD 0 []))
    mergeOp x s = .ok
      { Out.at (writeCodes (writeCodes s2 x.c d [es.map Entry.key]) x.c v [es.map Entry.val])
          (x.t + ceilDiv ((a.d0 + b.d0) * (elemBytes a.fmt + elemBytes v.fmt)) 64 + 12) with
        sat := satEntries es, dst := d.spans ++ v.spans, stages := 2 ^ 32 - 1 } := by
  obtain ⟨hab, hdb, hvb⟩ := hblk
  obtain ⟨hdr, hvr, hd0, hv0⟩ := hext
  intro es
  unfold mergeOp
  dsimp only
  rw [hh, hd, ha, hb, hv]
  dsimp only
  rw [hp]
  dsimp only
  rw [firstCode_eq_none (by
    simp only [List.forall_mem_cons]
    refine ⟨?_, ?_, unsigned_fits huns, ?_, ?_, ?_, ?_, fun p hp => absurd hp List.not_mem_nil⟩
    · simp [hab, hbb, hdb, hvb]
    · simp [hkf, hbf, hdf, hvf]
    · simp [hrank]
    · simp [hn]
    · simp [hdr, hvr, hd0, hv0]
    · rw [hdst, hvst]
      rfl)]
  dsimp only
  rw [if_neg (by omega)]
  exact withReads_of_clean hread _ _ _

end

/-- Settles O19: the sort merges runs, which keeps entries, order and source order; SORT and SORTKV are one effect, `sortOp`. -/
theorem sortOrder : Obligations.SortOrder := by
  unfold Obligations.SortOrder
  refine ⟨?_, ?_⟩
  · intro fmt desc xs ys hreal
    have hlt := ahead_ordersRuns fmt desc
    exact ⟨sortEntries_perm xs, (sortEntries_isRun hlt hreal).2, fun k => filter_sortEntries hlt k hreal⟩
  · intro s s1 s2 c h take kv w cmd need d a b v pos uns others dst vals rows s3 s4 kb vb perRow hp hh hpl hab hoth hkf hdf hbf hvf
      huns hpos har had hdd hvd hne hread
    have hi : engineOp cmd = some (c, .sort, sortSpec (if kv then 0x01 else 0x00) (fun w => I.imm w ≠ 0) 9 (sortOp kv)) := by
      cases kv <;> rfl
    let x : Ctx := ⟨c, .sort, w, (s1.eng c .sort).pc, s1.now⟩
    have hout := sortOp_ok (x := x) (kv := kv) (d := d) (a := a) (b := b) (v := v) rfl rfl rfl rfl hh hpl hab hoth hkf hdf hbf hvf huns hpos har had hdd hvd hne hread
    refine exec_issues_of_body (body := sortOp kv) hp hi rfl (hout.trans ?_)
    clear_value d b v
    cases d <;> cases b <;> cases v <;> rfl

/-- Settles O20: both effects at their issue point. -/
theorem sortSelects : Obligations.SortSelects := by
  unfold Obligations.SortSelects
  intro s s1 s2 c h take w md d a bo b v uns acc k n dst ones old fresh best list es goes hab hdb hvb hkf hdf huns
  let x : Ctx := ⟨c, .sort, w, (s1.eng c .sort).pc, s1.now⟩
  refine ⟨?_, ?_⟩
  · intro hp hh hpl hbs hvf har hk1 hk hdr hvr hd0 hv0 hd1 hv1 hdst hvst hde hae hread
    have hout := topkOp_ok (x := x) rfl rfl rfl rfl hh hpl ⟨hab, hdb, hvb⟩ hkf hdf huns hbs hvf har ⟨hk1, hk⟩
      ⟨hdr, hvr, hd0, hv0, hd1, hv1⟩ hdst hvst hde hae hread
    exact exec_issues_of_body (body := topkOp) hp rfl rfl hout
  · intro hp hh hpl hbb hbf hvf har hbr hn1 hn hdr hvr hd0 hv0 hdst hvst hread
    have hout := mergeOp_ok (x := x) rfl rfl rfl rfl hh hpl ⟨hab, hdb, hvb⟩ hkf hdf huns hbb hbf hvf ⟨har, hbr⟩ ⟨hn1, hn⟩
      ⟨hdr, hvr, hd0, hv0⟩ hdst hvst hread
    exact exec_issues_of_body (body := mergeOp) hp rfl rfl hout

end Sys2Proof.Machine
end

section
/-! SUPPORT. Exact sums: the order in which two terms are added to a lane makes no difference (R212 to R214). -/
namespace Sys2Proof.Machine

theorem satAdd_right_comm (n x t u : Nat) : satAdd n (satAdd n x t) u = satAdd n (satAdd n x u) t := by
  simp only [satAdd, Nat.min_eq_min]
  omega

/-- A count of terms that has passed 2^42 stays past it. -/
theorem terms_past_satAdd {n x t : Nat} (ht : 2 ^ 42 < satAdd 43 x t) : 2 ^ 42 < satAdd 43 (satAdd 43 x t) n := by
  simp only [satAdd, Nat.min_eq_min] at *
  omega

/-- With a further term added the count alone tells whether the sum of counts ever passed 2^42. -/
theorem past_or_past (x t u : Nat) :
    (decide (2 ^ 42 < satAdd 43 x t) || decide (2 ^ 42 < satAdd 43 (satAdd 43 x t) u)) =
      decide (2 ^ 42 < satAdd 43 (satAdd 43 x t) u) := by
  rw [← Bool.decide_or]
  exact decide_eq_decide.2 (or_iff_right_of_imp terms_past_satAdd)

theorem Accum.plus_nan_plus (k : LaneClass) (x y z : Accum) :
    ((x.plus k y).plus k z).nan =
      (x.nan || y.nan || z.nan || decide (2 ^ 42 < satAdd 43 (satAdd 43 x.terms y.terms) z.terms)) := by
  rw [← past_or_past]
  simp only [Accum.plus]
  ac_rfl

theorem Accum.plus_right_comm (k : LaneClass) (x y z : Accum) : (x.plus k y).plus k z = (x.plus k z).plus k y := by
  have hnan : ((x.plus k y).plus k z).nan = ((x.plus k z).plus k y).nan := by
    rw [Accum.plus_nan_plus, Accum.plus_nan_plus, satAdd_right_comm, Bool.or_right_comm x.nan]
  have hvalue : ((x.value + y.value) % 2 ^ k.width + z.value) % 2 ^ k.width =
      ((x.value + z.value) % 2 ^ k.width + y.value) % 2 ^ k.width := by
    rw [Nat.mod_add_mod, Nat.mod_add_mod, Nat.add_right_comm]
  have hterms := satAdd_right_comm 43 x.terms y.terms z.terms
  simp only [Accum.plus] at hnan ⊢
  rw [hnan, hvalue, hterms, Bool.or_right_comm x.pinf, Bool.or_right_comm x.ninf, Bool.or_right_comm x.notNeg0,
    Bool.or_right_comm x.notPos0]

/-- Settles O15: terms commute, so every order of them leaves the same lane. -/
theorem sumOrderFree : Obligations.SumOrderFree := by
  unfold Obligations.SumOrderFree
  intro k fmt long x ts us hperm
  refine hperm.foldl_eq' (fun y _ z _ acc => ?_) x
  exact Accum.plus_right_comm k acc _ _

end Sys2Proof.Machine
end

section
/-! SUPPORT. What reaching an issue point and issuing leave unchanged (R60, R105, R118, R125 to R133): the rules of the sync
files and of the fetch unit, each stated of all the parts that they have no hand in. -/
namespace Sys2Proof.Machine

/-- The parts of the state that neither the sync files nor the sequencers' fetch and waits have a hand in. -/
def State.outside (s : State) : List Host.Cell × List Host.Cell × List Host.Cell × List Host.Cell × AMap Nat × List Instr ×
    List Flying × List Flying × AMap Port × AMap FlueRec × AMap BufRec :=
  (s.hearth, s.istore, s.scratch, s.fabric, s.marks, s.pending, s.flight, s.origin, s.ports, s.flues, s.buffers)

/-- The cores with the parts outside: what the sync files have no hand in. -/
def State.offSync (s : State) := (s.outside, s.cores)

section
variable (s : State)

@[simp] theorem State.offSync_setReg (a : Nat) (w : Word) : (s.setReg a w).offSync = s.offSync := (rfl)
@[simp] theorem State.offSync_setFld (a : Nat) (f : Fld) (v : Nat) : (s.setFld a f v).offSync = s.offSync := (rfl)
@[simp] theorem State.offSync_count (a : Nat) (f : Fld) (n : Nat) : (s.count a f n).offSync = s.offSync := (rfl)
@[simp] theorem State.offSync_bump (a : Nat) (f : Fld) (n : Nat) : (s.bump a f n).offSync = s.offSync := (rfl)
@[simp] theorem State.offSync_flag (a : Nat) (f : Fld) : (s.flag a f).offSync = s.offSync := (rfl)
@[simp] theorem State.offSync_relFlag (f : Fld) : (s.relFlag f).offSync = s.offSync := (rfl)
@[simp] theorem State.offSync_report (e : AshEntry) : (s.report e).offSync = s.offSync := (rfl)
@[simp] theorem State.offSync_setRegion (r : RegionId) (g : Region) : (s.setRegion r g).offSync = s.offSync := (rfl)
@[simp] theorem State.offSync_healthAdd (i n : Nat) : (s.healthAdd i n).offSync = s.offSync := (rfl)

@[simp] theorem State.offSync_at (t : Nat) : (s.at t).offSync = s.offSync := by
  unfold State.at
  split <;> rfl

@[simp] theorem State.offSync_log (d : Detection) : (s.log d).offSync = s.offSync := by
  simp only [State.log]
  split
  · exact State.offSync_report _ _
  · split <;> simp only [State.offSync_report, State.offSync_relFlag, State.offSync_count]
    exact State.offSync_setFld _ _ _ _

@[simp] theorem State.offSync_setErr (r : RegionId) (obj : Nat) : (s.setErr r obj).offSync = s.offSync := by
  simp only [State.setErr, State.logSync, State.logAt, State.offSync_log, State.offSync_count, State.offSync_flag,
    State.offSync_setFld]

@[simp] theorem State.offSync_rebaseOne (r : RegionId) (base obj : Nat) : (s.rebaseOne r base obj).offSync = s.offSync := by
  unfold State.rebaseOne
  dsimp only
  split <;> simp only [State.offSync_setFld, State.offSync_setErr]

@[simp] theorem State.offSync_rebase (r : RegionId) (obj n : Nat) : (s.rebase r obj n).offSync = s.offSync := by
  induction n with
  | zero => rfl
  | succ g ih =>
    rw [State.rebase]
    split
    · exact foldl_keeps (fun t => t.offSync = s.offSync) (fun t o ht => (State.offSync_rebaseOne t r _ o).trans ht) _ ih
    · exact ih

@[simp] theorem State.offSync_shiftMasks (r : RegionId) (t n : Nat) : (s.shiftMasks r t n).offSync = s.offSync := by
  induction n with
  | zero => rfl
  | succ w ih => simp only [State.shiftMasks, State.offSync_setReg, ih]

@[simp] theorem State.offSync_barrierDone (r : RegionId) (obj L : Nat) : (s.barrierDone r obj L).offSync = s.offSync := by
  simp only [State.barrierDone]
  split <;> split <;>
    simp only [State.offSync_setRegion, State.offSync_rebase, State.offSync_shiftMasks, State.offSync_setReg]

@[simp] theorem State.offSync_settle (r : RegionId) (obj L : Nat) : (s.settle r obj L).offSync = s.offSync := by
  simp only [State.settle]
  split <;> simp only [State.offSync_barrierDone, State.offSync_setRegion]

@[simp] theorem State.offSync_beforeWait (r : RegionId) (obj wcond q : Nat) :
    (s.beforeWait r obj wcond q).offSync = s.offSync := by
  have hready : (if s.now = 0 then s else s.settle r obj (s.now - 1)).offSync = s.offSync := by
    split
    · rfl
    · exact State.offSync_settle s r obj _
  unfold State.beforeWait
  generalize (if s.now = 0 then s else s.settle r obj (s.now - 1)) = t at hready ⊢
  dsimp only
  split
  · split
    · split
      · exact (State.offSync_at t _).trans hready
      · exact hready
    · exact hready
  · exact hready

@[simp] theorem State.offSync_judge (r : RegionId) (obj wcond wval q : Nat) :
    (s.judge r obj wcond wval q).2.offSync = s.offSync := by
  unfold State.judge
  dsimp only
  split
  · dsimp only
    split
    · exact State.offSync_setReg _ _ _
    · rfl
  · rfl

@[simp] theorem State.offSync_judgeWait (c : CoreId) (e : Cls) (w : Nat) (sp : OpSpec) (h : Heads) :
    (s.judgeWait c e w sp h).2.offSync = s.offSync := by
  unfold State.judgeWait
  split
  · rfl
  · dsimp only
    split
    · exact State.offSync_beforeWait s _ _ _ _
    · split
      · exact State.offSync_beforeWait s _ _ _ _
      · split
        · exact State.offSync_beforeWait s _ _ _ _
        · exact (State.offSync_judge _ _ _ _ _ _).trans (State.offSync_beforeWait s _ _ _ _)

@[simp] theorem State.offSync_toHead (c : CoreId) (e : Cls) : (s.toHead c e).offSync = s.offSync := by
  unfold State.toHead
  dsimp only
  split
  · exact (State.offSync_healthAdd _ _ _).trans ((State.offSync_count _ _ _ _).trans (State.offSync_at s _))
  · exact State.offSync_at s _

@[simp] theorem State.offSync_toIssue (c : CoreId) (e : Cls) (sp : OpSpec) : (s.toIssue c e sp).offSync = s.offSync :=
  State.offSync_at s _

@[simp] theorem State.offSync_endWait (c : CoreId) (e : Cls) : (s.endWait c e).offSync = s.offSync := by
  unfold State.endWait
  split
  · exact State.offSync_bump _ _ _ _
  · rfl

/-! ## Registers on the way to an issue point with no wait -/

@[simp] theorem State.reg_at (t a : Nat) : (s.at t).reg a = s.reg a := by
  unfold State.at
  split <;> rfl

theorem State.reg_toHead {c : CoreId} {e : Cls} {a : Nat} (ha : a ≠ Reg.HTH_ISTORE_ECC c) : (s.toHead c e).reg a = s.reg a := by
  unfold State.toHead
  dsimp only
  split
  · exact (State.healthAdd_reg _ _ _ _).trans ((State.reg_setFld_ne _ _ _ ha).trans (State.reg_at s _ a))
  · exact State.reg_at s _ a

theorem State.reg_endWait {c : CoreId} {e : Cls} {a : Nat} (ha : a ≠ Reg.WAIT_CYCLES c e) :
    (s.endWait c e).reg a = s.reg a := by
  unfold State.endWait
  split
  · exact State.reg_setFld_ne _ _ _ ha
  · rfl

theorem State.reg_judgeWait_of_none {c : CoreId} {e : Cls} {w : Nat} {sp : OpSpec} {h : Heads} (hw : h.wait = none) (a : Nat) :
    (s.judgeWait c e w sp h).2.reg a = s.reg a := by
  simp only [State.judgeWait, hw]
  rfl

/-! ## The fetch unit -/

/-- The parts of a core that its fetch unit has no hand in. -/
def Core.offFetch (x : Core) := (x.ctrs, x.cmps, x.locs, x.lanes, x.tiles, x.recv)

theorem Core.offFetch_fetchCycle (word : Nat → Nat) (x : Core) (n : Nat) : (x.fetchCycle word n).offFetch = x.offFetch := by
  induction n generalizing x with
  | zero => rfl
  | succ n ih =>
    rw [Core.fetchCycle]
    split
    · rfl
    · exact ih _

theorem Core.offFetch_fetchCycles (word : Nat → Nat) (x : Core) (n : Nat) : (x.fetchCycles word n).offFetch = x.offFetch := by
  induction n generalizing x with
  | zero => rfl
  | succ n ih =>
    rw [Core.fetchCycles]
    split
    · rfl
    · exact (ih _).trans (Core.offFetch_fetchCycle word x 4)

@[simp] theorem State.outside_catchUp (c : CoreId) : (s.catchUp c).outside = s.outside := by
  simp only [State.catchUp]
  split <;> rfl

@[simp] theorem State.reg_catchUp (c : CoreId) (a : Nat) : (s.catchUp c).reg a = s.reg a := by
  simp only [State.catchUp]
  split <;> rfl

theorem State.core_catchUp_ne {c c' : CoreId} (h : coreKey c' ≠ coreKey c) : (s.catchUp c).core c' = s.core c' := by
  simp only [State.catchUp]
  split
  · rfl
  · exact State.core_setCore_ne _ _ h

theorem State.offFetch_catchUp (c : CoreId) : ((s.catchUp c).core c).offFetch = (s.core c).offFetch := by
  simp only [State.catchUp]
  split
  · rfl
  · rw [State.core_setCore_self]
    exact Core.offFetch_fetchCycles _ _ _

end

/-! ## The issue point -/

/-- The state at an issue point: the head is reached, its wait is judged and passes, the wait ends, fetch catches up. -/
theorem State.issuePoint_eq {s s1 : State} {c : CoreId} {e : Cls} {sp : OpSpec} {h : Heads} {take : Option Sig}
    (hp : s.issuePoint c e sp = some (s1, h, take)) :
    s1 = ((((s.toHead c e).toIssue c e sp).judgeWait c e (s.headWord c e) sp h).2.endWait c e).catchUp c := by
  simp only [State.issuePoint] at hp
  split at hp
  · split at hp
    · exact absurd hp nofun
    · split at hp
      · rename_i hj
        obtain ⟨rfl, rfl, rfl⟩ := by simpa only [Option.some.injEq, Prod.mk.injEq] using hp
        rw [hj]
      · exact absurd hp nofun
  · exact absurd hp nofun

/-- Settles O6: what the rules of sync files, waits and fetch leave unchanged, and `issued` as one engine set. -/
theorem issueFrames : Obligations.IssueFrames := by
  unfold Obligations.IssueFrames
  refine ⟨?_, ?_⟩
  · intro s s1 c e sp h take hp
    obtain rfl := State.issuePoint_eq hp
    generalize ht : (((s.toHead c e).toIssue c e sp).judgeWait c e (s.headWord c e) sp h).2.endWait c e = t
    have hoff : t.offSync = s.offSync := by
      simp only [← ht, State.offSync_endWait, State.offSync_judgeWait, State.offSync_toIssue, State.offSync_toHead]
    have hcores : t.cores = s.cores := congrArg Prod.snd hoff
    have hcore (c' : CoreId) : t.core c' = s.core c' := by simp only [State.core, hcores]
    have hout : (t.catchUp c).outside = s.outside := (State.outside_catchUp t c).trans (congrArg Prod.fst hoff)
    have hfetch := State.offFetch_catchUp t c
    rw [hcore] at hfetch
    obtain ⟨h1, h2, h3, h4, h5, h6, h7, h8, h9, h10, h11⟩ := by simpa only [State.outside, Prod.mk.injEq] using hout
    obtain ⟨f1, f2, f3, f4, f5, f6⟩ := by simpa only [Core.offFetch, Prod.mk.injEq] using hfetch
    refine ⟨h1, h2, h3, h4, h5, h6, h7, h8, h9, h10, h11, fun c' hc => ?_, f1, f2, f3, f4, f5, f6, fun hw a hecc hwait => ?_⟩
    · rw [State.core_catchUp_ne t hc, hcore]
    · rw [State.reg_catchUp, ← ht, State.reg_endWait _ hwait, State.reg_judgeWait_of_none _ hw]
      exact (State.reg_at _ _ a).trans (State.reg_toHead s hecc)
  · intro s c e w h take o t
    have hcore : t.core c = (o.st.core c).setEng e _ := State.core_setCore_self o.st c _
    have heng := State.eng_setEng_self o.st c e
    refine ⟨fun a => rfl, rfl, rfl, rfl, rfl, rfl, rfl, rfl, fun c' hc => State.core_setEng_ne _ _ _ hc,
      fun e' he => State.eng_setEng_ne _ c _ he, ?_, ?_, ?_, ?_, ?_, ?_, ?_⟩
    iterate 6 rw [hcore]; rfl
    exact ⟨_, congrArg Engine.inflight (heng _), rfl, rfl, rfl, rfl, rfl, rfl⟩

end Sys2Proof.Machine
end

section
/-! SUPPORT. Management writes: a register word field by field (R9, R10), and where an access is refused (R13, R37, R38). -/
namespace Sys2Proof.Machine

/-- The word with one field as its access code leaves it (R9, R10). -/
def RField.written (old data : Word) (w : Word) (f : RField) : Word :=
  match f.acc with
  | .rw => f.fld.put w (f.fld.get data)
  | .w1c => f.fld.put w (f.fld.get (old &&& ~~~data))
  | .w1s => f.fld.put w (f.fld.get (old ||| data))
  | _ => w

/-- What a field reads after the write: what its access code says (R9, R10). -/
def RField.reads (old data : Word) (f : RField) : Nat :=
  match f.acc with
  | .rw => f.fld.get data
  | .w1c => f.fld.get (old &&& ~~~data)
  | .w1s => f.fld.get (old ||| data)
  | _ => f.fld.get old

theorem Row.written_eq_foldl (r : Row) (old data : Word) : r.written old data = r.fields.foldl (RField.written old data) old := rfl

theorem Fld.get_mod (f : Fld) (w : Word) : f.get w % 2 ^ (f.hi + 1 - f.lo) = f.get w := Nat.mod_mod _ _

theorem Fld.get_put_get {f : Fld} (hf : f.fits) (w v : Word) : f.get (f.put w (f.get v)) = f.get v :=
  (Fld.get_put hf w _).trans (Fld.get_mod f v)

section
variable {old data : Word}

theorem RField.get_written_apart {f : RField} {g : Fld} (hf : f.fld.fits) (ha : f.fld.apart g) (w : Word) :
    g.get (f.written old data w) = g.get w := by
  unfold RField.written
  split
  iterate 3 exact Fld.get_put_apart hf ha w _
  rfl

theorem RField.get_written_self {f : RField} (hf : f.fld.fits) {w : Word} (hw : f.fld.get w = f.fld.get old) :
    f.fld.get (f.written old data w) = f.reads old data := by
  unfold RField.written RField.reads
  split
  iterate 3 exact Fld.get_put_get hf w _
  exact hw

theorem RField.testBit_written {f : RField} (hf : f.fld.fits) {i : Nat} (hi : i < f.fld.lo ∨ f.fld.hi < i) (w : Word) :
    (f.written old data w).toNat.testBit i = w.toNat.testBit i := by
  have hout (v : Nat) : (f.fld.put w v).toNat.testBit i = w.toNat.testBit i := by
    rw [testBit_put hf, if_neg (by omega)]
  unfold RField.written
  split
  iterate 3 exact hout _
  rfl

/-- Fields apart from one keep what it reads. -/
theorem get_written_of_apart {fs : List RField} {g : Fld} (hf : ∀ f ∈ fs, f.fld.fits) (ha : ∀ f ∈ fs, f.fld.apart g) (w : Word) :
    g.get (fs.foldl (RField.written old data) w) = g.get w := by
  induction fs generalizing w with
  | nil => rfl
  | cons f fs ih =>
    obtain ⟨hf1, hfs⟩ := List.forall_mem_cons.1 hf
    obtain ⟨ha1, has⟩ := List.forall_mem_cons.1 ha
    rw [List.foldl_cons, ih hfs has, RField.get_written_apart hf1 ha1]

/-- Every field of a list of fields apart reads what its access code says. -/
theorem get_written_of_mem {fs : List RField} (hf : ∀ f ∈ fs, f.fld.fits) (ha : fs.Pairwise fun f g => f.fld.apart g.fld) {w : Word}
    (hw : ∀ f ∈ fs, f.fld.get w = f.fld.get old) {f : RField} (hm : f ∈ fs) :
    f.fld.get (fs.foldl (RField.written old data) w) = f.reads old data := by
  induction fs generalizing w with
  | nil => exact absurd hm List.not_mem_nil
  | cons g fs ih =>
    obtain ⟨hg, hfs⟩ := List.forall_mem_cons.1 hf
    obtain ⟨hgs, hrest⟩ := List.pairwise_cons.1 ha
    rw [List.foldl_cons]
    rcases List.mem_cons.1 hm with rfl | hm
    · rw [get_written_of_apart hfs fun h hh => (hgs h hh).symm]
      exact RField.get_written_self hg (hw _ List.mem_cons_self)
    · refine ih hfs hrest (fun h hh => ?_) hm
      rw [RField.get_written_apart hg (hgs h hh)]
      exact hw h (List.mem_cons_of_mem _ hh)

theorem testBit_written_of_apart {fs : List RField} (hf : ∀ f ∈ fs, f.fld.fits) {i : Nat}
    (hi : ∀ f ∈ fs, i < f.fld.lo ∨ f.fld.hi < i) (w : Word) :
    (fs.foldl (RField.written old data) w).toNat.testBit i = w.toNat.testBit i := by
  induction fs generalizing w with
  | nil => rfl
  | cons f fs ih =>
    obtain ⟨hf1, hfs⟩ := List.forall_mem_cons.1 hf
    obtain ⟨hi1, his⟩ := List.forall_mem_cons.1 hi
    rw [List.foldl_cons, ih hfs his, RField.testBit_written hf1 hi1]

end

theorem State.spot_no_register {s : State} {a width : Nat} (hrow : regRow (s.homeOf a) = none) (hb : s.atBackup a = false)
    (hout : 0x40 ≤ siteOf a ∨ 80 ≤ blockOf a ∨ 0x42 ≤ unitOf a ∨ offsetOf a < 0x8000 ∨ 0xE000 ≤ offsetOf a) :
    s.spot a width = .error Code.rejRange := by
  unfold State.spot
  dsimp only
  rw [if_neg (by simp; omega), hb, if_neg Bool.false_ne_true, hrow]

theorem exec_registerWrite_reg {s : State} {a width h : Nat} {r : Row} (hs : s.spot a width = .ok (.reg h r)) (data : Word) :
    let w : Word := if width = 64 then data else BitVec.ofNat 64 (data.toNat % 2 ^ 32)
    exec (.registerWrite a width data) s = .next ((s.writeReg false h r w).2.completed (s.writeReg false h r w).1 0) := by
  intro w
  change mgmtCommand a width data s = _
  unfold mgmtCommand
  rw [State.mgmtWrite_reg data hs]

/-- Settles O23: fields apart are written apart; a refused access answers its code; a plain write sets one register. -/
theorem registerAccess : Obligations.RegisterAccess := by
  unfold Obligations.RegisterAccess
  refine ⟨fun r old data hfit hapart => ⟨fun f hf => ?_, fun i hi hout => ?_⟩, ?_⟩
  · exact get_written_of_mem hfit hapart (fun _ _ => rfl) hf
  · exact testBit_written_of_apart hfit hout old
  intro s a width data w
  refine ⟨?_, ?_, ?_, ?_⟩
  · exact fun code h => exec_registerWrite_refused h data
  · exact fun hrow hb hout => exec_registerWrite_refused (State.spot_no_register hrow hb hout) data
  · exact fun h r hs => exec_registerWrite_reg hs data
  · exact fun b r x => ⟨State.reg_setReg_self s b _, fun b' hb => State.reg_setReg_ne s _ hb, rfl, rfl, rfl, rfl, rfl⟩

end Sys2Proof.Machine
end

section
/-! SUPPORT. Management writes of a core's registers as commands: the injection registers (R242, R266, R309). -/
namespace Sys2Proof.Machine

section
variable {s : State} {c : CoreId} {data : Word}

/-- A 32-bit write of a register in an engine's window, as a command. -/
theorem mgmtCommand_engine {e : Cls} {off : Nat} {r : Row} {ix : List Nat} (hc : c.ok = true) (ho : off < 0x1000)
    (hr : regRow (engBase c e + off) = some (r, ix)) (hw : r.width = 32) (hd : s.siteDown c.die c.region = false) :
    mgmtCommand (engBase c e + off) 32 data s =
      .next ((s.writeEngine c e off r (BitVec.ofNat 64 (data.toNat % 2 ^ 32))).2.completed
        (s.writeEngine c e off r (BitVec.ofNat 64 (data.toNat % 2 ^ 32))).1 0) := by
  have h := State.mgmtWrite_reg (inband := false) data (State.spot_engine s hc ho hr hw hd)
  rw [if_neg (by omega), State.writeReg_engine hc _ ho] at h
  unfold mgmtCommand
  rw [h]

/-- Where every check passes a guarded write is a plain one (R599). -/
theorem State.guardedWrite_of_none {checks : List (Bool × Nat)} (h : firstCode checks = none) (a : Nat) (r : Row) (w : Word) :
    s.guardedWrite checks a r w = s.plainWrite a r w := by
  unfold State.guardedWrite
  rw [h]

theorem State.guardedWrite_of_some {checks : List (Bool × Nat)} {code : Nat} (h : firstCode checks = some code) (a : Nat) (r : Row)
    (w : Word) : s.guardedWrite checks a r w = (code, s) := by
  unfold State.guardedWrite
  rw [h]

/-! ## The injection registers -/

/-- The OFFSET of an engine's injection register in its window. -/
def injectOff : Cls → Nat
  | .reduce => 0x128
  | .tensor => 0x138
  | _ => 0x120

/-- The engines that have an injection register. -/
def canInject (e : Cls) : Bool := e != .tally && e != .move

theorem findRow_inject {e : Cls} (he : canInject e = true) :
    ∃ r ix, findRow (windowRows (engWindow e / 0x1000)) (injectOff e) = some (r, ix) ∧ r.width = 32 := by
  cases e
  case tally => exact absurd he Bool.false_ne_true
  case move => exact absurd he Bool.false_ne_true
  all_goals exact ⟨_, _, rfl, rfl⟩

/-- What makes an injection's write refused REJ_RANGE. -/
def badInject (e : Cls) (w : Word) : Bool :=
  match e with
  | .reduce => F.RED_INJECT_STAGE.get w = 3 || 79 < F.RED_INJECT_BIT.get w
  | .tensor => false
  | e => lastUnit e < F.UNIT_INJECT_UNIT.get w

theorem State.writeEngine_inject_on {e : Cls} (he : canInject e = true) {r : Row} {w : Word} (hi : s.injectOn = true)
    (hb : badInject e w = false) : s.writeEngine c e (injectOff e) r w = s.plainWrite (engBase c e + injectOff e) r w := by
  cases e
  case tally => exact absurd he Bool.false_ne_true
  case move => exact absurd he Bool.false_ne_true
  case tensor =>
    refine State.guardedWrite_of_none (firstCode_eq_none ?_) _ r w
    simp [hi]
  all_goals
    refine State.guardedWrite_of_none (firstCode_eq_none ?_) _ r w
    simpa [hi, badInject] using hb

theorem State.writeEngine_inject_off {e : Cls} (he : canInject e = true) {r : Row} {w : Word} (hi : s.injectOn = false) :
    s.writeEngine c e (injectOff e) r w = (Code.rejState, s) := by
  cases e
  case tally => exact absurd he Bool.false_ne_true
  case move => exact absurd he Bool.false_ne_true
  all_goals
    refine State.guardedWrite_of_some ?_ _ r w
    rw [hi]
    rfl

theorem mgmtCommand_inject {e : Cls} (hc : c.ok = true) (hd : s.siteDown c.die c.region = false) (he : canInject e = true) {r : Row}
    {ix : List Nat} (hr : regRow (engBase c e + injectOff e) = some (r, ix)) (hw : r.width = 32) (hi : s.injectOn = true)
    (hb : badInject e (BitVec.ofNat 64 (data.toNat % 2 ^ 32)) = false) :
    mgmtCommand (engBase c e + injectOff e) 32 data s =
      .next ((s.setReg (engBase c e + injectOff e)
        (r.written (s.reg (engBase c e + injectOff e)) (BitVec.ofNat 64 (data.toNat % 2 ^ 32)))).completed Code.done 0) := by
  have ho : injectOff e < 0x1000 := by cases e <;> decide
  rw [mgmtCommand_engine hc ho hr hw hd, State.writeEngine_inject_on he hi hb]
  rfl

theorem mgmtCommand_inject_refused {e : Cls} (hh : c.has e = true) (hd : s.siteDown c.die c.region = false)
    (he : canInject e = true) (hi : s.injectOn = false) :
    mgmtCommand (engBase c e + injectOff e) 32 data s = .next (s.completed Code.rejState 0) := by
  have hc : c.ok = true := (Bool.and_eq_true_iff.1 hh).1
  have ho : injectOff e < 0x1000 := by cases e <;> decide
  obtain ⟨r, ix, hr, hw⟩ := findRow_inject he
  have hrow : regRow (engBase c e + injectOff e) = some (r, ix) := by
    unfold regRow
    rw [tableAt_engine hc hh ho]
    exact hr
  rw [mgmtCommand_engine hc ho hrow hw hd, State.writeEngine_inject_off he hi]

end

/-- Settles O27: each command is a write of its engine's injection register, whose checks are R242's, R266's and R309's. -/
theorem injections : Obligations.Injections := by
  unfold Obligations.Injections
  intro s c e data r ix w takes hc hd
  have hhas (k : Cls) (hk : k ≠ .tensor) : c.has k = true := by
    unfold CoreId.has
    rw [hc, bne_iff_ne.2 hk]
    rfl
  have hred : exec (.redInject c data) s = mgmtCommand (engBase c .reduce + injectOff .reduce) 32 data s := if_pos hc
  have hten (hh : c.has .tensor = true) :
      exec (.tenInject c data) s = mgmtCommand (engBase c .tensor + injectOff .tensor) 32 data s := if_pos hh
  have hunit (hk : e = .shape ∨ e = .sort ∨ e = .scale) :
      exec (.inject c e data) s = mgmtCommand (engBase c e + injectOff e) 32 data s ∧ canInject e = true ∧ e ≠ .tensor := by
    rcases hk with rfl | rfl | rfl <;> exact ⟨if_pos (by rw [hc]; rfl), rfl, nofun⟩
  refine ⟨fun hi => ⟨fun hr hw hs hb => ?_, fun hh hr hw => ?_, fun hk hr hw hb => ?_⟩, fun hi => ⟨?_, fun hh => ?_, fun hk => ?_⟩⟩
  · rw [hred]
    exact mgmtCommand_inject hc hd rfl hr hw hi (by simp [badInject, w] at *; omega)
  · rw [hten hh]
    exact mgmtCommand_inject hc hd rfl hr hw hi rfl
  · rcases hk with rfl | rfl | rfl <;> rw [(hunit (by simp)).1] <;>
      exact mgmtCommand_inject hc hd rfl hr hw hi (decide_eq_false (Nat.not_lt.2 hb))
  · rw [hred]
    exact mgmtCommand_inject_refused (hhas .reduce nofun) hd rfl hi
  · rw [hten hh]
    exact mgmtCommand_inject_refused hh hd rfl hi
  · obtain ⟨hexec, hcan, hne⟩ := hunit hk
    rw [hexec]
    exact mgmtCommand_inject_refused (hhas e hne) hd hcan hi

end Sys2Proof.Machine
end

section
/-! SUPPORT. Instruction banks (R100 to R103): the bank control register's writes, the swap, and the writes of a bank's window. -/
namespace Sys2Proof.Machine

section
variable {s : State} {c : CoreId}

/-! ## BANK_ARM and BANK_DISARM -/

theorem mgmtCommand_bankCtl (hc : c.ok = true) (hd : s.siteDown c.die c.region = false) (data : Word) :
    mgmtCommand (Reg.HTH_BANK_CTL c) 32 data s =
      .next ((s.writeBankCtl c (BitVec.ofNat 64 (data.toNat % 2 ^ 32))).2.completed Code.done 0) := by
  have hrow : ∃ r ix, regRow (coreBase c + 0x100) = some (r, ix) ∧ r.width = 32 := by
    unfold regRow
    rw [tableAt_core hc (by omega)]
    exact ⟨_, _, rfl, rfl⟩
  obtain ⟨r, ix, hr, hw⟩ := hrow
  have h := State.mgmtWrite_reg (inband := false) data (State.spot_core hc s (by omega) hr hw hd)
  rw [if_neg (by omega), State.writeReg_core hc _ (by omega)] at h
  unfold mgmtCommand
  unfold Reg.HTH_BANK_CTL
  rw [h]
  rfl

@[simp] theorem State.reg_watchSwap (k : CoreId) (a : Nat) : (s.watchSwap k).reg a = s.reg a := rfl
@[simp] theorem State.fld_watchSwap (k : CoreId) (a : Nat) (f : Fld) : (s.watchSwap k).fld a f = s.fld a f := rfl
@[simp] theorem State.isOn_watchSwap (k : CoreId) (a : Nat) (f : Fld) : (s.watchSwap k).isOn a f = s.isOn a f := rfl
@[simp] theorem State.now_watchSwap (k : CoreId) : (s.watchSwap k).now = s.now := rfl

theorem exec_bankArm (hc : c.ok = true) (hd : s.siteDown c.die c.region = false) :
    exec (.bankArm c) s =
      .next (((s.setFld (Reg.HTH_BANK_CTL c) F.HTH_BANK_CTL_ARMED 1).watchSwap c).completed Code.done 0) :=
  (if_pos hc).trans (mgmtCommand_bankCtl hc hd _)

theorem exec_bankDisarm (hc : c.ok = true) (hd : s.siteDown c.die c.region = false) :
    exec (.bankDisarm c) s =
      .next (((s.setFld (Reg.HTH_BANK_CTL c) F.HTH_BANK_CTL_ARMED 0).watchSwap c).completed Code.done 0) :=
  (if_pos hc).trans (mgmtCommand_bankCtl hc hd _)

theorem State.isOn_setFld_self {f : Fld} (hf : f.fits) (a v : Nat) :
    (s.setFld a f v).isOn a f = (v % 2 ^ (f.hi + 1 - f.lo) != 0) := by
  unfold State.isOn
  rw [State.fld_setFld_self s hf]

/-! ## The swap (R102) -/

/-- What a swap does to one engine: a start at a valid ENTRY, else a halt. -/
def State.swapEngine (c : CoreId) (s : State) (e : Cls) : State :=
  if !c.has e then s
  else if s.isOn (Reg.ENTRY c e) F.ENTRY_VALID then s.startEngine c e
  else s.setEng c e { s.eng c e with st := .halted, queued := 0, fetchPc := none, loops := [] }

/-- Where an engine stands: its state, its program counter and its next issue cycle. -/
def Engine.stand (g : Engine) : EngSt × Nat × Nat := (g.st, g.pc, g.issueAt)

theorem State.stand_watchSwap (k : CoreId) (e : Cls) : ((s.watchSwap k).eng c e).stand = (s.eng c e).stand := by
  unfold State.watchSwap State.eng
  dsimp only
  rw [State.core_setCore]
  split
  · rename_i h
    unfold State.core
    rw [h]
    rfl
  · rfl

theorem Engine.stand_fetched (g : Engine) (p w : Nat) : (g.fetched p w).stand = g.stand := by
  unfold Engine.fetched
  dsimp only
  split
  · rfl
  · split
    · rfl
    · split <;> rfl

theorem Core.stand_fetchCycle (word : Nat → Nat) (x : Core) (n : Nat) (e : Cls) :
    ((x.fetchCycle word n).eng e).stand = (x.eng e).stand := by
  induction n generalizing x with
  | zero => rfl
  | succ n ih =>
    rw [Core.fetchCycle]
    split
    · rfl
    · rename_i k _
      refine (ih _).trans ?_
      refine (congrArg Engine.stand (Core.eng_setEng x k e _)).trans ?_
      split
      · rename_i hk
        rw [Engine.stand_fetched]
        unfold Core.eng
        rw [hk]
      · rfl

theorem Core.stand_fetchCycles (word : Nat → Nat) (x : Core) (n : Nat) (e : Cls) :
    ((x.fetchCycles word n).eng e).stand = (x.eng e).stand := by
  induction n generalizing x with
  | zero => rfl
  | succ n ih =>
    rw [Core.fetchCycles]
    split
    · rfl
    · exact (ih _).trans (Core.stand_fetchCycle word x 4 e)

theorem State.stand_catchUp (e : Cls) : ((s.catchUp c).eng c e).stand = (s.eng c e).stand := by
  unfold State.catchUp
  dsimp only
  split
  · rfl
  · unfold State.eng
    rw [State.core_setCore_self]
    exact Core.stand_fetchCycles _ _ _ e

@[simp] theorem State.now_catchUp : (s.catchUp c).now = s.now := by
  unfold State.catchUp
  dsimp only
  split <;> rfl

theorem Core.eng_fresh (x : Core) (e k : Cls) : (x.fresh e).eng k = x.eng k := by
  cases e <;> rfl

section
variable (s) (e : Cls)

theorem State.eng_startEngine_ne {k : Cls} (h : clsCode k ≠ clsCode e) :
    ((s.startEngine c e).eng c k).stand = (s.eng c k).stand := by
  unfold State.startEngine
  generalize Reg.ENTRY c e = a
  unfold State.eng
  dsimp only
  rw [State.core_setCore_self, Core.eng_setEng, if_neg h, Core.eng_fresh, State.setFld_core]
  exact State.stand_catchUp k

theorem State.stand_startEngine :
    ((s.startEngine c e).eng c e).stand = (.running, s.fld (Reg.ENTRY c e) F.ENTRY_PC, s.now + 4) := by
  have hnow := State.now_catchUp (s := s) (c := c)
  unfold State.startEngine
  generalize Reg.ENTRY c e = a
  unfold State.eng
  dsimp only
  rw [State.core_setCore_self, Core.eng_setEng, if_pos rfl, State.setFld_now, hnow]
  rfl

theorem State.now_startEngine : (s.startEngine c e).now = s.now := by
  unfold State.startEngine
  generalize Reg.ENTRY c e = a
  dsimp only
  rw [State.setCore_now, State.setFld_now, State.now_catchUp]

theorem State.reg_startEngine {a : Nat} (ha : a ≠ Reg.ENTRY c e) : (s.startEngine c e).reg a = s.reg a := by
  unfold State.startEngine
  generalize Reg.ENTRY c e = b at ha ⊢
  dsimp only
  rw [State.setCore_reg, State.reg_setFld_ne _ _ _ ha, State.reg_catchUp]

/-- An engine's part of a swap leaves the time, every register but its ENTRY, and where the other engines stand. -/
theorem State.swapEngine_frame :
    (s.swapEngine c e).now = s.now ∧ (∀ a, a ≠ Reg.ENTRY c e → (s.swapEngine c e).reg a = s.reg a) ∧
      ∀ k, clsCode k ≠ clsCode e → ((s.swapEngine c e).eng c k).stand = (s.eng c k).stand := by
  unfold State.swapEngine
  split
  · exact ⟨rfl, fun _ _ => rfl, fun _ _ => rfl⟩
  · split
    · exact ⟨State.now_startEngine s e, fun a ha => State.reg_startEngine s e ha, fun k hk => State.eng_startEngine_ne s e hk⟩
    · exact ⟨rfl, fun _ _ => rfl, fun k hk => congrArg Engine.stand (State.eng_setEng_ne s c _ hk)⟩

theorem State.swapEngine_started (hh : c.has e = true) (hv : s.isOn (Reg.ENTRY c e) F.ENTRY_VALID = true) :
    ((s.swapEngine c e).eng c e).stand = (.running, s.fld (Reg.ENTRY c e) F.ENTRY_PC, s.now + 4) := by
  unfold State.swapEngine
  rw [hh, if_neg (by simp), if_pos hv]
  exact State.stand_startEngine s e

theorem State.swapEngine_halted (hh : c.has e = true) (hv : s.isOn (Reg.ENTRY c e) F.ENTRY_VALID = false) :
    ((s.swapEngine c e).eng c e).st = .halted := by
  unfold State.swapEngine
  rw [hh, if_neg (by simp), if_neg (by simp [hv]), State.eng_setEng_self]

end

theorem allCls_clsCode (e : Cls) : allCls[clsCode e]? = some e := by cases e <;> rfl

theorem clsCode_injective {e k : Cls} (h : clsCode e = clsCode k) : e = k := by
  have he := allCls_clsCode e
  rw [h, allCls_clsCode k] at he
  exact (Option.some.inj he).symm

theorem engOfWindow_engWindow (e : Cls) : engOfWindow (engWindow e / 0x1000) = some e := by cases e <;> rfl

theorem entry_ne {e k : Cls} (h : e ≠ k) : Reg.ENTRY c e ≠ Reg.ENTRY c k := by
  intro he
  have hw : engWindow e = engWindow k := by
    unfold Reg.ENTRY engBase at he
    omega
  have hk := engOfWindow_engWindow e
  rw [hw, engOfWindow_engWindow k] at hk
  exact h (Option.some.inj hk).symm

/-- A swap's pass over engines leaves the time and every register that is no engine's ENTRY. -/
theorem State.swapEngines_frame (es : List Cls) (s : State) :
    (es.foldl (State.swapEngine c) s).now = s.now ∧
      (∀ a, (∀ e ∈ es, a ≠ Reg.ENTRY c e) → (es.foldl (State.swapEngine c) s).reg a = s.reg a) ∧
      ∀ k, k ∉ es → ((es.foldl (State.swapEngine c) s).eng c k).stand = (s.eng c k).stand := by
  induction es generalizing s with
  | nil => exact ⟨rfl, fun _ _ => rfl, fun _ _ => rfl⟩
  | cons e es ih =>
    obtain ⟨hnow, hreg, hstand⟩ := State.swapEngine_frame (c := c) s e
    obtain ⟨hnow', hreg', hstand'⟩ := ih (s.swapEngine c e)
    refine ⟨hnow'.trans hnow, fun a ha => ?_, fun k hk => ?_⟩
    · obtain ⟨ha1, has⟩ := List.forall_mem_cons.1 ha
      exact (hreg' a has).trans (hreg a ha1)
    · obtain ⟨hk1, hks⟩ := not_or.1 (mt List.mem_cons.2 hk)
      exact (hstand' k hks).trans (hstand k fun h => hk1 (clsCode_injective h))

/-- In a swap's pass over distinct engines each stands at the end as its own part of the swap leaves it. -/
theorem State.swapEngines_stand {es : List Cls} (hnd : es.Nodup) {e : Cls} (he : e ∈ es) (s : State) :
    ∃ t : State, ((es.foldl (State.swapEngine c) s).eng c e).stand = ((t.swapEngine c e).eng c e).stand ∧
      t.now = s.now ∧ t.reg (Reg.ENTRY c e) = s.reg (Reg.ENTRY c e) := by
  induction es generalizing s with
  | nil => exact absurd he List.not_mem_nil
  | cons k es ih =>
    obtain ⟨hk, hes⟩ := List.nodup_cons.1 hnd
    rcases List.mem_cons.1 he with rfl | he
    · exact ⟨s, (State.swapEngines_frame es _).2.2 _ hk, rfl, rfl⟩
    · obtain ⟨t, hstand, hnow, hreg⟩ := ih hes he (s.swapEngine c k)
      obtain ⟨hnow', hreg', _⟩ := State.swapEngine_frame (c := c) s k
      have hne : e ≠ k := fun h => hk (h ▸ he)
      exact ⟨t, hstand, hnow.trans hnow', hreg.trans (hreg' _ (entry_ne hne))⟩

/-- A swap's change of HTH_BANK_CTL: the other bank is active, no swap is armed, and the swap is counted. -/
def State.swapCtl (s : State) (c : CoreId) : State :=
  ((s.setFld (Reg.HTH_BANK_CTL c) F.HTH_BANK_CTL_ACTIVE
    (1 - s.fld (Reg.HTH_BANK_CTL c) F.HTH_BANK_CTL_ACTIVE)).setFld (Reg.HTH_BANK_CTL c) F.HTH_BANK_CTL_ARMED 0).bump
      (Reg.HTH_BANK_CTL c) F.HTH_BANK_CTL_SWAPS 1

theorem State.reg_swapCtl {a : Nat} (ha : a ≠ Reg.HTH_BANK_CTL c) : (s.swapCtl c).reg a = s.reg a := by
  unfold State.swapCtl State.bump
  rw [State.reg_setFld_ne _ _ _ ha, State.reg_setFld_ne _ _ _ ha, State.reg_setFld_ne _ _ _ ha]

@[simp] theorem State.now_swapCtl : (s.swapCtl c).now = s.now := by
  unfold State.swapCtl
  rw [State.bump_now, State.setFld_now, State.setFld_now]

theorem State.active_swapCtl : (s.swapCtl c).fld (Reg.HTH_BANK_CTL c) F.HTH_BANK_CTL_ACTIVE =
    1 - s.fld (Reg.HTH_BANK_CTL c) F.HTH_BANK_CTL_ACTIVE := by
  unfold State.swapCtl State.bump
  rw [State.fld_setFld_apart _ (by decide) (by decide), State.fld_setFld_apart _ (by decide) (by decide),
    State.fld_setFld_self _ (by decide)]
  exact Nat.mod_eq_of_lt (Nat.lt_of_le_of_lt (Nat.sub_le _ _) (by decide))

theorem State.armed_swapCtl : (s.swapCtl c).isOn (Reg.HTH_BANK_CTL c) F.HTH_BANK_CTL_ARMED = false := by
  unfold State.swapCtl State.bump State.isOn
  rw [State.fld_setFld_apart _ (by decide) (by decide), State.fld_setFld_self _ (by decide)]
  rfl

theorem exec_bankSwap (hc : c.ok = true) {f : Nat} (hr : s.swapReady c = true) (hf : (s.core c).swapFrom = some f) :
    exec (.bankSwap c) s = .next ((allCls.foldl (State.swapEngine c) ((s.at (f + 2)).swapCtl c)).watchSwap c) := by
  refine (if_pos hc).trans ?_
  rw [hr, hf]
  rfl

theorem bankCtl_ne_entry (e : Cls) : Reg.HTH_BANK_CTL c ≠ Reg.ENTRY c e := by
  unfold Reg.HTH_BANK_CTL Reg.ENTRY engBase
  cases e <;> simp only [engWindow] <;> omega

theorem State.now_at (t : Nat) : (s.at t).now = Nat.max s.now t := by
  unfold State.at
  rw [Nat.max_eq_max]
  split
  · rename_i h
    exact (Nat.max_eq_right (Nat.le_of_lt h)).symm
  · rename_i h
    exact (Nat.max_eq_left (Nat.le_of_not_lt h)).symm

/-! ## Writes of a bank's window (R33, R100) -/

theorem State.spot_bank (hc : c.ok = true) (hd : s.siteDown c.die c.region = false) {bank off : Nat} (hb : bank < 2)
    (ho : off < 0x3000) (h8 : off % 8 = 0) :
    s.spot (coreBase c + 0x8000 + 0x3000 * bank + off) 64 = .ok (.instr c bank off) := by
  obtain ⟨hdie, hregion, hcore⟩ := CoreId.bounds hc
  have haddr : coreBase c + 0x8000 + 0x3000 * bank + off = coreBase c + (0x8000 + 0x3000 * bank + off) := by omega
  have hhome : s.homeUnit c.die c.region c.core = c.core := by
    unfold State.homeUnit
    rw [if_neg (by simp; omega), if_neg (by simp; omega)]
  unfold State.spot
  rw [haddr, siteOf_core hc (by omega), blockOf_core hc (by omega), unitOf_core hc (by omega), offsetOf_core (by omega)]
  dsimp only
  rw [hhome, if_pos (by simp; omega), if_neg (by simp; omega), hd, if_neg Bool.false_ne_true,
    show (0x8000 + 0x3000 * bank + off - 0x8000) / 0x3000 = bank by omega,
    show (0x8000 + 0x3000 * bank + off - 0x8000) % 0x3000 = off by omega]

theorem mgmtCommand_of_write {a width : Nat} {data : Word} {r : Nat × State} (h : s.mgmtWrite false a width data = r) :
    mgmtCommand a width data s = .next (r.2.completed r.1 0) := by
  unfold mgmtCommand
  rw [h]

theorem State.mgmtWrite_instr {a bank off : Nat} {k : CoreId} {data : Word} (hs : s.spot a 64 = .ok (.instr k bank off)) :
    s.mgmtWrite false a 64 data = s.writeInstr k bank off data := by
  unfold State.mgmtWrite
  rw [hs]
  rfl

theorem exec_instructionBankWrite (hc : c.ok = true) (hd : s.siteDown c.die c.region = false) {bank off : Nat} (hb : bank < 2)
    (ho : off < 0x3000) (h8 : off % 8 = 0) (data : Word) :
    exec (.instructionBankWrite c bank off 64 data) s =
      .next ((s.writeInstr c bank off data).2.completed (s.writeInstr c bank off data).1 0) := by
  change execInstructionBankWrite c bank off 64 data s = _
  unfold execInstructionBankWrite
  rw [if_pos (by rw [hc, Bool.true_and, decide_eq_true_eq]; exact hb), if_pos ho]
  exact mgmtCommand_of_write (State.mgmtWrite_instr (State.spot_bank hc hd hb ho h8))

end

/-- Settles O25: the control register's writes, the pass over the engines at a swap, and the window's write. -/
theorem bankControl : Obligations.BankControl := by
  unfold Obligations.BankControl
  intro s c a hc
  refine ⟨fun hd => ⟨?_, ?_⟩, fun f hr hf => ?_, fun hr => ?_, fun bank off data hb ho h8 hd => ⟨fun hne harm => ?_, fun hor => ?_⟩⟩
  · refine ⟨_, exec_bankArm hc hd, ?_, rfl, ?_, fun b hb => ?_⟩
    · rw [State.completed_isOn, State.isOn_watchSwap, State.isOn_setFld_self (by decide)]
      rfl
    · rw [State.completed_fld, State.fld_watchSwap, State.fld_setFld_apart s (by decide) (by decide)]
    · rw [State.completed_reg, State.reg_watchSwap, State.reg_setFld_ne s _ _ hb]
  · refine ⟨_, exec_bankDisarm hc hd, ?_, rfl, ?_, fun b hb => ?_⟩
    · rw [State.completed_isOn, State.isOn_watchSwap, State.isOn_setFld_self (by decide)]
      rfl
    · rw [State.completed_fld, State.fld_watchSwap, State.fld_setFld_apart s (by decide) (by decide)]
    · rw [State.completed_reg, State.reg_watchSwap, State.reg_setFld_ne s _ _ hb]
  · obtain ⟨u, hu⟩ : ∃ u, (s.at (f + 2)).swapCtl c = u := ⟨_, rfl⟩
    have hreg (b : Nat) (h : b ≠ a) : u.reg b = s.reg b := by rw [← hu, State.reg_swapCtl h, State.reg_at]
    have hnow : u.now = Nat.max s.now (f + 2) := by rw [← hu, State.now_swapCtl, State.now_at]
    have hactive : u.fld a F.HTH_BANK_CTL_ACTIVE = 1 - s.fld a F.HTH_BANK_CTL_ACTIVE := by
      rw [← hu, State.active_swapCtl, State.fld, State.reg_at]
      rfl
    have harmed : u.isOn a F.HTH_BANK_CTL_ARMED = false := by rw [← hu, State.armed_swapCtl]
    obtain ⟨hnow', hreg', -⟩ := State.swapEngines_frame (c := c) allCls u
    have hctl := hreg' a fun e _ => bankCtl_ne_entry e
    refine ⟨_, exec_bankSwap hc hr hf, ?_, ?_, ?_, fun e he => ?_⟩
    all_goals rw [hu]
    · rw [State.now_watchSwap, hnow', hnow]
    · rw [State.fld_watchSwap, State.fld, hctl]
      exact hactive
    · rw [State.isOn_watchSwap, State.isOn, State.fld, hctl]
      exact harmed
    · obtain ⟨t, hstand, htnow, htreg⟩ := State.swapEngines_stand (c := c) (es := allCls) (by decide) (e := e) (by cases e <;> decide) u
      rw [hreg _ (bankCtl_ne_entry e).symm] at htreg
      rw [State.now_watchSwap, hnow', ← htnow]
      rw [← State.stand_watchSwap c e] at hstand
      refine ⟨fun hv => ?_, fun hv => ?_⟩
      · have hvt : t.isOn (Reg.ENTRY c e) F.ENTRY_VALID = true := by rw [State.isOn, State.fld, htreg]; exact hv
        rw [State.swapEngine_started t e he hvt, State.fld, htreg] at hstand
        exact ⟨congrArg Prod.fst hstand, congrArg (Prod.fst ∘ Prod.snd) hstand, congrArg (Prod.snd ∘ Prod.snd) hstand⟩
      · have hvt : t.isOn (Reg.ENTRY c e) F.ENTRY_VALID = false := by rw [State.isOn, State.fld, htreg]; exact hv
        exact (congrArg Prod.fst hstand).trans (State.swapEngine_halted t e he hvt)
  · refine (if_pos hc).trans ?_
    rw [hr]
  · have hw : s.writeInstr c bank off data =
        (Code.done, (s.iwrite c bank off (leBytes 8 data.toNat)).setMark .istore (istoreAt c bank (off / 16 * 16)) 0) := by
      unfold State.writeInstr
      exact if_neg (by simp [hne, harm, a])
    refine ⟨_, exec_instructionBankWrite hc hd hb ho h8 data, ?_⟩
    rw [hw]
    have hlen := leBytes_length 8 data.toNat
    refine ⟨rfl, ?_, fun k hk => ?_, rfl, rfl, rfl, rfl, rfl⟩
    · have hr := Mem.read_write s.istore (istoreAt c bank off) (leBytes 8 data.toNat)
      rw [hlen] at hr
      exact hr
    · exact Mem.get_write_out (by rw [hlen]; exact hk)
  · have hw : s.writeInstr c bank off data = (Code.rejState, s) := by
      unfold State.writeInstr
      exact if_pos (by simpa using hor)
    rw [exec_instructionBankWrite hc hd hb ho h8 data, hw]

end Sys2Proof.Machine
end

section
/-! SUPPORT. GET, PUT and QSEND at their issue point, and one row of a transfer (R78 to R82, R298 to R301, R305). -/
namespace Sys2Proof.Machine

section
variable {s s1 s2 s3 s4 : State} {x : Ctx} {m : Xfer} {p : Place} {put : Bool} {code k : Nat}

/-- A transfer whose locator names no packet queue is one with a place. -/
theorem moveOp_of_place (hm : xferOf put x.w ((s.core x.c).locator (bits x.w 14 11)).loc.toNat
      ((s.core x.c).locator (bits x.w 14 11)).rstride = m)
    (hbad : m.hearthBad = false) (hp : placeOf s x.c m.loc = .ok p) (hq : ∀ l, p ≠ .queue l) :
    moveOp put x s = placeXfer x m p s := by
  unfold moveOp
  dsimp only
  rw [hm, hbad, if_neg Bool.false_ne_true, hp]
  cases p with
  | queue l => exact absurd rfl (hq l)
  | hearth c a => rfl
  | scratch d a => rfl
  | fabric a => rfl

theorem placeXfer_of_empty (hc : xferChecks s x.c m p = none) (he : m.empty = true) :
    placeXfer x m p s = .ok (Out.at (s.incLocator x m.rows) x.t) := by
  unfold placeXfer
  rw [hc]
  exact if_pos he

theorem placeXfer_of_transfer (hc : xferChecks s x.c m p = none) (he : m.empty = false)
    (hs : xferSilent (s.incLocator x m.rows) m p = false)
    (hi : ∀ i ∈ ((s.incLocator x m.rows).eng x.c x.e).inflight, i.awaits ≠ .requests)
    (ht : (s.incLocator x m.rows).transfer x.c m p = (code, s3)) :
    placeXfer x m p s = .ok
      { Out.at s3 (x.t + xferTime x.c m p) with
        code := code, dst := if code = Code.failMemory ∧ m.put = false then m.hearthRows else [] } := by
  have hany : ((s.incLocator x m.rows).eng x.c x.e).inflight.any (fun i => decide (i.awaits = .requests)) = false := by
    rw [List.any_eq_false]
    intro i h
    rw [decide_eq_true_eq]
    exact hi i h
  unfold placeXfer
  rw [hc]
  dsimp only
  rw [he, hs, hany, if_neg Bool.false_ne_true, if_neg (by simp), ht]
  cases m.put <;> simp

/-! ## A row between the hearth and a scratchpad (R80) -/

theorem Mem.length_read (m : List Host.Cell) (a n : Nat) : (Mem.read m a n).length = n := by
  induction n generalizing a with
  | zero => rfl
  | succ n ih => rw [Mem.read, List.length_cons, ih]

theorem State.findMark_of_clean (hm : s.marks = []) (sp : MarkSpace) (w n : Nat) : s.findMark sp w 2 n = none := by
  induction n generalizing w with
  | zero => rfl
  | succ n ih =>
    have h0 : s.mark sp w = 0 := by
      unfold State.mark
      rw [hm]
      rfl
    rw [State.findMark, h0, if_neg (by decide), ih]

/-- A scratchpad where no stored word shows an error reads as it stands. -/
theorem State.scratchRead_of_clean (hm : s.marks = []) (d a n : Nat) :
    s.scratchRead d a n = ((Code.done, s.sread d a n), s) := by
  have hs : { s with marks := [] } = s := by rw [← hm]
  unfold State.scratchRead
  dsimp only
  rw [State.findMark_of_clean hm, hm]
  simp only [List.filter_nil, List.isEmpty_nil, if_true, hs]

theorem State.readNoting_scratch (hm : s.marks = []) (die d a n : Nat) :
    s.readNoting die (.scratch d a) n = ((Code.done, s.sread d a n), s) := by
  unfold State.readNoting State.placeRead
  dsimp only
  rw [State.scratchRead_of_clean hm, hm]
  rfl

theorem State.readNoting_hearth (hm : s.marks = []) (die : Nat) (c : CoreId) (a n : Nat) :
    s.readNoting die (.hearth c a) n = ((Code.done, s.hread c a n), s) := by
  have hr : readHearth s c [(a, n)] = (none, s) := by
    unfold readHearth
    rw [hm]
    rfl
  unfold State.readNoting State.placeRead
  dsimp only
  rw [hr, hm]
  rfl

section
variable {c : CoreId} {d a : Nat} (hm : s.marks = []) (r : Nat)
include hm

/-- A row from a scratchpad is stored in the hearth. -/
theorem State.moveRow_in {y : Xfer} (hput : y.put = false) :
    (s.moveRow c y (.scratch d a) r).2 = s.hwrite c (y.haddr + r * y.hstride) (s.sread d (a + r * y.rstride) y.len) := by
  unfold State.moveRow
  rw [hput]
  dsimp only [Place.plus]
  rw [if_neg Bool.false_ne_true]
  dsimp only
  rw [State.readNoting_scratch hm]
  rfl

/-- A row from the hearth is stored in a scratchpad. -/
theorem State.moveRow_out {y : Xfer} (hput : y.put = true) :
    (s.moveRow c y (.scratch d a) r).2 = s.swrite d (a + r * y.rstride) (s.hread c (y.haddr + r * y.hstride) y.len) := by
  unfold State.moveRow
  rw [hput]
  dsimp only [Place.plus]
  rw [if_pos rfl]
  dsimp only
  rw [State.readNoting_hearth hm]
  rfl

end

/-! ## QSEND (R305, R361) -/

theorem qsendOp_ok {pl : Place} {bs : List Byte} (h32 : bits x.w 16 0 % 32 = 0)
    (hread : readHearth s x.c [(bits x.w 16 0, 32)] = (none, s2)) (hlast : s2.hnat x.c (bits x.w 16 0 + 24) 8 = 0)
    (hen : F.MOV_QCFG_ENABLE.on (queueCfg s2 x.c (bits x.w 19 17)) = true)
    (hlen : P.length.get (BitVec.ofNat 64 (s2.hnat x.c (bits x.w 16 0) 8)) ≤ 8192)
    (hg : grateCheck s2 x.c .free (s2.contextOf x.c) 0 [] 0 (s2.hnat x.c (bits x.w 16 0 + 16) 8) = none)
    (hp : placeOf s2 x.c (s2.hnat x.c (bits x.w 16 0 + 16) 8) = .ok pl)
    (hr : s2.readNoting x.c.die pl (P.length.get (BitVec.ofNat 64 (s2.hnat x.c (bits x.w 16 0) 8))) = ((code, bs), s3))
    (hcode : code ≠ Code.failMemory)
    (hin : s3.tryInject (s3.contextOf x.c) (some x.c) x.pc false
      [s3.queued x.c (bits x.w 19 17) (s3.contextOf x.c) (BitVec.ofNat 64 (s2.hnat x.c (bits x.w 16 0) 8))
        (BitVec.ofNat 64 (s3.hnat x.c (bits x.w 16 0 + 8) 8)) bs (s2.hnat x.c (bits x.w 16 0 + 16) 8)] = (some k, s4))
    (hk : Code.family k = 0) :
    qsendOp x s = .ok { Out.at s4 (x.t + 6) with code := mergeSuccess code k } := by
  have hrec : recordChecks s2 x.c (bits x.w 16 0) = none :=
    firstCode_eq_none (by simp [h32, hlast])
  unfold qsendOp
  dsimp only
  rw [if_neg (by simp [h32])]
  refine (withReads_of_clean hread _ _ _).trans ?_
  rw [firstCode_eq_none (by simp [hrec, hen]; exact hlen)]
  dsimp only
  rw [hg]
  dsimp only
  rw [hp]
  simp only [hr]
  rw [if_neg hcode]
  unfold injectOut
  rw [hin]
  exact if_pos hk

end

/-- Settles O11: a placed transfer's effect, one row through reads and writes of memory, and QSEND's effect. -/
theorem moveCommands : Obligations.MoveCommands := by
  unfold Obligations.MoveCommands
  refine ⟨?_, ?_, ?_⟩
  · intro s s1 s3 c h take p put code w x l m cmd s2 hp hbad hplace hq hchecks
    have hi : engineOp cmd = some (c, .move, moveSpec (if put then 0x01 else 0x00) [(50, 0)] 1 (moveOp put)) := by
      cases put <;> rfl
    have hop : moveOp put x s1 = placeXfer x m p s1 := moveOp_of_place rfl hbad hplace hq
    refine ⟨fun he => ?_, fun he hs hi' ht => ?_⟩
    · exact exec_issues_of_body (body := moveOp put) hp hi rfl (hop.trans (placeXfer_of_empty hchecks he))
    · exact exec_issues_of_body (body := moveOp put) hp hi rfl (hop.trans (placeXfer_of_transfer hchecks he hs hi' ht))
  · intro s c x d a r from_ far t hm
    refine ⟨fun hput => ?_, fun hput => ?_⟩
    · have ht : t = s.hwrite c from_ (s.sread d far x.len) := State.moveRow_in hm r hput
      have hlen : (s.sread d far x.len).length = x.len := Mem.length_read _ _ _
      rw [ht]
      refine ⟨?_, rfl, fun k hk => ?_⟩
      · have hr := Mem.read_write s.hearth (hearthAt c from_) (s.sread d far x.len)
        rw [hlen] at hr
        exact hr
      · exact Mem.get_write_out (by rw [hlen]; exact hk)
    · have ht : t = s.swrite d far (s.hread c from_ x.len) := State.moveRow_out hm r hput
      have hlen : (s.hread c from_ x.len).length = x.len := Mem.length_read _ _ _
      rw [ht]
      refine ⟨?_, rfl, fun k hk => ?_⟩
      · have hr := Mem.read_write s.scratch (d * 0x8000000 + far) (s.hread c from_ x.len)
        rw [hlen] at hr
        exact hr
      · exact Mem.get_write_out (by rw [hlen]; exact hk)
  · intro s s1 s2 s3 s4 c h take pl code k bs w a q w0 buf x hp h32 hread hlast hen hlen hg hpl hr hcode hin hk
    have hout := qsendOp_ok (x := x) h32 hread hlast hen hlen hg hpl hr hcode hin hk
    exact exec_issues_of_body (body := qsendOp) hp rfl rfl hout

end Sys2Proof.Machine
end

section
/-! SUPPORT. ALLOC, FREE, SHARE and GIVE at their issue point, and what they do to one buffer (R354 to R362). -/
namespace Sys2Proof.Machine

section
variable {s s2 : State} {x : Ctx} {c : CoreId} {op : GrateOp} {ctx owner l : Nat} {ls : List Nat}

theorem allocOp_ok (hlist : listBad x.w = false) (hlast : gLast x.w < 3) (hfirst : gFirst x.w ≤ gLast x.w)
    (hreq : s.request (s.contextOf x.c) (chainOf x.c (gFirst x.w) (gLast x.w)) (gCount x.w) true = (some ls, s2)) :
    allocOp x s = .ok
      { Out.at (s2.storeList x.c (gList x.w) ls) (x.t + grateTime ls) with dst := [(gList x.w, 8 * gCount x.w)] } := by
  unfold allocOp
  dsimp only
  rw [firstCode_eq_none (by simp [hlist]; omega)]
  dsimp only
  rw [hreq]

theorem ownersOp_ok (hlist : listBad x.w = false) (hown : op = .free ∨ ownerOk (gOwner x.w) = true)
    (hls : (List.range (gCount x.w)).map (fun i => s2.hnat x.c (gList x.w + 8 * i) 8) = ls)
    (hread : readHearth s x.c [(gList x.w, 8 * gCount x.w)] = (none, s2))
    (hchecks : grateChecks s2 x.c op (s.contextOf x.c) (gOwner x.w) ls.zipIdx ls.zipIdx = none) :
    ownersOp op x s = .ok (Out.at (ls.foldl (fun u l => u.grateApply x.c op (s.contextOf x.c) (gOwner x.w) l) s2)
      (x.t + grateTime ls)) := by
  unfold ownersOp
  dsimp only
  rw [if_neg (by rcases hown with h | h <;> simp [h, hlist])]
  refine (withReads_of_clean hread _ _ _).trans ?_
  rw [hls, hchecks]

/-! ## One buffer (R362) -/

theorem State.buffer_setBuffer_self (p : Pool) (i : Nat) (b : BufRec) : (s.setBuffer p i b).buffer p i = b :=
  (AMap.get_set _ _ _ _ _).trans (if_pos rfl)

theorem State.buffer_setBuffer_ne {p p' : Pool} {i k : Nat} (h : p'.bufKey k ≠ p.bufKey i) (b : BufRec) :
    (s.setBuffer p i b).buffer p' k = s.buffer p' k :=
  (AMap.get_set _ _ _ _ _).trans (if_neg h)

/-- The record that an operation leaves of a buffer. -/
def BufRec.after (op : GrateOp) (ctx owner : Nat) (b : BufRec) : BufRec :=
  match op with
  | .free =>
    let slots := b.slots.map fun x => if x = some ctx then none else x
    if slots.all Option.isNone && !b.withdrawn then BufRec.free else { b with slots := slots }
  | .share => { b with slots := addOwner owner b.slots }
  | .give => { b with slots := b.slots.map fun x => if x = some ctx then some owner else x }

/-- An operation sets the record of the buffer that its locator names, and that alone. -/
theorem State.grateApply_of_buffer {pl : Place} {p : Pool} {i : Nat} (hp : placeOf s c l = .ok pl)
    (hb : s.bufferAt pl = some (p, i)) :
    s.grateApply c op ctx owner l = s.setBuffer p i ((s.buffer p i).after op ctx owner) := by
  unfold State.grateApply
  rw [hp]
  dsimp only
  rw [hb]
  cases op with
  | free =>
    simp only [BufRec.after, State.removeOwner]
    split <;> rfl
  | share => rfl
  | give => rfl

theorem BufRec.after_free_last {b : BufRec} (hw : b.withdrawn = false) (h : ∀ x ∈ b.slots, x = none ∨ x = some ctx) :
    b.after .free ctx owner = BufRec.free := by
  have hall : (b.slots.map fun x => if x = some ctx then none else x).all Option.isNone = true := by
    rw [List.all_map, List.all_eq_true]
    intro y hy
    rcases h y hy with rfl | rfl <;> simp
  unfold BufRec.after
  dsimp only
  rw [hall, hw]
  rfl

theorem BufRec.after_free_shared {b : BufRec} (h : ∃ x ∈ b.slots, x ≠ none ∧ x ≠ some ctx) :
    b.after .free ctx owner = { b with slots := b.slots.map fun x => if x = some ctx then none else x } := by
  have hall : (b.slots.map fun x => if x = some ctx then none else x).all Option.isNone = false := by
    obtain ⟨y, hy, hnone, hctx⟩ := h
    rw [List.all_map, List.all_eq_false]
    exact ⟨y, hy, by simpa [hctx] using hnone⟩
  unfold BufRec.after
  dsimp only
  rw [hall]
  rfl

end

/-- Settles O12: both effects at their issue point; each operation sets one buffer's record. -/
theorem grateCommands : Obligations.GrateCommands := by
  unfold Obligations.GrateCommands
  refine ⟨?_, ?_⟩
  · intro s s1 s2 c h take ls op w n ctx cmd spec locs hlist
    let x : Ctx := ⟨c, .move, w, (s1.eng c .move).pc, s1.now⟩
    refine ⟨fun hp hlast hfirst hreq => ?_, fun hp hown hread hchecks => ?_⟩
    · have hout := allocOp_ok (x := x) hlist hlast hfirst hreq
      exact exec_issues_of_body (body := allocOp) hp rfl rfl hout
    · have hout := ownersOp_ok (x := x) (op := op) hlist hown rfl hread hchecks
      have hi : engineOp cmd = some (c, .move, spec) := by cases op <;> rfl
      have hbody : spec.body = ownersOp op := by cases op <;> rfl
      exact exec_issues_of_body (body := ownersOp op) hp hi hbody hout
  · intro s c op ctx o l i pl p b t hp hb
    have ht : t = s.setBuffer p i (b.after op ctx o) := State.grateApply_of_buffer hp hb
    have hself : t.buffer p i = b.after op ctx o := by rw [ht, State.buffer_setBuffer_self]
    refine ⟨fun h => ?_, fun h => ?_, fun h hw hlast => ?_, fun h hshared => ?_, fun p' k hk => ?_, ?_, ?_, ?_, ?_⟩
    · rw [hself, h]
      rfl
    · rw [hself, h]
      rfl
    · rw [hself, h, BufRec.after_free_last hw hlast]
    · rw [hself, h, BufRec.after_free_shared hshared]
    · rw [ht, State.buffer_setBuffer_ne hk]
    all_goals rw [ht]; rfl

end Sys2Proof.Machine
end

section
/-! SUPPORT. Time messages, holdover, and the writes of ALM_CTL and ALM_SET (R149 to R159). -/
namespace Sys2Proof.Machine

section
variable {s : State}

theorem firstCode_cons_of_true {bad : Bool} (h : bad = true) (code : Nat) (rest : List (Bool × Nat)) :
    firstCode ((bad, code) :: rest) = some code := by
  rw [firstCode, if_pos h]

/-! ## Time messages (R151) -/

theorem slice_length (bs : List Byte) (lo n : Nat) : (slice bs lo n).length = n := by
  unfold slice
  dsimp only
  rw [List.length_append, List.length_replicate, List.length_take]
  omega

theorem timeBytes_length {tx : List Byte} (htx : tx.length = 10) (seq : Nat) (seen : List Byte) (locked root : Bool) (depth : Nat) :
    (timeBytes seq tx seen locked root depth).length = 48 := by
  unfold timeBytes
  simp only [List.length_append, leBytes_length, slice_length, List.length_replicate, htx]

theorem State.stamp_length : s.stamp.1.length = 10 := by
  unfold State.stamp
  simp only [List.length_append, leBytes_length]

@[simp] theorem State.portTime_setPortTime_self (p : Nat) (x : PortTime) : (s.setPortTime p x).portTime p = x :=
  (AMap.get_set _ _ _ _ _).trans (if_pos rfl)

@[simp] theorem State.port_setPort_self (p : Nat) (x : Port) : (s.setPort p x).port p = x :=
  (AMap.get_set _ _ _ _ _).trans (if_pos rfl)

theorem State.port_setPort_ne {p q : Nat} (h : q ≠ p) (x : Port) : (s.setPort p x).port q = s.port q :=
  (AMap.get_set _ _ _ _ _).trans (if_neg h)

theorem State.port_at (t p : Nat) : (s.at t).port p = s.port p := by
  unfold State.at
  split <;> rfl

/-! ## Received messages (R152, R157) -/

/-- The state in which a heard message has been kept for the echo. -/
def State.keepTime (u : State) (port : Nat) (m : List Byte) : State :=
  u.stamp.2.setPortTime port { u.stamp.2.portTime port with seen := slice m 0 12 ++ u.stamp.1 }

/-- The message echoes one that the port sent in the last 4 µs. -/
def State.echoes (u : State) (port : Nat) (m : List Byte) : Bool :=
  (u.stamp.2.portTime port).sent.any fun k => k.1 = leAt m 12 2 && decide ((u.keepTime port m).now ≤ k.2.1 + 4000)

/-- The offset that a heard message gives (R152). -/
def State.thetaOf (u : State) (port : Nat) (m : List Byte) : Int :=
  offsetOfMsg (stampNat (slice m 14 10)) (stampNat (slice m 24 10)) (stampNat (slice m 2 10)) (stampNat u.stamp.1)
    (toSigned 32 ((u.keepTime port m).fld (Reg.LNK_ASYM port) F.LNK_ASYM_PS))

/-- The state in which a message of the followed port has moved the servo. -/
def State.takeTheta (v : State) (port : Nat) (theta : Int) (depth : Nat) : State :=
  if (followed v).map Prod.fst = some port then v.servo theta depth else v

section
variable {u : State} {port : Nat} {f : Frame} {m : List Byte}

theorem exec_time_of_heard (hp : port < 1024) (hh : s.hearCtrl port 1 f = some (u, m)) :
    exec (.time port f) s = .next (if u.echoes port m then
      if isParent ((u.keepTime port m).takeTheta port (u.thetaOf port m) (leAt m 35 1)) port then
        (u.keepTime port m).takeTheta port (u.thetaOf port m) (leAt m 35 1)
      else ((u.keepTime port m).takeTheta port (u.thetaOf port m) (leAt m 35 1)).crossCheck port (u.thetaOf port m)
    else u.keepTime port m) := by
  have htake (v : State) (theta : Int) (depth : Nat) : (match followed v with
      | some (p, _) => if p = port then v.servo theta depth else v
      | none => v) = v.takeTheta port theta depth := by
    unfold State.takeTheta
    cases followed v with
    | none => rfl
    | some q => simp only [Option.map_some, Option.some.injEq]
  refine (if_pos (decide_eq_true hp)).trans ?_
  rw [hh]
  simp only [← htake]
  rfl

theorem exec_time_of_unheard (hp : port < 1024) (hh : s.hear port f = none) : exec (.time port f) s = .next s := by
  have hc : s.hearCtrl port 1 f = none := by
    unfold State.hearCtrl
    rw [hh]
  refine (if_pos (decide_eq_true hp)).trans ?_
  rw [hc]
  dsimp only
  unfold State.heardOnly
  rw [hh]
  rfl

end

/-! ## OUT_OF_STEP (R156) -/

theorem State.lock_at (t : Nat) : (s.at t).lock = s.lock := by
  unfold State.at
  split <;> rfl

theorem State.lock_log (d : Detection) : (s.log d).lock = s.lock := by
  unfold State.log
  dsimp only
  split
  · rfl
  · split <;> rfl

theorem State.lock_outOfStep : s.outOfStep.lock = s.lock := by
  unfold State.outOfStep State.logTime State.logAt
  rw [State.lock_log]
  rfl

/-! ## RELOCK (R155) -/

/-- The bits of ALM_CTL that a write keeps: all but RELOCK. -/
def almCtlKept (w : Word) : Word := BitVec.ofNat 64 (bits w.toNat 31 31 * 2 ^ 31 + bits w.toNat 29 3 * 8)

theorem get_almCtlKept {f : Fld} (hf : f ∈ [F.ALM_CTL_ROOT, F.ALM_CTL_PARENT_VALID, F.ALM_CTL_PARENT_PORT]) (w : Word) :
    f.get (almCtlKept w) = f.get w := by
  simp only [List.mem_cons, List.not_mem_nil, or_false] at hf
  rcases hf with rfl | rfl | rfl <;>
    simp only [almCtlKept, Fld.get, bits, BitVec.toNat_ofNat, F.ALM_CTL_ROOT, F.ALM_CTL_PARENT_VALID, F.ALM_CTL_PARENT_PORT] <;>
    omega

theorem on_almCtlKept {f : Fld} (hf : f ∈ [F.ALM_CTL_ROOT, F.ALM_CTL_PARENT_VALID, F.ALM_CTL_PARENT_PORT]) (w : Word) :
    f.on (almCtlKept w) = f.on w := by
  unfold Fld.on
  rw [get_almCtlKept hf]

theorem get_relock {f : Fld} (hf : F.ALM_CTL_RELOCK.apart f) (w : Word) : f.get (F.ALM_CTL_RELOCK.put w 1) = f.get w :=
  Fld.get_put_apart (by decide) hf w 1

theorem lnkPort_ne_alm (p : Nat) : Reg.LNK_PORT_STATUS p ≠ Reg.ALM_CTL ∧ Reg.LNK_PORT_STATUS p ≠ Reg.ALM_STATUS ∧
    Reg.LNK_PORT_CFG p ≠ Reg.ALM_CTL ∧ Reg.LNK_PORT_CFG p ≠ Reg.ALM_STATUS := by
  simp only [Reg.LNK_PORT_STATUS, Reg.LNK_PORT_CFG, Reg.ALM_CTL, Reg.ALM_STATUS, laneBase, unitBase]
  omega

theorem on_relock (w : Word) : F.ALM_CTL_RELOCK.on (F.ALM_CTL_RELOCK.put w 1) = true := by
  rw [Fld.on, Fld.get_put (by decide)]
  rfl

/-- Acquisition begins again, with the one step allowed: the state that RELOCK leaves before the ports are looked at. -/
def State.reacquire (s : State) (w : Word) : State :=
  { (s.setReg Reg.ALM_CTL w).setFld Reg.ALM_STATUS F.ALM_STATUS_STATE 1 with lock := ⟨true, 0, 0, none⟩ }

theorem State.reg_reacquire {a : Nat} (w : Word) (h : a ≠ Reg.ALM_STATUS) :
    (s.reacquire w).reg a = if a = Reg.ALM_CTL then w else s.reg a :=
  (State.reg_setFld_ne _ _ _ h).trans (State.reg_setReg s _ _ w)

theorem trained_reacquire (w : Word) (p : Nat) : trained (s.reacquire w) p = trained s p := by
  obtain ⟨h1, h2, h3, h4⟩ := lnkPort_ne_alm p
  unfold trained State.isUp State.isEth State.portState State.fld
  rw [State.reg_reacquire w h2, if_neg h1, State.reg_reacquire w h4, if_neg h3]

theorem freeRuns_reacquire (w : Word) :
    freeRuns (s.reacquire w) = (F.ALM_CTL_ROOT.on w || !F.ALM_CTL_PARENT_VALID.on w) := by
  unfold freeRuns
  rw [State.reg_reacquire w (by decide), if_pos rfl]

theorem State.fld_setLock (l : Lock) (a : Nat) (f : Fld) : { s with lock := l }.fld a f = s.fld a f := rfl

theorem State.almState_reacquire (w : Word) : (s.reacquire w).almState = 1 := by
  unfold State.almState State.reacquire
  rw [State.fld_setLock, State.fld_setFld_self _ (by decide)]
  rfl

/-- A follower whose parent is up follows it: acquisition goes on where it has begun (R150, R154). -/
theorem State.follow_acquiring {t : State} (hfree : freeRuns t = false)
    (hup : trained t (F.ALM_CTL_PARENT_PORT.get (t.reg Reg.ALM_CTL)) = true) (hst : t.almState = 1) :
    t.follow = t.setFld Reg.ALM_STATUS F.ALM_STATUS_ON_BACKUP 0 := by
  have hf : followed t = some (F.ALM_CTL_PARENT_PORT.get (t.reg Reg.ALM_CTL), false) := by
    unfold followed
    dsimp only
    rw [hfree, if_neg Bool.false_ne_true]
    exact if_pos hup
  have hst' : (t.setFld Reg.ALM_STATUS F.ALM_STATUS_ON_BACKUP 0).almState = 1 := by
    unfold State.almState at hst ⊢
    rw [State.fld_setFld_apart t (by decide) (by decide), hst]
  unfold State.follow
  rw [hfree, if_neg Bool.false_ne_true, hf]
  dsimp only
  rw [if_neg Bool.false_ne_true, hst']
  exact if_neg (by decide)

theorem State.writeAlmCtl_relock (hm : s.mstate = MState.banked) (hfree : freeRuns s = false)
    (hk : 8 ≤ F.ALM_CTL_K.get (s.reg Reg.ALM_CTL) ∧ F.ALM_CTL_K.get (s.reg Reg.ALM_CTL) ≤ 20)
    (hup : trained s (F.ALM_CTL_PARENT_PORT.get (s.reg Reg.ALM_CTL)) = true)
    (hbackup : F.ALM_CTL_BACKUP_VALID.on (s.reg Reg.ALM_CTL) = true →
      trained s (F.ALM_CTL_BACKUP_PORT.get (s.reg Reg.ALM_CTL)) = true) :
    ∃ w, s.writeAlmCtl (F.ALM_CTL_RELOCK.put (s.reg Reg.ALM_CTL) 1) =
      (Code.done, (s.reacquire w).setFld Reg.ALM_STATUS F.ALM_STATUS_ON_BACKUP 0) := by
  obtain ⟨w, hw⟩ : ∃ w, F.ALM_CTL_RELOCK.put (s.reg Reg.ALM_CTL) 1 = w := ⟨_, rfl⟩
  have hget (f : Fld) (hf : F.ALM_CTL_RELOCK.apart f) : f.get w = f.get (s.reg Reg.ALM_CTL) := by rw [← hw, get_relock hf]
  have hon (f : Fld) (hf : F.ALM_CTL_RELOCK.apart f) : f.on w = f.on (s.reg Reg.ALM_CTL) := by rw [Fld.on, Fld.on, hget f hf]
  have hrelock : F.ALM_CTL_RELOCK.on w = true := hw ▸ on_relock _
  obtain ⟨hroot, hparent⟩ : F.ALM_CTL_ROOT.on (s.reg Reg.ALM_CTL) = false ∧ F.ALM_CTL_PARENT_VALID.on (s.reg Reg.ALM_CTL) = true := by
    simpa [freeRuns] using hfree
  have hfree' : freeRuns (s.setReg Reg.ALM_CTL (almCtlKept w)) = false := by
    unfold freeRuns
    dsimp only
    rw [State.reg_setReg_self, on_almCtlKept (by simp), on_almCtlKept (by simp), hon _ (by decide), hon _ (by decide), hroot, hparent]
    rfl
  have hfree'' : freeRuns (s.reacquire (almCtlKept w)) = false := by
    rw [freeRuns_reacquire, on_almCtlKept (by simp), on_almCtlKept (by simp), hon _ (by decide), hon _ (by decide), hroot, hparent]
    rfl
  have hup' : trained (s.reacquire (almCtlKept w)) (F.ALM_CTL_PARENT_PORT.get ((s.reacquire (almCtlKept w)).reg Reg.ALM_CTL)) = true := by
    rw [trained_reacquire, State.reg_reacquire _ (by decide), if_pos rfl, get_almCtlKept (by simp), hget _ (by decide)]
    exact hup
  refine ⟨almCtlKept w, ?_⟩
  rw [hw]
  unfold State.writeAlmCtl
  dsimp only
  rw [firstCode_eq_none (by
    simp only [List.forall_mem_cons]
    refine ⟨?_, ?_, ?_, ?_, ?_, ?_, ?_, fun p hp => absurd hp List.not_mem_nil⟩
    · simp [hm]
    · simp [hm]
    · rw [hget _ (by decide)]
      simp only [Bool.or_eq_false_iff, decide_eq_false_iff_not]
      omega
    · rw [hget _ (by decide)]
      simp
    · rw [hget _ (by decide)]
      simp
    · rw [hget F.ALM_CTL_PARENT_PORT (by decide), hup]
      simp
    · rw [hget F.ALM_CTL_BACKUP_PORT (by decide), hon F.ALM_CTL_BACKUP_VALID (by decide)]
      cases hb : F.ALM_CTL_BACKUP_VALID.on (s.reg Reg.ALM_CTL)
      · simp
      · simp [hbackup hb])]
  dsimp only
  rw [← almCtlKept, hfree', hrelock, Bool.or_true, hon _ (by decide), hroot, if_neg Bool.false_ne_true]
  change (Code.done, (s.reacquire (almCtlKept w)).follow) = _
  rw [State.follow_acquiring hfree'' hup' (State.almState_reacquire _)]

end

/-! ## TIME_MESSAGE_SEND -/

section
variable {s : State}

/-- The state in which a port sends: 1 µs after its last message (R151). -/
def State.sendInstant (s : State) (port : Nat) : State :=
  if (s.portTime port).last = 0 then s else s.at ((s.portTime port).last - 1 + 1000)

theorem State.now_sendInstant (port : Nat) : (s.sendInstant port).now =
    if (s.portTime port).last = 0 then s.now else Nat.max s.now ((s.portTime port).last - 1 + 1000) := by
  unfold State.sendInstant
  split
  · rfl
  · exact State.now_at _

theorem State.port_sendInstant (port p : Nat) : (s.sendInstant port).port p = s.port p := by
  unfold State.sendInstant
  split
  · rfl
  · exact State.port_at _ _

/-- What a port notes of its messages when it sends one stamped `tx`, in state `u` (R151, R152). -/
def PortTime.sends (x : PortTime) (u : State) (tx : List Byte) : PortTime :=
  { x with seq := (x.seq + 1) % 65536, last := u.now + 1,
           sent := (x.seq, u.now, tx) :: x.sent.filter (fun m => u.now ≤ m.2.1 + 4000) }

/-- The message stamped `tx` that a port sends in state `u`, with what it has last seen (R151). -/
def State.timeMessage (u : State) (port : Nat) (tx seen : List Byte) : List Byte :=
  timeBytes (u.portTime port).seq tx seen u.isLocked (u.isOn Reg.ALM_CTL F.ALM_CTL_ROOT) (u.fld Reg.ALM_STATUS F.ALM_STATUS_DEPTH)

theorem State.timeMessage_length {tx : List Byte} (htx : tx.length = 10) (port : Nat) (seen : List Byte) :
    (s.timeMessage port tx seen).length = 48 := timeBytes_length htx _ _ _ _ _

theorem exec_timeMessageSend {port : Nat} (hp : port < 1024) (hup : s.isUp port = true) (heth : s.isEth port = false) :
    exec (.timeMessageSend port) s = .next
      (((s.sendInstant port).stamp.2.setPortTime port
        ((s.portTime port).sends (s.sendInstant port).stamp.2 (s.sendInstant port).stamp.1)).sendCtrl port
          (ctrlBody 1 ((s.sendInstant port).stamp.2.timeMessage port (s.sendInstant port).stamp.1 (s.portTime port).seen))) := by
  refine (if_pos (decide_eq_true hp)).trans ?_
  rw [hup, heth, if_neg (by decide)]
  rfl

theorem State.ctrl_sendCtrl (port : Nat) (body : List Byte) : ((s.sendCtrl port body).port port).ctrl = (s.port port).ctrl ++ [body] := by
  unfold State.sendCtrl
  rw [State.port_setPort_self]

theorem State.portTime_sendCtrl (port p : Nat) (body : List Byte) : (s.sendCtrl port body).portTime p = s.portTime p := rfl

end

theorem exec_relock (s : State) : exec .relock s =
    .next ((s.writeAlmCtl (F.ALM_CTL_RELOCK.put (s.reg Reg.ALM_CTL) 1)).2.completed
      (s.writeAlmCtl (F.ALM_CTL_RELOCK.put (s.reg Reg.ALM_CTL) 1)).1 0) := rfl

theorem State.writeAlmCtl_relock_refused {s : State} {w : Word} (hr : F.ALM_CTL_RELOCK.on w = true) (hm : s.mstate ≠ MState.banked) :
    s.writeAlmCtl w = (Code.rejState, s) := by
  unfold State.writeAlmCtl
  dsimp only
  rw [firstCode_cons_of_true (by rw [hr, decide_eq_false hm]; rfl)]

/-- Settles O31: the message that is sent, the offset that a heard one gives, and the writes of ALM_CTL and ALM_SET. -/
theorem timeKeeping : Obligations.TimeKeeping := by
  unfold Obligations.TimeKeeping
  intro s u port f m t count x v echoed theta ctl
  have hheard (hp : port < 1024) (hh : s.hearCtrl port 1 f = some (u, m)) : exec (.time port f) s = .next (if echoed then
      if isParent (v.takeTheta port theta (leAt m 35 1)) port then v.takeTheta port theta (leAt m 35 1)
      else (v.takeTheta port theta (leAt m 35 1)).crossCheck port theta else v) := exec_time_of_heard hp hh
  refine ⟨fun hp hup heth => ?_, fun hp hup => ?_, fun hp hh => exec_time_of_unheard hp hh, fun hp hh => ⟨fun he => ?_, fun he hf hpar => ?_,
    fun he hf hpar => ?_⟩, fun hst hhold => ?_, rfl, fun hm hfree hk1 hk2 hparent hbackup => ?_, fun hm => ?_, fun hroot hl hsh hidle => ?_,
    fun hno => ?_⟩
  · refine ⟨_, (s.sendInstant port).stamp.2.timeMessage port (s.sendInstant port).stamp.1 (s.portTime port).seen,
      exec_timeMessageSend hp hup heth, State.timeMessage_length State.stamp_length _ _, ?_, ?_, State.now_sendInstant port⟩
    · rw [State.ctrl_sendCtrl]
      exact congrArg (fun y : Port => y.ctrl ++ _) (State.port_sendInstant port port)
    · rw [State.portTime_sendCtrl, State.portTime_setPortTime_self]
      rfl
  · refine (if_pos (decide_eq_true hp)).trans ?_
    rw [hup]
    rfl
  · rw [hheard hp hh, if_neg (ne_true_of_eq_false he)]
  · have htake : v.takeTheta port theta (leAt m 35 1) = v.servo theta (leAt m 35 1) := if_pos hf
    rw [hheard hp hh, if_pos he, htake, if_pos hpar]
  · have htake : v.takeTheta port theta (leAt m 35 1) = v := if_neg hf
    rw [hheard hp hh, if_pos he, htake, if_neg (ne_true_of_eq_false hpar)]
  · have hexec : exec .holdoverTimeout s = .next { (s.at (t + 1000000)).outOfStep with lock := { s.lock with holdAt := none } } := by
      change execHoldoverTimeout s = _
      unfold execHoldoverTimeout
      rw [hst, hhold]
      rfl
    rw [hexec, State.lock_outOfStep, State.lock_at]
  · obtain ⟨w, hw⟩ := State.writeAlmCtl_relock hm hfree ⟨hk1, hk2⟩ hparent hbackup
    have hexec := exec_relock s
    rw [hw] at hexec
    refine ⟨_, hexec, rfl, ?_, rfl⟩
    have hst := State.almState_reacquire (s := s) w
    unfold State.almState at hst ⊢
    rw [State.completed_fld, State.fld_setFld_apart _ (by decide) (by decide), hst]
  · rw [exec_relock, State.writeAlmCtl_relock_refused (on_relock _) hm]
  · have hw : s.writeAlmSet count = (Code.done, s.moveAlm count.toNat) := if_pos (by simp [hroot, hl, hsh, hidle])
    refine ⟨(s.moveAlm count.toNat).completed Code.done 0, ?_, rfl, rfl, rfl, rfl⟩
    change Host.Outcome.next _ = _
    rw [hw]
  · have hw : s.writeAlmSet count = (Code.rejState, s) := by
      refine if_neg ?_
      simp only [Bool.and_eq_true, decide_eq_true_eq, not_and, Bool.not_eq_true]
      rcases hno with h | h | h | h <;> simp [h]
    change Host.Outcome.next _ = _
    rw [hw]

end Sys2Proof.Machine
end

section
/-! SUPPORT. Launches and checks of Calendars as commands (R164 to R167). -/
namespace Sys2Proof.Machine

/-- Settles O33: each command by whether its die has an entry to launch, or a check that pends. -/
theorem calendarCommands : Obligations.CalendarCommands := by
  unfold Obligations.CalendarCommands
  intro s die i e k ks late d u v hd
  have hunit (t : State) : onUnit (decide (die < 64)) t = .next t := if_pos (decide_eq_true hd)
  have hlaunch : exec (.calendarLaunch die) s = execCalendarLaunch die s := rfl
  have hlate : exec (.calendarLateLaunch die) s = execCalendarLateLaunch die s := rfl
  have hcheck : exec (.calendarCheck die) s = execCalendarCheck die s := rfl
  refine ⟨fun hn => ⟨?_, ?_⟩, fun hn => ⟨?_, ?_⟩, fun hk hph => ?_, fun hk => ?_⟩
  · rw [hlaunch, execCalendarLaunch, hunit, hn]
  · rw [hlate, execCalendarLateLaunch, hunit, hn] <;> rfl
  · rw [hlaunch, execCalendarLaunch, hunit, hn]
  · rw [hlate, execCalendarLateLaunch, hunit, hn]
  · rw [hcheck, execCalendarCheck, hunit, hk]
    dsimp only
    rw [if_neg (fun h => h hph)]
  · rw [hcheck, execCalendarCheck, hunit, hk]

end Sys2Proof.Machine
end

section
/-! SUPPORT. What a logged detection and a job's phase leave unchanged (R170, R497 to R499, R522): every register outside the
reliability block of the Vigil, and every part of the state but the Ashpit and its reports. -/
namespace Sys2Proof.Machine

/-- The addresses of the Vigil's reliability registers (R527). -/
def vigRel (a : Nat) : Prop := vigRelBase + 0x1000 ≤ a ∧ a < vigRelBase + 0x2000

section
variable (s : State)

/-- The state with the registers and the Ashpit as they are elsewhere. -/
def State.withLog (g : State) : State :=
  { s with regs := g.regs, ash := g.ash, reports := g.reports, reported := g.reported }

/-- The second state differs from the first in its registers, the Ashpit and its reports alone. -/
def LogOnly (s t : State) : Prop := t = s.withLog t

theorem LogOnly.refl : LogOnly s s := rfl

variable {s} in
theorem LogOnly.trans {t u : State} (h1 : LogOnly s t) (h2 : LogOnly t u) : LogOnly s u := by
  have h : t.withLog u = s.withLog u := by
    rw [h1]
    rfl
  exact Eq.trans h2 h

theorem logOnly_setReg (a : Nat) (w : Word) : LogOnly s (s.setReg a w) := rfl
theorem logOnly_setFld (a : Nat) (f : Fld) (v : Nat) : LogOnly s (s.setFld a f v) := rfl
theorem logOnly_count (a : Nat) (f : Fld) (n : Nat) : LogOnly s (s.count a f n) := rfl
theorem logOnly_flag (a : Nat) (f : Fld) : LogOnly s (s.flag a f) := rfl
theorem logOnly_report (e : AshEntry) : LogOnly s (s.report e) := rfl
theorem logOnly_setAsh (es : List AshEntry) : LogOnly s { s with ash := es } := rfl

theorem logOnly_relFlag (f : Fld) : LogOnly s (s.relFlag f) := (logOnly_flag s _ _).trans (logOnly_count _ _ _ _)

theorem logOnly_log (d : Detection) : LogOnly s (s.log d) := by
  unfold State.log
  dsimp only
  split
  · exact (logOnly_setAsh s _).trans (logOnly_report _ _)
  · split
    · exact ((logOnly_count s _ _ _).trans (logOnly_relFlag _ _)).trans (logOnly_report _ _)
    · exact ((logOnly_setAsh s _).trans (logOnly_setFld _ _ _ _)).trans (logOnly_report _ _)

theorem logOnly_logAt (cls code site block unit : Nat) (details : List Nat) :
    LogOnly s (s.logAt cls code site block unit details) := logOnly_log s _

theorem logOnly_freezeRec : LogOnly s s.freezeRec := by
  unfold State.freezeRec
  dsimp only
  split
  · exact ((logOnly_setFld s _ _ _).trans (logOnly_relFlag _ _)).trans (logOnly_logAt _ _ _ _ _ _ _)
  · exact LogOnly.refl s

/-- The addresses of the registers that logging writes: the flags and their counts, and the Ashpit's (R497, R527). -/
def ashReg (a : Nat) : Prop := vigRelBase + 0x1000 ≤ a ∧ a < vigRelBase + 0x1100

theorem not_ashReg_of_vigRel {a : Nat} (ha : ¬ vigRel a) : ¬ ashReg a := fun h => ha ⟨h.1, Nat.lt_of_lt_of_le h.2 (by decide)⟩

section
variable {a : Nat} (ha : ¬ ashReg a)
include ha

theorem State.reg_relFlag {f : Fld} (hf : f.lo < 8) : (s.relFlag f).reg a = s.reg a := by
  have h1 : a ≠ Reg.VIG_REL_STATUS := by
    rintro rfl
    exact ha ⟨by decide, by decide⟩
  have h2 : a ≠ Reg.VIG_REL_EVENTS f.lo := by
    rintro rfl
    exact ha ⟨by unfold Reg.VIG_REL_EVENTS; omega, by unfold Reg.VIG_REL_EVENTS; omega⟩
  unfold State.relFlag State.count State.flag
  rw [State.reg_setFld_ne _ _ _ h2, State.reg_setFld_ne _ _ _ h1]

theorem State.reg_log (d : Detection) : (s.log d).reg a = s.reg a := by
  have h1 : a ≠ Reg.VIG_ASH_HEAD := by
    rintro rfl
    exact ha ⟨by decide, by decide⟩
  have h2 : a ≠ Reg.VIG_ASH_LOST := by
    rintro rfl
    exact ha ⟨by decide, by decide⟩
  unfold State.log
  dsimp only
  split
  · rfl
  · split
    · unfold State.count
      rw [State.report_reg, State.reg_relFlag _ ha (by decide), State.reg_setFld_ne _ _ _ h2]
    · rw [State.report_reg, State.reg_setFld_ne _ _ _ h1]
      rfl

theorem State.reg_logAt_ashReg (cls code site block unit : Nat) (details : List Nat) :
    (s.logAt cls code site block unit details).reg a = s.reg a := State.reg_log s ha _

theorem State.reg_freezeRec_ashReg (h1 : a ≠ Reg.VIG_REC_CTL) : s.freezeRec.reg a = s.reg a := by
  unfold State.freezeRec
  dsimp only
  split
  · rw [State.reg_logAt_ashReg _ ha, State.reg_relFlag _ ha (by decide), State.reg_setFld_ne _ _ _ h1]
  · rfl

end

theorem State.reg_logAt {a : Nat} (ha : ¬ vigRel a) (cls code site block unit : Nat) (details : List Nat) :
    (s.logAt cls code site block unit details).reg a = s.reg a := State.reg_log s (not_ashReg_of_vigRel ha) _

theorem State.reg_freezeRec {a : Nat} (ha : ¬ vigRel a) : s.freezeRec.reg a = s.reg a := by
  refine State.reg_freezeRec_ashReg s (not_ashReg_of_vigRel ha) ?_
  rintro rfl
  exact ha ⟨by decide, by decide⟩

/-! ## PHASE and STATUS of the job -/

theorem State.reg_setPhase_ashReg {a : Nat} (ha : ¬ ashReg a) (hr : a ≠ Reg.VIG_REC_CTL) (hs : a ≠ Reg.ALM_JOB_STATUS) (phase code : Nat) :
    (s.setPhase phase code).reg a = s.reg a := by
  unfold State.setPhase
  dsimp only
  split
  · rw [State.reg_freezeRec_ashReg _ ha hr, State.reg_setFld_ne _ _ _ hs, State.reg_setFld_ne _ _ _ hs]
  · rw [State.reg_setFld_ne _ _ _ hs, State.reg_setFld_ne _ _ _ hs]

theorem State.reg_setPhase {a : Nat} (ha : ¬ vigRel a) (hs : a ≠ Reg.ALM_JOB_STATUS) (phase code : Nat) :
    (s.setPhase phase code).reg a = s.reg a := by
  refine State.reg_setPhase_ashReg s (not_ashReg_of_vigRel ha) ?_ hs phase code
  rintro rfl
  exact ha ⟨by decide, by decide⟩

theorem logOnly_setPhase (phase code : Nat) : LogOnly s (s.setPhase phase code) := by
  have h := (logOnly_setFld s Reg.ALM_JOB_STATUS F.ALM_JOB_STATUS_PHASE phase).trans
    (logOnly_setFld _ Reg.ALM_JOB_STATUS F.ALM_JOB_STATUS_STATUS code)
  unfold State.setPhase
  dsimp only
  split
  · exact h.trans (logOnly_freezeRec _)
  · exact h

theorem not_vigRel_jobStatus : ¬ vigRel Reg.ALM_JOB_STATUS := fun h => absurd h.2 (by decide)

theorem State.jobStatus_setPhase (phase code : Nat) : (s.setPhase phase code).reg Reg.ALM_JOB_STATUS =
    F.ALM_JOB_STATUS_STATUS.put (F.ALM_JOB_STATUS_PHASE.put (s.reg Reg.ALM_JOB_STATUS) phase) code := by
  have h : ((s.setFld Reg.ALM_JOB_STATUS F.ALM_JOB_STATUS_PHASE phase).setFld Reg.ALM_JOB_STATUS F.ALM_JOB_STATUS_STATUS code).reg
      Reg.ALM_JOB_STATUS = F.ALM_JOB_STATUS_STATUS.put (F.ALM_JOB_STATUS_PHASE.put (s.reg Reg.ALM_JOB_STATUS) phase) code := by
    rw [State.reg_setFld, if_pos rfl, State.reg_setFld, if_pos rfl]
  unfold State.setPhase
  dsimp only
  split
  · rw [State.reg_freezeRec _ not_vigRel_jobStatus, h]
  · exact h

theorem State.phase_setPhase {phase : Nat} (hp : phase < 8) (code : Nat) : (s.setPhase phase code).phase = phase := by
  unfold State.phase State.fld
  rw [State.jobStatus_setPhase, Fld.get_put_apart (by decide) (by decide), Fld.get_put (by decide)]
  exact Nat.mod_eq_of_lt hp

theorem State.status_setPhase {code : Nat} (hc : code < 256) (phase : Nat) :
    (s.setPhase phase code).fld Reg.ALM_JOB_STATUS F.ALM_JOB_STATUS_STATUS = code := by
  unfold State.fld
  rw [State.jobStatus_setPhase, Fld.get_put (by decide)]
  exact Nat.mod_eq_of_lt hc

end
end Sys2Proof.Machine
end

section
/-! SUPPORT. A job from ARM to its end, command by command (R168 to R171, R174). -/
namespace Sys2Proof.Machine

section
variable {s : State}

/-! ## ARM and ABORT -/

theorem exec_handshakeResult (s : State) : exec .handshakeResult s = execHandshakeResult s := rfl

theorem exec_handshakeTimeout (s : State) : exec .handshakeTimeout s = execHandshakeTimeout s := rfl

theorem exec_arm (s : State) : exec .arm s = .next (s.arm.2.completed s.arm.1 0) := rfl

theorem exec_jobAbort (s : State) : exec .jobAbort s = .next (s.abortJob.2.completed s.abortJob.1 0) := by
  have h : s.writeJobCtl (F.ALM_JOB_CTL_ABORT.only 1) = s.abortJob := by
    change (match s.abortJob with | (0, s') => (Code.done, s') | (code, _) => (code, s)) = s.abortJob
    unfold State.abortJob
    by_cases h : s.jobIdle = true
    · rw [if_pos h]
      rfl
    · rw [if_neg h]
      rfl
  change Host.Outcome.next ((s.writeJobCtl (F.ALM_JOB_CTL_ABORT.only 1)).2.completed (s.writeJobCtl (F.ALM_JOB_CTL_ABORT.only 1)).1 0) = _
  rw [h]

/-- The state in which a module with a valid ARM validates (R168). -/
def State.validates (u : State) : State :=
  { u.setFld Reg.ALM_JOB_STATUS F.ALM_JOB_STATUS_PHASE 1 with
    job := { u.job with armedAt := u.now, stopped := [], checks := [], result := none }, replay := u.replaySetup }

theorem State.fld_withJob (s : State) (j : Job) (r : Option Replay) (a : Nat) (f : Fld) :
    State.fld { s with job := j, replay := r } a f = s.fld a f := (rfl)

theorem State.phase_validates (u : State) : u.validates.phase = 1 := by
  unfold State.validates State.phase
  rw [State.fld_withJob]
  exact State.fld_setFld_self _ (by decide) _ _

/-- The ARM record is written (R521). -/
def State.armRecord (s : State) : State :=
  s.recordEvent 3 (s.fld Reg.ALM_JOB F.ALM_JOB_JOB_ID * 2 ^ 32)
    (leBytes 8 (s.reg Reg.ALM_EPOCH).toNat ++ leBytes 8 (s.reg Reg.ALM_DIGEST).toNat)

theorem State.armRefused_of_busy (h : s.mstate ≠ MState.banked ∨ s.jobIdle = false) : s.arm = (Code.rejState, s) :=
  if_pos (by simpa using h)

section
variable {u : State} (hm : s.mstate = MState.banked) (hidle : s.jobIdle = true) (hu : s.armRecord = u)
  (hepoch : u.fld Reg.ALM_EPOCH F.ALM_EPOCH_EPOCH % 2 ^ tickK u = 0) (hready : handshakeReady u (hsFlue u) = true)
  (hreplay : u.replayArmed = true → replayReady u = true)
include hm hidle hu hepoch hready hreplay

theorem State.armValidates_of_idle : s.arm = (Code.done, if u.isLocked then u.validates else u.jobFails Code.refusedCalendar) := by
  have hreplayOk : (u.replayArmed && !replayReady u) = false := by
    cases h : u.replayArmed
    · rfl
    · rw [hreplay h]
      rfl
  unfold State.arm
  dsimp only
  rw [hm, hidle, if_neg (by decide), ← State.armRecord, hu]
  cases hl : u.isLocked
  · have hc : firstCode [(decide (u.fld Reg.ALM_EPOCH F.ALM_EPOCH_EPOCH % 2 ^ tickK u ≠ 0), Code.rejRange),
        (!handshakeReady u (hsFlue u), Code.rejRange), (u.replayArmed && !replayReady u, Code.rejRange),
        (!false, Code.refusedCalendar)] = some Code.refusedCalendar := by
      rw [hepoch, hready, hreplayOk]
      rfl
    rw [hc]
    rfl
  · rw [firstCode_eq_none (by simp [hepoch, hready, hreplayOk])]
    rfl

end

theorem State.phase_completed (code : Nat) (v : Word) : (s.completed code v).phase = s.phase := rfl

theorem State.job_setPhase (p code : Nat) : (s.setPhase p code).job = s.job := by
  rw [logOnly_setPhase s p code]
  rfl

theorem State.jobFails_status {code : Nat} (hc : code < 256) :
    (s.jobFails code).phase = 7 ∧ (s.jobFails code).fld Reg.ALM_JOB_STATUS F.ALM_JOB_STATUS_STATUS = code := by
  have hreg : (s.jobFails code).reg Reg.ALM_JOB_STATUS = (s.setPhase 7 code).reg Reg.ALM_JOB_STATUS := by
    unfold State.jobFails State.logSchedule
    rw [State.reg_logAt _ not_vigRel_jobStatus]
  refine ⟨?_, ?_⟩
  · rw [State.phase, State.fld, hreg]
    exact State.phase_setPhase s (by decide) code
  · rw [State.fld, hreg]
    exact State.status_setPhase s hc 7

/-- Validation ends with a code: the job fails with it. -/
theorem exec_armValidationDone_of_some {code : Nat} (hp : s.phase = 1)
    (hx : validation (s.at (s.job.armedAt + validationTime s)) = some code) :
    exec .armValidationDone s = .next ((s.at (s.job.armedAt + validationTime s)).jobFails code) := by
  refine (if_neg (not_not_intro hp)).trans ?_
  rw [hx]

/-- Validation passes in time: the job is armed. -/
theorem exec_armValidationDone_of_none (hp : s.phase = 1) {x : State} (he : s.at (s.job.armedAt + validationTime s) = x)
    (hx : validation x = none) (ht : x.alm + 100000 ≤ x.epochAt) (hs : x.shdMode ≠ 2) (hr : x.replay = none) :
    exec .armValidationDone s = .next (x.setPhase 2 Code.done) := by
  refine (if_neg (not_not_intro hp)).trans ?_
  rw [he, hx]
  dsimp only
  rw [if_neg (Nat.not_lt.2 ht), hr, if_neg (by simpa using hs)]

/-- The state in which the handshake opens. -/
def State.handshaking (s : State) : State :=
  let t := (s.atAlm (s.epochAt - 100000)).setFld Reg.ALM_JOB_STATUS F.ALM_JOB_STATUS_PHASE 3
  { t with job := { t.job with result := none } }

theorem State.handshaking_eq (s : State) :
    { (s.atAlm (s.epochAt - 100000)).setFld Reg.ALM_JOB_STATUS F.ALM_JOB_STATUS_PHASE 3 with
      job := { (s.atAlm (s.epochAt - 100000)).job with result := none } } = s.handshaking := by
  unfold State.handshaking
  dsimp only
  rw [State.setFld_job]

theorem exec_handshakeOpen_of_ready (hp : s.phase = 2) (hready : handshakeReady s.handshaking (hsFlue s.handshaking) = true)
    (hidle : s.handshaking.flueSt (hsFlue s.handshaking) = FSt.idle) :
    exec .handshakeOpen s = .next (s.handshaking.quickOpen (hsFlue s.handshaking) (some (handshakeWords s.handshaking))) := by
  refine (if_neg (not_not_intro hp)).trans (if_pos ?_)
  rw [Bool.and_eq_true]
  exact ⟨hready, decide_eq_true hidle⟩

/-! ## JOB_START (R170) -/

/-- A die's Calendar stands at its first entry. -/
def State.calStart (s : State) (d : Nat) : State :=
  (s.setReg (Reg.ALM_CAL_POS d) 0).setFld (Reg.ALM_CAL_POS d) F.ALM_CAL_POS_NEXT (firstEntry s d)

theorem alm_calPos_inj {d d' : Nat} : Reg.ALM_CAL_POS d = Reg.ALM_CAL_POS d' ↔ d = d' := by
  unfold Reg.ALM_CAL_POS
  omega

theorem vigState_ne_calPos (d : Nat) : Reg.VIG_STATE ≠ Reg.ALM_CAL_POS d := by
  simp only [Reg.VIG_STATE, Reg.ALM_CAL_POS, unitBase]
  omega

theorem jobStatus_ne_calPos (d : Nat) : Reg.ALM_JOB_STATUS ≠ Reg.ALM_CAL_POS d := by
  simp only [Reg.ALM_JOB_STATUS, Reg.ALM_CAL_POS, unitBase]
  omega

theorem State.replay_calStart (d : Nat) : (s.calStart d).replay = s.replay := rfl

theorem State.reg_calStart_ne {d a : Nat} (h : a ≠ Reg.ALM_CAL_POS d) : (s.calStart d).reg a = s.reg a :=
  (State.reg_setFld_ne _ _ _ h).trans (State.reg_setReg_ne _ _ h)

theorem State.next_calStart_self (hr : s.replay = none) (d : Nat) :
    (s.calStart d).fld (Reg.ALM_CAL_POS d) F.ALM_CAL_POS_NEXT = 0 := by
  have h0 : firstEntry s d = 0 := by
    unfold firstEntry
    rw [hr]
  unfold State.calStart
  rw [State.fld_setFld_self _ (by decide), h0]
  rfl

/-- Every Calendar of a list of dies stands at its start, and no other register has changed. -/
theorem State.calStarts (ds : List Nat) (hr : s.replay = none) :
    (∀ d ∈ ds, (ds.foldl State.calStart s).fld (Reg.ALM_CAL_POS d) F.ALM_CAL_POS_NEXT = 0) ∧
      ∀ a, (∀ d ∈ ds, a ≠ Reg.ALM_CAL_POS d) → (ds.foldl State.calStart s).reg a = s.reg a := by
  induction ds generalizing s with
  | nil => exact ⟨fun _ hd => absurd hd List.not_mem_nil, fun _ _ => rfl⟩
  | cons d ds ih =>
    obtain ⟨hnext, hreg⟩ := ih (s := s.calStart d) hr
    refine ⟨List.forall_mem_cons.2 ⟨?_, hnext⟩, fun a ha => ?_⟩
    · by_cases hd : d ∈ ds
      · exact hnext d hd
      · refine (congrArg F.ALM_CAL_POS_NEXT.get (hreg _ fun e he h => hd ?_)).trans (State.next_calStart_self hr d)
        rw [alm_calPos_inj.1 h]
        exact he
    · obtain ⟨ha1, has⟩ := List.forall_mem_cons.1 ha
      exact (hreg a has).trans (State.reg_calStart_ne ha1)

theorem State.foldl_calStart_alm (ds : List Nat) : (ds.foldl State.calStart s).alm = s.alm :=
  foldl_keeps (f := State.calStart) (fun t : State => t.alm = s.alm) (fun _ _ h => h) ds rfl

/-- The state in which tick 0 begins: the module has entered LIT (R170). -/
def State.entersLit (s : State) : State :=
  let u := (s.atAlm s.epochAt).setMState MState.lit
  if s.shdMode = 1 || s.shdMode = 2 then u.setShd Shd.mirroring else u

/-- The state in which the job has started. -/
def State.started (s : State) : State :=
  { ((List.range 64).foldl State.calStart s.entersLit).setFld Reg.ALM_JOB_STATUS F.ALM_JOB_STATUS_PHASE 5 with
    job := { ((List.range 64).foldl State.calStart s.entersLit).job with stopped := [], checks := [] },
    digs := [], peerDigs := [], shadow := Shadow.none }

theorem exec_jobStart (hp : s.phase = 4) (hm : s.mstate = MState.banked) (hs : s.shdMode ≠ 2) (hr : s.replay = none) :
    exec .jobStart s = .next s.started := by
  refine (if_neg (by simp [hp, hm])).trans ?_
  have hlit : (if s.shdMode = 2 || s.replay.isSome then MState.shadow else MState.lit) = MState.lit := if_neg (by simp [hs, hr])
  dsimp only
  rw [hlit]
  rfl

theorem State.alm_withStarted (s : State) (j : Job) (a : Nat) (f : Fld) (v : Nat) :
    State.alm { s.setFld a f v with job := j, digs := [], peerDigs := [], shadow := Shadow.none } = s.alm := (rfl)

/-- What starting a job does to the registers beside the phase. -/
theorem State.fld_started (s : State) (j : Job) (a : Nat) (f g : Fld) (v : Nat) (b : Nat) :
    State.fld { s.setFld a f v with job := j, digs := [], peerDigs := [], shadow := Shadow.none } b g = (s.setFld a f v).fld b g :=
  (rfl)

theorem State.alm_atAlm (t : Nat) : (s.atAlm t).alm = Nat.max s.alm t := by
  unfold State.atAlm State.at
  rw [Nat.max_eq_max]
  split
  · dsimp only
    omega
  · omega

theorem State.reg_atAlm (t a : Nat) : (s.atAlm t).reg a = s.reg a := State.reg_at s _ a

theorem State.replay_at (t : Nat) : (s.at t).replay = s.replay := by
  unfold State.at
  split <;> rfl

theorem State.entersLit_frame : s.entersLit.replay = s.replay ∧ s.entersLit.alm = Nat.max s.alm s.epochAt ∧
    s.entersLit.mstate = MState.lit := by
  have hlit : ((s.atAlm s.epochAt).setMState MState.lit).mstate = MState.lit := State.fld_setFld_self _ (by decide) _ _
  have hreplay : ((s.atAlm s.epochAt).setMState MState.lit).replay = s.replay :=
    (State.setFld_replay ..).trans (State.replay_at _)
  have halm : ((s.atAlm s.epochAt).setMState MState.lit).alm = Nat.max s.alm s.epochAt :=
    (State.setFld_alm ..).trans (State.alm_atAlm _)
  unfold State.entersLit
  dsimp only
  split
  · exact ⟨(State.setFld_replay ..).trans hreplay, (State.setFld_alm ..).trans halm,
      (State.fld_setFld_ne _ _ _ _ (by decide)).trans hlit⟩
  · exact ⟨hreplay, halm, hlit⟩

theorem State.alm_started (s : State) : s.started.alm = Nat.max s.alm s.epochAt :=
  (State.alm_withStarted ..).trans ((State.foldl_calStart_alm _).trans State.entersLit_frame.2.1)

theorem State.fld_started_ne (s : State) {a : Nat} (h : a ≠ Reg.ALM_JOB_STATUS) (f : Fld) :
    s.started.fld a f = ((List.range 64).foldl State.calStart s.entersLit).fld a f := by
  rw [State.started, State.fld_started, State.fld_setFld_ne _ _ _ _ h]

theorem State.phase_started (s : State) : s.started.phase = 5 := by
  rw [State.started, State.phase, State.fld_started, State.fld_setFld_self _ (by decide)]
  rfl

theorem State.mstate_started (s : State) (hr : s.replay = none) : s.started.mstate = MState.lit := by
  obtain ⟨hreplay, -, hlit⟩ := State.entersLit_frame (s := s)
  obtain ⟨-, hreg⟩ := State.calStarts (List.range 64) (hreplay.trans hr)
  rw [State.mstate, State.fld_started_ne s (by decide), State.fld, hreg _ fun _ _ => vigState_ne_calPos _]
  exact hlit

theorem State.next_started (s : State) (hr : s.replay = none) (d : Nat) (hd : d < 64) :
    s.started.fld (Reg.ALM_CAL_POS d) F.ALM_CAL_POS_NEXT = 0 := by
  obtain ⟨hreplay, -, -⟩ := State.entersLit_frame (s := s)
  obtain ⟨hnext, -⟩ := State.calStarts (List.range 64) (hreplay.trans hr)
  rw [State.fld_started_ne s (jobStatus_ne_calPos d).symm]
  exact hnext d (List.mem_range.2 hd)

end

/-- Settles O32, command by command; what starting a job leaves is read from `State.started`, register by register. -/
theorem jobCommands : Obligations.JobCommands := by
  unfold Obligations.JobCommands
  intro s at_ v code u x o
  have ho : o = s.handshaking := State.handshaking_eq s
  clear_value o
  subst ho
  refine ⟨fun h => ?_, fun hm hidle hepoch hready hreplay => ?_, fun hp => ⟨fun hv => ?_, fun hv halm hs hr => ?_⟩, fun hp hready hidle => ?_,
    fun hp hr ht => ⟨fun ha => ?_, fun ha => ?_, ?_⟩, fun hp hr => ?_, fun hp hm hs hr => ?_, fun hidle => ?_, fun hidle => ?_,
    fun hp hall => ?_, fun hp => ?_⟩
  · rw [exec_arm, State.armRefused_of_busy h]
  · have harm : s.arm = (Code.done, if u.isLocked then u.validates else u.jobFails Code.refusedCalendar) :=
      State.armValidates_of_idle hm hidle rfl hepoch hready hreplay
    refine ⟨fun hl => ?_, fun hl => ?_⟩
    · rw [exec_arm, harm, if_pos hl]
      exact ⟨_, rfl, (State.phase_completed _ _).trans (State.phase_validates u), rfl, rfl, rfl, rfl⟩
    · rw [exec_arm, harm, if_neg (ne_true_of_eq_false hl)]
      obtain ⟨h7, hcode⟩ := State.jobFails_status (s := u) (code := Code.refusedCalendar) (by decide)
      exact ⟨_, rfl, (State.phase_completed _ _).trans h7, (State.completed_fld ..).trans hcode⟩
  · exact exec_armValidationDone_of_some hp hv
  · exact exec_armValidationDone_of_none hp rfl hv halm hs hr
  · exact exec_handshakeOpen_of_ready hp hready hidle
  · rw [exec_handshakeResult]
    unfold execHandshakeResult
    rw [hr]
    dsimp only
    rw [if_neg (by simp [hp]; omega), if_pos ha]
  · rw [exec_handshakeResult]
    unfold execHandshakeResult
    rw [hr]
    dsimp only
    rw [if_neg (by simp [hp]; omega), if_neg (ne_true_of_eq_false ha)]
  · rw [exec_handshakeTimeout]
    unfold execHandshakeTimeout
    rw [hr]
    exact if_pos (by simp [ht])
  · rw [exec_handshakeTimeout]
    unfold execHandshakeTimeout
    rw [hr]
    exact if_neg (by simp [hp])
  · exact ⟨_, exec_jobStart hp hm hs hr, State.mstate_started s hr, State.phase_started s, State.alm_started s, rfl, rfl,
      State.next_started s hr⟩
  · rw [exec_jobAbort, State.abortJob, if_pos hidle]
  · rw [exec_jobAbort, State.abortJob, if_neg (ne_true_of_eq_false hidle)]
    refine ⟨_, rfl, ?_, ?_, ?_, ?_⟩
    · exact (State.phase_completed _ _).trans (State.phase_setPhase _ (by decide) _)
    · rw [State.completed_fld]
      exact State.status_setPhase _ (by decide) _
    · rw [State.completed_job, State.job_setPhase]
      rfl
    · rw [State.completed_job, State.job_setPhase]
      rfl
  · exact if_pos (by simp [hp]; exact hall)
  · exact if_neg (by simp [hp])

end Sys2Proof.Machine
end

section
/-! SUPPORT. Patrol scrubs, stack retrains and on-module link retrains (R337 to R339, R505). -/
namespace Sys2Proof.Machine

section
variable {s : State}

theorem onUnit_of_ok {ok : Bool} (h : ok = true) (s : State) : onUnit ok s = .next s := if_pos h

theorem State.fld_count_self {f : Fld} (hf : f.fits) (a n : Nat) :
    (s.count a f n).fld a f = satAdd (f.hi + 1 - f.lo) (s.fld a f) n := by
  have hpos : 0 < 2 ^ (f.hi + 1 - f.lo) := Nat.pow_pos (by decide)
  have hlt : satAdd (f.hi + 1 - f.lo) (s.fld a f) n < 2 ^ (f.hi + 1 - f.lo) :=
    Nat.lt_of_le_of_lt (Nat.min_le_right _ _) (by omega)
  exact (State.fld_setFld_self s hf a _).trans (Nat.mod_eq_of_lt hlt)

/-! ## What a detection and a count leave unchanged -/

/-- The four memories, the cores and the marks are as they were. -/
def SameStores (s t : State) : Prop :=
  t.fabric = s.fabric ∧ t.hearth = s.hearth ∧ t.scratch = s.scratch ∧ t.cores = s.cores ∧ t.marks = s.marks

theorem SameStores.refl (s : State) : SameStores s s := ⟨rfl, rfl, rfl, rfl, rfl⟩

theorem SameStores.trans {t u : State} (h1 : SameStores s t) (h2 : SameStores t u) : SameStores s u := by
  obtain ⟨a1, b1, c1, d1, e1⟩ := h1
  obtain ⟨a2, b2, c2, d2, e2⟩ := h2
  exact ⟨a2.trans a1, b2.trans b1, c2.trans c1, d2.trans d1, e2.trans e1⟩

theorem LogOnly.sameStores {t : State} (h : LogOnly s t) : SameStores s t := by
  have e : t = s.withLog t := h
  exact ⟨(congrArg State.fabric e).trans rfl, (congrArg State.hearth e).trans rfl, (congrArg State.scratch e).trans rfl,
    (congrArg State.cores e).trans rfl, (congrArg State.marks e).trans rfl⟩

theorem sameStores_lifeAdd (s : State) (w n : Nat) : SameStores s (s.lifeAdd w n) := ⟨rfl, rfl, rfl, rfl, rfl⟩

theorem sameStores_healthAdd (s : State) (w n : Nat) : SameStores s (s.healthAdd w n) := ⟨rfl, rfl, rfl, rfl, rfl⟩

/-! ## The patrol scrub (R337) -/

/-- The stores are as they were, and no mark is new. -/
def Scrubbed (s t : State) : Prop :=
  t.fabric = s.fabric ∧ t.hearth = s.hearth ∧ t.scratch = s.scratch ∧ t.cores = s.cores ∧ ∀ m ∈ t.marks, m ∈ s.marks

theorem Scrubbed.refl (s : State) : Scrubbed s s := ⟨rfl, rfl, rfl, rfl, fun _ h => h⟩

theorem Scrubbed.trans {t u : State} (h1 : Scrubbed s t) (h2 : Scrubbed t u) : Scrubbed s u := by
  obtain ⟨a1, b1, c1, d1, e1⟩ := h1
  obtain ⟨a2, b2, c2, d2, e2⟩ := h2
  exact ⟨a2.trans a1, b2.trans b1, c2.trans c1, d2.trans d1, fun m hm => e1 m (e2 m hm)⟩

theorem SameStores.scrubbed {t : State} (h : SameStores s t) : Scrubbed s t := by
  obtain ⟨a, b, c, d, e⟩ := h
  exact ⟨a, b, c, d, fun m hm => e ▸ hm⟩

theorem scrubbed_filter (s : State) (p : Nat × Nat → Bool) : Scrubbed s { s with marks := s.marks.filter p } :=
  ⟨rfl, rfl, rfl, rfl, fun _ hm => (List.mem_filter.1 hm).1⟩

/-- The marks of the words [lo, hi) of fabric memory that show a correctable error. -/
def State.weak (s : State) (lo hi : Nat) : List (Nat × Nat) :=
  s.marks.filter fun p => p.2 = 1 && markKey .fabric lo ≤ p.1 && p.1 < markKey .fabric hi

theorem scrubbed_checkGranule (s : State) (g off len : Nat) : Scrubbed s (s.checkGranule g off len).2 := by
  unfold State.checkGranule State.logStack
  dsimp only
  generalize (if len = 0 then 0 else (off + len - 1) / 64 + 1 - off / 64) = n
  split
  · exact ((((logOnly_count s _ _ _).sameStores.trans (sameStores_lifeAdd _ _ _)).trans
      (logOnly_logAt _ _ _ _ _ _ _).sameStores)).scrubbed
  · split
    · exact Scrubbed.refl s
    · exact (scrubbed_filter s _).trans (((logOnly_count _ _ _ _).sameStores.trans
        (sameStores_lifeAdd _ _ _)).trans (sameStores_healthAdd _ _ _)).scrubbed

theorem scrubbed_scrubWord (s : State) (k : Nat) (p : Nat × Nat) : Scrubbed s (s.scrubWord k p) := by
  unfold State.scrubWord
  dsimp only
  split
  · exact Scrubbed.refl s
  · exact scrubbed_checkGranule s _ _ _

theorem scrubbed_scrub (k : Nat) (ps : List (Nat × Nat)) : Scrubbed s (ps.foldl (fun t p => t.scrubWord k p) s) :=
  foldl_keeps (fun t => Scrubbed s t) (fun t p h => h.trans (scrubbed_scrubWord t k p)) ps (Scrubbed.refl s)

/-- No word shows an uncorrectable error. -/
def State.allWeak (s : State) : Prop := ∀ m ∈ s.marks, m.2 = 1

theorem Scrubbed.allWeak {t : State} (h : Scrubbed s t) (hs : s.allWeak) : t.allWeak := by
  obtain ⟨-, -, -, -, hm⟩ := h
  exact fun m hmt => hs m (hm m hmt)

theorem amap_get_of_all {m : AMap Nat} (h : ∀ p ∈ m, p.2 = 1) (k : Nat) : AMap.get m 0 k ≠ 2 := by
  induction m with
  | nil => exact (by decide : (0 : Nat) ≠ 2)
  | cons p m ih =>
    obtain ⟨hp, hm⟩ := List.forall_mem_cons.1 h
    obtain ⟨k', v⟩ := p
    unfold AMap.get
    split
    · exact fun h2 => absurd (hp.symm.trans h2) (by decide)
    · exact ih hm

theorem findMark_of_allWeak (hs : s.allWeak) (m : MarkSpace) (w n : Nat) : s.findMark m w 2 n = none := by
  induction n generalizing w with
  | zero => rfl
  | succ n ih =>
    exact (if_neg (amap_get_of_all hs _)).trans (ih _)

/-- Where no word shows an uncorrectable error, a check of one word leaves none of its marks. -/
theorem checkGranule_word_clean (hs : s.allWeak) (w : Nat) :
    ∀ m ∈ (s.checkGranule (w / 8) (w % 8 * 64) 64).2.marks, m.1 ≠ markKey .fabric w := by
  have hlo : w / 8 * 8 + w % 8 * 64 / 64 = w := by omega
  have hn : (if (64 : Nat) = 0 then 0 else (w % 8 * 64 + 64 - 1) / 64 + 1 - w % 8 * 64 / 64) = 1 := by
    rw [if_neg (by decide)]
    omega
  have hlast : markKey .fabric w < markKey .fabric (w + 1) := Nat.lt_succ_self _
  unfold State.checkGranule
  dsimp only
  rw [hlo, hn, findMark_of_allWeak hs]
  dsimp only
  intro m hm hkey
  have hweak : ∀ m ∈ s.marks, m.1 = markKey .fabric w → m ∈ s.weak w (w + 1) := fun m hms hk =>
    List.mem_filter.2 ⟨hms, by rw [hs m hms, hk]; simp [hlast]⟩
  split at hm
  case isTrue he =>
    have := hweak m hm hkey
    rw [State.weak, List.isEmpty_iff.1 he] at this
    exact List.not_mem_nil this
  case isFalse =>
    obtain ⟨hms, hnot⟩ := List.mem_filter.1 hm
    rw [Bool.not_eq_true', List.contains_eq_mem, decide_eq_false_iff_not] at hnot
    exact hnot (hweak m hms hkey)

/-- A mark of a word of stack `k`. -/
def markOfStack (k : Nat) (m : Nat × Nat) : Prop :=
  markKey .fabric 0 ≤ m.1 ∧ m.1 < markKey .sync 0 ∧ stackOf ((m.1 - markKey .fabric 0) / 8) = k

theorem scrubWord_clean (hs : s.allWeak) {k : Nat} {p : Nat × Nat} (hp : markOfStack k p) :
    ∀ m ∈ (s.scrubWord k p).marks, m.1 ≠ p.1 := by
  obtain ⟨hlo, hhi, hk⟩ := hp
  have hkey : markKey .fabric (p.1 - markKey .fabric 0) = p.1 := by
    change 3 * 2 ^ 48 + 0 ≤ p.1 at hlo
    change 3 * 2 ^ 48 + (p.1 - (3 * 2 ^ 48 + 0)) = p.1
    omega
  have hguard : ¬ (decide (p.1 < markKey .fabric 0) || decide (markKey .sync 0 ≤ p.1) ||
      decide (stackOf ((p.1 - markKey .fabric 0) / 8) ≠ k)) = true := by
    rw [decide_eq_false (Nat.not_lt.2 hlo), decide_eq_false (Nat.not_le.2 hhi), decide_eq_false (not_not_intro hk)]
    exact Bool.false_ne_true
  have hclean := checkGranule_word_clean hs (p.1 - markKey .fabric 0)
  rw [hkey] at hclean
  unfold State.scrubWord
  dsimp only
  rwa [if_neg hguard]

/-- After a patrol pass over listed marks, none of the stack's listed marks stands. -/
theorem scrub_clean (hs : s.allWeak) (k : Nat) (ps : List (Nat × Nat)) :
    ∀ m ∈ (ps.foldl (fun t p => t.scrubWord k p) s).marks, ∀ p ∈ ps, markOfStack k p → m.1 ≠ p.1 := by
  induction ps generalizing s with
  | nil => exact fun _ _ _ hp => absurd hp List.not_mem_nil
  | cons q ps ih =>
    have hq := (scrubbed_scrubWord s k q).allWeak hs
    intro m hm
    refine List.forall_mem_cons.2 ⟨fun hk => ?_, ih hq m hm⟩
    obtain ⟨-, -, -, -, hsub⟩ := scrubbed_scrub (s := s.scrubWord k q) k ps
    exact scrubWord_clean hs hk m (hsub m hm)

/-! ## A stack's retrain (R338, R339) -/

theorem stack_not_vigRel {k : Nat} (hk : k < 64) :
    ¬ vigRel (Reg.MEM_STACK_STATUS k) ∧ ¬ vigRel (Reg.MEM_RETRAINS k) ∧ Reg.MEM_STACK_STATUS k ≠ Reg.MEM_RETRAINS k := by
  simp only [vigRel, vigRelBase, Reg.MEM_STACK_STATUS, Reg.MEM_RETRAINS, unitBase]
  omega

theorem fabric_startRetrain (s : State) (k : Nat) : (s.startRetrain k).fabric = s.fabric := by
  unfold State.startRetrain
  dsimp only
  rw [(logOnly_logAt _ _ _ _ _ _ _).sameStores.1, State.healthAdd_fabric, State.lifeAdd_fabric, State.count_fabric,
    State.setFld_fabric]

theorem reg_startRetrain {a : Nat} (ha : ¬ vigRel a) (s : State) (k : Nat) : (s.startRetrain k).reg a =
    ((s.setFld (Reg.MEM_STACK_STATUS k) F.MEM_STACK_STATUS_STATE 0).count (Reg.MEM_RETRAINS k) F.MEM_RETRAINS_COUNT 1).reg a := by
  unfold State.startRetrain
  dsimp only
  rw [State.reg_logAt _ ha, State.healthAdd_reg, State.lifeAdd_reg]

theorem startRetrain_trains (s : State) {k : Nat} (hk : k < 64) :
    (s.startRetrain k).fld (Reg.MEM_STACK_STATUS k) F.MEM_STACK_STATUS_STATE = 0 ∧
    (s.startRetrain k).fld (Reg.MEM_RETRAINS k) F.MEM_RETRAINS_COUNT =
      satAdd 32 (s.fld (Reg.MEM_RETRAINS k) F.MEM_RETRAINS_COUNT) 1 ∧ (s.startRetrain k).fabric = s.fabric := by
  obtain ⟨hst, hrt, hne⟩ := stack_not_vigRel hk
  refine ⟨?_, ?_, fabric_startRetrain s k⟩
  · rw [State.fld, reg_startRetrain hst, ← State.fld, State.count, State.fld_setFld_ne _ _ _ _ hne,
      State.fld_setFld_self _ (by decide)]
    rfl
  · rw [State.fld, reg_startRetrain hrt, ← State.fld, State.fld_count_self (by decide), State.fld_setFld_ne _ _ _ _ hne.symm]
    rfl

theorem writeLinkCtl_retrain (s : State) (k : Nat) :
    s.writeLinkCtl k 1 = if s.mstate ≠ MState.banked then (Code.rejState, s) else (Code.done, s.startRetrain k) := rfl

theorem exec_stackRetrain_write (s : State) {k : Nat} (hk : k < 64) :
    exec (.stackRetrain k true) s = .next ((s.writeLinkCtl k 1).2.completed (s.writeLinkCtl k 1).1 0) :=
  onUnit_of_ok (decide_eq_true hk) _

theorem exec_stackRetrain_failing (s : State) {k : Nat} (hk : k < 64) :
    exec (.stackRetrain k false) s = .next (if stackFailed s k then s else s.startRetrain k) :=
  onUnit_of_ok (decide_eq_true hk) _

theorem exec_stackRetrainDone (s : State) {k : Nat} (hk : k < 64) (failing : List Nat) :
    exec (.stackRetrainDone k failing) s = .next (if stackWaits s k then s.trainStack k failing else s) :=
  onUnit_of_ok (decide_eq_true hk) _

theorem exec_scrub (s : State) {k : Nat} (hk : k < 64) :
    exec (.scrub k) s = .next (s.marks.foldl (fun t p => t.scrubWord k p) s) := onUnit_of_ok (decide_eq_true hk) _

theorem logOnly_trainStack (s : State) (k : Nat) (failing : List Nat) : LogOnly s (s.trainStack k failing) := by
  have h := (logOnly_setFld s (Reg.MEM_STACK_STATUS k) F.MEM_STACK_STATUS_SPARES_USED (sparesUsed failing 128 8)).trans
    (logOnly_setFld _ (Reg.MEM_STACK_STATUS k) F.MEM_STACK_STATUS_STATE (if linkLost failing 128 8 then 2 else 1))
  unfold State.trainStack
  dsimp only
  by_cases hl : linkLost failing 128 8 = true
  · rw [if_pos hl]
    exact h.trans (logOnly_logAt _ _ _ _ _ _ _)
  · rw [if_neg hl]
    exact h

theorem reg_trainStack {a : Nat} (ha : ¬ vigRel a) (s : State) (k : Nat) (failing : List Nat) :
    (s.trainStack k failing).reg a = ((s.setFld (Reg.MEM_STACK_STATUS k) F.MEM_STACK_STATUS_SPARES_USED
      (sparesUsed failing 128 8)).setFld (Reg.MEM_STACK_STATUS k) F.MEM_STACK_STATUS_STATE
      (if linkLost failing 128 8 then 2 else 1)).reg a := by
  unfold State.trainStack
  dsimp only
  by_cases hl : linkLost failing 128 8 = true
  · rw [if_pos hl]
    exact State.reg_logAt _ ha _ _ _ _ _ _
  · rw [if_neg hl]

theorem sumNat_map_le {α : Type} {f : α → Nat} {b : Nat} (h : ∀ x, f x ≤ b) (xs : List α) : sumNat (xs.map f) ≤ b * xs.length := by
  induction xs with
  | nil => exact Nat.le_refl _
  | cons x xs ih =>
    have hx := h x
    simp only [List.map_cons, sumNat, List.length_cons, Nat.mul_add]
    omega

theorem sparesUsed_le (failing : List Nat) (size groups : Nat) : sparesUsed failing size groups ≤ 2 * groups := by
  have h := sumNat_map_le (f := fun g => Nat.min 2 (groupFails failing size g)) (fun _ => Nat.min_le_left _ _) (List.range groups)
  rwa [List.length_range] at h

theorem trainStack_state (s : State) {k : Nat} (hk : k < 64) (failing : List Nat) :
    (s.trainStack k failing).fld (Reg.MEM_STACK_STATUS k) F.MEM_STACK_STATUS_STATE = (if linkLost failing 128 8 then 2 else 1) ∧
    (s.trainStack k failing).fld (Reg.MEM_STACK_STATUS k) F.MEM_STACK_STATUS_SPARES_USED = sparesUsed failing 128 8 ∧
    (s.trainStack k failing).reg (Reg.MEM_RETRAINS k) = s.reg (Reg.MEM_RETRAINS k) := by
  obtain ⟨hst, hrt, hne⟩ := stack_not_vigRel hk
  have hle := sparesUsed_le failing 128 8
  refine ⟨?_, ?_, ?_⟩
  · rw [State.fld, reg_trainStack hst, ← State.fld, State.fld_setFld_self _ (by decide)]
    split <;> rfl
  · rw [State.fld, reg_trainStack hst, ← State.fld, State.fld_setFld_apart _ (by decide) (by decide),
      State.fld_setFld_self _ (by decide)]
    exact Nat.mod_eq_of_lt (Nat.lt_of_le_of_lt hle (by decide))
  · rw [reg_trainStack hrt, State.reg_setFld_ne _ _ _ hne.symm, State.reg_setFld_ne _ _ _ hne.symm]

/-! ## A mesh link's or attachment's retrain (R505) -/

/-- The registers of a link's ends are no reliability registers, and no two of them are one. -/
def linkApart (rs : List (Nat × Nat × Nat)) : Prop :=
  (∀ r ∈ rs, ¬ vigRel r.1 ∧ ¬ vigRel r.2.1) ∧ (∀ r ∈ rs, ∀ r' ∈ rs, r.1 ≠ r'.2.1) ∧ (rs.map fun r => r.2.1).Nodup

theorem linkRegs_apart {l : OnLink} (h : l.ok = true) : linkApart (linkRegs l) := by
  cases l with
  | attach i a =>
    simp only [linkApart, linkRegs, List.forall_mem_singleton, List.map_cons, List.map_nil, List.nodup_cons, List.not_mem_nil,
      not_false_eq_true, List.nodup_nil, vigRel,
      vigRelBase, Reg.RTE_IOD_ATTACH, Reg.RTE_IOD_RETRAINS, unitBase, and_true]
    simp only [OnLink.ok, Bool.and_eq_true, decide_eq_true_eq] at h
    omega
  | mesh d n =>
    have hd : d < 64 ∧ n < 4 ∧ meshPeer d n < 64 := by
      unfold OnLink.ok at h
      rw [Bool.and_eq_true, decide_eq_true_eq] at h
      obtain ⟨hd, hn⟩ := h
      match n, hn with
      | 0, hn => exact ⟨hd, by decide, by change d - 8 < 64; omega⟩
      | 1, hn => exact ⟨hd, by decide, by have := bne_iff_ne.1 hn; change d + 1 < 64; omega⟩
      | 2, hn => exact ⟨hd, by decide, by have := of_decide_eq_true hn; change d + 8 < 64; omega⟩
      | 3, hn => exact ⟨hd, by decide, by change d - 1 < 64; omega⟩
    obtain ⟨hd, hn, hpeer⟩ := hd
    simp only [linkApart, linkRegs, List.forall_mem_cons, forall_eq, List.map_cons,
      List.map_nil, List.nodup_cons, List.mem_singleton, List.not_mem_nil, List.nodup_nil, vigRel, vigRelBase, Reg.RTE_MESH_LINK,
      Reg.RTE_MESH_RETRAINS, unitBase, not_false_eq_true, and_true]
    omega

theorem reg_foldl_count_ne {rs : List (Nat × Nat × Nat)} {a : Nat} (h : ∀ r ∈ rs, a ≠ r.2.1) (f : Fld) :
    (rs.foldl (fun t r => t.count r.2.1 f 1) s).reg a = s.reg a := by
  induction rs generalizing s with
  | nil => rfl
  | cons r rs ih =>
    obtain ⟨hr, hrs⟩ := List.forall_mem_cons.1 h
    exact (ih hrs).trans (State.reg_setFld_ne _ _ _ hr)

theorem fld_foldl_count {rs : List (Nat × Nat × Nat)} (h : (rs.map fun r => r.2.1).Nodup) {f : Fld} (hf : f.fits) :
    ∀ r ∈ rs, (rs.foldl (fun t r => t.count r.2.1 f 1) s).fld r.2.1 f = satAdd (f.hi + 1 - f.lo) (s.fld r.2.1 f) 1 := by
  induction rs generalizing s with
  | nil => exact fun _ hr => absurd hr List.not_mem_nil
  | cons q rs ih =>
    rw [List.map_cons, List.nodup_cons] at h
    obtain ⟨hq, hrs⟩ := h
    have hne : ∀ r ∈ rs, q.2.1 ≠ r.2.1 := fun r hr he => hq (he ▸ List.mem_map_of_mem hr)
    refine List.forall_mem_cons.2 ⟨?_, fun r hr => ?_⟩
    · exact (congrArg f.get (reg_foldl_count_ne hne f)).trans (State.fld_count_self hf _ _)
    · exact (ih hrs r hr).trans (congrArg (satAdd _ · 1) (State.fld_setFld_ne _ _ _ _ (hne r hr).symm))

theorem reg_foldl_setReg_ne {rs : List (Nat × Nat × Nat)} {a : Nat} (h : ∀ r ∈ rs, r.1 ≠ a) (w : Word) :
    (rs.foldl (fun t r => t.setReg r.1 w) s).reg a = s.reg a := by
  induction rs generalizing s with
  | nil => rfl
  | cons r rs ih =>
    obtain ⟨hr, hrs⟩ := List.forall_mem_cons.1 h
    exact (ih hrs).trans (State.reg_setReg_ne _ _ hr.symm)

theorem reg_foldl_setReg {rs : List (Nat × Nat × Nat)} (w : Word) : ∀ r ∈ rs, (rs.foldl (fun t r => t.setReg r.1 w) s).reg r.1 = w := by
  induction rs generalizing s with
  | nil => exact fun _ hr => absurd hr List.not_mem_nil
  | cons q rs ih =>
    refine List.forall_mem_cons.2 ⟨?_, ih⟩
    by_cases h : ∀ r ∈ rs, r.1 ≠ q.1
    · exact (reg_foldl_setReg_ne h w).trans (State.reg_setReg_self _ _ _)
    · obtain ⟨r, hr⟩ := Classical.not_forall.1 h
      obtain ⟨hr, he⟩ := Classical.not_imp.1 hr
      exact Classical.not_not.1 he ▸ ih r hr

theorem logOnly_foldl {α : Type} {f : State → α → State} (h : ∀ t x, LogOnly t (f t x)) (xs : List α) :
    LogOnly s (xs.foldl f s) :=
  foldl_keeps (f := f) (fun t => LogOnly s t) (fun t x ht => ht.trans (h t x)) xs (LogOnly.refl s)

theorem reg_foldl_logAt {a : Nat} (ha : ¬ vigRel a) (cls code : Nat) (rs : List (Nat × Nat × Nat)) :
    (rs.foldl (fun t r => t.logAt cls code r.2.2 (if r.2.2 < 0x40 then 0xF1 else 0x10) 0 []) s).reg a = s.reg a :=
  foldl_keeps (f := fun (t : State) (r : Nat × Nat × Nat) => t.logAt cls code r.2.2 (if r.2.2 < 0x40 then 0xF1 else 0x10) 0 [])
    (fun t : State => t.reg a = s.reg a) (fun t _ ht => (State.reg_logAt t ha _ _ _ _ _ _).trans ht) rs rfl

theorem State.reg_withLife (s : State) (m : AMap Nat) (a : Nat) : State.reg { s with life := m } a = s.reg a := (rfl)

theorem reg_trainLink {a : Nat} (ha : ¬ vigRel a) (s : State) (l : OnLink) (failing : List Nat) : (s.trainLink l failing).reg a =
    ((linkRegs l).foldl (fun t r => t.setReg r.1 (trainedLink (linkGroups l) failing)) s).reg a := by
  unfold State.trainLink
  dsimp only
  split
  · rw [reg_foldl_logAt ha, State.reg_withLife]
  · rw [State.reg_withLife]

theorem fabric_trainLink (s : State) (l : OnLink) (failing : List Nat) : (s.trainLink l failing).fabric = s.fabric := by
  have h := (logOnly_foldl (s := s) (f := fun t (r : Nat × Nat × Nat) => t.setReg r.1 (trainedLink (linkGroups l) failing))
    (fun t r => logOnly_setReg t _ _) (linkRegs l)).sameStores.1
  unfold State.trainLink
  dsimp only
  split
  · exact ((logOnly_foldl (fun t r => logOnly_logAt t _ _ _ _ _ _) _).sameStores.1).trans h
  · exact h

/-- A link counts its retrain at each end. -/
def State.linkRetrains (s : State) (rs : List (Nat × Nat × Nat)) : State :=
  ((rs.foldl (fun t r => t.count r.2.1 F.RTE_MESH_RETRAINS_COUNT 1) s).lifeAdd 12 1).healthAdd 4 1

/-- A link's retrain is logged at its first end. -/
def State.logLink (s : State) : List (Nat × Nat × Nat) → State
  | r :: _ => s.logAt AClass.onmod 0 r.2.2 (if r.2.2 < 0x40 then 0xF1 else 0x10) 0 []
  | [] => s

theorem exec_onmodLinkRetrain (s : State) {l : OnLink} (h : l.ok = true) (failing : List Nat) :
    exec (.onmodLinkRetrain l failing) s = .next (if (linkRegs l).any fun r => s.fld r.1 F.RTE_MESH_LINK_STATE = 2 then s
      else ((s.linkRetrains (linkRegs l)).logLink (linkRegs l)).trainLink l failing) := by
  refine (onUnit_of_ok h _).trans ?_
  cases l <;> rfl

theorem reg_logLink {a : Nat} (ha : ¬ vigRel a) (s : State) (rs : List (Nat × Nat × Nat)) : (s.logLink rs).reg a = s.reg a := by
  cases rs with
  | nil => rfl
  | cons r rs => exact State.reg_logAt s ha _ _ _ _ _ _

theorem fabric_logLink (s : State) (rs : List (Nat × Nat × Nat)) : (s.logLink rs).fabric = s.fabric := by
  cases rs with
  | nil => rfl
  | cons r rs => exact (logOnly_logAt s _ _ _ _ _ _).sameStores.1

theorem linkRetrained {l : OnLink} (h : l.ok = true) (failing : List Nat) (s : State) :
    let t := ((s.linkRetrains (linkRegs l)).logLink (linkRegs l)).trainLink l failing
    t.fabric = s.fabric ∧ ∀ r ∈ linkRegs l, t.reg r.1 = trainedLink (linkGroups l) failing ∧
      t.fld r.2.1 F.RTE_MESH_RETRAINS_COUNT = satAdd 32 (s.fld r.2.1 F.RTE_MESH_RETRAINS_COUNT) 1 := by
  obtain ⟨hrel, hne, hnodup⟩ := linkRegs_apart h
  intro t
  refine ⟨?_, fun r hr => ⟨?_, ?_⟩⟩
  · rw [fabric_trainLink, fabric_logLink]
    exact (logOnly_foldl (fun t r => logOnly_count t _ _ _) _).sameStores.1
  · exact (reg_trainLink (hrel r hr).1 _ _ _).trans (reg_foldl_setReg _ r hr)
  · rw [State.fld, reg_trainLink (hrel r hr).2, reg_foldl_setReg_ne (fun r' hr' => hne r' hr' r hr),
      reg_logLink (hrel r hr).2, State.linkRetrains, State.healthAdd_reg, State.lifeAdd_reg]
    exact fld_foldl_count hnodup (by decide) r hr

end

/-- Settles O36: a scrub's clean-up by induction over the listed marks, the retrains register by register. -/
theorem linkRetrains : Obligations.LinkRetrains := by
  unfold Obligations.LinkRetrains
  intro s k failing l a retrains started
  refine ⟨fun hk => ⟨?_, fun hm => ?_, fun hm => ?_, fun hf => ?_, fun hf => ?_, fun hw => ?_, fun hw => ?_⟩,
    fun hl => ⟨fun hup => ?_, fun ⟨r, hr, hdown⟩ => ?_⟩⟩
  · obtain ⟨hfab, hhth, hscr, hcores, hsub⟩ := scrubbed_scrub (s := s) k s.marks
    exact ⟨_, exec_scrub s hk, hfab, hhth, hscr, hcores, hsub,
      fun hs m hm hst => scrub_clean hs k s.marks m hm m (hsub m hm) hst rfl⟩
  · have h : s.writeLinkCtl k 1 = (Code.done, s.startRetrain k) := (writeLinkCtl_retrain s k).trans (if_neg (not_not_intro hm))
    obtain ⟨hst, hrt, hfab⟩ := startRetrain_trains s hk
    rw [exec_stackRetrain_write s hk, h]
    exact ⟨_, rfl, rfl, (State.completed_fld ..).trans hst, (State.completed_fld ..).trans hrt, hfab⟩
  · have h : s.writeLinkCtl k 1 = (Code.rejState, s) := (writeLinkCtl_retrain s k).trans (if_pos hm)
    rw [exec_stackRetrain_write s hk, h]
  · rw [exec_stackRetrain_failing s hk, if_neg (ne_true_of_eq_false hf)]
    exact ⟨_, rfl, startRetrain_trains s hk⟩
  · rw [exec_stackRetrain_failing s hk, if_pos hf]
  · rw [exec_stackRetrainDone s hk, if_pos hw]
    exact ⟨_, rfl, (logOnly_trainStack s k failing).sameStores.1, trainStack_state s hk failing⟩
  · rw [exec_stackRetrainDone s hk, if_neg (ne_true_of_eq_false hw)]
  · rw [exec_onmodLinkRetrain s hl, if_neg (by simpa using fun r₁ r₂ r₃ => hup (r₁, r₂, r₃))]
    exact ⟨_, rfl, linkRetrained hl failing s⟩
  · rw [exec_onmodLinkRetrain s hl, if_pos (List.any_eq_true.2 ⟨r, hr, decide_eq_true hdown⟩)]

end Sys2Proof.Machine
end

section
/-! SUPPORT. Frames received at an UP Jorvief port (R383 to R386, R415, R416). -/
namespace Sys2Proof.Machine

section
variable {s : State}

/-! ## What a good frame's header does to its port -/

/-- The port with the credit word and the ACK of a good frame honoured. -/
def Port.acking (x : Port) (f : Frame) (now : Nat) : Port :=
  ((({ x with lastGood := now } : Port).credit (L.poola.get f.credit) (L.limita.get f.credit)).credit (L.poolb.get f.credit)
    (L.limitb.get f.credit)).acked (L.ack.get f.hdr) now

/-- The port with the header of a good frame honoured. -/
def Port.honoured (x : Port) (f : Frame) (now : Nat) : Port :=
  let y := x.acking f now
  if L.nak.on f.hdr && L.nakid.get f.hdr ≠ y.acted then { y with acted := L.nakid.get f.hdr, toReplay := y.replay.length } else y

/-- Only the limits may differ. -/
theorem Port.credit_eq (x : Port) (pool limit : Nat) : x.credit pool limit = { x with limit := (x.credit pool limit).limit } := by
  unfold Port.credit
  split <;> rfl

/-- Only the replay buffer may differ. -/
theorem Port.acked_eq (x : Port) (ack now : Nat) : x.acked ack now =
    { x with replay := (x.acked ack now).replay, toReplay := (x.acked ack now).toReplay, ackAt := (x.acked ack now).ackAt } := by
  unfold Port.acked
  split
  · rfl
  · dsimp only
    split <;> rfl

/-- What honouring a header leaves of a port. -/
def Port.sameReception (x y : Port) : Prop :=
  y.expect = x.expect ∧ y.part = x.part ∧ y.arrived = x.arrived ∧ y.stream = x.stream ∧ y.nakOpen = x.nakOpen ∧
    y.nakId = x.nakId

theorem Port.acking_eq (x : Port) (f : Frame) (now : Nat) : x.acking f now =
    { x with lastGood := now, limit := (x.acking f now).limit, replay := (x.acking f now).replay,
             toReplay := (x.acking f now).toReplay, ackAt := (x.acking f now).ackAt } := by
  unfold Port.acking
  rw [Port.acked_eq, Port.credit_eq, Port.credit_eq { x with lastGood := now }]

theorem Port.acking_reception (x : Port) (f : Frame) (now : Nat) :
    x.sameReception (x.acking f now) ∧ (x.acking f now).lastGood = now ∧ (x.acking f now).acted = x.acted := by
  rw [Port.acking_eq]
  exact ⟨⟨rfl, rfl, rfl, rfl, rfl, rfl⟩, rfl, rfl⟩

theorem Port.honoured_eq (x : Port) (f : Frame) (now : Nat) : x.honoured f now =
    { x.acking f now with acted := (x.honoured f now).acted, toReplay := (x.honoured f now).toReplay } := by
  unfold Port.honoured
  dsimp only
  split <;> rfl

theorem Port.honoured_reception (x : Port) (f : Frame) (now : Nat) :
    x.sameReception (x.honoured f now) ∧ (x.honoured f now).lastGood = now := by
  obtain ⟨h, hgood, -⟩ := Port.acking_reception x f now
  rw [Port.honoured_eq]
  exact ⟨h, hgood⟩

theorem Port.credit_limit_self (x : Port) {pool : Nat} (h : pool < 10) (limit : Nat) :
    AMap.get (x.credit pool limit).limit 0 pool = limit + 1 := by
  rw [Port.credit, if_pos h]
  exact (AMap.get_set x.limit 0 pool pool (limit + 1)).trans (if_pos rfl)

theorem Port.credit_limit_ne (x : Port) {pool k : Nat} (h : k ≠ pool) (limit : Nat) :
    AMap.get (x.credit pool limit).limit 0 k = AMap.get x.limit 0 k := by
  unfold Port.credit
  split
  · exact (AMap.get_set x.limit 0 pool k (limit + 1)).trans (if_neg h)
  · rfl

theorem Port.acked_limit (x : Port) (ack now : Nat) : (x.acked ack now).limit = x.limit := by
  rw [Port.acked_eq]

theorem Port.honoured_limit (x : Port) (f : Frame) (now : Nat) :
    (L.poola.get f.credit < 10 → L.poola.get f.credit ≠ L.poolb.get f.credit →
      AMap.get (x.honoured f now).limit 0 (L.poola.get f.credit) = L.limita.get f.credit + 1) ∧
    (L.poolb.get f.credit < 10 → AMap.get (x.honoured f now).limit 0 (L.poolb.get f.credit) = L.limitb.get f.credit + 1) := by
  rw [Port.honoured_eq]
  dsimp only
  rw [Port.acking, Port.acked_limit]
  exact ⟨fun ha hne => (Port.credit_limit_ne _ hne _).trans (Port.credit_limit_self _ ha _), fun hb => Port.credit_limit_self _ hb _⟩

theorem Port.credit_replay (x : Port) (pool limit : Nat) : (x.credit pool limit).replay = x.replay := by
  rw [Port.credit_eq]

/-- The frames that an ACK frees. -/
theorem Port.acked_replay (x : Port) (ack now : Nat) :
    let n := (ack + 1 + 4096 - (x.replay.map TxFrame.seq).headD 0) % 4096
    (n ≤ x.replay.length → (x.acked ack now).replay = x.replay.drop n) ∧
    (x.replay.length < n → (x.acked ack now).replay = x.replay) := by
  unfold Port.acked
  dsimp only
  cases hr : x.replay with
  | nil =>
    dsimp only
    rw [hr]
    exact ⟨fun _ => List.drop_nil.symm, fun _ => rfl⟩
  | cons g gs =>
    dsimp only
    rw [List.map_cons, List.headD_cons]
    generalize (ack + 1 + 4096 - g.seq) % 4096 = n
    refine ⟨fun hn => ?_, fun hn => ?_⟩
    · by_cases h0 : n = 0
      · rw [if_pos (by rw [decide_eq_true h0, Bool.true_or]), hr, h0, List.drop_zero]
      · rw [if_neg (by rw [decide_eq_false h0, decide_eq_false (Nat.not_lt.2 hn)]; decide)]
    · rw [if_pos (by rw [decide_eq_true hn, Bool.or_true]), hr]

theorem Port.honoured_replay (x : Port) (f : Frame) (now : Nat) :
    let n := (L.ack.get f.hdr + 1 + 4096 - (x.replay.map TxFrame.seq).headD 0) % 4096
    (n ≤ x.replay.length → (x.honoured f now).replay = x.replay.drop n) ∧
    (x.replay.length < n → (x.honoured f now).replay = x.replay) := by
  have h := Port.acked_replay ((({ x with lastGood := now } : Port).credit (L.poola.get f.credit) (L.limita.get f.credit)).credit
    (L.poolb.get f.credit) (L.limitb.get f.credit)) (L.ack.get f.hdr) now
  rw [Port.credit_replay, Port.credit_replay] at h
  rw [Port.honoured_eq]
  exact h

/-- A NAK not acted on yet asks for every frame held. -/
theorem Port.honoured_nak (x : Port) {f : Frame} (now : Nat) (h : L.nak.on f.hdr = true) (hid : L.nakid.get f.hdr ≠ x.acted) :
    (x.honoured f now).toReplay = (x.honoured f now).replay.length ∧ (x.honoured f now).acted = L.nakid.get f.hdr := by
  obtain ⟨-, -, hacted⟩ := Port.acking_reception x f now
  unfold Port.honoured
  dsimp only
  rw [hacted, h, decide_eq_true hid]
  exact ⟨rfl, rfl⟩

/-! ## Frames at a port -/

theorem State.port_count (s : State) (a : Nat) (f : Fld) (n p : Nat) : (s.count a f n).port p = s.port p := rfl

theorem State.port_healthAdd (s : State) (i n p : Nat) : (s.healthAdd i n).port p = s.port p := rfl

theorem port_honour (s : State) (p : Nat) (f : Frame) : (s.honour p f).port p = (s.port p).honoured f s.now := by
  unfold State.honour Port.honoured Port.acking
  dsimp only
  split
  · split
    · exact State.port_setPort_self _ _
    · rw [State.port_healthAdd, State.port_count, State.port_setPort_self]
  · exact State.port_setPort_self _ _

theorem sameStores_setPort (s : State) (p : Nat) (x : Port) : SameStores s (s.setPort p x) := ⟨rfl, rfl, rfl, rfl, rfl⟩

theorem sameStores_bump (s : State) (a : Nat) (f : Fld) (n : Nat) : SameStores s (s.bump a f n) := ⟨rfl, rfl, rfl, rfl, rfl⟩

theorem sameStores_honour (s : State) (p : Nat) (f : Frame) : SameStores s (s.honour p f) := by
  unfold State.honour
  dsimp only
  split
  · split
    · exact sameStores_setPort s _ _
    · exact ((sameStores_setPort s _ _).trans (logOnly_count _ _ _ _).sameStores).trans (sameStores_healthAdd _ _ _)
  · exact sameStores_setPort s _ _

theorem hear_of_up {p : Nat} (hup : s.isUp p = true) (heth : s.isEth p = false) (f : Frame) : s.hear p f = some (s.honour p f) :=
  if_pos (by rw [hup, heth]; rfl)

theorem hear_of_deaf {p : Nat} (h : s.isUp p = false ∨ s.isEth p = true) (f : Frame) : s.hear p f = none :=
  if_neg (by rcases h with h | h <;> simp [h])

theorem takeFrame_of_deaf {p : Nat} (h : s.isUp p = false ∨ s.isEth p = true) (ftype : Nat) (f : Frame) :
    s.takeFrame p ftype f = s := by
  rw [State.takeFrame, hear_of_deaf h]

/-- The packets that an accepted frame completes, and the bytes that stay. -/
def Port.taken (x : Port) (f : Frame) : List Packet × List Byte :=
  let body := (slice f.body 0 620).take (4 * L.fill.get f.hdr)
  let new := if x.part.isEmpty then (if L.first.get f.hdr = 255 then [] else body.drop (4 * L.first.get f.hdr)) else body
  cutPackets (x.part ++ new) 160

theorem State.port_bump (s : State) (a : Nat) (f : Fld) (n p : Nat) : (s.bump a f n).port p = s.port p := rfl

theorem port_takeBody (s : State) (p : Nat) (f : Frame) : (s.takeBody p f).port p =
    { s.port p with part := ((s.port p).taken f).2, arrived := (s.port p).arrived ++ ((s.port p).taken f).1 } := by
  unfold State.takeBody
  dsimp only
  rw [State.port_bump, State.port_setPort_self]
  rfl

theorem sameStores_takeBody (s : State) (p : Nat) (f : Frame) : SameStores s (s.takeBody p f) :=
  (sameStores_setPort s _ _).trans (sameStores_bump _ _ _ _)

theorem Port.taken_of_reception {x y : Port} (h : x.sameReception y) (f : Frame) : y.taken f = x.taken f := by
  obtain ⟨-, hpart, -⟩ := h
  unfold Port.taken
  rw [hpart]

section
variable {p ftype : Nat} {f : Frame} (hup : s.isUp p = true) (heth : s.isEth p = false) (htype : L.ftype.get f.hdr = ftype)
include hup heth htype

/-- The expected frame is accepted. -/
theorem takeFrame_of_expected (hseq : L.fseq.get f.hdr = (s.port p).expect) :
    (s.takeFrame p ftype f).port p = { (s.port p).honoured f s.now with
      expect := ((s.port p).expect + 1) % 4096, nakOpen := false, part := ((s.port p).taken f).2,
      arrived := (s.port p).arrived ++ ((s.port p).taken f).1 } ∧ SameStores s (s.takeFrame p ftype f) := by
  obtain ⟨hrec, -⟩ := Port.honoured_reception (s.port p) f s.now
  have hcut := Port.taken_of_reception hrec f
  obtain ⟨hexp, -, harr, -⟩ := hrec
  have h : s.takeFrame p ftype f = ((s.honour p f).setPort p { (s.honour p f).port p with
      expect := (((s.honour p f).port p).expect + 1) % 4096, nakOpen := false }).takeBody p f := by
    rw [State.takeFrame, hear_of_up hup heth]
    dsimp only
    rw [port_honour, hexp, if_neg (not_not_intro htype), if_pos hseq]
  rw [h]
  refine ⟨?_, ((sameStores_honour s p f).trans (sameStores_setPort _ _ _)).trans (sameStores_takeBody _ _ _)⟩
  rw [port_takeBody, State.port_setPort_self, port_honour]
  dsimp only
  rw [hexp, harr, ← hcut]
  rfl

/-- A frame out of sequence is discarded. -/
theorem takeFrame_of_unexpected (hseq : L.fseq.get f.hdr ≠ (s.port p).expect) :
    (s.takeFrame p ftype f).port p = ((s.port p).honoured f s.now).discard false ∧ SameStores s (s.takeFrame p ftype f) := by
  obtain ⟨⟨hexp, -⟩, -⟩ := Port.honoured_reception (s.port p) f s.now
  have h : s.takeFrame p ftype f = (s.honour p f).setPort p (((s.honour p f).port p).discard false) := by
    rw [State.takeFrame, hear_of_up hup heth]
    dsimp only
    rw [port_honour, hexp, if_neg (not_not_intro htype), if_neg hseq]
  rw [h, State.port_setPort_self, port_honour]
  exact ⟨rfl, (sameStores_honour s p f).trans (sameStores_setPort _ _ _)⟩

end

theorem Port.discard_eq (x : Port) (again : Bool) : x.discard again =
    if x.nakOpen = true ∧ again = false then x else { x with nakOpen := true, nakId := (x.nakId + 1) % 4 } := by
  unfold Port.discard
  simp only [Bool.and_eq_true, Bool.not_eq_true']

/-- A discard episode is open, with the NAKID it had, or the next where none was open. -/
theorem Port.discard_false (x : Port) : (x.discard false).expect = x.expect ∧ (x.discard false).nakOpen = true ∧
    (x.discard false).nakId = (if x.nakOpen then x.nakId else (x.nakId + 1) % 4) ∧ (x.discard false).arrived = x.arrived ∧
    (x.discard false).part = x.part := by
  rw [Port.discard_eq]
  by_cases hn : x.nakOpen = true
  · rw [if_pos ⟨hn, rfl⟩, if_pos hn]
    exact ⟨rfl, hn, rfl, rfl, rfl⟩
  · rw [if_neg fun h => hn h.1, if_neg hn]
    exact ⟨rfl, rfl, rfl, rfl, rfl⟩

/-! ## Frames that fail -/

theorem exec_idleFrame (s : State) {p : Nat} (hp : p < 1024) (f : Frame) :
    exec (.idleFrame p f) s = .next ((s.hear p f).getD s) := onUnit_of_ok (decide_eq_true hp) _

theorem exec_frame (s : State) {p : Nat} (hp : p < 1024) (f : Frame) (replay : Bool) :
    exec (if replay then .replayFrame p f else .dataFrame p f) s = .next (s.takeFrame p (if replay then 3 else 1) f) := by
  cases replay
  case false => exact onUnit_of_ok (decide_eq_true hp) (s.takeFrame p 1 f)
  case true => exact onUnit_of_ok (decide_eq_true hp) (s.takeFrame p 3 f)

/-- A failed frame is counted. -/
def State.countBad (s : State) (p : Nat) (undecoded : Bool) : State :=
  if undecoded then s.count (Reg.LNK_FEC_UNCORR p) F.LNK_FEC_UNCORR_COUNT 1
  else s.count (Reg.LNK_CRC_ERRS p) F.LNK_CRC_ERRS_COUNT 1

theorem lnkStatus_ne_counts (p : Nat) : Reg.LNK_PORT_STATUS p ≠ Reg.LNK_FEC_UNCORR p ∧ Reg.LNK_PORT_STATUS p ≠ Reg.LNK_CRC_ERRS p ∧
    Reg.LNK_PORT_CFG p ≠ Reg.LNK_FEC_UNCORR p ∧ Reg.LNK_PORT_CFG p ≠ Reg.LNK_CRC_ERRS p := by
  unfold Reg.LNK_PORT_STATUS Reg.LNK_PORT_CFG Reg.LNK_FEC_UNCORR Reg.LNK_CRC_ERRS
  omega

theorem port_countBad (s : State) (p q : Nat) (undecoded : Bool) : (s.countBad p undecoded).port q = s.port q := by
  cases undecoded <;> exact State.port_count _ _ _ _ _

theorem link_countBad (s : State) (p : Nat) (undecoded : Bool) :
    (s.countBad p undecoded).isUp p = s.isUp p ∧ (s.countBad p undecoded).isEth p = s.isEth p := by
  obtain ⟨h1, h2, h3, h4⟩ := lnkStatus_ne_counts p
  unfold State.isUp State.portState State.isEth
  cases undecoded
  case false => exact ⟨by rw [State.countBad, if_neg (by decide), State.count, State.fld_setFld_ne _ _ _ _ h2],
    by rw [State.countBad, if_neg (by decide), State.count, State.fld_setFld_ne _ _ _ _ h4]⟩
  case true => exact ⟨by rw [State.countBad, if_pos rfl, State.count, State.fld_setFld_ne _ _ _ _ h1],
    by rw [State.countBad, if_pos rfl, State.count, State.fld_setFld_ne _ _ _ _ h3]⟩

theorem exec_badFrame_up (s : State) {p : Nat} (hp : p < 1024) (hup : s.isUp p = true) (heth : s.isEth p = false)
    (undecoded : Bool) (fseq : Option Nat) : exec (.badFrame p undecoded fseq) s =
      .next ((s.countBad p undecoded).setPort p ((s.port p).discard (fseq = some (s.port p).expect))) := by
  obtain ⟨hup', heth'⟩ := link_countBad s p undecoded
  refine (onUnit_of_ok (decide_eq_true hp) _).trans ?_
  dsimp only
  rw [← State.countBad, hup', heth', port_countBad, hup, heth, if_pos (by decide)]

theorem exec_badFrame_down (s : State) {p : Nat} (hp : p < 1024) (hup : s.isUp p = false) (htrain : (s.port p).train = none)
    (undecoded : Bool) (fseq : Option Nat) : exec (.badFrame p undecoded fseq) s = .next (s.countBad p undecoded) := by
  obtain ⟨hup', -⟩ := link_countBad s p undecoded
  refine (onUnit_of_ok (decide_eq_true hp) _).trans ?_
  dsimp only
  rw [← State.countBad, hup', port_countBad, hup, htrain, Bool.false_and, if_neg Bool.false_ne_true]

end

/-- Settles O37: a header is honoured by `Port.honoured`, and a frame of the expected type taken or discarded by its FSEQ. -/
theorem receivedFrames : Obligations.ReceivedFrames := by
  unfold Obligations.ReceivedFrames
  intro s port f undecoded replay fseq x cmd y body new cut n counted hport
  refine ⟨fun h => ⟨?_, ?_⟩, fun hup heth => ?_, fun hup heth => ?_, fun hup htrain => ?_⟩
  · exact (exec_frame s hport f replay).trans (by rw [takeFrame_of_deaf h])
  · rw [exec_idleFrame s hport, hear_of_deaf h]
    rfl
  · have hy : y = x.honoured f s.now := port_honour s port f
    clear_value y
    subst hy
    obtain ⟨hrec, hgood⟩ := Port.honoured_reception x f s.now
    obtain ⟨hexp, hpart, harr, hstream, hopen, hid⟩ := hrec
    obtain ⟨hlima, hlimb⟩ := Port.honoured_limit x f s.now
    obtain ⟨hfreed, hheld⟩ := Port.honoured_replay x f s.now
    refine ⟨?_, hgood, hexp, hpart, harr, hstream, hlima, hlimb, hfreed, hheld, Port.honoured_nak x s.now,
      fun htype => ⟨fun hseq => ?_, fun hseq => ?_⟩⟩
    · rw [exec_idleFrame s hport, hear_of_up hup heth]
      rfl
    · obtain ⟨hp, hfab, hhth, -, hcores, -⟩ := takeFrame_of_expected hup heth htype hseq
      exact ⟨_, exec_frame s hport f replay, by rw [hp], by rw [hp], by rw [hp]; rfl, by rw [hp]; rfl, by rw [hp], hhth, hfab, hcores⟩
    · obtain ⟨hp, -, hhth, -⟩ := takeFrame_of_unexpected hup heth htype hseq
      obtain ⟨hdexp, hdopen, hdid, hdarr, hdpart⟩ := Port.discard_false (x.honoured f s.now)
      rw [← hp] at hdexp hdopen hdid hdarr hdpart
      rw [hopen, hid] at hdid
      exact ⟨_, exec_frame s hport f replay, hdexp.trans hexp, hdopen, hdid, hdarr.trans harr, hdpart.trans hpart, hhth⟩
  · rw [exec_badFrame_up s hport hup heth, Port.discard_eq]
    simp only [decide_eq_false_iff_not]
    rfl
  · exact exec_badFrame_down s hport hup htrain undecoded fseq

end Sys2Proof.Machine
end

section
/-! SUPPORT. A port's training from CODEWORD_LOCK to UP, its time limits and the Ethernet alignment lock (R389 to R393, R404). -/
namespace Sys2Proof.Machine

section
variable {s : State}

/-! ## Addresses -/

theorem lnkStatus_not_vigRel (p : Nat) : ¬ vigRel (Reg.LNK_PORT_STATUS p) := by
  simp only [vigRel, vigRelBase, Reg.LNK_PORT_STATUS, laneBase, unitBase]
  omega

theorem laneStatus_inj {l l' : Nat} : Reg.LNK_LANE_STATUS l = Reg.LNK_LANE_STATUS l' ↔ l = l' := by
  simp only [Reg.LNK_LANE_STATUS, laneBase, unitBase]
  omega

theorem lnkStatus_ne_lane (p l : Nat) : Reg.LNK_PORT_STATUS p ≠ Reg.LNK_LANE_STATUS l := by
  simp only [Reg.LNK_PORT_STATUS, Reg.LNK_LANE_STATUS, laneBase, unitBase]
  omega

theorem lnkStatus_ne (p : Nat) : Reg.LNK_PORT_STATUS p ≠ Reg.LNK_DOWNS p ∧ Reg.LNK_PORT_STATUS p ≠ Reg.LNK_ASYM p ∧
    Reg.LNK_PORT_CFG p ≠ Reg.LNK_PEER p := by
  unfold Reg.LNK_PORT_STATUS Reg.LNK_DOWNS Reg.LNK_ASYM Reg.LNK_PORT_CFG Reg.LNK_PEER
  omega

/-! ## What the ports and the registers keep -/

theorem State.port_setFld (s : State) (a : Nat) (f : Fld) (v p : Nat) : (s.setFld a f v).port p = s.port p := rfl

theorem State.port_setReg (s : State) (a : Nat) (w : Word) (p : Nat) : (s.setReg a w).port p = s.port p := rfl

theorem LogOnly.port {t : State} (h : LogOnly s t) (p : Nat) : t.port p = s.port p := by
  have e : t = s.withLog t := h
  exact (congrArg (State.port · p) e).trans rfl

theorem LogOnly.now {t : State} (h : LogOnly s t) : t.now = s.now := by
  have e : t = s.withLog t := h
  exact (congrArg State.now e).trans rfl

theorem State.reg_setPort (s : State) (p : Nat) (x : Port) (a : Nat) : (s.setPort p x).reg a = s.reg a := (rfl)

theorem State.fld_setPort (s : State) (p : Nat) (x : Port) (a : Nat) (f : Fld) : (s.setPort p x).fld a f = s.fld a f := (rfl)

theorem State.reg_withLock (s : State) (l : Lock) (a : Nat) : State.reg { s with lock := l } a = s.reg a := (rfl)

theorem State.reg_follow_ne {a : Nat} (h : a ≠ Reg.ALM_STATUS) (s : State) : s.follow.reg a = s.reg a := by
  unfold State.follow
  dsimp only
  generalize Reg.ALM_STATUS = b at h
  split
  · rw [State.reg_withLock, State.reg_setFld_ne _ _ _ h, State.reg_setFld_ne _ _ _ h]
  · split
    next q backup hq =>
      generalize (if backup = true then 1 else 0) = v
      split
      · rw [State.reg_withLock, State.reg_setFld_ne _ _ _ h, State.reg_setFld_ne _ _ _ h]
      · rw [State.reg_setFld_ne _ _ _ h]
    · split
      · rfl
      · rw [State.reg_withLock, State.reg_setFld_ne _ _ _ h, State.reg_setFld_ne _ _ _ h]

theorem State.port_withLock (s : State) (l : Lock) (p : Nat) : State.port { s with lock := l } p = s.port p := (rfl)

theorem State.port_follow (s : State) (p : Nat) : s.follow.port p = s.port p := by
  unfold State.follow
  dsimp only
  generalize Reg.ALM_STATUS = b
  split
  · rw [State.port_withLock, State.port_setFld, State.port_setFld]
  · split
    next q backup hq =>
      generalize (if backup = true then 1 else 0) = v
      split
      · rw [State.port_withLock, State.port_setFld, State.port_setFld]
      · rw [State.port_setFld]
    · split
      · rfl
      · rw [State.port_withLock, State.port_setFld, State.port_setFld]

/-! ## The choice of a rate (R391) -/

/-- The bandwidth of a choice. -/
def bandwidth (c : Nat × Nat × Nat) : Nat := rateUnits c.1 * lanesOf c.2.1

theorem bestChoice_best {cs : List (Nat × Nat × Nat)} {b : Nat × Nat × Nat} (h : bestChoice cs = some b) :
    b ∈ cs ∧ ∀ c ∈ cs, bandwidth c ≤ bandwidth b := by
  induction cs generalizing b with
  | nil => exact absurd h (by simp [bestChoice])
  | cons c cs ih =>
    unfold bestChoice at h
    cases hb : bestChoice cs with
    | none =>
      rw [hb] at h
      have hnil : cs = [] := by
        cases cs with
        | nil => rfl
        | cons d ds =>
          unfold bestChoice at hb
          split at hb
          · split at hb <;> exact absurd hb (by simp)
          · exact absurd hb (by simp)
      obtain rfl := Option.some.inj h
      rw [hnil]
      exact ⟨List.mem_singleton.2 rfl, fun d hd => List.mem_singleton.1 hd ▸ Nat.le_refl _⟩
    | some e =>
      obtain ⟨he, hbest⟩ := ih hb
      rw [hb] at h
      dsimp only at h
      split at h
      case isTrue hlt =>
        obtain rfl := Option.some.inj h
        exact ⟨List.mem_cons_of_mem _ he, List.forall_mem_cons.2 ⟨Nat.le_of_lt hlt, hbest⟩⟩
      case isFalse hge =>
        obtain rfl := Option.some.inj h
        exact ⟨List.mem_cons_self, List.forall_mem_cons.2 ⟨Nat.le_refl _, fun d hd => Nat.le_trans (hbest d hd) (Nat.not_lt.1 hge)⟩⟩

theorem width_at (t p : Nat) : (s.at t).width p = s.width p := by
  rw [State.width, State.width, State.widthCode, State.widthCode, State.fld, State.fld, State.reg_at]

theorem laneMask_at (t p : Nat) : (s.at t).laneMask p = s.laneMask p := by
  rw [State.laneMask, State.laneMask, width_at]

theorem commonRates_at (t p : Nat) : (s.at t).commonRates p = s.commonRates p := by
  rw [State.commonRates, State.commonRates, State.reg_at, State.reg_at]

/-! ## UP, failed, training again -/

/-- The lane registers as a port enters UP. -/
def State.formLane (p rate tw off : Nat) (s : State) (i : Nat) : State :=
  let a := Reg.LNK_LANE_STATUS (p + i)
  if off ≤ i && i < off + lanesOf tw then (s.setFld a F.LNK_LANE_STATUS_RATE rate).setFld a F.LNK_LANE_STATUS_PASS 1
  else (s.setFld a F.LNK_LANE_STATUS_RATE 0).setFld a F.LNK_LANE_STATUS_PASS 0

theorem reg_formLane_ne {a p i : Nat} (h : a ≠ Reg.LNK_LANE_STATUS (p + i)) (rate tw off : Nat) :
    (s.formLane p rate tw off i).reg a = s.reg a := by
  unfold State.formLane
  dsimp only
  split
  · rw [State.reg_setFld_ne _ _ _ h, State.reg_setFld_ne _ _ _ h]
  · rw [State.reg_setFld_ne _ _ _ h, State.reg_setFld_ne _ _ _ h]

theorem port_formLane (p rate tw off i q : Nat) : (s.formLane p rate tw off i).port q = s.port q := by
  unfold State.formLane
  dsimp only
  generalize Reg.LNK_LANE_STATUS (p + i) = a
  split
  · rw [State.port_setFld, State.port_setFld]
  · rw [State.port_setFld, State.port_setFld]

/-- The status register's fields as a port enters UP. -/
def State.upStatus (s : State) (a rate version tw off : Nat) : State :=
  ((((s.setFld a F.LNK_PORT_STATUS_STATE 3).setFld a F.LNK_PORT_STATUS_VERSION version).setFld a F.LNK_PORT_STATUS_RATE rate).setFld
    a F.LNK_PORT_STATUS_TWIDTH tw).setFld a F.LNK_PORT_STATUS_TOFFSET off

/-- A port as it enters UP. -/
def Port.risen (x : Port) (now : Nat) : Port :=
  { x with txSeq := 0, replay := [], toReplay := 0, acted := 0, ctrl := [], sent := [], limit := [], expect := 0,
           nakOpen := false, nakId := 0, part := [], freed := [], pair := 0, lastGood := now, ackAt := now,
           train := none, failedAt := none, downAt := none }

theorem State.enterUp_eq (s : State) (p rate version tw off : Nat) : s.enterUp p rate version tw off =
    let u := (s.setPort p ((s.port p).risen s.now)).upStatus (Reg.LNK_PORT_STATUS p) rate version tw off
    (((List.range (u.width p)).foldl (State.formLane p rate tw off) u).lifeAdd 11 1).follow := rfl

theorem port_upStatus (a rate version tw off p : Nat) : (s.upStatus a rate version tw off).port p = s.port p := by
  unfold State.upStatus
  rw [State.port_setFld, State.port_setFld, State.port_setFld, State.port_setFld, State.port_setFld]

theorem reg_upStatus_setPort (p : Nat) (x : Port) (a rate version tw off b : Nat) :
    ((s.setPort p x).upStatus a rate version tw off).reg b = (s.upStatus a rate version tw off).reg b := (rfl)

theorem State.port_lifeAdd (s : State) (w n p : Nat) : (s.lifeAdd w n).port p = s.port p := rfl

theorem port_enterUp (p rate version tw off : Nat) : (s.enterUp p rate version tw off).port p = (s.port p).risen s.now := by
  rw [State.enterUp_eq]
  dsimp only
  rw [State.port_follow, State.port_lifeAdd]
  refine foldl_keeps (f := State.formLane p rate tw off) (fun t : State => t.port p = (s.port p).risen s.now)
    (fun t i ht => (port_formLane _ _ _ _ _ _).trans ht) _ ?_
  rw [port_upStatus, State.port_setPort_self]

theorem fld_enterUp (p rate version tw off : Nat) (f : Fld) : (s.enterUp p rate version tw off).fld (Reg.LNK_PORT_STATUS p) f =
    (s.upStatus (Reg.LNK_PORT_STATUS p) rate version tw off).fld (Reg.LNK_PORT_STATUS p) f := by
  obtain ⟨-, halm, -⟩ := lnkPort_ne_alm p
  have hne := lnkStatus_ne_lane p
  rw [State.enterUp_eq]
  dsimp only
  rw [State.fld, State.fld, State.reg_follow_ne halm, State.lifeAdd_reg]
  generalize Reg.LNK_PORT_STATUS p = a at hne
  refine congrArg f.get (Eq.trans ?_ (reg_upStatus_setPort p ((s.port p).risen s.now) a rate version tw off a))
  generalize (s.setPort p ((s.port p).risen s.now)).upStatus a rate version tw off = u
  exact foldl_keeps (f := State.formLane p rate tw off) (fun t : State => t.reg a = u.reg a)
    (fun t i ht => (reg_formLane_ne (hne _) _ _ _).trans ht) _ rfl

theorem upStatus_fields (a rate version tw off : Nat) :
    (s.upStatus a rate version tw off).fld a F.LNK_PORT_STATUS_STATE = 3 ∧
    (s.upStatus a rate version tw off).fld a F.LNK_PORT_STATUS_VERSION = version % 4 ∧
    (s.upStatus a rate version tw off).fld a F.LNK_PORT_STATUS_RATE = rate % 4 ∧
    (s.upStatus a rate version tw off).fld a F.LNK_PORT_STATUS_TOFFSET = off % 8 := by
  unfold State.upStatus
  refine ⟨?_, ?_, ?_, ?_⟩
  · rw [State.fld_setFld_apart _ (by decide) (by decide), State.fld_setFld_apart _ (by decide) (by decide),
      State.fld_setFld_apart _ (by decide) (by decide), State.fld_setFld_apart _ (by decide) (by decide),
      State.fld_setFld_self _ (by decide)]
    rfl
  · rw [State.fld_setFld_apart _ (by decide) (by decide), State.fld_setFld_apart _ (by decide) (by decide),
      State.fld_setFld_apart _ (by decide) (by decide), State.fld_setFld_self _ (by decide)]
    rfl
  · rw [State.fld_setFld_apart _ (by decide) (by decide), State.fld_setFld_apart _ (by decide) (by decide),
      State.fld_setFld_self _ (by decide)]
    rfl
  · exact State.fld_setFld_self _ (by decide) _ _

/-- What a failed training attempt leaves (R393). -/
theorem trainFail_state (s : State) (p : Nat) : (s.trainFail p).now = s.now ∧ (s.trainFail p).portState p = 1 ∧
    (s.trainFail p).fld (Reg.LNK_PORT_STATUS p) F.LNK_PORT_STATUS_DOWN_REASON = 9 ∧
    (s.trainFail p).port p = { s.port p with train := none, failedAt := some s.now } := by
  obtain ⟨hdowns, -, -⟩ := lnkStatus_ne p
  have hlog : LogOnly (s.setPort p { s.port p with train := none, failedAt := some s.now }) (s.trainFail p) :=
    (((logOnly_setFld _ _ _ _).trans (logOnly_setFld _ _ _ _)).trans (logOnly_count _ _ _ _)).trans (logOnly_logAt _ _ _ _ _ _ _)
  have hreg : ∀ f : Fld, (s.trainFail p).fld (Reg.LNK_PORT_STATUS p) f =
      (((s.setPort p { s.port p with train := none, failedAt := some s.now }).setFld (Reg.LNK_PORT_STATUS p)
        F.LNK_PORT_STATUS_STATE 1).setFld (Reg.LNK_PORT_STATUS p) F.LNK_PORT_STATUS_DOWN_REASON 9).fld (Reg.LNK_PORT_STATUS p) f := by
    intro f
    unfold State.trainFail State.logPort
    dsimp only
    rw [State.fld, State.reg_logAt _ (lnkStatus_not_vigRel p), ← State.fld, State.count, State.fld_setFld_ne _ _ _ _ hdowns]
  refine ⟨hlog.now, ?_, ?_, (hlog.port p).trans (State.port_setPort_self _ _)⟩
  · rw [State.portState, hreg, State.fld_setFld_apart _ (by decide) (by decide), State.fld_setFld_self _ (by decide)]
    rfl
  · rw [hreg, State.fld_setFld_self _ (by decide)]
    rfl

theorem State.freeWord_now (s : State) : s.freeWord.2.now = s.now := rfl

theorem startTraining_state (s : State) (p : Nat) : (s.startTraining p).now = s.now ∧ (s.startTraining p).portState p = 2 := by
  refine ⟨?_, ?_⟩
  · unfold State.startTraining
    dsimp only
    rw [State.setFld_now]
    rfl
  · rw [State.portState, State.startTraining]
    dsimp only
    rw [State.fld_setFld_self _ (by decide)]
    rfl

/-! ## CODEWORD_LOCK -/

/-- A lane has signal and lock. -/
def State.lockLane (p : Nat) (s : State) (i : Nat) : State :=
  (s.setFld (Reg.LNK_LANE_STATUS (p + i)) F.LNK_LANE_STATUS_SIGNAL 1).setFld (Reg.LNK_LANE_STATUS (p + i)) F.LNK_LANE_STATUS_LOCK 1

/-- The lane shows signal and lock. -/
def State.laneLocked (s : State) (l : Nat) : Prop :=
  s.isOn (Reg.LNK_LANE_STATUS l) F.LNK_LANE_STATUS_SIGNAL = true ∧ s.isOn (Reg.LNK_LANE_STATUS l) F.LNK_LANE_STATUS_LOCK = true

theorem laneLocked_lockLane (p i : Nat) : (s.lockLane p i).laneLocked (p + i) := by
  refine ⟨?_, ?_⟩
  · rw [State.lockLane, State.isOn, State.fld_setFld_apart _ (by decide) (by decide), State.fld_setFld_self _ (by decide)]
    rfl
  · rw [State.lockLane, State.isOn_setFld_self (by decide)]
    rfl

theorem laneLocked_lockLane_of {l : Nat} (h : s.laneLocked l) (p i : Nat) : (s.lockLane p i).laneLocked l := by
  by_cases he : l = p + i
  · rw [he]
    exact laneLocked_lockLane p i
  · have hne : Reg.LNK_LANE_STATUS l ≠ Reg.LNK_LANE_STATUS (p + i) := fun h => he (laneStatus_inj.1 h)
    unfold State.laneLocked State.isOn at *
    unfold State.lockLane
    rwa [State.fld_setFld_ne _ _ _ _ hne, State.fld_setFld_ne _ _ _ _ hne, State.fld_setFld_ne _ _ _ _ hne,
      State.fld_setFld_ne _ _ _ _ hne]

theorem laneLocked_lockLanes (p : Nat) (is : List Nat) : ∀ i ∈ is, (is.foldl (State.lockLane p) s).laneLocked (p + i) := by
  induction is generalizing s with
  | nil => exact fun _ hi => absurd hi List.not_mem_nil
  | cons j is ih =>
    rw [List.foldl_cons]
    refine List.forall_mem_cons.2 ⟨?_, ih⟩
    exact foldl_keeps (f := State.lockLane p) (b := s.lockLane p j) (fun t : State => t.laneLocked (p + j))
      (fun t i ht => laneLocked_lockLane_of ht p i) is (laneLocked_lockLane p j)

theorem laneLocked_setTrain {l : Nat} (h : s.laneLocked l) (p : Nat) (t : Train) : (s.setTrain p t).laneLocked l := by
  unfold State.laneLocked State.isOn State.setTrain at *
  rwa [State.fld_setPort, State.fld_setPort]

theorem train_setTrain (p : Nat) (t : Train) : ((s.setTrain p t).port p).train = some t :=
  congrArg Port.train (State.port_setPort_self (s := s) p _)

section
variable {p : Nat} (hp : p < 1024)
include hp

theorem exec_codewordLock_of_training {t : Train} (ht : (s.port p).train = some t) (h1 : t.step = 1) (heth : s.isEth p = false) :
    exec (.codewordLock p) s =
      .next (((List.range (s.width p)).foldl (State.lockLane p) s).setTrain p { t with step := 2 }) := by
  refine (onUnit_of_ok (decide_eq_true hp) _).trans ?_
  rw [ht]
  dsimp only
  rw [if_neg (by rw [heth, h1]; decide)]
  rfl

theorem exec_codewordLock_idle (ht : (s.port p).train = none) : exec (.codewordLock p) s = .next s := by
  refine (onUnit_of_ok (decide_eq_true hp) _).trans ?_
  rw [ht]

theorem exec_rateMeasurementEnd_idle (ht : (s.port p).train = none) : exec (.rateMeasurementEnd p) s = .next s := by
  refine (onUnit_of_ok (decide_eq_true hp) _).trans ?_
  rw [ht]

theorem exec_trainTimeout_idle (ht : (s.port p).train = none) : exec (.trainTimeout p) s = .next s := by
  refine (onUnit_of_ok (decide_eq_true hp) _).trans ?_
  rw [ht]

theorem exec_trainTimeout {t : Train} (ht : (s.port p).train = some t) :
    exec (.trainTimeout p) s = .next ((s.at (t.start + 10000000)).trainFail p) := by
  refine (onUnit_of_ok (decide_eq_true hp) _).trans ?_
  rw [ht]

/-- The measurement of a rate is over at a training port. -/
theorem exec_rateMeasurementEnd {t : Train} (ht : (s.port p).train = some t) (h3 : t.step = 3) {v u : State}
    (hv : s.at (t.rateAt + 1000000) = v)
    (hu : (if AMap.get t.own 0 t.rate &&& AMap.get t.peer 0 t.rate &&& s.laneMask p = s.laneMask p then v.choose p t
      else ((s.commonRates p).find? fun r => r < t.rate).elim (v.choose p t) (v.testRate p t)) = u) :
    exec (.rateMeasurementEnd p) s = .next u := by
  refine (onUnit_of_ok (decide_eq_true hp) _).trans ?_
  rw [ht]
  dsimp only
  rw [if_neg (not_not_intro h3), laneMask_at, commonRates_at, hv, ← hu]
  cases (s.commonRates p).find? fun r => r < t.rate with
  | none => rw [Option.elim_none]
  | some r => rw [Option.elim_some]

theorem exec_trainRetry_of_failed {t : Nat} (ht : (s.port p).failedAt = some t) (h1 : s.portState p = 1)
    (hen : s.isOn (Reg.LNK_PORT_CFG p) F.LNK_PORT_CFG_ENABLE = true) :
    exec (.trainRetry p) s = .next ((s.at (t + 100000000)).startTraining p) := by
  refine (onUnit_of_ok (decide_eq_true hp) _).trans ?_
  rw [ht]
  dsimp only
  rw [if_pos (by rw [hen, h1]; rfl)]

theorem exec_trainRetry_idle (ht : (s.port p).failedAt = none) : exec (.trainRetry p) s = .next s := by
  refine (onUnit_of_ok (decide_eq_true hp) _).trans ?_
  rw [ht]

theorem exec_ethAlignmentLock_of_training (heth : s.isEth p = true) (h2 : s.portState p = 2) :
    exec (.ethAlignmentLock p) s =
      .next (s.enterUp p (if bitAt (s.fld (Reg.LNK_PORT_CFG p) F.LNK_PORT_CFG_RATES) 1 then 2 else 1) 0 (s.widthCode p) 0) := by
  refine (onUnit_of_ok (decide_eq_true hp) _).trans ?_
  rw [if_pos (by rw [heth, h2]; rfl)]

end

/-! ## TRAIN_FRAME -/

/-- A lane's good TRAIN frames in a row. -/
def Train.hears (t : Train) (lane : Nat) (body : List Byte) : Train :=
  { t with good := AMap.set t.good 0 lane (if 2 ≤ leAt body 8 1 then AMap.get t.good 0 lane + 1 else 0) }

theorem Train.hears_eq (t : Train) (lane : Nat) (body : List Byte) : t.hears lane body =
    { t with good := AMap.set t.good 0 lane (if 2 ≤ leAt body 8 1 then AMap.get t.good 0 lane + 1 else 0) } := rfl

/-- The peer's capabilities are kept. -/
def State.keepPeer (s : State) (p : Nat) (body : List Byte) : State :=
  s.setReg (Reg.LNK_PEER p) (F.LNK_PEER_VALID.put (BitVec.ofNat 64 (leAt body 0 8)) 1)

theorem widthCode_keepPeer (s : State) (p : Nat) (body : List Byte) : (s.keepPeer p body).widthCode p = s.widthCode p := by
  obtain ⟨-, -, hne⟩ := lnkStatus_ne p
  rw [State.widthCode, State.widthCode, State.fld, State.fld, State.keepPeer, State.reg_setReg_ne _ _ hne]

theorem width_keepPeer (s : State) (p : Nat) (body : List Byte) : (s.keepPeer p body).width p = s.width p :=
  congrArg lanesOf (widthCode_keepPeer s p body)

section
variable {p lane : Nat} (hp : p < 1024) (hl8 : lane < 8) (body : List Byte)
include hp hl8

theorem exec_trainFrame_idle (ht : (s.port p).train = none) : exec (.trainFrame p lane body) s = .next s := by
  refine (onUnit_of_ok (by rw [decide_eq_true hp, decide_eq_true hl8]; rfl) _).trans ?_
  rw [ht]

variable {t : Train} (ht : (s.port p).train = some t) (hl : lane < s.width p) (heth : s.isEth p = false)
include ht hl heth

theorem exec_trainFrame_two (h2 : t.step = 2) {u v : State} (hu : s.keepPeer p body = u)
    (hv : (if F.LNK_PEER_WIDTH.get (BitVec.ofNat 64 (leAt body 0 8)) ≠ s.widthCode p then u.trainFail p
      else if ∀ i, i < s.width p → 16 ≤ AMap.get (t.hears lane body).good 0 i then u.beginRates p (t.hears lane body)
      else u.setTrain p (t.hears lane body)) = v) : exec (.trainFrame p lane body) s = .next v := by
  have hall : ((List.range (s.width p)).all fun i => decide (16 ≤ AMap.get (t.hears lane body).good 0 i)) =
      decide (∀ i, i < s.width p → 16 ≤ AMap.get (t.hears lane body).good 0 i) := by
    rw [Bool.eq_iff_iff, List.all_eq_true, decide_eq_true_eq]
    simp only [List.mem_range, decide_eq_true_eq]
  rw [Train.hears_eq] at hall hv
  refine (onUnit_of_ok (by rw [decide_eq_true hp, decide_eq_true hl8]; rfl) _).trans ?_
  rw [ht]
  dsimp only
  rw [if_neg (by rw [heth, decide_eq_false (Nat.not_le.2 hl)]; decide), if_pos h2, ← State.keepPeer, widthCode_keepPeer,
    width_keepPeer, hu, ← hv]
  dsimp only at hall ⊢
  rw [hall]
  simp only [decide_eq_true_eq]

theorem exec_trainFrame_three (h3 : t.step = 3) : exec (.trainFrame p lane body) s =
    .next (s.setTrain p { t with peer := AMap.set t.peer 0 t.rate (leAt body 9 1) }) := by
  refine (onUnit_of_ok (by rw [decide_eq_true hp, decide_eq_true hl8]; rfl) _).trans ?_
  rw [ht]
  dsimp only
  rw [if_neg (by rw [heth, decide_eq_false (Nat.not_le.2 hl)]; decide), if_neg (by rw [h3]; decide), if_pos h3]

theorem exec_trainFrame_four (h4 : t.step = 4) (h5 : 5 ≤ leAt body 8 1) (hr : leAt body 14 1 = t.result)
    (ho : leAt body 15 1 = t.offset) : exec (.trainFrame p lane body) s =
      .next (s.setTrain p { t with step := 5, heard := some (leAt body 10 2, leAt body 12 2) }) := by
  refine (onUnit_of_ok (by rw [decide_eq_true hp, decide_eq_true hl8]; rfl) _).trans ?_
  rw [ht]
  dsimp only
  rw [if_neg (by rw [heth, decide_eq_false (Nat.not_le.2 hl)]; decide), if_neg (by rw [h4]; decide), if_neg (by rw [h4]; decide),
    if_pos h4, if_pos (by rw [decide_eq_true hr, decide_eq_true ho, decide_eq_true (Nat.le_of_succ_le h5)]; rfl), if_pos h5]

theorem exec_trainFrame_five (h5 : t.step = 5) (hstep : 5 ≤ leAt body 8 1) : exec (.trainFrame p lane body) s =
      .next (s.finishTraining p { t with heard := some (leAt body 10 2, leAt body 12 2) }) := by
  refine (onUnit_of_ok (by rw [decide_eq_true hp, decide_eq_true hl8]; rfl) _).trans ?_
  rw [ht]
  dsimp only
  rw [if_neg (by rw [heth, decide_eq_false (Nat.not_le.2 hl)]; decide), if_neg (by rw [h5]; decide), if_neg (by rw [h5]; decide),
    if_neg (by rw [h5]; decide), if_pos hstep, if_pos (by rw [h5]; rfl)]

end

/-- What the exchange of delays leaves where this end's have been told (R389, R392). -/
theorem finishTraining_told (s : State) (p : Nat) {t : Train} {d : Nat × Nat} (h : t.told = true) (hd : t.heard = some d) :
    ∃ u : State, u.port p = s.port p ∧
      s.finishTraining p t = u.enterUp p (bits t.result 3 2) (bits t.result 1 0) (bits t.result 6 4) t.offset := by
  refine ⟨s.setFld (Reg.LNK_ASYM p) F.LNK_ASYM_PS (ofSigned 32 (asymOf t.txd t.rxd d.1 d.2
    (toSigned 32 (s.fld (Reg.LNK_ASYM_TRIM p) F.LNK_ASYM_TRIM_PS)))), State.port_setFld _ _ _ _ _, ?_⟩
  unfold State.finishTraining
  rw [h, hd]

theorem bits_lt (n hi lo : Nat) : bits n hi lo < 2 ^ (hi + 1 - lo) := Nat.mod_lt _ (Nat.pow_pos (by decide))

/-- What a port shows as it enters UP. -/
theorem enterUp_state (s : State) (p : Nat) {rate version : Nat} (hr : rate < 4) (hv : version < 4) (tw off : Nat) :
    (s.enterUp p rate version tw off).portState p = 3 ∧
    (s.enterUp p rate version tw off).fld (Reg.LNK_PORT_STATUS p) F.LNK_PORT_STATUS_RATE = rate ∧
    (s.enterUp p rate version tw off).fld (Reg.LNK_PORT_STATUS p) F.LNK_PORT_STATUS_VERSION = version ∧
    (s.enterUp p rate version tw off).fld (Reg.LNK_PORT_STATUS p) F.LNK_PORT_STATUS_TOFFSET = off % 8 := by
  obtain ⟨hst, hver, hrate, hoff⟩ := upStatus_fields (s := s) (Reg.LNK_PORT_STATUS p) rate version tw off
  exact ⟨(fld_enterUp ..).trans hst, (fld_enterUp ..).trans (hrate.trans (Nat.mod_eq_of_lt hr)),
    (fld_enterUp ..).trans (hver.trans (Nat.mod_eq_of_lt hv)), (fld_enterUp ..).trans hoff⟩

end

/-- Settles O41, training step by training step; the choice of a rate by induction over the candidates. -/
theorem portTraining : Obligations.PortTraining := by
  unfold Obligations.PortTraining
  intro s port lane tr body r failed cs b x st bw good cap u v all full delays hp
  refine ⟨bestChoice_best, fun hx => ⟨exec_codewordLock_idle hp hx, exec_rateMeasurementEnd_idle hp hx, exec_trainTimeout_idle hp hx,
    fun hl => exec_trainFrame_idle hp hl body hx⟩, fun hx => ⟨fun h1 heth => ?_, fun h3 => ⟨fun hall => ?_, fun hall hfind => ?_,
    fun hall hnone => ?_⟩, fun hl hl8 heth => ⟨fun h2 => ⟨fun hw => ?_, fun hw hfull => ?_, fun hw hfull => ?_⟩, fun h3 => ?_,
    fun h4 hstep hres hoff => ?_, fun h5 hstep htold => ?_⟩, ?_⟩, fun hx h1 hen => ?_, fun hx => exec_trainRetry_idle hp hx,
    fun heth h2 => ?_⟩
  · refine ⟨_, exec_codewordLock_of_training hp hx h1 heth, train_setTrain _ _, fun i hi => ?_⟩
    exact laneLocked_setTrain (laneLocked_lockLanes port (List.range (s.width port)) i (List.mem_range.2 hi)) port _
  · exact exec_rateMeasurementEnd hp hx h3 rfl (if_pos hall)
  · exact exec_rateMeasurementEnd hp hx h3 rfl ((if_neg hall).trans (by rw [hfind, Option.elim_some]))
  · have hfind : ((s.commonRates port).find? fun q => q < tr.rate) = none :=
      List.find?_eq_none.2 fun q hq => by simpa using hnone q hq
    exact exec_rateMeasurementEnd hp hx h3 rfl ((if_neg hall).trans (by rw [hfind, Option.elim_none]))
  · exact exec_trainFrame_two hp hl8 body hx hl heth h2 rfl (if_pos hw)
  · exact exec_trainFrame_two hp hl8 body hx hl heth h2 rfl ((if_neg (not_not_intro hw)).trans (if_pos hfull))
  · exact exec_trainFrame_two hp hl8 body hx hl heth h2 rfl ((if_neg (not_not_intro hw)).trans (if_neg hfull))
  · exact exec_trainFrame_three hp hl8 body hx hl heth h3
  · exact exec_trainFrame_four hp hl8 body hx hl heth h4 hstep hres hoff
  · obtain ⟨w, hw, hfin⟩ := finishTraining_told s port (t := { tr with heard := delays }) htold rfl
    obtain ⟨hst, hrate, hver, -⟩ := enterUp_state w port (rate := bits tr.result 3 2) (version := bits tr.result 1 0)
      (bits_lt _ _ _) (bits_lt _ _ _) (bits tr.result 6 4) tr.offset
    have hport := port_enterUp (s := w) port (bits tr.result 3 2) (bits tr.result 1 0) (bits tr.result 6 4) tr.offset
    refine ⟨_, (exec_trainFrame_five hp hl8 body hx hl heth h5 hstep).trans (congrArg Host.Outcome.next hfin), hst, hrate, hver,
      ?_, ?_, ?_, ?_⟩
    iterate 4
      rw [hport]
      rfl
  · obtain ⟨hnow, hst, hreason, hport⟩ := trainFail_state (s.at (tr.start + 10000000)) port
    refine ⟨_, exec_trainTimeout hp hx, hnow.trans (State.now_at _), hst, hreason, ?_, ?_⟩
    · rw [hport]
    · rw [hport, hnow]
  · obtain ⟨hnow, hst⟩ := startTraining_state (s.at (failed + 100000000)) port
    exact ⟨_, exec_trainRetry_of_failed hp hx h1 hen, hnow.trans (State.now_at _), hst⟩
  · obtain ⟨hst, -, hver, hoff⟩ := enterUp_state s port
      (rate := if bitAt (s.fld (Reg.LNK_PORT_CFG port) F.LNK_PORT_CFG_RATES) 1 then 2 else 1) (version := 0)
      (by split <;> decide) (by decide) (s.widthCode port) 0
    exact ⟨_, exec_ethAlignmentLock_of_training hp heth h2, hst, hver, hoff⟩

end Sys2Proof.Machine
end

section
/-! SUPPORT. A packet for this module that PACKET_ACCEPT hands to its sink: HOPS counts the module once (R398). -/
namespace Sys2Proof.Machine

/-- A DATA packet of 8 bytes for core 0 of module 5. -/
def dataForFive : Packet :=
  { w0 := wordOf [(P.vc, 2), (P.dmod, 1), (P.dest, 5), (P.length, 8)], w1 := 0, payload := List.replicate 8 0 }

/-- Module 5 with that packet accepted whole at port 0. -/
def moduleFive : State :=
  (State.reset.setReg Reg.VIG_MODULE_ID (wordOf [(F.VIG_MODULE_ID_VALID, 1), (F.VIG_MODULE_ID_ID, 5)])).setPort 0
    { Port.idle with arrived := [dataForFive] }

/-- The same module with the packet taken from the port. -/
def moduleFiveTaken : State := moduleFive.setPort 0 { moduleFive.port 0 with arrived := [] }

/-- HOPS of the packets in flight. -/
def hopsInFlight (s : State) : List Nat := s.flight.map fun f => h0 f.pkt P.hops

/-- HOPS of the packets in flight after a command. -/
def hopsAfter : Host.Outcome State Fault Refusal → List Nat
  | .next s => hopsInFlight s
  | _ => []

theorem moduleFive_premises : (moduleFive.port 0).arrived = [dataForFive] ∧ moduleFive.shdState ≠ Shd.deciding ∧
    moduleFive.mstate ≠ MState.shadow ∧ badHeader moduleFiveTaken 0 (entered dataForFive) = false ∧
    moduleFiveTaken.isMine (entered dataForFive) = true ∧ moduleFive.shdMode ≠ 1 := by decide +kernel

/-- PACKET_ACCEPT counts the module once. -/
theorem hopsAfter_packetAccept : hopsAfter (exec (.packetAccept 0) moduleFive) = [1] := by decide +kernel

/-- Accepting the packet that already counts the module counts it twice. -/
theorem hopsInFlight_acceptMine_entered : hopsInFlight (moduleFiveTaken.acceptMine 0 (entered dataForFive)) = [2] := by
  decide +kernel

/-- Refutes O43: for a packet for this module the statement says `u.acceptMine port (entered p)`, but `acceptMine` itself adds this
module to HOPS and takes the packet as it arrived. At `moduleFive`, which meets every premise, the packet that PACKET_ACCEPT puts in
flight has HOPS 1, the one that the statement names has HOPS 2. -/
theorem not_packetAcceptance : ¬ Obligations.PacketAcceptance := by
  unfold Obligations.PacketAcceptance
  intro h
  obtain ⟨harr, hdeciding, hshadow, hgood, hmine, hmode⟩ := moduleFive_premises
  obtain ⟨-, hfull⟩ := h moduleFive 0 dataForFive [] (by decide)
  obtain ⟨-, haccept, -⟩ := hfull harr
  obtain ⟨-, -, hsink⟩ := haccept hdeciding hshadow
  have hexec : exec (.packetAccept 0) moduleFive = .next (moduleFiveTaken.acceptMine 0 (entered dataForFive)) :=
    hsink hgood hmine fun hm => hmode hm.1
  have hhops := congrArg hopsAfter hexec
  rw [hopsAfter_packetAccept] at hhops
  exact absurd (hhops.trans hopsInFlight_acceptMine_entered) (by decide)

end Sys2Proof.Machine
end

section
/-! SUPPORT. Requests from the link and Ethernet frames (R402, R403, R405 to R407, R428). -/
namespace Sys2Proof.Machine

/-! ## Fields of a header word -/

theorem Fld.get_or (f : Fld) (a b : Word) : f.get (a ||| b) = f.get a ||| f.get b := by
  apply Nat.eq_of_testBit_eq
  intro i
  unfold Fld.get
  rw [Nat.testBit_or, testBit_bits, testBit_bits, testBit_bits, BitVec.toNat_or, Nat.testBit_or, Bool.and_or_distrib_left]

theorem Fld.get_zero (f : Fld) : f.get 0 = 0 := by
  apply Nat.eq_of_testBit_eq
  intro i
  unfold Fld.get
  rw [testBit_bits]
  simp

theorem get_wordOf_tail {f g : Fld} (hf : f.fits) (ha : f.apart g) (v : Nat) (ps : List (Fld × Nat)) :
    g.get (wordOf ((f, v) :: ps)) = g.get (wordOf ps) := by
  rw [wordOf, Fld.get_or, Fld.only, Fld.get_put_apart hf ha, Fld.get_zero, Nat.zero_or]

theorem get_wordOf_apart {g : Fld} {ps : List (Fld × Nat)} (h : ∀ p ∈ ps, p.1.fits ∧ p.1.apart g) : g.get (wordOf ps) = 0 := by
  induction ps with
  | nil => exact Fld.get_zero g
  | cons p ps ih =>
    obtain ⟨⟨hf, ha⟩, hps⟩ := List.forall_mem_cons.1 h
    exact (get_wordOf_tail hf ha p.2 ps).trans (ih hps)

theorem get_wordOf_head {f : Fld} (hf : f.fits) (v : Nat) {ps : List (Fld × Nat)} (h : ∀ p ∈ ps, p.1.fits ∧ p.1.apart f) :
    f.get (wordOf ((f, v) :: ps)) = v % 2 ^ (f.hi + 1 - f.lo) := by
  rw [wordOf, Fld.get_or, Fld.only, Fld.get_put hf, get_wordOf_apart h, Nat.or_zero]

theorem Fld.get_lt (f : Fld) (w : Word) : f.get w < 2 ^ (f.hi + 1 - f.lo) := Nat.mod_lt _ (Nat.two_pow_pos _)

section
variable {s : State}

/-! ## MEMRD and MEMWR -/

/-- The answer to a request names its type, token, address and length. -/
theorem memResponse_fields (s : State) (p : Packet) (wr : Bool) (code : Nat) (data : List Byte) :
    h0 (s.memResponse p wr code data) P.ptype = 8 ∧ h1 (s.memResponse p wr code data) P.mtoken = h1 p P.mtoken ∧
    h1 (s.memResponse p wr code data) P.maddr = h1 p P.maddr ∧ h1 (s.memResponse p wr code data) P.rdlen = h1 p P.rdlen := by
  unfold State.memResponse State.originWord h0 h1
  refine ⟨?_, ?_, ?_, ?_⟩
  · rw [get_wordOf_head (by decide) _ (by simp only [List.forall_mem_cons]; decide)]
    rfl
  · rw [get_wordOf_tail (by decide) (by decide), get_wordOf_tail (by decide) (by decide),
      get_wordOf_head (by decide) _ (by simp only [List.forall_mem_cons]; decide)]
    exact Nat.mod_eq_of_lt (Fld.get_lt _ _)
  · rw [get_wordOf_tail (by decide) (by decide), get_wordOf_tail (by decide) (by decide), get_wordOf_tail (by decide) (by decide),
      get_wordOf_tail (by decide) (by decide), get_wordOf_head (by decide) _ (fun _ h => absurd h List.not_mem_nil)]
    exact Nat.mod_eq_of_lt (Fld.get_lt _ _)
  · rw [get_wordOf_tail (by decide) (by decide), get_wordOf_tail (by decide) (by decide), get_wordOf_tail (by decide) (by decide),
      get_wordOf_head (by decide) _ (by simp only [List.forall_mem_cons]; decide)]
    exact Nat.mod_eq_of_lt (Fld.get_lt _ _)

/-- The port at which a request entered lets the link reach memory. -/
def State.memEnabled (s : State) (port : Nat) (p : Packet) : Bool :=
  s.isOn (Reg.LNK_PORT_CFG (s.entryPort port p)) F.LNK_PORT_CFG_MEM_EN

section
variable {port : Nat} {p : Packet} (hp : port < 1024)
include hp

theorem exec_memrd_disabled (h6 : h0 p P.ptype = 6) (hen : s.memEnabled port p = false) :
    exec (.memrd port p) s = .next (s.answerMem p false Code.rejPriv []) := by
  refine (onUnit_of_ok (decide_eq_true hp) _).trans ?_
  dsimp only
  rw [if_neg (not_not_intro h6), ← State.memEnabled, hen, if_pos (by decide)]

theorem exec_memrd_enabled (h6 : h0 p P.ptype = 6) (hen : s.memEnabled port p = true) : exec (.memrd port p) s = .next
    (if h1 p P.rdlen = 0 || 128 < h1 p P.rdlen || 2 ^ 41 < 64 * h1 p P.maddr + 64 * h1 p P.rdlen then
      s.answerMem p false Code.rejRange []
    else if fabSilent s (64 * h1 p P.maddr) (64 * h1 p P.rdlen) then s
    else
      let r := s.fabRead (64 * h1 p P.maddr) (64 * h1 p P.rdlen)
      r.2.answerMem p false r.1.1 (if r.1.1 = Code.failMemory then [] else r.1.2)) := by
  refine (onUnit_of_ok (decide_eq_true hp) _).trans ?_
  dsimp only
  rw [if_neg (not_not_intro h6), ← State.memEnabled, hen, if_neg (by decide)]

theorem exec_memwr_disabled (h7 : h0 p P.ptype = 7) (hen : s.memEnabled port p = false) :
    exec (.memwr port p) s = .next (s.answerMem p true Code.rejPriv []) := by
  refine (onUnit_of_ok (decide_eq_true hp) _).trans ?_
  dsimp only
  rw [if_neg (not_not_intro h7), ← State.memEnabled, hen, if_pos (by decide)]

theorem exec_memwr_enabled (h7 : h0 p P.ptype = 7) (hen : s.memEnabled port p = true) : exec (.memwr port p) s = .next
    (if 2 ^ 41 < 64 * h1 p P.maddr + p.payload.length then s.answerMem p true Code.rejRange []
    else if fabSilent s (64 * h1 p P.maddr) p.payload.length then s
    else
      let w := s.fabWrite (64 * h1 p P.maddr) p.payload
      w.2.answerMem p true w.1 []) := by
  refine (onUnit_of_ok (decide_eq_true hp) _).trans ?_
  dsimp only
  rw [if_neg (not_not_intro h7), ← State.memEnabled, hen, if_neg (by decide)]

end

/-! ## The table of Ethernet addresses (R406) -/

theorem fibFrom_some {iod : Nat} {f : List Byte} {e k n : Nat} (h : fibFrom s iod f k n = some e) :
    e < k + n ∧ fibHit s iod f e = true ∧ ∀ j, k ≤ j → j < e → fibHit s iod f j = false := by
  induction n generalizing k with
  | zero => exact absurd h (by simp [fibFrom])
  | succ n ih =>
    unfold fibFrom at h
    split at h
    case isTrue hit =>
      obtain rfl := Option.some.inj h
      exact ⟨by omega, hit, fun j hj hlt => absurd hlt (by omega)⟩
    case isFalse miss =>
      obtain ⟨hlt, hhit, hfirst⟩ := ih h
      refine ⟨by omega, hhit, fun j hj hlt => ?_⟩
      by_cases hjk : j = k
      · rw [hjk]
        exact eq_false_of_ne_true miss
      · exact hfirst j (by omega) hlt

theorem fib_addresses {port e out : Nat} (_hp : port < 1024) (_he : e < 1024) (a : Nat)
    (ha : a = Reg.LNK_PORT_STATUS out ∨ a = Reg.LNK_PORT_CFG out ∨ a = Reg.VIG_MODULE_ID) :
    a ≠ Reg.LNK_RX_BYTES port ∧ a ≠ Reg.LNK_ETH_FIB_W1 (port / 64) e := by
  simp only [Reg.LNK_PORT_STATUS, Reg.LNK_PORT_CFG, Reg.VIG_MODULE_ID, Reg.LNK_RX_BYTES, Reg.LNK_ETH_FIB_W1, laneBase,
    unitBase] at ha ⊢
  omega

/-- The state in which a matched frame has been counted. -/
def State.fibCounted (s : State) (port e len : Nat) : State :=
  (s.bump (Reg.LNK_RX_BYTES port) F.LNK_RX_BYTES_COUNT len).count (Reg.LNK_ETH_FIB_W1 (port / 64) e) F.LNK_ETH_FIB_W1_HITS 1

theorem reg_fibCounted {port e a : Nat} (h : a ≠ Reg.LNK_RX_BYTES port ∧ a ≠ Reg.LNK_ETH_FIB_W1 (port / 64) e) (len : Nat) :
    (s.fibCounted port e len).reg a = s.reg a := by
  obtain ⟨h1, h2⟩ := h
  rw [State.fibCounted, State.count, State.reg_setFld_ne _ _ _ h2, State.bump, State.reg_setFld_ne _ _ _ h1]

section
variable {port e : Nat} (hp : port < 1024) (he : e < 1024) (len : Nat)
include hp he

theorem isUp_fibCounted (out : Nat) : (s.fibCounted port e len).isUp out = s.isUp out := by
  rw [State.isUp, State.isUp, State.portState, State.portState, State.fld, State.fld,
    reg_fibCounted (fib_addresses (out := out) hp he _ (Or.inl rfl))]

theorem isEth_fibCounted (out : Nat) : (s.fibCounted port e len).isEth out = s.isEth out := by
  rw [State.isEth, State.isEth, State.fld, State.fld, reg_fibCounted (fib_addresses (out := out) hp he _ (Or.inr (Or.inl rfl)))]

theorem moduleId_fibCounted : (s.fibCounted port e len).moduleId = s.moduleId := by
  have h := fib_addresses (out := 0) hp he _ (Or.inr (Or.inr rfl))
  rw [State.moduleId, State.moduleId, State.isOn, State.isOn, State.fld, State.fld, State.fld, State.fld, reg_fibCounted h]

end

/-- A frame goes to an Ethernet port's queue where that port is UP. -/
def State.ethOut (s : State) (out : Nat) (frame : List Byte) : State :=
  if s.isUp out && s.isEth out then s.ethQueue out frame else s

theorem ethAction_zero {w : Word} (h : F.LNK_ETH_FIB_W1_ACTION.get w = 0) (frame : List Byte) : s.ethAction w frame = s := by
  unfold State.ethAction
  rw [h]
  rfl

theorem ethAction_one {w : Word} (h : F.LNK_ETH_FIB_W1_ACTION.get w = 1) (frame : List Byte) :
    s.ethAction w frame = s.ethOut (F.LNK_ETH_FIB_W1_PORT.get w) frame := by
  unfold State.ethAction
  rw [h]
  rfl

theorem ethAction_two_here {w : Word} (h : F.LNK_ETH_FIB_W1_ACTION.get w = 2) (hm : s.moduleId = some (F.LNK_ETH_FIB_W1_MODULE.get w))
    (frame : List Byte) : s.ethAction w frame = s.ethOut (F.LNK_ETH_FIB_W1_PORT.get w) frame := by
  unfold State.ethAction
  rw [h]
  exact if_pos hm

theorem ethAction_two_away {w : Word} (h : F.LNK_ETH_FIB_W1_ACTION.get w = 2) (hm : s.moduleId ≠ some (F.LNK_ETH_FIB_W1_MODULE.get w))
    (frame : List Byte) : s.ethAction w frame = s.originate (.of
      { w0 := s.originWord 9 4 1 (F.LNK_ETH_FIB_W1_MODULE.get w) frame.length,
        w1 := wordOf [(P.ethPort, F.LNK_ETH_FIB_W1_PORT.get w)], payload := frame } none none s.now) := by
  unfold State.ethAction
  rw [h]
  exact if_neg hm

/-! ## ETH_FRAME and ETH_HOLD_DROP -/

section
variable {port : Nat} (hp : port < 1024) {frame : List Byte}
include hp

theorem exec_ethFrame_deaf (h : s.isUp port = false ∨ s.isEth port = false ∨ s.mstate = MState.fenced) :
    exec (.ethFrame port frame) s = .next s := by
  refine (onUnit_of_ok (decide_eq_true hp) _).trans ?_
  dsimp only
  rw [if_pos]
  rcases h with h | h | h <;> simp [h]

variable (hup : s.isUp port = true) (heth : s.isEth port = true) (hm : s.mstate ≠ MState.fenced)
include hup heth hm

theorem exec_ethFrame_bad (hbad : ethOk frame = false) :
    exec (.ethFrame port frame) s = .next (s.count (Reg.LNK_ETH_DROPS port) F.LNK_ETH_DROPS_COUNT 1) := by
  refine (onUnit_of_ok (decide_eq_true hp) _).trans ?_
  dsimp only
  rw [if_neg (by rw [hup, heth, decide_eq_false hm]; decide), hbad, if_pos (by decide)]

variable (hok : ethOk frame = true) {u : State}
  (hu : s.bump (Reg.LNK_RX_BYTES port) F.LNK_RX_BYTES_COUNT frame.length = u)
include hok hu

theorem exec_ethFrame_control (hc : beAt frame 12 2 = 0x8808) :
    exec (.ethFrame port frame) s = .next (u.macControl port frame) := by
  refine (onUnit_of_ok (decide_eq_true hp) _).trans ?_
  dsimp only
  rw [if_neg (by rw [hup, heth, decide_eq_false hm]; decide), hok, if_neg (by decide), hu, if_pos hc]

theorem exec_ethFrame_noMatch (hc : beAt frame 12 2 ≠ 0x8808) (hfib : fibMatch u (port / 64) frame = none) :
    exec (.ethFrame port frame) s = .next (u.count (Reg.LNK_ETH_NOMATCH (port / 64)) F.LNK_ETH_NOMATCH_COUNT 1) := by
  refine (onUnit_of_ok (decide_eq_true hp) _).trans ?_
  dsimp only
  rw [if_neg (by rw [hup, heth, decide_eq_false hm]; decide), hok, if_neg (by decide), hu, if_neg hc, hfib]

theorem exec_ethFrame_match (hc : beAt frame 12 2 ≠ 0x8808) {e : Nat} (hfib : fibMatch u (port / 64) frame = some e) :
    exec (.ethFrame port frame) s =
      .next ((s.fibCounted port e frame.length).ethAction (u.reg (Reg.LNK_ETH_FIB_W1 (port / 64) e)) frame) := by
  refine (onUnit_of_ok (decide_eq_true hp) _).trans ?_
  dsimp only
  rw [if_neg (by rw [hup, heth, decide_eq_false hm]; decide), hok, if_neg (by decide), hu, if_neg hc, hfib]
  rw [State.fibCounted, hu]

end

theorem exec_ethHoldDrop_empty {port : Nat} (hp : port < 1024) (h : (s.port port).ethTx = []) :
    exec (.ethHoldDrop port) s = .next s := by
  refine (onUnit_of_ok (decide_eq_true hp) _).trans ?_
  dsimp only
  rw [h]

/-- A held frame is dropped from its queue. -/
def State.dropHeld (s : State) (port : Nat) (rest : List (Nat × List Byte)) : State :=
  ((s.setPort port { s.port port with ethTx := rest }).count (Reg.RTE_IOD_HOLD_DROPS (port / 64)) F.RTE_IOD_HOLD_DROPS_COUNT 1).logAt
    AClass.route 0 (0x40 + port / 64) 0x10 0 []

theorem exec_ethHoldDrop_held {port held : Nat} (hp : port < 1024) {old : List Byte} {rest : List (Nat × List Byte)}
    (h : (s.port port).ethTx = (held, old) :: rest) : exec (.ethHoldDrop port) s = .next ((s.at (held + 1000000)).dropHeld port rest) := by
  refine (onUnit_of_ok (decide_eq_true hp) _).trans ?_
  dsimp only
  rw [h]
  rfl

theorem holdDrops_not_vigRel (n : Nat) : ¬ vigRel (Reg.RTE_IOD_HOLD_DROPS n) := by
  simp only [vigRel, vigRelBase, Reg.RTE_IOD_HOLD_DROPS, unitBase]
  omega

theorem dropHeld_state (s : State) (port : Nat) (rest : List (Nat × List Byte)) :
    (s.dropHeld port rest).now = s.now ∧ ((s.dropHeld port rest).port port).ethTx = rest ∧
    (s.dropHeld port rest).fld (Reg.RTE_IOD_HOLD_DROPS (port / 64)) F.RTE_IOD_HOLD_DROPS_COUNT =
      satAdd 32 (s.fld (Reg.RTE_IOD_HOLD_DROPS (port / 64)) F.RTE_IOD_HOLD_DROPS_COUNT) 1 := by
  have hlog : LogOnly (s.setPort port { s.port port with ethTx := rest }) (s.dropHeld port rest) :=
    (logOnly_count _ _ _ _).trans (logOnly_logAt _ _ _ _ _ _ _)
  refine ⟨hlog.now, ?_, ?_⟩
  · rw [hlog.port, State.port_setPort_self]
  · rw [State.fld, State.dropHeld, State.reg_logAt _ (holdDrops_not_vigRel _), ← State.fld, State.fld_count_self (by decide),
      State.fld_setPort]
    rfl

end

/-- Settles O45: a request case by case, a frame by the first table entry that matches it. -/
theorem requestsAndFrames : Obligations.RequestsAndFrames := by
  unfold Obligations.RequestsAndFrames
  refine ⟨fun s port p => ?_, fun s port e held frame old rest => ?_⟩
  · intro addr n len enabled r w answer q hp
    refine ⟨memResponse_fields s p false 0 [], fun h6 => ⟨exec_memrd_disabled hp h6, fun hen hrange => ?_,
      fun hen hpos hle haddr hsilent => ?_⟩, fun h7 => ⟨exec_memwr_disabled hp h7, fun hen hrange => ?_, fun hen haddr hsilent => ?_⟩⟩
    · rw [exec_memrd_enabled hp h6 hen, if_pos]
      · rfl
      · rcases hrange with h | h | h <;> simp [n, addr] at h ⊢ <;> omega
    · rw [exec_memrd_enabled hp h6 hen, if_neg, if_neg]
      · rfl
      · exact ne_true_of_eq_false hsilent
      · simp [n, addr] at hpos hle haddr ⊢
        omega
    · rw [exec_memwr_enabled hp h7 hen, if_pos hrange]
      rfl
    · rw [exec_memwr_enabled hp h7 hen, if_neg (Nat.not_lt.2 haddr), if_neg (ne_true_of_eq_false hsilent)]
      rfl
  · intro iod u w1 out v queued m sent d hp
    refine ⟨exec_ethFrame_deaf hp, fun hup heth hm => ⟨exec_ethFrame_bad hp hup heth hm,
      fun hok hc => exec_ethFrame_control hp hup heth hm hok rfl hc, fun hok hc => ⟨fun hfib => ?_, fun hfib => ?_⟩⟩,
      fun hheld => ?_, exec_ethHoldDrop_empty hp⟩
    · exact exec_ethFrame_noMatch hp hup heth hm hok rfl hc hfib
    · obtain ⟨he, hhit, hfirst⟩ := fibFrom_some hfib
      have hexec := exec_ethFrame_match hp hup heth hm hok rfl hc hfib
      have hqueued : (s.fibCounted port e frame.length).ethOut out frame = queued := by
        rw [State.ethOut, isUp_fibCounted hp (by omega), isEth_fibCounted hp (by omega)]
        rfl
      have hmod : (s.fibCounted port e frame.length).moduleId = s.moduleId := moduleId_fibCounted hp (by omega) _
      refine ⟨⟨hhit, fun k hk => hfirst k (Nat.zero_le k) hk⟩, fun h0 => ?_, fun h1 => ?_, fun h2 hid => ?_, fun h2 hid => ?_⟩
      · exact hexec.trans (congrArg Host.Outcome.next (ethAction_zero h0 frame))
      · exact hexec.trans (congrArg Host.Outcome.next ((ethAction_one h1 frame).trans hqueued))
      · exact hexec.trans (congrArg Host.Outcome.next ((ethAction_two_here h2 (hmod.trans hid) frame).trans hqueued))
      · exact hexec.trans (congrArg Host.Outcome.next (ethAction_two_away h2 (hmod ▸ hid) frame))
    · obtain ⟨hnow, htx, hcount⟩ := dropHeld_state (s.at (held + 1000000)) port rest
      exact ⟨_, exec_ethHoldDrop_held hp hheld, hnow.trans (State.now_at _), htx, hcount⟩

end Sys2Proof.Machine
end

section
/-! SUPPORT. What sending, receiving and storing leave of the Flues: their records, their registers and the clock (R448, R466,
R468). -/
namespace Sys2Proof.Machine

/-- The addresses of the Flue block's registers (R490). -/
def fluAddr (a : Nat) : Prop := unitBase 0xF0 3 0 ≤ a ∧ a < unitBase 0xF0 4 0

theorem fluAddr_entry {f : Nat} (h : f < 4096) : fluAddr (Reg.FLU_ENTRY f) := by
  simp only [fluAddr, Reg.FLU_ENTRY, unitBase]
  omega

theorem not_fluAddr_of_le {a : Nat} (h : unitBase 0xF0 4 0 ≤ a) : ¬ fluAddr a := fun ha => Nat.not_lt.2 h ha.2

theorem not_fluAddr_of_lt {a : Nat} (h : a < unitBase 0xF0 3 0) : ¬ fluAddr a := fun ha => Nat.not_lt.2 ha.1 h

theorem fluAddr_not_vigRel {a : Nat} (h : fluAddr a) : ¬ vigRel a := by
  simp only [fluAddr, vigRel, vigRelBase, unitBase] at h ⊢
  omega

theorem fluAddr_inj {f g : Nat} : Reg.FLU_ENTRY f = Reg.FLU_ENTRY g ↔ f = g := by
  unfold Reg.FLU_ENTRY
  omega

/-- The Flues, their registers and the clock are as they were. -/
def FlueFrame (s t : State) : Prop := t.flues = s.flues ∧ t.now = s.now ∧ ∀ a, fluAddr a → t.reg a = s.reg a

section
variable {s t u : State}

theorem FlueFrame.refl (s : State) : FlueFrame s s := ⟨rfl, rfl, fun _ _ => rfl⟩

theorem FlueFrame.trans (h1 : FlueFrame s t) (h2 : FlueFrame t u) : FlueFrame s u := by
  obtain ⟨a1, b1, c1⟩ := h1
  obtain ⟨a2, b2, c2⟩ := h2
  exact ⟨a2.trans a1, b2.trans b1, fun a ha => (c2 a ha).trans (c1 a ha)⟩

theorem FlueFrame.flue (h : FlueFrame s t) (f : Nat) : t.flue f = s.flue f := congrArg (AMap.get · FlueRec.empty f) h.1

theorem FlueFrame.fld (h : FlueFrame s t) {a : Nat} (ha : fluAddr a) (x : Fld) : t.fld a x = s.fld a x :=
  congrArg x.get (h.2.2 a ha)

theorem FlueFrame.flueSt (h : FlueFrame s t) {f : Nat} (hf : f < 4096) : t.flueSt f = s.flueSt f := h.fld (fluAddr_entry hf) _

theorem FlueFrame.instance_ (h : FlueFrame s t) {f : Nat} (hf : f < 4096) : t.instance_ f = s.instance_ f :=
  h.fld (fluAddr_entry hf) _

variable (s) in
theorem flueFrame_setReg {a : Nat} (h : ¬ fluAddr a) (w : Word) : FlueFrame s (s.setReg a w) :=
  ⟨rfl, rfl, fun b hb => State.reg_setReg_ne s w fun e => h (by rwa [← e])⟩

variable (s) in
theorem flueFrame_setFld {a : Nat} (h : ¬ fluAddr a) (f : Fld) (v : Nat) : FlueFrame s (s.setFld a f v) := flueFrame_setReg s h _

theorem LogOnly.flues (h : LogOnly s t) : t.flues = s.flues := by
  have e : t = s.withLog t := h
  exact (congrArg State.flues e).trans rfl

variable (s) in
theorem flueFrame_logAt (cls code site block unit : Nat) (details : List Nat) :
    FlueFrame s (s.logAt cls code site block unit details) :=
  ⟨(logOnly_logAt ..).flues, (logOnly_logAt ..).now, fun _ ha => State.reg_logAt s (fluAddr_not_vigRel ha) ..⟩

variable (s) in
theorem flueFrame_logFlue (code : Nat) (details : List Nat) : FlueFrame s (s.logFlue code details) := flueFrame_logAt s ..

theorem flueFrame_foldl {α : Type} {f : State → α → State} (h : ∀ t x, FlueFrame t (f t x)) (xs : List α) :
    FlueFrame s (xs.foldl f s) :=
  foldl_keeps (f := f) (fun t => FlueFrame s t) (fun t x ht => ht.trans (h t x)) xs (FlueFrame.refl s)

/-! ## Packets -/

theorem damper_not_fluAddr {a off : Nat} (h : a = unitBase 0xF0 5 0 + off) : ¬ fluAddr a :=
  not_fluAddr_of_le (by rw [h]; exact Nat.le_trans (by decide) (Nat.le_add_right _ _))

variable (s) in
theorem flueFrame_unadmit (f : Flying) : FlueFrame s (s.unadmit f) := by
  unfold State.unadmit
  split
  · exact FlueFrame.refl s
  · refine flueFrame_foldl (fun t a => ?_) _
    dsimp only
    split
    · exact flueFrame_setFld t (damper_not_fluAddr (Nat.add_assoc _ _ _)) _ _
    · exact FlueFrame.refl t

variable (s) in
theorem flueFrame_freeCells (f : Flying) : FlueFrame s (s.freeCells f) := by
  unfold State.freeCells
  split
  · exact ⟨rfl, rfl, fun _ _ => rfl⟩
  · exact FlueFrame.refl s

variable (s) in
theorem flueFrame_land (p : Packet) : FlueFrame s (s.land p).2 := by
  unfold State.land
  split
  next f rest hf =>
    have hflight : FlueFrame s { s with flight := rest } := ⟨rfl, rfl, fun _ _ => rfl⟩
    exact (hflight.trans (flueFrame_freeCells _ f)).trans (flueFrame_unadmit _ f)
  next => exact FlueFrame.refl s

variable (s) in
theorem flueFrame_sendOut {f : Flying} (h : f.src = none) : FlueFrame s (s.sendOut f) := by
  unfold State.sendOut State.fly State.originate State.countRouter
  rw [h]
  dsimp only
  split
  · exact ⟨rfl, rfl, fun _ _ => rfl⟩
  · split
    · exact flueFrame_unadmit s f
    · exact ⟨rfl, rfl, fun _ _ => rfl⟩

variable (s) in
theorem flueFrame_takeTokens (d cells : Nat) : FlueFrame s (s.takeTokens d cells) := by
  have h0 : ¬ fluAddr (Reg.DMP_L0_TOK d) := damper_not_fluAddr (Nat.add_assoc _ _ _)
  have h1 : ∀ p, ¬ fluAddr (Reg.DMP_L1_TOK p) := fun p => damper_not_fluAddr (Nat.add_assoc _ _ _)
  unfold State.takeTokens State.setTokens
  split
  · dsimp only
    split
    · exact (flueFrame_setFld s h0 _ _).trans (flueFrame_setFld _ (h1 _) _ _)
    · exact flueFrame_setFld s h0 _ _
  · exact FlueFrame.refl s

/-- Packets of a Flue: no region port counts them and no buffer is theirs. -/
def flueMade (f : Flying) : Prop := f.src = none ∧ f.buf = none

theorem dropBuffers_flueMade (s : State) {f : Flying} (h : flueMade f) : s.dropBuffers [f] = s := by
  obtain ⟨-, hbuf⟩ := h
  unfold State.dropBuffers
  rw [List.foldl_cons, List.foldl_nil, hbuf]

variable (s) in
theorem flueFrame_inject (owner : Nat) {f : Flying} (h : flueMade f) : FlueFrame s (s.inject owner [f]) := by
  have hsent : ∀ u : State, FlueFrame s u → FlueFrame s
      (if u.silenced then u.dropBuffers ([f].filter fun g => !u.isMine g.pkt) else u) := by
    intro u hu
    split
    · cases hmine : u.isMine f.pkt
      · rw [List.filter_cons_of_pos (by rw [hmine]; rfl), List.filter_nil, dropBuffers_flueMade u h]
        exact hu
      · rw [List.filter_cons_of_neg (by rw [hmine]; decide), List.filter_nil]
        exact hu
    · exact hu
  unfold State.inject
  dsimp only
  split
  · exact hsent _ (flueFrame_sendOut s h.1)
  · refine hsent _ (FlueFrame.trans ?_ (flueFrame_sendOut _ (f := { f with adm := some owner }) h.1))
    split
    · exact (flueFrame_setFld s (damper_not_fluAddr (Nat.add_assoc _ _ _)) _ _).trans (flueFrame_takeTokens _ _ _)
    · exact flueFrame_setFld s (damper_not_fluAddr (Nat.add_assoc _ _ _)) _ _

variable (s) in
theorem flueFrame_flueSend (f : Nat) (p : Packet) : FlueFrame s (s.flueSend f p) := by
  have hmade : flueMade (Flying.of p none none s.now) := ⟨rfl, rfl⟩
  have hinject : FlueFrame s (s.tryInject (flueOwner f) none 0 false [Flying.of p none none s.now]).2 := by
    unfold State.tryInject
    split
    · exact flueFrame_inject s _ hmade
    · exact (flueFrame_setFld s (not_fluAddr_of_le (by decide)) _ _).trans (flueFrame_setFld _ (not_fluAddr_of_le (by decide)) _ _)
    · exact ⟨rfl, rfl, fun _ _ => rfl⟩
  unfold State.flueSend
  split
  next code w hw =>
    rw [hw] at hinject
    split
    · exact hinject.trans ⟨rfl, rfl, fun _ _ => rfl⟩
    · exact hinject
  next w hw =>
    rw [hw] at hinject
    exact hinject

variable (s) in
theorem flueFrame_at (t : Nat) : (s.at t).flues = s.flues ∧ ∀ a, (s.at t).reg a = s.reg a := by
  refine ⟨?_, State.reg_at s t⟩
  unfold State.at
  split <;> rfl

end
end Sys2Proof.Machine
end

section
/-! SUPPORT. Messages of a data Flue, its repeats and its time limits (R466, R467, R476 to R479, R488). -/
namespace Sys2Proof.Machine

section
variable {s : State}

/-! ## A Flue's record -/

theorem State.flue_setFlue_self (s : State) (f : Nat) (x : FlueRec) : (s.setFlue f x).flue f = x :=
  (AMap.get_set s.flues FlueRec.empty f f x).trans (if_pos rfl)

theorem State.flue_setFld (s : State) (a : Nat) (x : Fld) (v f : Nat) : (s.setFld a x v).flue f = s.flue f := (rfl)

theorem State.flue_setRun_self (s : State) (f : Nat) (r : FlueRun) : (s.setRun f r).flue f = { s.flue f with run := some r } :=
  (State.flue_setFld _ _ _ _ _).trans (State.flue_setFlue_self _ _ _)

theorem State.reg_setFlue (s : State) (f : Nat) (x : FlueRec) (a : Nat) : (s.setFlue f x).reg a = s.reg a := (rfl)

theorem State.now_setFlue (s : State) (f : Nat) (x : FlueRec) : (s.setFlue f x).now = s.now := rfl

theorem State.now_setRun (s : State) (f : Nat) (r : FlueRun) : (s.setRun f r).now = s.now := State.setFld_now ..

theorem State.reg_setRun_ne {f a : Nat} (h : a ≠ Reg.FLU_ENTRY f) (s : State) (r : FlueRun) : (s.setRun f r).reg a = s.reg a :=
  (State.reg_setFld_ne _ _ _ h).trans (State.reg_setFlue _ _ _ _)

/-! ## A message's arrival (R467) -/

theorem exec_message {cmd : Instr} {p : Packet} {msg : Nat}
    (h : (cmd, msg) ∈ [(Instr.grant p, Msg.grant), (.resend p, Msg.resend), (.abort p, Msg.abort), (.countMessage p, Msg.count)])
    (s : State) : exec cmd s = .next (s.arriveMessage msg p) := by
  simp only [List.mem_cons, Prod.mk.injEq, List.not_mem_nil, or_false] at h
  rcases h with ⟨rfl, rfl⟩ | ⟨rfl, rfl⟩ | ⟨rfl, rfl⟩ | ⟨rfl, rfl⟩
  case inl => rfl
  case inr.inl => rfl
  case inr.inr.inl => rfl
  case inr.inr.inr => rfl

theorem arriveMessage_other {msg : Nat} {p : Packet}
    (h : h0 p P.ptype ≠ 4 ∨ msgCode p ≠ msg ∨ Im.quick (s.flue (h1 p P.flue)).image = true) : s.arriveMessage msg p = s := by
  unfold State.arriveMessage
  dsimp only
  rw [if_pos]
  rcases h with h | h | h <;> simp [h]

section
variable {msg f : Nat} {p : Packet} (hf : h1 p P.flue = f) (h4 : h0 p P.ptype = 4) (hmsg : msgCode p = msg)
  (hquick : Im.quick (s.flue f).image = false)
include hf h4 hmsg hquick

theorem arriveMessage_running {r : FlueRun} (hrun : (s.flue f).run = some r) :
    s.arriveMessage msg p = (s.land p).2.hearMessage f p := by
  unfold State.arriveMessage
  dsimp only
  rw [hf, hquick, hrun, if_neg (by simp [h4, hmsg])]

theorem arriveMessage_idle (hrun : (s.flue f).run = none) (hf4 : f < 4096) : s.arriveMessage msg p =
    if s.flueSt f = FSt.idle ∧ notLaunched s f p = true then
      (s.land p).2.setFlue f { s.flue f with early := (s.flue f).early ++ [p] }
    else (s.land p).2 := by
  have hland := flueFrame_land s p
  have hnl : notLaunched (s.land p).2 f p = notLaunched s f p := by
    unfold notLaunched
    rw [hland.instance_ hf4]
  unfold State.arriveMessage
  dsimp only
  rw [hf, hquick, hrun, if_neg (by simp [h4, hmsg]), hland.flueSt hf4, hnl, hland.flue]
  simp only [Bool.and_eq_true, decide_eq_true_eq]
  rw [hrun]

end

/-! ## A message for the open run (R467, R477 to R479, R488) -/

section
variable {f : Nat} {p : Packet} {r : FlueRun} (hrun : (s.flue f).run = some r)
include hrun

theorem hearMessage_old (ha : msgCode p = Msg.abort) (hi : msgInst p ≠ s.instance_ f)
    (hold : (s.instance_ f + 65536 - msgInst p) % 65536 < 32768) : s.hearMessage f p = s := by
  unfold State.hearMessage
  rw [hrun]
  dsimp only
  rw [if_pos (by simp [ha, hi, hold])]

theorem hearMessage_unmatched (ha : msgCode p ≠ Msg.abort)
    (hm : ¬ (msgGroup p = Im.group (s.flue f).image ∧ msgInst p = s.instance_ f ∧ msgTick p = r.tick)) :
    s.hearMessage f p = s.flueFail f r Code.failMismatch 0 := by
  unfold State.hearMessage
  rw [hrun]
  dsimp only
  rw [if_neg (by simp [ha]), if_pos]
  simp only [Bool.or_eq_true, decide_eq_true_eq, or_assoc]
  rwa [Classical.not_and_iff_not_or_not, Classical.not_and_iff_not_or_not] at hm

variable (hg : msgGroup p = Im.group (s.flue f).image) (hi : msgInst p = s.instance_ f) (ht : msgTick p = r.tick)
include hg hi ht

theorem hearMessage_stranger (hl : senderOf (s.flue f).image p = none) :
    s.hearMessage f p = s.flueFail f r Code.failMismatch 0 := by
  unfold State.hearMessage
  rw [hrun]
  dsimp only
  rw [if_neg (by simp [hi]), if_neg (by simp [hg, hi, ht]), hl]

variable {l : FLink} (hl : senderOf (s.flue f).image p = some l)
include hl

theorem hearMessage_abort (hc : msgCode p = Msg.abort) : s.hearMessage f p =
    ((s.flag Reg.FLU_STATUS F.FLU_STATUS_ABORT_SEEN).count Reg.FLU_ABORTS F.FLU_ABORTS_COUNT 1).flueFail f { r with heard := s.now }
      Code.failAborted (msgStatus p) := by
  unfold State.hearMessage
  rw [hrun]
  dsimp only
  rw [if_neg (by simp [hi]), if_neg (by simp [hg, hi, ht]), hl]
  dsimp only
  rw [if_pos hc]

theorem hearMessage_grant (hc : msgCode p = Msg.grant) : s.hearMessage f p =
    (s.setRun f (FlueRun.release s (s.flue f).image (({ r with heard := s.now } : FlueRun).setChan
      { r.chan l with got := Nat.max (r.chan l).got (msgLow p), acked := Nat.max (r.chan l).acked (leAt p.payload 24 8) }) l
      (Nat.max (r.chan l).acked (leAt p.payload 24 8)))).flueWork f := by
  unfold State.hearMessage
  rw [hrun]
  dsimp only
  rw [if_neg (by simp [hi]), if_neg (by simp [hg, hi, ht]), hl]
  dsimp only
  rw [if_neg (by rw [hc]; decide), if_pos hc]
  rfl

theorem hearMessage_resend (hc : msgCode p = Msg.resend) : s.hearMessage f p =
    (s.setRun f { r with heard := s.now, mended := true }).sendAgain f (s.flue f).image { r with heard := s.now, mended := true } l
      (msgLow p) := by
  unfold State.hearMessage
  rw [hrun]
  dsimp only
  rw [if_neg (by simp [hi]), if_neg (by simp [hg, hi, ht]), hl]
  dsimp only
  rw [if_neg (by rw [hc]; decide), if_neg (by rw [hc]; decide), if_pos hc]

theorem hearMessage_count (hc : msgCode p = Msg.count) : s.hearMessage f p =
    (s.setRun f { r with heard := s.now, counts := AMap.insert r.counts (l.pos + 1) (countsOf (s.flue f).image p) }).flueWork f := by
  unfold State.hearMessage
  rw [hrun]
  dsimp only
  rw [if_neg (by simp [hi]), if_neg (by simp [hg, hi, ht]), hl]
  dsimp only
  rw [if_neg (by rw [hc]; decide), if_neg (by rw [hc]; decide), if_neg (by rw [hc]; decide), if_pos hc]

end

/-! ## GRANT_REPEAT and PIECE_RESEND_TIMEOUT -/

section
variable {g : Nat} (hg : g < 4096)
include hg

theorem exec_grantRepeat_idle (hrun : (s.flue g).run = none) : exec (.grantRepeat g) s = .next s := by
  refine (onUnit_of_ok (decide_eq_true hg) _).trans ?_
  rw [hrun]

theorem exec_pieceResendTimeout_idle (hrun : (s.flue g).run = none) (peer seg : Nat) (down : Bool) :
    exec (.pieceResendTimeout g peer seg down) s = .next s := by
  refine (onUnit_of_ok (decide_eq_true hg) _).trans ?_
  dsimp only
  rw [hrun]

theorem exec_grantRepeat_running {r : FlueRun} (hrun : (s.flue g).run = some r) (hquick : Im.quick (s.flue g).image = false) {u : State}
    (hu : s.at (r.grantAt + s.fld Reg.FLU_RESEND F.FLU_RESEND_NS) = u) : exec (.grantRepeat g) s =
      .next ((flueLinks (s.flue g).image).foldl (fun w k =>
        if (((w.flue g).run.getD r).chan k).said.isSome then w.sendGrant g k else w) (u.setRun g { r with grantAt := u.now })) := by
  have himage : ((u.setRun g { r with grantAt := u.now }).flue g).image = (s.flue g).image := by
    rw [State.flue_setRun_self, ← hu]
    exact congrArg (fun m => (AMap.get m FlueRec.empty g).image) (flueFrame_at s _).1
  refine (onUnit_of_ok (decide_eq_true hg) _).trans ?_
  rw [hrun]
  dsimp only
  rw [if_neg (ne_true_of_eq_false hquick), hu, himage]

end

theorem findSome?_of_find? {α β : Type} {p : α → Bool} {g : α → Option β} {xs : List α} {x : α} {y : β} (hx : xs.find? p = some x)
    (hy : g x = some y) (hp : ∀ z, p z = false → g z = none) : xs.findSome? g = some y := by
  induction xs with
  | nil => exact absurd hx (by simp)
  | cons z zs ih =>
    rw [List.findSome?_cons]
    cases hz : p z with
    | true =>
      rw [List.find?_cons_of_pos hz] at hx
      obtain rfl := Option.some.inj hx
      rw [hy]
    | false =>
      rw [List.find?_cons_of_neg (by rw [hz]; decide)] at hx
      rw [hp z hz]
      exact ih hx

/-- The piece of a peer that a list of pieces holds. -/
def FPiece.of (l : FLink) (seg : Nat) (x : FPiece) : Bool := x.stage = l.stage && x.down = l.down && x.pos = l.pos && x.seg = seg

theorem FlueRun.piece_eq (r : FlueRun) (l : FLink) (seg : Nat) : r.piece l seg = r.pieces.find? (FPiece.of l seg) := rfl

theorem find?_map_replace {α : Type} {p : α → Bool} {x : α} (hx : p x = true) (xs : List α) (h : xs.any p = true) :
    (xs.map fun y => if p y then x else y).find? p = some x := by
  induction xs with
  | nil => exact absurd h (by simp)
  | cons y ys ih =>
    rw [List.map_cons]
    cases hy : p y with
    | true => rw [if_pos rfl, List.find?_cons_of_pos hx]
    | false =>
      rw [if_neg (by decide), List.find?_cons_of_neg (by rw [hy]; decide)]
      rw [List.any_cons, hy, Bool.false_or] at h
      exact ih h

/-- A piece that has been set is the one that is kept. -/
theorem FlueRun.piece_setPiece (r : FlueRun) {l : FLink} {seg : Nat} {x : FPiece} (hx : FPiece.of l seg x = true) :
    (r.setPiece x).piece l seg = some x := by
  obtain ⟨lstage, ldown, lpos, lmodule, lflue⟩ := l
  unfold FPiece.of at hx
  simp only [Bool.and_eq_true, decide_eq_true_eq] at hx
  obtain ⟨⟨⟨rfl, rfl⟩, rfl⟩, rfl⟩ := hx
  have hself : FPiece.of ⟨x.stage, x.down, x.pos, lmodule, lflue⟩ x.seg x = true := by
    simp only [FPiece.of, decide_true, Bool.and_self]
  rw [FlueRun.piece_eq]
  unfold FlueRun.setPiece
  dsimp only
  split
  case isTrue h => exact find?_map_replace hself r.pieces h
  case isFalse h =>
    have hnone : r.pieces.find? (FPiece.of ⟨x.stage, x.down, x.pos, lmodule, lflue⟩ x.seg) = none := by
      rw [List.find?_eq_none]
      exact fun y hy hp => h (List.any_eq_true.2 ⟨y, hy, hp⟩)
    rw [List.find?_append, hnone, Option.none_or, List.find?_cons_of_pos hself]

/-- A piece is asked for again (R478). -/
def State.askAgain (s : State) (g : Nat) (r : FlueRun) (l : FLink) (seg : Nat) (x : FPiece) : State :=
  let m := (s.flue g).image
  let u := s.setRun g (({ r with mended := true } : FlueRun).setPiece { x with since := s.now, resends := x.resends + 1 })
  let u := u.flueSend g (u.message m (u.instance_ g) r.tick l Msg.resend 0 seg (List.replicate 8 0))
  (((u.flag Reg.FLU_STATUS F.FLU_STATUS_RESEND_SEEN).count Reg.FLU_RESENDS F.FLU_RESENDS_COUNT 1).healthAdd 5 1).logFlue 0 []

/-- A piece that is open at a peer is asked for again, or after three times the run ends. -/
theorem exec_pieceResendTimeout_open {g peer seg len : Nat} {down : Bool} (hg : g < 4096) {r : FlueRun} {l : FLink} {x : FPiece}
    (hrun : (s.flue g).run = some r) (hshadow : s.mstate ≠ MState.shadow)
    (hl : (flueLinks (s.flue g).image).find? (fun k => k.module = peer && k.down = down && (r.piece k seg).isSome) = some l)
    (hx : r.piece l seg = some x)
    (hlen : (linkPieces s (s.flue g).image r l false).find? (fun y => y.1 = seg) = some (seg, len)) (hopen : x.bytes < len)
    {u : State} (hu : s.at (x.since + s.fld Reg.FLU_RESEND F.FLU_RESEND_NS) = u) :
    exec (.pieceResendTimeout g peer seg down) s =
      .next (if 3 ≤ x.resends then u.flueFail g r Code.failLink 0 else u.askAgain g r l seg x) := by
  have himage : (u.flue g).image = (s.flue g).image := by
    rw [← hu]
    exact congrArg (fun m => (AMap.get m FlueRec.empty g).image) (flueFrame_at s _).1
  have hpl := List.find?_some hl
  simp only [Bool.and_eq_true, decide_eq_true_eq] at hpl
  obtain ⟨⟨hmodule, hdown⟩, -⟩ := hpl
  refine (onUnit_of_ok (decide_eq_true hg) _).trans ?_
  dsimp only
  rw [hrun]
  dsimp only
  rw [if_neg hshadow, findSome?_of_find? (y := (l, x)) hl]
  · dsimp only
    rw [hu]
    unfold State.askAgain
    dsimp only
    rw [himage]
  · rw [if_pos (by rw [hmodule, hdown, decide_eq_true rfl, decide_eq_true rfl]; rfl), hx, hlen]
    exact if_pos hopen
  · intro z hz
    split
    case isFalse => rfl
    case isTrue hzl =>
      rw [hzl, Bool.true_and, Option.isSome_eq_false_iff, Option.isNone_iff_eq_none] at hz
      rw [hz]

theorem fluRegs : fluAddr Reg.FLU_STATUS ∧ fluAddr Reg.FLU_RESENDS ∧ fluAddr Reg.FLU_ABORTS ∧ fluAddr Reg.FLU_MISMATCHES ∧
    fluAddr Reg.FLU_BYTES_IN ∧ fluAddr Reg.FLU_LAST_EARLY := by
  unfold fluAddr
  decide

theorem fluEntry_ne (f : Nat) : Reg.FLU_STATUS ≠ Reg.FLU_ENTRY f ∧ Reg.FLU_RESENDS ≠ Reg.FLU_ENTRY f ∧
    Reg.FLU_ABORTS ≠ Reg.FLU_ENTRY f ∧ Reg.FLU_MISMATCHES ≠ Reg.FLU_ENTRY f ∧ Reg.FLU_BYTES_IN ≠ Reg.FLU_ENTRY f ∧
    Reg.FLU_LAST_EARLY ≠ Reg.FLU_ENTRY f := by
  unfold Reg.FLU_STATUS Reg.FLU_RESENDS Reg.FLU_ABORTS Reg.FLU_MISMATCHES Reg.FLU_BYTES_IN Reg.FLU_LAST_EARLY Reg.FLU_ENTRY
  omega

/-- A flag of FLU_STATUS is set and an event counted and logged (R490). -/
def State.fluEvent (s : State) (x : Fld) (a : Nat) (y : Fld) : State := (s.flag Reg.FLU_STATUS x).count a y 1

theorem fluEvent_flag {x y : Fld} {a : Nat} (hx : x.fits ∧ 1 % 2 ^ (x.hi + 1 - x.lo) = 1) (ha : Reg.FLU_STATUS ≠ a) (s : State) :
    (s.fluEvent x a y).isOn Reg.FLU_STATUS x = true := by
  obtain ⟨hfits, hone⟩ := hx
  rw [State.fluEvent, State.isOn, State.count, State.fld_setFld_ne _ _ _ _ ha, State.flag, State.fld_setFld_self _ hfits, hone]
  rfl

theorem fluEvent_count {x y : Fld} {a : Nat} (hy : y.fits) (ha : a ≠ Reg.FLU_STATUS) (s : State) :
    (s.fluEvent x a y).fld a y = satAdd (y.hi + 1 - y.lo) (s.fld a y) 1 := by
  rw [State.fluEvent, State.fld_count_self hy, State.flag, State.fld_setFld_ne _ _ _ _ ha]

theorem State.flue_fluEvent (s : State) (x : Fld) (a : Nat) (y : Fld) (f : Nat) : (s.fluEvent x a y).flue f = s.flue f := rfl

theorem askAgain_state {g : Nat} (r : FlueRun) {l : FLink} {seg : Nat} {x : FPiece} (hx : r.piece l seg = some x) :
    (s.askAgain g r l seg x).isOn Reg.FLU_STATUS F.FLU_STATUS_RESEND_SEEN = true ∧
    (s.askAgain g r l seg x).fld Reg.FLU_RESENDS F.FLU_RESENDS_COUNT = satAdd 32 (s.fld Reg.FLU_RESENDS F.FLU_RESENDS_COUNT) 1 ∧
    ∃ r2, ((s.askAgain g r l seg x).flue g).run = some r2 ∧
      r2.piece l seg = some { x with since := s.now, resends := x.resends + 1 } := by
  obtain ⟨hstatus, hresends, -⟩ := fluRegs
  obtain ⟨-, hne, -⟩ := fluEntry_ne g
  let r2 := ({ r with mended := true } : FlueRun).setPiece { x with since := s.now, resends := x.resends + 1 }
  let u := s.setRun g r2
  let v := u.flueSend g (u.message (s.flue g).image (u.instance_ g) r.tick l Msg.resend 0 seg (List.replicate 8 0))
  have hv : FlueFrame u v := flueFrame_flueSend u g _
  have ht : s.askAgain g r l seg x =
      ((v.fluEvent F.FLU_STATUS_RESEND_SEEN Reg.FLU_RESENDS F.FLU_RESENDS_COUNT).healthAdd 5 1).logFlue 0 [] := rfl
  have hlog := flueFrame_logFlue ((v.fluEvent F.FLU_STATUS_RESEND_SEEN Reg.FLU_RESENDS F.FLU_RESENDS_COUNT).healthAdd 5 1) 0 []
  rw [← ht] at hlog
  refine ⟨?_, ?_, r2, ?_, ?_⟩
  · rw [State.isOn, hlog.fld hstatus, State.healthAdd_fld]
    exact fluEvent_flag (by decide) (by decide) v
  · rw [hlog.fld hresends, State.healthAdd_fld, fluEvent_count (by decide) (by decide), hv.fld hresends, State.fld,
      State.reg_setRun_ne hne]
    rfl
  · rw [hlog.flue]
    refine (congrArg FlueRec.run (hv.flue g)).trans ?_
    rw [State.flue_setRun_self]
  · have hof := List.find?_some (FlueRun.piece_eq r l seg ▸ hx)
    exact FlueRun.piece_setPiece _ hof

/-! ## FLUE_UNLAUNCHED_MISMATCH (R467) -/

theorem exec_flueUnlaunchedMismatch_empty {g : Nat} (hg : g < 4096) (h : (s.flue g).early = []) :
    exec (.flueUnlaunchedMismatch g) s = .next s := by
  refine (onUnit_of_ok (decide_eq_true hg) _).trans ?_
  rw [h]

/-- A Flue faults for a message it holds. -/
def State.faultHeld (s : State) (g : Nat) (m : List Byte) (p : Packet) (held : List Packet) : State :=
  let u := s.setFlue g { s.flue g with early := held }
  let u := (u.setEntry g F.FLU_ENTRY_STATE FSt.faulted).setEntry g F.FLU_ENTRY_LAST_STATUS Code.failMismatch
  ((u.sendAborts g m (msgInst p) (msgTick p) Code.failMismatch).flueFlags Code.failMismatch).logFlue Code.failMismatch []

/-- The Almanac count at which a held message's run is too late. -/
def heldDue (s : State) (p : Packet) : Nat :=
  ((s.fld Reg.ALM_EPOCH F.ALM_EPOCH_EPOCH : Int) + (toSigned 64 (msgTick p) + 2) * (2 ^ tickK s : Nat)).toNat

theorem exec_flueUnlaunchedMismatch_held {g : Nat} (hg : g < 4096) {p : Packet} {held : List Packet}
    (h : (s.flue g).early = p :: held) (hrun : (s.flue g).run = none) (hst : s.flueSt g = FSt.idle) :
    exec (.flueUnlaunchedMismatch g) s = .next ((s.atAlm (heldDue s p)).faultHeld g (s.flue g).image p held) := by
  refine (onUnit_of_ok (decide_eq_true hg) _).trans ?_
  rw [h, hrun]
  dsimp only
  rw [if_neg (not_not_intro hst)]
  rfl

theorem faultHeld_state (s : State) {g : Nat} (hg : g < 4096) (m : List Byte) (p : Packet) (held : List Packet) :
    (s.faultHeld g m p held).flueSt g = FSt.faulted ∧ ((s.faultHeld g m p held).flue g).early = held ∧
    (s.faultHeld g m p held).fld (Reg.FLU_ENTRY g) F.FLU_ENTRY_LAST_STATUS = Code.failMismatch ∧
    (s.faultHeld g m p held).isOn Reg.FLU_STATUS F.FLU_STATUS_MISMATCH_SEEN = true := by
  obtain ⟨hstatus, -, -, -⟩ := fluRegs
  obtain ⟨hnst, -, hnab, hnmm, -⟩ := fluEntry_ne g
  have hentry := fluAddr_entry hg
  let u := s.setFlue g { s.flue g with early := held }
  let v := (u.setEntry g F.FLU_ENTRY_STATE FSt.faulted).setEntry g F.FLU_ENTRY_LAST_STATUS Code.failMismatch
  let w := (flueMembers m).foldl (fun t l =>
    t.flueSend g (t.message m (msgInst p) (msgTick p) l Msg.abort Code.failMismatch 0 (List.replicate 8 0))) v
  let y := (w.fluEvent F.FLU_STATUS_ABORT_SEEN Reg.FLU_ABORTS F.FLU_ABORTS_COUNT).fluEvent F.FLU_STATUS_MISMATCH_SEEN Reg.FLU_MISMATCHES
    F.FLU_MISMATCHES_COUNT
  have hw : FlueFrame v w := flueFrame_foldl (fun t l => flueFrame_flueSend t g _) _
  have ht : s.faultHeld g m p held = y.logFlue Code.failMismatch [] := rfl
  have hlog := flueFrame_logFlue y Code.failMismatch []
  rw [← ht] at hlog
  have hy : ∀ x : Fld, y.fld (Reg.FLU_ENTRY g) x = v.fld (Reg.FLU_ENTRY g) x := fun x => by
    refine Eq.trans ?_ (hw.fld hentry x)
    simp only [y, State.fluEvent, State.count, State.flag]
    rw [State.fld_setFld_ne _ _ _ _ hnmm.symm, State.fld_setFld_ne _ _ _ _ hnst.symm, State.fld_setFld_ne _ _ _ _ hnab.symm,
      State.fld_setFld_ne _ _ _ _ hnst.symm]
  refine ⟨?_, ?_, ?_, ?_⟩
  · rw [State.flueSt, hlog.fld hentry, hy]
    simp only [v, State.setEntry]
    rw [State.fld_setFld_apart _ (by decide) (by decide), State.fld_setFld_self _ (by decide)]
    rfl
  · rw [hlog.flue]
    refine (congrArg FlueRec.early ((State.flue_fluEvent ..).trans ((State.flue_fluEvent ..).trans (hw.flue g)))).trans ?_
    simp only [v, u, State.setEntry]
    rw [State.flue_setFld, State.flue_setFld, State.flue_setFlue_self]
  · rw [hlog.fld hentry, hy]
    simp only [v, State.setEntry]
    rw [State.fld_setFld_self _ (by decide)]
    rfl
  · rw [State.isOn, hlog.fld hstatus]
    exact fluEvent_flag (by decide) (by decide) _

end

/-- Settles O49, message by message; sending leaves the Flues' records and registers as `FlueFrame` says. -/
theorem flueMessages : Obligations.FlueMessages := by
  unfold Obligations.FlueMessages
  intro s p r l cmd msg g peer seg len down x held f u m inst c acked r1 matched t hcmd hg
  have hexec := exec_message hcmd s
  have hland := flueFrame_land s p
  have hf : f < 4096 := Fld.get_lt P.flue p.w1
  refine ⟨fun h4 hmsg hquick => ⟨fun hrun => ?_, fun hrun hst hnl => ?_, fun hrun hnot => ?_⟩, fun hother => ?_, fun hrun =>
    ⟨fun ha hm => ?_, fun hm hl => ?_, fun ha hi hold => ?_, fun hm hl => ⟨fun hc => ?_, fun hc => ?_, fun hc => ?_, fun hc => ?_⟩⟩,
    fun hrun => ⟨exec_grantRepeat_idle hg hrun, exec_pieceResendTimeout_idle hg hrun peer seg down⟩,
    fun hrun hquick => exec_grantRepeat_running hg hrun hquick rfl, fun hrun hshadow hl hx hlen hopen => ?_,
    fun hearly hrun hst => ?_, exec_flueUnlaunchedMismatch_empty hg⟩
  · rw [hexec, arriveMessage_running rfl h4 hmsg hquick hrun]
  · rw [hexec, arriveMessage_idle rfl h4 hmsg hquick hrun hf, if_pos ⟨hst, hnl⟩]
    refine ⟨_, rfl, ?_, ?_, (State.now_setFlue ..).trans hland.2.1⟩
    · rw [State.flue_setFlue_self]
    · rw [State.flue_setFlue_self]
      exact hrun
  · rw [hexec, arriveMessage_idle rfl h4 hmsg hquick hrun hf, if_neg]
    rintro ⟨hst, hnl⟩
    rcases hnot with h | h
    · exact h hst
    · exact absurd (hnl.symm.trans h) (by decide)
  · rw [hexec, arriveMessage_other hother]
  · exact hearMessage_unmatched hrun ha hm
  · obtain ⟨hgr, hi, ht⟩ := hm
    exact hearMessage_stranger hrun hgr hi ht hl
  · exact hearMessage_old hrun ha hi hold
  · obtain ⟨hgr, hi, ht⟩ := hm
    exact hearMessage_abort hrun hgr hi ht hl hc
  · obtain ⟨hgr, hi, ht⟩ := hm
    exact hearMessage_grant hrun hgr hi ht hl hc
  · obtain ⟨hgr, hi, ht⟩ := hm
    exact hearMessage_resend hrun hgr hi ht hl hc
  · obtain ⟨hgr, hi, ht⟩ := hm
    exact hearMessage_count hrun hgr hi ht hl hc
  · have h := exec_pieceResendTimeout_open hg hrun hshadow hl hx hlen hopen rfl
    refine ⟨fun h3 => h.trans (by rw [if_pos h3]), fun h3 => ?_⟩
    obtain ⟨hseen, hcount, hpiece⟩ := askAgain_state (s := s.at (x.since + s.fld Reg.FLU_RESEND F.FLU_RESEND_NS)) (g := g) r hx
    refine ⟨_, h.trans (by rw [if_neg (Nat.not_le.2 h3)]), hseen, hcount.trans ?_, hpiece⟩
    rw [State.fld, State.reg_at]
    rfl
  · obtain ⟨hst', hearly', hcode, hseen⟩ := faultHeld_state (s.atAlm (heldDue s p)) hg (s.flue g).image p held
    exact ⟨_, exec_flueUnlaunchedMismatch_held hg hearly hrun hst, hst', hearly', hcode, hseen⟩

end Sys2Proof.Machine
end

section
/-! SUPPORT. The quick path's values, down values and repeats (R467, R481 to R485). -/
namespace Sys2Proof.Machine

section
variable {s : State}

theorem FlueFrame.gen {t : State} (h : FlueFrame s t) {f : Nat} (hf : f < 4096) : t.gen f = s.gen f :=
  congrArg (· % 2 ^ 14) (h.instance_ hf)

/-- An open run hears from a peer. -/
def State.hearQuick (s : State) (f : Nat) (run : Option FlueRun) : State :=
  match run with
  | some r => s.setRun f { r with heard := s.now }
  | none => s

theorem hearQuick_ups (f : Nat) : ((s.hearQuick f (s.flue f).run).flue f).ups = (s.flue f).ups := by
  cases h : (s.flue f).run with
  | none => rfl
  | some r =>
    rw [State.hearQuick, State.flue_setRun_self]

theorem hearQuick_now (f : Nat) (run : Option FlueRun) : (s.hearQuick f run).now = s.now := by
  cases run with
  | none => rfl
  | some r => exact State.now_setRun _ _ _

/-- A value of a generation that has not finished is taken or meets R467 and R484. -/
def State.takeValue (s : State) (f : Nat) (m : List Byte) (k gen q : Nat) (p : Packet) : State :=
  let cur := s.gen f
  if Im.pos m k ≠ Im.rootPos m k || !(((s.flue f).run.isSome && gen = cur) || gen = (cur + 1) % 2 ^ 14) then s.quickMismatch f
  else
    let w := s.hearQuick f (s.flue f).run
    if (w.flue f).ups.any fun u => u.gen = gen && u.stage = k && u.pos = q then w
    else (w.setFlue f { w.flue f with ups := (w.flue f).ups ++ [⟨gen, k, q, slotsOf m p.payload, w.now⟩] }).quickWork f

theorem takeValue_next (s : State) (f : Nat) (m : List Byte) (k gen q : Nat) (p : Packet) :
    (Host.Outcome.next (s.takeValue f m k gen q p) : Host.Outcome State Fault Refusal) =
    let w := s.hearQuick f (s.flue f).run
    if Im.pos m k ≠ Im.rootPos m k || !(((s.flue f).run.isSome && gen = s.gen f) || gen = (s.gen f + 1) % 2 ^ 14) then
      .next (s.quickMismatch f)
    else if (w.flue f).ups.any fun u => u.gen = gen && u.stage = k && u.pos = q then .next w
    else .next ((w.setFlue f { w.flue f with ups := (w.flue f).ups ++ [⟨gen, k, q, slotsOf m p.payload, w.now⟩] }).quickWork f) := by
  unfold State.takeValue
  dsimp only
  rw [apply_ite Host.Outcome.next, apply_ite Host.Outcome.next]

section
variable {p : Packet} {f k gen : Nat} {m : List Byte} (hf : h1 p P.flue = f) (hm : (s.flue f).image = m) (hk : h1 p P.stage = k)
  (hgen : h1 p P.gen = gen)

/-! ## QUICK_VALUE -/

/-- The packet is one that a quick Flue with an image takes. -/
def quickTakes (m : List Byte) (p : Packet) : Prop := Im.quick m = true ∧ m ≠ [] ∧ h0 p P.ptype = 4

theorem exec_quick_other (h : ¬ quickTakes (s.flue (h1 p P.flue)).image p) :
    exec (.quickValue p) s = .next s ∧ exec (.quickDown p) s = .next s := by
  have hguard : ∀ b : Bool, (decide (h0 p P.ptype ≠ 4) || b || !Im.quick (s.flue (h1 p P.flue)).image ||
      (s.flue (h1 p P.flue)).image.isEmpty) = true := by
    intro b
    refine Classical.byContradiction fun hno => ?_
    simp only [Bool.or_eq_true, decide_eq_true_eq, Bool.not_eq_true', List.isEmpty_iff, not_or, Classical.not_not,
      Bool.not_eq_false] at hno
    exact h ⟨hno.1.2, hno.2, hno.1.1.1⟩
  exact ⟨if_pos (hguard _), if_pos (hguard _)⟩

variable (htakes : quickTakes m p)
include hf hm hk hgen htakes

section
variable (hdown : h1 p P.down = 0)
include hdown

omit hgen in
theorem exec_quickValue_stranger (hq : quickSender m k p = none) :
    exec (.quickValue p) s = .next ((s.land p).2.quickMismatch f) := by
  obtain ⟨hquick, hne, h4⟩ := htakes
  subst hf hm hk
  refine (if_neg (by simp [h4, hdown, hquick, hne])).trans ?_
  dsimp only
  rw [hq]

variable {q : Nat} (hq : quickSender m k p = some q)
include hq

/-- A value of a generation that has finished is answered. -/
theorem exec_quickValue_finished {v : List Nat} (hlast : (s.flue f).last = some (gen, v))
    (hnot : ¬ ((s.flue f).run.isSome = true ∧ gen = s.gen f)) : exec (.quickValue p) s =
      .next ((s.land p).2.flueSend f ((s.land p).2.quickPacket m gen k true (Im.entry m (Im.memOff m k) q) v)) := by
  obtain ⟨hquick, hne, h4⟩ := htakes
  have hland := flueFrame_land s p
  have hf4 : h1 p P.flue < 4096 := Fld.get_lt P.flue p.w1
  subst hf hm hk hgen
  refine (if_neg (by simp [h4, hdown, hquick, hne])).trans ?_
  dsimp only
  rw [hq, hland.flue, hlast, hland.gen hf4]
  dsimp only
  have hor := (Classical.not_and_iff_not_or_not.1 hnot).imp_left eq_false_of_ne_true
  rw [if_pos (by simpa using hor)]

/-- A value of a generation that has not finished meets the rules of R467 and R484. -/
theorem exec_quickValue_open (hopen : (∀ y, (s.flue f).last ≠ some (gen, y)) ∨ ((s.flue f).run.isSome = true ∧ gen = s.gen f)) :
    exec (.quickValue p) s = .next
      (if Im.pos m k ≠ Im.rootPos m k ∨ ¬ (((s.flue f).run.isSome = true ∧ gen = s.gen f) ∨ gen = (s.gen f + 1) % 2 ^ 14) then
        (s.land p).2.quickMismatch f
      else if ((s.flue f).ups.any fun y => y.gen = gen && y.stage = k && y.pos = q) = true then
        (s.land p).2.hearQuick f (s.flue f).run
      else
        let w := (s.land p).2.hearQuick f (s.flue f).run
        (w.setFlue f { w.flue f with ups := (s.flue f).ups ++ [⟨gen, k, q, slotsOf m p.payload, s.now⟩] }).quickWork f) := by
  obtain ⟨hquick, hne, h4⟩ := htakes
  have hland := flueFrame_land s p
  have hf4 : h1 p P.flue < 4096 := Fld.get_lt P.flue p.w1
  have hups := hearQuick_ups (s := (s.land p).2) f
  have hnow := (hearQuick_now (s := (s.land p).2) f (s.flue f).run).trans hland.2.1
  have htake : exec (.quickValue p) s = .next ((s.land p).2.takeValue f m k gen q p) := by
    subst hf hm hk hgen
    refine (if_neg (by simp [h4, hdown, hquick, hne])).trans ?_
    dsimp only
    rw [hq, hland.flue]
    dsimp only
    cases hlast : (s.flue (h1 p P.flue)).last with
    | none =>
      rw [← hland.flue, takeValue_next]
      rfl
    | some gv =>
      have hguard : ¬ (decide (gv.1 = h1 p P.gen) && !((s.flue (h1 p P.flue)).run.isSome &&
          decide (h1 p P.gen = (s.land p).2.gen (h1 p P.flue)))) = true := by
        rw [hland.gen hf4]
        intro hg
        simp only [Bool.and_eq_true, decide_eq_true_eq, Bool.not_eq_true', Bool.and_eq_false_iff, decide_eq_false_iff_not] at hg
        obtain ⟨hgv, hno⟩ := hg
        rcases hopen with hopen | ⟨hsome, hcur⟩
        · exact hopen gv.2 (by rw [hlast, ← hgv])
        · rcases hno with hno | hno
          · exact absurd (hsome.symm.trans hno) (by decide)
          · exact hno hcur
      dsimp only
      rw [if_neg hguard, ← hland.flue, takeValue_next]
      rfl
  rw [htake, State.takeValue]
  dsimp only
  rw [hland.flue] at hups ⊢
  rw [hups, hnow, hland.gen (hf ▸ hf4)]
  simp only [Bool.or_eq_true, decide_eq_true_eq, Bool.not_eq_true', Bool.and_eq_true, ← Bool.not_eq_true]

end

/-! ## QUICK_DOWN -/

section
variable (hdown : h1 p P.down = 1)
include hdown

omit hk hgen in
theorem exec_quickDown_idle (hrun : (s.flue f).run = none) : exec (.quickDown p) s = .next (s.land p).2 := by
  obtain ⟨hquick, hne, h4⟩ := htakes
  subst hf hm
  refine (if_neg (by simp [h4, hdown, hquick, hne])).trans ?_
  dsimp only
  rw [(flueFrame_land s p).flue, hrun]

/-- A down value of the generation that is open. -/
theorem exec_quickDown_open {r : FlueRun} (hrun : (s.flue f).run = some r) (hcur : gen = s.gen f) : exec (.quickDown p) s = .next
    (if r.stage ≠ k ∨ quickSender m k p ≠ some (Im.rootPos m k) then (s.land p).2.quickMismatch f
     else (s.land p).2.quickEnd f r k (slotsOf m p.payload)) := by
  obtain ⟨hquick, hne, h4⟩ := htakes
  have hland := flueFrame_land s p
  have hf4 : h1 p P.flue < 4096 := Fld.get_lt P.flue p.w1
  have hold : ∀ g : Nat, (decide (g = s.gen f) && decide (¬ g = s.gen f)) = false := by
    intro g
    by_cases hg : g = s.gen f
    · rw [decide_eq_false (not_not_intro hg), Bool.and_false]
    · rw [decide_eq_false hg, Bool.false_and]
  subst hf hm hk hgen
  refine (if_neg (by simp [h4, hdown, hquick, hne])).trans ?_
  dsimp only
  rw [hland.flue, hrun, hland.gen hf4]
  dsimp only
  rw [apply_ite Host.Outcome.next]
  cases hlast : (s.flue (h1 p P.flue)).last with
  | none => simp only [Bool.false_eq_true, if_false, hcur, ne_eq, not_true_eq_false, decide_false, Bool.false_or, Bool.or_eq_true, decide_eq_true_eq]
  | some gv => simp only [hold, Bool.false_eq_true, if_false, hcur, ne_eq, not_true_eq_false, decide_false, Bool.false_or, Bool.or_eq_true, decide_eq_true_eq]

end
end

/-! ## QUICK_RESEND -/

theorem exec_quickResend_idle {g : Nat} (hg : g < 4096) (hrun : (s.flue g).run = none) : exec (.quickResend g) s = .next s := by
  refine (onUnit_of_ok (decide_eq_true hg) _).trans ?_
  rw [hrun]

/-- An unanswered value is sent again. -/
def State.sendValueAgain (s : State) (g : Nat) (r : FlueRun) : State :=
  let u := s.setRun g { r with sentAt := s.now, again := r.again + 1, mended := true }
  ((u.flueSend g (u.upPacket g (s.flue g).image r.stage r.own)).fluEvent F.FLU_STATUS_RESEND_SEEN Reg.FLU_RESENDS
    F.FLU_RESENDS_COUNT).healthAdd 5 1

theorem exec_quickResend_unanswered {g : Nat} (hg : g < 4096) {r : FlueRun} (hrun : (s.flue g).run = some r)
    (hquick : Im.quick (s.flue g).image = true) (hstage : r.stage ≠ 0) {w : State}
    (hw : s.at (r.sentAt + s.fld Reg.FLU_QRESEND F.FLU_QRESEND_NS) = w) :
    exec (.quickResend g) s = .next (if 3 ≤ r.again then w.quickFail g r Code.failTimeout else w.sendValueAgain g r) := by
  have himage : (w.flue g).image = (s.flue g).image := by
    rw [← hw]
    exact congrArg (fun m => (AMap.get m FlueRec.empty g).image) (flueFrame_at s _).1
  refine (onUnit_of_ok (decide_eq_true hg) _).trans ?_
  rw [hrun]
  dsimp only
  rw [hquick, if_neg (by simp [hstage]), hw]
  unfold State.sendValueAgain
  dsimp only
  rw [himage]
  rfl

theorem sendValueAgain_state (s : State) {g : Nat} (r : FlueRun) : (s.sendValueAgain g r).now = s.now ∧
    ((s.sendValueAgain g r).flue g).run = some { r with sentAt := s.now, again := r.again + 1, mended := true } ∧
    (s.sendValueAgain g r).isOn Reg.FLU_STATUS F.FLU_STATUS_RESEND_SEEN = true := by
  let u := s.setRun g { r with sentAt := s.now, again := r.again + 1, mended := true }
  have hsend : FlueFrame u (u.flueSend g (u.upPacket g (s.flue g).image r.stage r.own)) := flueFrame_flueSend u g _
  refine ⟨?_, ?_, ?_⟩
  · exact hsend.2.1.trans (State.now_setRun _ _ _)
  · refine (congrArg FlueRec.run (hsend.flue g)).trans ?_
    rw [State.flue_setRun_self]
  · unfold State.sendValueAgain
    dsimp only
    rw [State.isOn, State.healthAdd_fld]
    exact fluEvent_flag (by decide) (by decide) _

end

/-- Settles O51, packet by packet: a finished generation's value is answered, an open one's taken by `State.takeValue`. -/
theorem quickPath : Obligations.QuickPath := by
  unfold Obligations.QuickPath
  intro s p g q r v f m k gen u running good root heard known value w hg
  have hheard : heard = u.hearQuick f (s.flue f).run := by
    have hnow : u.now = s.now := (flueFrame_land s p).2.1
    unfold heard State.hearQuick
    cases (s.flue f).run with
    | none => rfl
    | some x => simp only [hnow]
  clear_value heard
  subst hheard
  refine ⟨fun hgood hdown => ⟨fun hq => exec_quickValue_stranger rfl rfl rfl hgood hdown hq, fun hq => ⟨fun hlast hnot => ?_,
    fun hopen => ?_⟩⟩, fun hgood hdown => ⟨fun hrun => exec_quickDown_idle rfl rfl hgood hdown hrun, fun hrun hcur hstage hroot => ?_,
    fun hrun hcur hbad => ?_⟩, exec_quick_other, exec_quickResend_idle hg, fun hrun hquick hstage => ?_⟩
  · exact exec_quickValue_finished rfl rfl rfl rfl hgood hdown hq hlast hnot
  · have h := exec_quickValue_open rfl rfl rfl rfl hgood hdown hq hopen
    refine ⟨fun hbad => h.trans ?_, fun hroot hgen => ⟨fun hknown => h.trans ?_, fun hknown => h.trans ?_⟩⟩
    · rw [if_pos hbad]
    · rw [if_neg (by rw [not_or, Classical.not_not, Classical.not_not]; exact ⟨hroot, hgen⟩), if_pos hknown]
    · rw [if_neg (by rw [not_or, Classical.not_not, Classical.not_not]; exact ⟨hroot, hgen⟩), if_neg (ne_true_of_eq_false hknown)]
  · rw [exec_quickDown_open rfl rfl rfl rfl hgood hdown hrun hcur, if_neg (by rw [not_or, Classical.not_not, Classical.not_not]; exact ⟨hstage, hroot⟩)]
  · rw [exec_quickDown_open rfl rfl rfl rfl hgood hdown hrun hcur, if_pos hbad]
  · have h := exec_quickResend_unanswered hg hrun hquick hstage rfl
    obtain ⟨hnow, hrun', hseen⟩ := sendValueAgain_state w (g := g) r
    exact ⟨fun h3 => h.trans (by rw [if_pos h3]), fun h3 => ⟨_, h.trans (by rw [if_neg (Nat.not_le.2 h3)]), hnow, hrun', hseen⟩⟩

end Sys2Proof.Machine
end

section
/-! SUPPORT. Chunks, hub tasks and completion of data instances (R465, R467 to R474, R480): a chunk's bytes and a hub's signals
leave the Flues' records alone. -/
namespace Sys2Proof.Machine

section
variable (s : State)

/-! ## Signals keep the Flues (R118 to R138) -/

theorem State.offSync_arriveCur (r : RegionId) (obj L : Nat) : (s.arriveCur r obj L).offSync = s.offSync := by
  unfold State.arriveCur
  dsimp only
  split
  · rw [State.offSync_barrierDone, State.offSync_setFld]
  · rw [State.offSync_setFld]

theorem State.offSync_setMaskBit (a : Nat → Nat) (q : Nat) : (s.setMaskBit a q).offSync = s.offSync := State.offSync_setReg _ _ _

theorem State.offSync_arrive (r : RegionId) (obj L : Nat) (q : Option Nat) : (s.arrive r obj L q).offSync = s.offSync := by
  unfold State.arrive
  dsimp only
  split
  · exact State.offSync_setErr _ _ _
  · cases q with
    | none => exact State.offSync_arriveCur _ _ _ _
    | some q =>
      dsimp only
      split
      · split
        · exact State.offSync_setErr _ _ _
        · split
          · rw [State.offSync_arriveCur, State.offSync_setMaskBit]
          · split
            · rw [State.offSync_setFld, State.offSync_setMaskBit]
            · exact State.offSync_setErr _ _ _
      · exact State.offSync_arriveCur _ _ _ _

theorem State.offSync_withPhaseC (x : PhaseC) : State.offSync { s with phaseC := x } = s.offSync := (rfl)

theorem State.offSync_applySig (r : RegionId) (obj L act amt : Nat) (q : Option Nat) :
    (s.applySig r obj L act amt q).offSync = s.offSync := by
  unfold State.applySig
  dsimp only
  split
  · exact (State.offSync_withPhaseC _ _).trans (State.offSync_setReg _ _ _)
  · exact (State.offSync_withPhaseC _ _).trans (State.offSync_setReg _ _ _)
  · split
    · rfl
    · exact State.offSync_setReg _ _ _
  · split
    · exact State.offSync_setReg _ _ _
    · rw [State.offSync_setErr, State.offSync_setReg]
  · exact State.offSync_arrive _ _ _ _ _
  · rfl

theorem State.offSync_stale (r : RegionId) (obj source : Nat) : (s.stale r obj source).offSync = s.offSync := by
  unfold State.stale State.logSync State.logAt
  rw [State.offSync_log, State.offSync_count, State.offSync_flag]

theorem State.offSync_landSig (r : RegionId) (obj tag act amt : Nat) (q : Option Nat) (source L : Nat) :
    (s.landSig r obj tag act amt q source L).offSync = s.offSync := by
  have hsettled : ((s.at L).settle r obj L).offSync = s.offSync := by
    rw [State.offSync_settle, State.offSync_at]
  unfold State.landSig
  dsimp only
  rw [State.offSync_at]
  split
  · exact (State.offSync_log _ _).trans hsettled
  · split
    · exact (State.offSync_stale _ _ _ _).trans hsettled
    · exact (State.offSync_applySig _ _ _ _ _ _ _).trans hsettled

theorem State.flues_of_offSync {s t : State} (h : t.offSync = s.offSync) : t.flues = s.flues :=
  congrArg (fun x => x.1.2.2.2.2.2.2.2.2.2.1) h

theorem State.flue_hubSignal (f : Nat) (m : List Byte) (hub obj g : Nat) : (s.hubSignal f m hub obj).flue g = s.flue g :=
  congrArg (AMap.get · FlueRec.empty g) (State.flues_of_offSync (State.offSync_landSig s _ _ _ _ _ _ _ _))

theorem State.flue_hubWrite (c : CoreId) (a : Nat) (bs : List Byte) (g : Nat) : (s.hubWrite c a bs).flue g = s.flue g := by
  unfold State.hubWrite
  split <;> rfl

theorem State.flue_writeTask (c : CoreId) (h : Nat) (a d info : List Byte) (g : Nat) : (s.writeTask c h a d info).flue g = s.flue g := by
  unfold State.writeTask
  rw [State.flue_hubWrite, State.flue_hubWrite, State.flue_hubWrite]

/-! ## Stored bytes keep the Flues (R328 to R330, R336) -/

theorem stackChannel_lt {g : Nat} (h : g < 2 ^ 32) : stackChannel g < 32 := by
  have hfold : rowFold (g / 2048) < 2 ^ 11 :=
    Nat.xor_lt_two_pow (Nat.mod_lt _ (by decide)) (by omega)
  have hchan : channelOf g < 2 ^ 11 := Nat.xor_lt_two_pow (Nat.mod_lt _ (by decide)) hfold
  unfold stackChannel
  omega

theorem stackReg_not_fluAddr {k u d : Nat} (hk : k < 64) (hu : u < 0x100) (hd : d < 0x10000) :
    ¬ fluAddr (unitBase (0x80 + k) 0 u + d) :=
  not_fluAddr_of_lt (by unfold unitBase; omega)

theorem stackOf_lt (g : Nat) : stackOf g < 64 := Nat.mod_lt _ (by decide)

theorem flueFrame_lifeAdd (w n : Nat) : FlueFrame s (s.lifeAdd w n) := ⟨rfl, rfl, fun _ _ => State.lifeAdd_reg _ _ _ _⟩

theorem flueFrame_healthAdd (i n : Nat) : FlueFrame s (s.healthAdd i n) := ⟨rfl, rfl, fun _ _ => State.healthAdd_reg _ _ _ _⟩

theorem flueFrame_withMarks (ms : AMap Nat) : FlueFrame s { s with marks := ms } := ⟨rfl, rfl, fun _ _ => rfl⟩

theorem flueFrame_bump {a : Nat} (h : ¬ fluAddr a) (f : Fld) (n : Nat) : FlueFrame s (s.bump a f n) := flueFrame_setFld s h _ _

theorem flueFrame_count {a : Nat} (h : ¬ fluAddr a) (f : Fld) (n : Nat) : FlueFrame s (s.count a f n) := flueFrame_setFld s h _ _

section
variable {g : Nat} (hg : g < 2 ^ 32)
include hg

theorem flueFrame_slots (n : Nat) (wr : Bool) : FlueFrame s (s.slots g n wr) := by
  have hbump : FlueFrame s (s.bump (Reg.MEM_CH_SLOTS (stackOf g) (stackChannel g)) F.MEM_CH_SLOTS_COUNT n) :=
    flueFrame_bump s (stackReg_not_fluAddr (stackOf_lt g) (Nat.lt_trans (stackChannel_lt hg) (by decide)) (by decide)) _ _
  unfold State.slots
  dsimp only
  split
  · exact hbump.trans (flueFrame_lifeAdd _ _ _)
  · exact hbump

theorem flueFrame_checkGranule (off len : Nat) : FlueFrame s (s.checkGranule g off len).2 := by
  have hecc : ¬ fluAddr (Reg.MEM_CH_ECC (stackOf g) (stackChannel g)) := by
    rw [Reg.MEM_CH_ECC, ← Nat.add_zero (unitBase _ _ _)]
    exact stackReg_not_fluAddr (stackOf_lt g) (Nat.lt_trans (stackChannel_lt hg) (by decide)) (by decide)
  unfold State.checkGranule
  dsimp only
  generalize (if len = 0 then 0 else (off + len - 1) / 64 + 1 - off / 64) = n
  split
  · exact ((flueFrame_count s hecc _ _).trans (flueFrame_lifeAdd _ _ _)).trans (flueFrame_logAt _ _ _ _ _ _ _)
  · split
    · exact FlueFrame.refl s
    · exact (((flueFrame_withMarks s _).trans (flueFrame_count _ hecc _ _)).trans (flueFrame_lifeAdd _ _ _)).trans (flueFrame_healthAdd _ _ _)

theorem flueFrame_writeGranule (off : Nat) (bs : List Byte) : FlueFrame s (s.writeGranule g off bs).2 := by
  have hfwrite : ∀ (t : State) (a : Nat) (bs : List Byte), FlueFrame t (t.fwrite a bs) := fun _ _ _ => ⟨rfl, rfl, fun _ _ => rfl⟩
  unfold State.writeGranule
  dsimp only
  split
  · exact FlueFrame.refl s
  · split
    · exact (flueFrame_slots s hg _ _).trans (hfwrite _ _ _)
    · split
      · exact ((flueFrame_setFld s (stackReg_not_fluAddr (stackOf_lt g) (by decide) (by decide)) _ _).trans
          (flueFrame_setFld _ (stackReg_not_fluAddr (stackOf_lt g) (by decide) (by decide)) _ _)).trans (flueFrame_logAt _ _ _ _ _ _ _)
      · have hcheck := (flueFrame_slots s hg 2 true).trans (flueFrame_checkGranule (s.slots g 2 true) hg off bs.length)
        split
        · exact hcheck
        · exact hcheck.trans (hfwrite _ _ _)

end

theorem flueFrame_foldl_pair {α β : Type} {f : β × State → α → β × State} {xs : List α}
    (h : ∀ y t, ∀ x ∈ xs, FlueFrame t (f (y, t) x).2) (y : β) : FlueFrame s (xs.foldl f (y, s)).2 := by
  induction xs generalizing s y with
  | nil => exact FlueFrame.refl s
  | cons x xs ih =>
    exact (h y s x List.mem_cons_self).trans (ih (f (y, s) x).2 (fun y t x hx => h y t x (List.mem_cons_of_mem _ hx)) (f (y, s) x).1)

theorem granuleParts_lt {a n : Nat} (h : a + n ≤ 2 ^ 41) : ∀ x ∈ granuleParts a n, x.1 < 2 ^ 32 := by
  intro x hx
  unfold granuleParts at hx
  split at hx
  · exact absurd hx (by simp)
  · obtain ⟨i, hi, rfl⟩ := List.mem_map.1 hx
    have := List.mem_range.1 hi
    dsimp only
    omega

theorem flueFrame_fabWrite {a : Nat} {bs : List Byte} (h : a + bs.length ≤ 2 ^ 41) : FlueFrame s (s.fabWrite a bs).2 := by
  unfold State.fabWrite
  refine flueFrame_foldl_pair s (fun y t x hx => ?_) _
  exact flueFrame_writeGranule t (granuleParts_lt h x hx) _ _

theorem flueFrame_flueWrite (loc off : Nat) (bs : List Byte) : FlueFrame s (s.flueWrite loc off bs).2 := by
  unfold State.flueWrite
  split
  next pl hpl =>
    dsimp only
    split
    · exact FlueFrame.refl s
    next hroom =>
      split
      next a ha =>
        refine flueFrame_fabWrite s ?_
        rw [ha] at hroom
        simp only [Place.limit, Place.addr, Bool.or_eq_true, decide_eq_true_eq, not_or] at hroom
        exact Nat.not_lt.1 fun hlt => hroom.2 (decide_eq_true hlt)
      next hnot =>
        generalize pl.plus off = q at hnot ⊢
        cases q with
        | hearth c a => exact ⟨rfl, rfl, fun _ _ => rfl⟩
        | scratch d a => exact ⟨rfl, rfl, fun _ _ => rfl⟩
        | fabric a => exact absurd rfl (hnot a)
        | queue l => exact FlueFrame.refl s
  next => exact FlueFrame.refl s

end

/-! ## FLUE_CHUNK (R467 to R470) -/

/-- The state in which a chunk's bytes are stored and counted, and an early LAST is counted. -/
def State.chunkStored (s : State) (p : Packet) (b : Nat) (x : FPiece) (len : Nat) : State :=
  let w := (((s.land p).2.bump Reg.FLU_BYTES_IN F.FLU_BYTES_IN_COUNT p.payload.length).flueWrite b 0 p.payload).2
  if h1 p P.last = 1 && x.bytes < len then w.bump Reg.FLU_LAST_EARLY F.FLU_LAST_EARLY_COUNT 1 else w

/-- The open run with a chunk in its piece: with its peer's count, before the piece counts as complete. -/
def FlueRun.withChunk (r : FlueRun) (m : List Byte) (l : FLink) (x : FPiece) (seg idx b n now : Nat) (free : List Nat)
    (bs : List Byte) : FlueRun :=
  let r1 := ({ r with heard := now } : FlueRun).setPiece x
  let r2 := r1.setChan { r.chan l with taken := (r.chan l).taken + 1 }
  if Im.tasked m && !l.down then
    { r2 with free := free, ins := r2.ins ++ [(⟨l.stage, l.down, l.pos, seg, idx, b, n⟩ : FChunk)] }
  else { r2 with vals := r2.vals ++ [(⟨resultStep, seg, idx, bs⟩ : FVal)], free := free ++ [b] }

/-- A chunk takes a buffer and joins the open run. -/
def State.takeChunk (s : State) (f : Nat) (m : List Byte) (r : FlueRun) (l : FLink) (x : FPiece) (seg len idx b : Nat)
    (free : List Nat) (p : Packet) : State :=
  let w := s.chunkStored p b x len
  let r2 := r.withChunk m l x seg idx b p.payload.length w.now free p.payload
  w.setRun f (r2.setChan { r2.chan l with runs := runLength r2 l (linkPieces w m r2 l false) })

/-- A chunk takes a free buffer, if the open run has one. -/
def State.acceptChunk (d : FlueRun × State) (f : Nat) (m : List Byte) (l : FLink) (x : FPiece) (seg len idx : Nat) (p : Packet) :
    State :=
  match d.1.free with
  | [] => d.2
  | b :: free => (d.2.takeChunk f m d.1 l x seg len idx b free p).flueWork f

section
variable {s : State} {p : Packet} {f : Nat} (hf : h1 p P.flue = f) (h3 : h0 p P.ptype = 3)
include hf h3

theorem exec_flueChunk_idle (hrun : (s.flue f).run = none) : exec (.flueChunk p) s = .next (s.land p).2 := by
  subst hf
  show execFlueChunk p s = _
  unfold execFlueChunk
  dsimp only
  rw [hrun]
  dsimp only
  rw [if_pos h3]

section
variable {r : FlueRun} (hrun : (s.flue f).run = some r)
include hrun

theorem exec_flueChunk_stranger (hpiece : pieceOf s (s.flue f).image r p = none) :
    exec (.flueChunk p) s = .next ((s.land p).2.flueFail f r Code.failMismatch 0) := by
  subst hf
  show execFlueChunk p s = _
  unfold execFlueChunk
  dsimp only
  rw [hrun]
  dsimp only
  rw [if_neg (not_not_intro h3), hpiece]

theorem exec_flueChunk_of_piece {m : List Byte} (hm : (s.flue f).image = m) {l : FLink} {seg len : Nat}
    (hpiece : pieceOf s m r p = some (l, seg, len)) {off idx : Nat} (hoff : 64 * h1 p P.offset = off)
    (hidx : off / chunkBytes m l.down = idx) {x : FPiece}
    (hx : (r.piece l seg).getD { stage := l.stage, down := l.down, pos := l.pos, seg := seg, got := [],
                                 since := s.now, resends := 0 } = x) {again : Bool} (hagain : (x.got.any fun g => g.1 = idx) = again) :
    exec (.flueChunk p) s = .next
      (if off % chunkBytes m l.down ≠ 0 || len < off + p.payload.length || h1 p P.segLen ≠ len || (again && x.resends = 0) then
        (s.land p).2.flueFail f r Code.failMismatch 0
      else if again then (s.land p).2.setRun f { r with heard := s.now }
      else State.acceptChunk (s.shadowDraw f m r) f m l { x with got := x.got ++ [(idx, p.payload.length)] } seg len idx p) := by
  subst hf hm
  show execFlueChunk p s = _
  unfold execFlueChunk
  dsimp only
  rw [hrun]
  dsimp only
  rw [if_neg (not_not_intro h3), hpiece]
  dsimp only
  rw [hoff, hidx, hx, hagain]
  rw [apply_ite Host.Outcome.next, apply_ite Host.Outcome.next]
  congr 2
  generalize s.shadowDraw (h1 p P.flue) (s.flue (h1 p P.flue)).image r = d
  obtain ⟨r', t⟩ := d
  unfold State.acceptChunk
  dsimp only
  cases r'.free with
  | nil => rfl
  | cons b free => rfl

end
end

end Sys2Proof.Machine
end

section
/-! SUPPORT. What a chunk, a hub task, its return and a completed plan do (R465, R467 to R474, R480, R488). -/
namespace Sys2Proof.Machine

/-! ## A chunk that fits -/

section
variable (s : State) (p : Packet) (b : Nat) (x : FPiece) (len : Nat)

theorem State.fld_bump_self {x : Fld} (hx : x.fits) (a n : Nat) :
    (s.bump a x n).fld a x = (s.fld a x + n) % 2 ^ (x.hi + 1 - x.lo) := State.fld_setFld_self s hx a _

theorem chunkStored_state : (s.chunkStored p b x len).flues = s.flues ∧ (s.chunkStored p b x len).now = s.now ∧
    (s.chunkStored p b x len).fld Reg.FLU_BYTES_IN F.FLU_BYTES_IN_COUNT =
      (s.fld Reg.FLU_BYTES_IN F.FLU_BYTES_IN_COUNT + p.payload.length) % 2 ^ 64 := by
  obtain ⟨-, -, -, -, hin, -⟩ := fluRegs
  have hne : Reg.FLU_BYTES_IN ≠ Reg.FLU_LAST_EARLY := by decide
  have hland := flueFrame_land s p
  have hwrite := flueFrame_flueWrite ((s.land p).2.bump Reg.FLU_BYTES_IN F.FLU_BYTES_IN_COUNT p.payload.length) b 0 p.payload
  have hcount := hwrite.fld hin F.FLU_BYTES_IN_COUNT
  rw [State.fld_bump_self _ (by decide), hland.fld hin] at hcount
  obtain ⟨hflues, hnow, -⟩ := hwrite
  rw [State.bump, State.setFld_now, hland.2.1] at hnow
  rw [State.bump, State.setFld_flues, hland.1] at hflues
  unfold State.chunkStored
  dsimp only
  split
  · refine ⟨(State.setFld_flues ..).trans hflues, (State.setFld_now ..).trans hnow, ?_⟩
    rw [State.bump, State.fld_setFld_ne _ _ _ _ hne]
    exact hcount
  · exact ⟨hflues, hnow, hcount⟩

variable (f : Nat) (m : List Byte) (r : FlueRun) (l : FLink) (seg idx : Nat) (free : List Nat)

theorem FlueRun.piece_setChan (r : FlueRun) (c : FChan) (l : FLink) (seg : Nat) : (r.setChan c).piece l seg = r.piece l seg := rfl

variable {x} in
theorem withChunk_state (n now : Nat) (bs : List Byte) (hx : FPiece.of l seg x = true) {r2 : FlueRun}
    (h : r.withChunk m l x seg idx b n now free bs = r2) : r2.heard = now ∧ r2.piece l seg = some x ∧ r2.held = r.held ∧
      (Im.tasked m = true → l.down = false → (⟨l.stage, l.down, l.pos, seg, idx, b, n⟩ : FChunk) ∈ r2.ins) ∧
      (Im.tasked m = false ∨ l.down = true → (⟨resultStep, seg, idx, bs⟩ : FVal) ∈ r2.vals) := by
  subst h
  have hpiece := FlueRun.piece_setPiece ({ r with heard := now } : FlueRun) hx
  unfold FlueRun.withChunk
  dsimp only
  split
  next htasked =>
    rw [Bool.and_eq_true, Bool.not_eq_true'] at htasked
    refine ⟨rfl, hpiece, rfl, fun _ _ => List.mem_append_right _ (List.mem_singleton.2 rfl), fun h => ?_⟩
    rcases h with h | h
    · exact absurd (htasked.1.symm.trans h) (by decide)
    · exact absurd (htasked.2.symm.trans h) (by decide)
  next hnot =>
    refine ⟨rfl, hpiece, rfl, fun ht hd => ?_, fun _ => List.mem_append_right _ (List.mem_singleton.2 rfl)⟩
    exact absurd (by rw [ht, hd]; rfl) hnot

variable {x} in
theorem takeChunk_state (hx : FPiece.of l seg x = true) : ∃ r2, ((s.takeChunk f m r l x seg len idx b free p).flue f).run = some r2 ∧
    r2.heard = s.now ∧ r2.piece l seg = some x ∧ r2.held = r.held ∧
    (s.takeChunk f m r l x seg len idx b free p).fld Reg.FLU_BYTES_IN F.FLU_BYTES_IN_COUNT =
      (s.fld Reg.FLU_BYTES_IN F.FLU_BYTES_IN_COUNT + p.payload.length) % 2 ^ 64 ∧
    (Im.tasked m = true → l.down = false → (⟨l.stage, l.down, l.pos, seg, idx, b, p.payload.length⟩ : FChunk) ∈ r2.ins) ∧
    (Im.tasked m = false ∨ l.down = true → (⟨resultStep, seg, idx, p.payload⟩ : FVal) ∈ r2.vals) := by
  obtain ⟨-, hnow, hcount⟩ := chunkStored_state s p b x len
  obtain ⟨-, -, -, -, hne, -⟩ := fluEntry_ne f
  obtain ⟨hheard, hpiece, hheld, hins, hvals⟩ :=
    withChunk_state b m r l seg idx free p.payload.length (s.chunkStored p b x len).now p.payload hx rfl
  unfold State.takeChunk
  dsimp only
  refine ⟨_, congrArg FlueRec.run (State.flue_setRun_self _ _ _), hheard.trans hnow, ?_, hheld, ?_, hins, hvals⟩
  · rw [FlueRun.piece_setChan]
    exact hpiece
  · rw [State.fld, State.reg_setRun_ne hne]
    exact hcount

end

/-! ## HUB_TASK (R471, R472) -/

section
variable {s : State} {f hub : Nat} {m : List Byte} (hf : f < 4096) (hm : (s.flue f).image = m)

theorem not_given_of_nextTask {r : FlueRun} {t : Nat} {st : HubStep} {seg idx : Nat}
    (h : nextTask m r hub = some (t, st, seg, idx)) : (t, seg, idx) ∉ r.given := by
  obtain ⟨g, -, hg⟩ := List.exists_of_findSome?_eq_some h
  obtain ⟨i, -, hi⟩ := List.exists_of_findSome?_eq_some hg
  obtain ⟨⟨st', t'⟩, -, ht⟩ := List.exists_of_findSome?_eq_some hi
  dsimp only at ht
  split at ht
  next hready =>
    obtain ⟨rfl, rfl, rfl, rfl⟩ : t' = t ∧ st' = st ∧ g = seg ∧ i = idx := by
      simpa only [Option.some.injEq, Prod.mk.injEq] using ht
    unfold taskReady at hready
    rw [Bool.and_eq_true, Bool.and_eq_true, Bool.not_eq_true', ← Bool.not_eq_true, List.contains_iff_mem] at hready
    exact hready.1.2
  next => exact absurd ht (by simp)

include hf

theorem exec_hubTask_idle (hrun : (s.flue f).run = none) : exec (.hubTask f hub) s = .next s := by
  refine (onUnit_of_ok (decide_eq_true hf) _).trans ?_
  rw [hrun]

/-- A hub is given a task: its descriptors and INFO are written, the task is noted, and GIVEN is signalled. -/
def State.giveTask (s : State) (f hub : Nat) (m : List Byte) (t : Nat) (st : HubStep) (seg idx q code : Nat) (r : FlueRun) : State :=
  let ps := taskPositions m st
  let kind := taskKind m t
  let tpl := Im.template m kind
  let n := chunkElems m seg idx
  let w := s.writeTask (Im.hubCore m hub) (Im.tBase m + 3 * q)
    (setDesc (slice tpl 0 32) (Im.stageBase m + q * Im.sStride m) n ps.length (some (Im.cStride m)))
    (setDesc (slice tpl 32 32) (Im.outBase m + q * Im.oStride m) n 1 none)
    (infoBytes m (s.instance_ f) st kind ps.length seg idx)
  (w.setRun f { r with given := r.given ++ [(t, seg, idx)], mended := r.mended || code = Code.corrected,
                       tasks := r.tasks ++ [⟨hub, q, t, seg, idx, false⟩],
                       seqs := AMap.set r.seqs 0 hub (AMap.get r.seqs 0 hub + 1) }).hubSignal f m hub 0

/-- The contributions of a task are copied to the hub's slot, with their joined code. -/
def State.copyAll (s : State) (f hub : Nat) (m : List Byte) (t : Nat) (st : HubStep) (seg idx q : Nat) : Nat × State :=
  (taskPositions m st).zipIdx.foldl (fun (code, s) (p, i) =>
    let (k, s) := s.copyIn f m t st seg idx (Im.hubCore m hub) (Im.stageBase m + q * Im.sStride m + i * Im.cStride m) p
    (joinCode code k, s)) (Code.done, s)

include hm

theorem exec_hubTask_none {r : FlueRun} (hrun : (s.flue f).run = some r) (h : nextTask m r hub = none ∨ freeSlot m r hub = none) :
    exec (.hubTask f hub) s = .next s := by
  subst hm
  refine (onUnit_of_ok (decide_eq_true hf) _).trans ?_
  rw [hrun]
  dsimp only
  rcases h with h | h
  · rw [h]
  · rw [h]
    cases nextTask (s.flue f).image r hub with
    | none => rfl
    | some x => rfl

theorem exec_hubTask_some {r : FlueRun} (hrun : (s.flue f).run = some r) {t : Nat} {st : HubStep} {seg idx q : Nat}
    (hnext : nextTask m r hub = some (t, st, seg, idx)) (hslot : freeSlot m r hub = some q) (htasked : Im.tasked m = true)
    (hhub : hub < Im.nhub m) (hearlier : earlierTask s f m r hub = false) {code : Nat} {u : State}
    (hcopy : s.copyAll f hub m t st seg idx q = (code, u)) :
    exec (.hubTask f hub) s = .next (if Code.family code ≠ 0 then u.flueFail f ((u.flue f).run.getD r) code 0
      else (u.giveTask f hub m t st seg idx q code ((u.flue f).run.getD r)).flueWork f) := by
  subst hm
  refine (onUnit_of_ok (decide_eq_true hf) _).trans ?_
  rw [hrun]
  dsimp only
  rw [hnext, hslot]
  dsimp only
  rw [if_neg (by simp [htasked, hhub, hearlier])]
  unfold State.copyAll at hcopy
  rw [hcopy]
  rfl

omit hf hm in
theorem giveTask_run (u : State) (t : Nat) (st : HubStep) (seg idx q code : Nat) (r : FlueRun) : ∃ r2,
    ((u.giveTask f hub m t st seg idx q code r).flue f).run = some r2 ∧ (t, seg, idx) ∈ r2.given ∧
      (⟨hub, q, t, seg, idx, false⟩ : FTask) ∈ r2.tasks := by
  unfold State.giveTask
  dsimp only
  rw [State.flue_hubSignal, State.flue_setRun_self]
  exact ⟨_, rfl, List.mem_append_right _ (List.mem_singleton.2 rfl), List.mem_append_right _ (List.mem_singleton.2 rfl)⟩

end

/-! ## TASK_TAKEBACK (R471, R473) -/

section
variable {s : State} {f hub : Nat} {upd : Bool} {m : List Byte} (hf : f < 4096) (hm : (s.flue f).image = m)
include hf

theorem exec_taskTakeback_idle (hrun : (s.flue f).run = none) : exec (.taskTakeback f hub upd) s = .next s := by
  refine (onUnit_of_ok (decide_eq_true hf) _).trans ?_
  rw [hrun]

/-- The UPDATE task of a finished REDUCE_UPDATE task is written to its hub and signalled. -/
def State.giveUpdate (s : State) (f hub : Nat) (m : List Byte) (r : FlueRun) (k : FTask) (rest : List FTask) : State :=
  let n := chunkElems m k.seg k.idx
  let tpl := Im.template m 3
  let w := s.writeTask (Im.hubCore m hub) (Im.uBase m + 3 * k.slot)
    (setDesc (slice tpl 0 32) (Im.outBase m + k.slot * Im.oStride m) n 1 (some (Im.cStride m)))
    (setDesc (slice tpl 32 32) (Im.uoutBase m + k.slot * Im.uoStride m) n 1 none)
    (infoBytes m (s.instance_ f) ((hubSteps m)[k.step]?.getD ⟨0, 0⟩) 3 1 k.seg k.idx)
  (w.setRun f { r with tasks := rest ++ [{ k with upd := true }] }).hubSignal f m hub 2

omit hf in
theorem giveUpdate_run (s : State) (f hub : Nat) (m : List Byte) (r : FlueRun) (k : FTask) (rest : List FTask) :
    ((s.giveUpdate f hub m r k rest).flue f).run = some { r with tasks := rest ++ [{ k with upd := true }] } := by
  unfold State.giveUpdate
  dsimp only
  rw [State.flue_hubSignal, State.flue_setRun_self]

section
variable {r : FlueRun} (hrun : (s.flue f).run = some r)
include hrun

theorem exec_taskTakeback_none (h : takeFirst (fun y : FTask => y.hub = hub && y.upd = upd) r.tasks = none) :
    exec (.taskTakeback f hub upd) s = .next s := by
  refine (onUnit_of_ok (decide_eq_true hf) _).trans ?_
  rw [hrun]
  dsimp only
  rw [h]

include hm

theorem exec_taskTakeback_some {k : FTask} {rest : List FTask}
    (h : takeFirst (fun y : FTask => y.hub = hub && y.upd = upd) r.tasks = some (k, rest)) {ok : Bool} {u : State}
    (htake : s.takeHub m hub (if upd then 3 else 1) = (ok, u)) :
    exec (.taskTakeback f hub upd) s = .next (if ok = false then u
      else if k.step + 1 = (hubSteps m).length ∧ upd = false ∧ Im.kind m = 11 then u.giveUpdate f hub m r k rest
      else (u.setRun f (FlueRun.gain m { r with tasks := rest } k.step k.seg k.idx
        (u.hubRead (Im.hubCore m hub) (if upd then Im.uoutBase m + k.slot * Im.uoStride m else Im.outBase m + k.slot * Im.oStride m)
          (chunkElems m k.seg k.idx * (if k.step + 1 = (hubSteps m).length then Im.downBytes m else Im.wireBytes m))))).flueWork f) := by
  subst hm
  refine (onUnit_of_ok (decide_eq_true hf) _).trans ?_
  rw [hrun]
  dsimp only
  rw [h]
  dsimp only
  rw [htake]
  dsimp only
  simp only [Bool.not_eq_true', Bool.and_eq_true, decide_eq_true_eq, and_assoc]
  rfl

end
end

/-! ## FLUE_COMPLETE (R480) -/

section
variable {s : State} {f : Nat} {m : List Byte} (hf : f < 4096) (hm : (s.flue f).image = m)
include hf

theorem exec_flueComplete_idle (hrun : (s.flue f).run = none) : exec (.flueComplete f) s = .next s := by
  refine (onUnit_of_ok (decide_eq_true hf) _).trans ?_
  rw [hrun]

/-- The plan of an open data run is done (R480). -/
def planDone (s : State) (m : List Byte) (r : FlueRun) : Prop :=
  Im.quick m = false ∧ r.waiting = false ∧ mayGrant m r = true ∧ tasksDone m r = true ∧ ∀ l ∈ flueLinks m, linkDone s m r l = true

omit hf in
theorem planDone_iff (s : State) (m : List Byte) (r : FlueRun) : planDone s m r ↔
    ¬ (Im.quick m || r.waiting || !mayGrant m r || !tasksDone m r || !((flueLinks m).all fun l => linkDone s m r l)) = true := by
  simp only [planDone, Bool.or_eq_true, Bool.not_eq_true', not_or, Bool.not_eq_true, Bool.not_eq_false, List.all_eq_true, and_assoc]

variable {r : FlueRun} (hrun : (s.flue f).run = some r)
include hm hrun

theorem exec_flueComplete_refused (h : bitAt (AMap.get s.flueNotes 0 f) 2 = true) : exec (.flueComplete f) s =
    .next (if Im.quick m then s.quickFail f r Code.refusedAdmission else s.flueFail f r Code.refusedAdmission 0) := by
  subst hm
  refine (onUnit_of_ok (decide_eq_true hf) _).trans ?_
  rw [hrun]
  dsimp only
  rw [if_pos h]

variable (h : bitAt (AMap.get s.flueNotes 0 f) 2 = false)
include h

theorem exec_flueComplete_open (hopen : ¬ planDone s m r) : exec (.flueComplete f) s = .next s := by
  subst hm
  refine (onUnit_of_ok (decide_eq_true hf) _).trans ?_
  rw [hrun]
  dsimp only
  rw [if_neg (ne_true_of_eq_false h), if_pos (Classical.not_not.1 (mt (planDone_iff s _ r).2 hopen))]

theorem exec_flueComplete_done (hdone : planDone s m r) {code : Nat} {parts : List (Nat × List Byte)} {v : State}
    (hparts : s.resultParts m r = ((code, parts), v)) : exec (.flueComplete f) s = .next (if Code.family code ≠ 0 then v.flueFail f r code 0
      else v.flueFinish f { r with mended := r.mended || code = Code.corrected } parts) := by
  subst hm
  refine (onUnit_of_ok (decide_eq_true hf) _).trans ?_
  rw [hrun]
  dsimp only
  rw [if_neg (ne_true_of_eq_false h), if_neg ((planDone_iff s _ r).1 hdone), hparts]

end
theorem of_piece_getD (r : FlueRun) (l : FLink) (seg now : Nat) (got : List (Nat × Nat)) : FPiece.of l seg
    { (r.piece l seg).getD { stage := l.stage, down := l.down, pos := l.pos, seg := seg, got := [], since := now, resends := 0 } with
      got := got } = true := by
  cases h : r.piece l seg with
  | none => simp only [FPiece.of, Option.getD_none, decide_true, Bool.and_self]
  | some y =>
    have hof : FPiece.of l seg y = true := List.find?_some (FlueRun.piece_eq r l seg ▸ h)
    exact hof

theorem shadowDraw_other {s : State} (h : s.mstate ≠ MState.shadow) (f : Nat) (m : List Byte) (r : FlueRun) :
    s.shadowDraw f m r = (r, s) := by
  unfold State.shadowDraw
  rw [if_pos (by rw [Bool.or_eq_true, decide_eq_true_eq]; exact Or.inl h)]

/-- Settles O50, command by command: a chunk's and a task's resulting run is read off `State.takeChunk` and `State.giveTask`. -/
theorem flueWork : Obligations.FlueWork := by
  unfold Obligations.FlueWork
  intro s u v p r l f hub seg len idx t q code b st k rest free upd parts m off cb i n x again bad mismatch ps addr out last taken
    refused done hf
  refine ⟨fun hrun => ⟨exec_hubTask_idle hf hrun, exec_taskTakeback_idle hf hrun, exec_flueComplete_idle hf hrun⟩,
    fun hflue h3 => ⟨fun hrun => exec_flueChunk_idle hflue h3 hrun, fun hrun hpiece => exec_flueChunk_stranger hflue h3 hrun hpiece,
      fun hrun hpiece => ?_⟩,
    fun hrun => ⟨exec_hubTask_none hf rfl hrun, fun hnext hslot htasked hhub hearlier => ⟨not_given_of_nextTask hnext, fun hcopy => ?_⟩,
      exec_taskTakeback_none hf hrun, fun htake => ⟨fun hwait => ?_, fun hpass => ⟨fun hupd => ?_, fun hnot => ?_⟩⟩,
      exec_flueComplete_refused hf rfl hrun, fun href hopen => exec_flueComplete_open hf rfl hrun href hopen,
      fun href hdone hparts => exec_flueComplete_done hf rfl hrun href hdone hparts⟩⟩
  · have h := exec_flueChunk_of_piece hflue h3 hrun (m := m) rfl hpiece (off := off) rfl (idx := i) rfl (x := x) rfl (again := again) rfl
    have hbad : bad ↔ (off % cb ≠ 0 || len < off + n || h1 p P.segLen ≠ len || (again && x.resends = 0)) = true := by
      simp only [bad, Bool.or_eq_true, Bool.and_eq_true, decide_eq_true_eq, or_assoc]
    refine ⟨fun hb => h.trans ?_, fun hb ha => h.trans ?_, fun hb ha hshadow hfree => h.trans ?_, fun hb ha hshadow hfree => ?_⟩
    · rw [if_pos (hbad.1 hb)]
    · rw [if_neg (mt hbad.2 hb), if_pos ha]
    · rw [if_neg (mt hbad.2 hb), if_neg (ne_true_of_eq_false ha), shadowDraw_other hshadow, State.acceptChunk, hfree]
    · obtain ⟨r2, hrun2, hheard, hpiece2, hheld, hin, hins, hvals⟩ :=
        takeChunk_state s p b len f m r l seg i free (of_piece_getD r l seg s.now (x.got ++ [(i, n)]))
      rw [if_neg (mt hbad.2 hb), if_neg (ne_true_of_eq_false ha), shadowDraw_other hshadow, State.acceptChunk, hfree] at h
      exact ⟨_, r2, h, hrun2, hheard, hpiece2, hheld, hin, hins, hvals⟩
  · have h := exec_hubTask_some hf rfl hrun hnext hslot htasked hhub hearlier hcopy
    refine ⟨fun hfail => h.trans (by rw [if_pos hfail]), fun hok => ?_⟩
    obtain ⟨r2, hrun2, hgiven, htask⟩ := giveTask_run (f := f) (hub := hub) (m := m) u t st seg idx q code ((u.flue f).run.getD r)
    exact ⟨_, r2, h.trans (by rw [if_neg (not_not_intro hok)]), hrun2, hgiven, htask⟩
  · rw [exec_taskTakeback_some hf rfl hrun htake hwait, if_pos rfl]
  · rw [exec_taskTakeback_some hf rfl hrun htake hpass, if_neg (by decide), if_pos hupd]
    exact ⟨_, rfl, giveUpdate_run u f hub m r k rest⟩
  · rw [exec_taskTakeback_some hf rfl hrun htake hpass, if_neg (by decide), if_neg hnot]

end Sys2Proof.Machine
end

section
/-! SUPPORT. Mirroring, digests, takeover and relay (R510, R513 to R516). -/
namespace Sys2Proof.Machine

/-! ## What the shadow's registers keep -/

theorem shdRegs : ¬ ashReg Reg.VIG_SHD_CTL ∧ ¬ ashReg Reg.VIG_SHD_STATUS ∧ ¬ ashReg Reg.VIG_SHD_LAST ∧ ¬ ashReg Reg.VIG_STATE := by
  unfold ashReg
  decide

section
variable (s : State)

theorem State.fld_at (t a : Nat) (f : Fld) : (s.at t).fld a f = s.fld a f := congrArg f.get (State.reg_at s t a)

theorem State.fld_atAlm (t a : Nat) (f : Fld) : (s.atAlm t).fld a f = s.fld a f := congrArg f.get (State.reg_atAlm t a)

theorem State.reg_stopAll (a : Nat) : s.stopAll.reg a = s.reg a := (rfl)

theorem State.fld_stopAll (a : Nat) (f : Fld) : s.stopAll.fld a f = s.fld a f := (rfl)

theorem State.fld_withShadow (x : Shadow) (a : Nat) (f : Fld) : State.fld { s with shadow := x } a f = s.fld a f := (rfl)

theorem State.port_sendCtrl_self (p : Nat) (body : List Byte) :
    (s.sendCtrl p body).port p = { s.port p with ctrl := (s.port p).ctrl ++ [body] } :=
  (AMap.get_set s.ports Port.idle p p _).trans (if_pos rfl)

theorem State.now_sendCtrl (p : Nat) (body : List Byte) : (s.sendCtrl p body).now = s.now := rfl

theorem State.shadow_sendCtrl (p : Nat) (body : List Byte) : (s.sendCtrl p body).shadow = s.shadow := rfl

theorem State.fld_sendCtrl (p : Nat) (body : List Byte) (a : Nat) (f : Fld) : (s.sendCtrl p body).fld a f = s.fld a f := (rfl)

theorem State.shdState_setShd {st : Nat} (h : st < 8) : (s.setShd st).shdState = st := by
  unfold State.setShd State.shdState
  rw [State.fld_setFld_self s (by decide)]
  exact Nat.mod_eq_of_lt h

/-! ## Shadowing ends (R513, R516) -/

variable {s} in
theorem LogOnly.job {t : State} (h : LogOnly s t) : t.job = s.job := by
  have e : t = s.withLog t := h
  exact (congrArg State.job e).trans rfl

theorem endShadow_other (h : s.shadowing = false) (code tick : Nat) : s.endShadow code tick = s := by
  unfold State.endShadow
  rw [if_pos (by rw [h]; rfl)]

/-- The registers of the shadow with its code and tick. -/
def State.markEnd (s : State) (code tick : Nat) : State :=
  ((s.setShd Shd.ended).setFld Reg.VIG_SHD_STATUS F.VIG_SHD_STATUS_CODE code).setFld Reg.VIG_SHD_LAST F.VIG_SHD_LAST_FAIL_TICK tick

theorem endShadow_frame (h : s.shadowing = true) (code tick : Nat) : LogOnly (s.markEnd code tick).stopAll (s.endShadow code tick) ∧
    ∀ a, ¬ ashReg a → a ≠ Reg.VIG_REC_CTL → a ≠ Reg.ALM_JOB_STATUS → (s.endShadow code tick).reg a = (s.markEnd code tick).reg a := by
  unfold State.endShadow
  rw [if_neg (by rw [h]; decide)]
  dsimp only
  refine ⟨((logOnly_setPhase _ _ _).trans (logOnly_relFlag _ _)).trans (logOnly_logAt _ _ _ _ _ _ _), fun a ha hr hs => ?_⟩
  rw [State.reg_logAt_ashReg _ ha, State.reg_relFlag _ ha (by decide), State.reg_setPhase_ashReg _ ha hr hs, State.reg_stopAll]
  rfl

theorem markEnd_state {code : Nat} (hc : code < 256) (tick : Nat) :
    F.VIG_SHD_STATUS_STATE.get ((s.markEnd code tick).reg Reg.VIG_SHD_STATUS) = Shd.ended ∧
    F.VIG_SHD_STATUS_CODE.get ((s.markEnd code tick).reg Reg.VIG_SHD_STATUS) = code ∧
    F.VIG_SHD_LAST_FAIL_TICK.get ((s.markEnd code tick).reg Reg.VIG_SHD_LAST) = tick % 2 ^ 32 := by
  have hne : Reg.VIG_SHD_STATUS ≠ Reg.VIG_SHD_LAST := by decide
  have hstatus := State.fld_setFld_ne ((s.setShd Shd.ended).setFld Reg.VIG_SHD_STATUS F.VIG_SHD_STATUS_CODE code)
    F.VIG_SHD_LAST_FAIL_TICK (h := hne) (v := tick)
  refine ⟨(hstatus F.VIG_SHD_STATUS_STATE).trans ?_, (hstatus F.VIG_SHD_STATUS_CODE).trans ?_, State.fld_setFld_self _ (by decide) _ _⟩
  · rw [State.fld_setFld_apart _ (by decide) (by decide)]
    exact State.shdState_setShd s (by decide)
  · rw [State.fld_setFld_self _ (by decide)]
    exact Nat.mod_eq_of_lt hc

theorem endShadow_state (h : s.shadowing = true) {code : Nat} (hc : code < 256) (tick : Nat) :
    (s.endShadow code tick).shdState = Shd.ended ∧ (s.endShadow code tick).fld Reg.VIG_SHD_STATUS F.VIG_SHD_STATUS_CODE = code ∧
    (s.endShadow code tick).fld Reg.VIG_SHD_LAST F.VIG_SHD_LAST_FAIL_TICK = tick % 2 ^ 32 ∧
    (s.endShadow code tick).job.stopped = List.range 64 := by
  obtain ⟨hlog, hreg⟩ := endShadow_frame s h code tick
  obtain ⟨-, hstatus, hlast, -⟩ := shdRegs
  obtain ⟨hst, hcode, htick⟩ := markEnd_state s hc tick
  have h1 := hreg _ hstatus (by decide) (by decide)
  have h2 := hreg _ hlast (by decide) (by decide)
  exact ⟨(congrArg F.VIG_SHD_STATUS_STATE.get h1).trans hst, (congrArg F.VIG_SHD_STATUS_CODE.get h1).trans hcode,
    (congrArg F.VIG_SHD_LAST_FAIL_TICK.get h2).trans htick, congrArg Job.stopped hlog.job⟩

/-! ## MIRROR_PACKET and MIRROR_HOLD_TIMEOUT (R510, R511) -/

variable {s}

theorem exec_mirrorPacket_other (p : Packet) (h : s.mstate ≠ MState.shadow ∨ s.shdMode ≠ 2) : exec (.mirrorPacket p) s = .next s :=
  if_pos (by simpa only [Bool.or_eq_true, decide_eq_true_eq] using h)

theorem exec_mirrorPacket_shadow (p : Packet) (hm : s.mstate = MState.shadow) (h2 : s.shdMode = 2) : exec (.mirrorPacket p) s =
    .next ((s.setPort s.mirrorPort { s.port s.mirrorPort with arrived := removeOne p (s.port s.mirrorPort).arrived }).acceptMirrored
      s.mirrorPort p) :=
  if_neg (by rw [hm, h2]; decide)

theorem exec_mirrorHoldTimeout_idle (h : s.shdMode ≠ 1 ∨ s.shdState ≠ Shd.mirroring ∨ s.shadow.copies = []) :
    exec .mirrorHoldTimeout s = .next s := by
  show execMirrorHoldTimeout s = _
  unfold execMirrorHoldTimeout
  split
  next f rest hcopies =>
    refine if_pos ?_
    rw [Bool.or_eq_true, decide_eq_true_eq, decide_eq_true_eq]
    rcases h with h | h | h
    · exact Or.inl h
    · exact Or.inr h
    · exact absurd (hcopies.symm.trans h) (by simp)
  next => rfl

/-- Mirroring has stopped at the primary: its copies are dropped and MIRROR_STOP is sent. -/
def State.stopMirroring (s : State) : State :=
  let w := (State.setShd { s with shadow := { s.shadow with copies := [] } } Shd.ended).setFld Reg.VIG_SHD_STATUS
    F.VIG_SHD_STATUS_CODE Code.failTimeout
  w.sendCtrl w.mirrorPort (ctrlBody 5 [1])

theorem exec_mirrorHoldTimeout_mirroring {f : Flying} {rest : List Flying} (hcopies : s.shadow.copies = f :: rest)
    (h1 : s.shdMode = 1) (hst : s.shdState = Shd.mirroring) : exec .mirrorHoldTimeout s =
      .next (s.at (f.since + s.fld Reg.VIG_SHD_HOLD F.VIG_SHD_HOLD_NS)).stopMirroring := by
  show execMirrorHoldTimeout s = _
  unfold execMirrorHoldTimeout
  rw [hcopies]
  exact if_neg (by rw [h1, hst]; decide)

theorem stopMirroring_state (s : State) : s.stopMirroring.now = s.now ∧ s.stopMirroring.shdState = Shd.ended ∧
    s.stopMirroring.fld Reg.VIG_SHD_STATUS F.VIG_SHD_STATUS_CODE = Code.failTimeout ∧ s.stopMirroring.shadow.copies = [] ∧
    (s.stopMirroring.port s.mirrorPort).ctrl = (s.port s.mirrorPort).ctrl ++ [ctrlBody 5 [1]] := by
  let u : State := { s with shadow := { s.shadow with copies := [] } }
  let w := (u.setShd Shd.ended).setFld Reg.VIG_SHD_STATUS F.VIG_SHD_STATUS_CODE Code.failTimeout
  have hne : Reg.VIG_SHD_CTL ≠ Reg.VIG_SHD_STATUS := by decide
  have hmirror : w.mirrorPort = s.mirrorPort := by
    unfold State.mirrorPort
    rw [State.fld_setFld_ne _ _ _ _ hne, State.setShd, State.fld_setFld_ne _ _ _ _ hne]
    exact State.fld_withShadow s _ _ _
  have hstop : s.stopMirroring = w.sendCtrl s.mirrorPort (ctrlBody 5 [1]) :=
    congrArg (fun p => w.sendCtrl p (ctrlBody 5 [1])) hmirror
  rw [hstop]
  refine ⟨?_, ?_, ?_, ?_, ?_⟩
  · rw [State.now_sendCtrl, State.setFld_now, State.setShd, State.setFld_now]
  · rw [State.shdState, State.fld_sendCtrl, State.fld_setFld_apart _ (by decide) (by decide)]
    exact State.shdState_setShd u (by decide)
  · rw [State.fld_sendCtrl, State.fld_setFld_self _ (by decide)]
    rfl
  · rw [State.shadow_sendCtrl, State.setFld_shadow, State.setShd, State.setFld_shadow]
  · rw [State.port_sendCtrl_self, State.port_setFld, State.setShd, State.port_setFld]
    rfl

end
end Sys2Proof.Machine
end

section
/-! SUPPORT. Digests, verdicts, takeover and the end of relaying (R513 to R516). -/
namespace Sys2Proof.Machine

section
variable {s : State}

/-! ## Messages of the mirror port (R382, R513) -/

theorem hearMirror_of_down {port : Nat} (h : s.isUp port = false) (k : Nat) (f : Frame) : s.hearMirror port k f = none := by
  unfold State.hearMirror
  split
  · unfold State.hearCtrl
    rw [hear_of_deaf (Or.inl h)]
  · rfl

theorem heardOnly_of_down {port : Nat} (h : s.isUp port = false) (f : Frame) : s.heardOnly port f = s := by
  unfold State.heardOnly
  rw [hear_of_deaf (Or.inl h)]
  rfl

section
variable {port : Nat} (hp : port < 1024) {fr : Frame}
include hp

theorem exec_mirrorPort_down (h : s.isUp port = false) : exec (.mirrorStop port fr) s = .next s ∧
    exec (.digest port fr) s = .next s ∧ exec (.verdict port fr) s = .next s := by
  have hheard := heardOnly_of_down h fr
  refine ⟨(onUnit_of_ok (decide_eq_true hp) _).trans ?_, (onUnit_of_ok (decide_eq_true hp) _).trans ?_,
    (onUnit_of_ok (decide_eq_true hp) _).trans ?_⟩
  · rw [hearMirror_of_down h]
    exact congrArg _ hheard
  · rw [hearMirror_of_down h]
    exact congrArg _ hheard
  · rw [hearMirror_of_down h]
    exact congrArg _ hheard

variable {u : State} {m : List Byte}

theorem exec_mirrorStop_heard (h : s.hearMirror port 5 fr = some (u, m)) : exec (.mirrorStop port fr) s =
    .next (if leAt m 0 1 = 1 then u.endShadow Code.failTimeout u.tickNow else u) := by
  refine (onUnit_of_ok (decide_eq_true hp) _).trans ?_
  rw [h]

theorem exec_digest_heard (h : s.hearMirror port 3 fr = some (u, m)) : exec (.digest port fr) s = .next
    (if u.shadowing = false then u
     else if leAt m 20 1 = 1 then u.endShadow Code.failStateLost (leAt m 0 8)
     else ({ u with peerDigs := u.peerDigs ++ [⟨leAt m 0 8, leAt m 8 8, leAt m 16 4, u.now⟩] } : State).sweepDigs) := by
  refine (onUnit_of_ok (decide_eq_true hp) _).trans ?_
  rw [h]
  dsimp only
  simp only [Bool.not_eq_true']

/-- A verdict is noted, and while the takeover is decided it is acted on. -/
def State.takeVerdict (s : State) (m : List Byte) : State :=
  let w := { s with shadow := { s.shadow with peer := some (leAt m 4 8, decide (leAt m 0 1 = 1)) } }
  if s.shdState = Shd.deciding then w.resolveTake else w

theorem exec_verdict_heard (h : s.hearMirror port 4 fr = some (u, m)) : exec (.verdict port fr) s =
    .next (if leAt m 4 8 ≠ u.takeTick then u else u.takeVerdict m) := by
  refine (onUnit_of_ok (decide_eq_true hp) _).trans ?_
  rw [h]
  rfl

end

/-! ## Digests are compared (R513, R516) -/

section
variable {q : PeerDig} {d : TickDig} (hd : s.digs.find? (fun y => y.tick = q.tick && y.finalAt.isSome) = some d)
include hd

theorem compareDig_of_found : s.compareDig q =
    (let u := { s with digs := removeOne d s.digs, peerDigs := removeOne q s.peerDigs }
     if d.sum = q.sum ∧ d.launched % 2 ^ 32 = q.count then
       (u.bump Reg.VIG_SHD_STATUS F.VIG_SHD_STATUS_MATCHED 1).setFld Reg.VIG_SHD_LAST F.VIG_SHD_LAST_LAST_TICK q.tick
     else u.endShadow Code.failMismatch q.tick) := by
  unfold State.compareDig
  rw [hd]
  dsimp only
  simp only [Bool.and_eq_true, decide_eq_true_eq]

theorem compareDig_same (hsum : d.sum = q.sum) (hcount : d.launched % 2 ^ 32 = q.count) :
    (s.compareDig q).fld Reg.VIG_SHD_STATUS F.VIG_SHD_STATUS_MATCHED =
      (s.fld Reg.VIG_SHD_STATUS F.VIG_SHD_STATUS_MATCHED + 1) % 2 ^ 32 ∧
    (s.compareDig q).fld Reg.VIG_SHD_LAST F.VIG_SHD_LAST_LAST_TICK = q.tick % 2 ^ 32 := by
  have hne : Reg.VIG_SHD_STATUS ≠ Reg.VIG_SHD_LAST := by decide
  rw [compareDig_of_found hd]
  dsimp only
  rw [if_pos ⟨hsum, hcount⟩]
  refine ⟨(State.fld_setFld_ne _ _ _ _ hne).trans (State.fld_bump_self _ (by decide) _ _), State.fld_setFld_self _ (by decide) _ _⟩

omit hd in
theorem shadowing_withDigs (s : State) (ds : List TickDig) (ps : List PeerDig) :
    State.shadowing { s with digs := ds, peerDigs := ps } = s.shadowing := (rfl)

theorem compareDig_differs (h : s.shadowing = true) (hne : d.sum ≠ q.sum ∨ d.launched % 2 ^ 32 ≠ q.count) :
    (s.compareDig q).shdState = Shd.ended ∧ (s.compareDig q).fld Reg.VIG_SHD_STATUS F.VIG_SHD_STATUS_CODE = Code.failMismatch := by
  rw [compareDig_of_found hd]
  dsimp only
  rw [if_neg (fun h => hne.elim (fun hn => hn h.1) fun hn => hn h.2)]
  obtain ⟨hst, hcode, -⟩ := endShadow_state _ ((shadowing_withDigs s _ _).trans h) (code := Code.failMismatch) (by decide) q.tick
  exact ⟨hst, hcode⟩

end

/-! ## DIGEST_TIMEOUT (R513, R516) -/

section
variable {v : State} (hv : s.sweepDigs = v) {tick : Nat}
include hv

theorem exec_digestTimeout_other (h : v.shadowing = false) : exec (.digestTimeout tick) s = .next v := by
  subst hv
  exact if_pos (by rw [h]; rfl)

variable (h : v.shadowing = true)
include h

theorem exec_digestTimeout_own {q : PeerDig} (hq : v.peerDigs.find? (fun y => y.tick = tick) = some q)
    (hd : v.digs.find? (fun y => y.tick = tick && y.finalAt.isSome) = none) : exec (.digestTimeout tick) s = .next
      (let w := (v.at (q.heard + 100000)).sweepDigs
       if w.peerDigs.contains q then w.endShadow Code.failTimeout tick else w) := by
  subst hv
  refine (if_neg (by rw [h]; decide)).trans ?_
  rw [hq, hd]

theorem exec_digestTimeout_peer {d : TickDig} (hq : v.peerDigs.find? (fun y => y.tick = tick) = none)
    (hd : v.digs.find? (fun y => y.tick = tick && y.finalAt.isSome) = some d) : exec (.digestTimeout tick) s =
      .next ((v.at (d.finalAt.getD 0 + 100000)).endShadow Code.failStateLost tick) := by
  subst hv
  refine (if_neg (by rw [h]; decide)).trans ?_
  rw [hq, hd]

end

/-! ## Dropped packets (R365, R417, R448) -/

/-- Packets that leave change neither the clock's Almanac, what the module has originated, its shadow, nor a register below the
Dampers'. -/
def GoneFrame (s t : State) : Prop :=
  t.alm = s.alm ∧ t.origin = s.origin ∧ t.shadow = s.shadow ∧ ∀ a, a < unitBase 0xF0 5 0 → t.reg a = s.reg a

theorem GoneFrame.refl (s : State) : GoneFrame s s := ⟨rfl, rfl, rfl, fun _ _ => rfl⟩

theorem GoneFrame.trans {t u : State} (h1 : GoneFrame s t) (h2 : GoneFrame t u) : GoneFrame s u := by
  obtain ⟨a1, b1, c1, d1⟩ := h1
  obtain ⟨a2, b2, c2, d2⟩ := h2
  exact ⟨a2.trans a1, b2.trans b1, c2.trans c1, fun a ha => (d2 a ha).trans (d1 a ha)⟩

theorem goneFrame_foldl {α : Type} {f : State → α → State} (h : ∀ t x, GoneFrame t (f t x)) (xs : List α) :
    GoneFrame s (xs.foldl f s) :=
  foldl_keeps (f := f) (fun t => GoneFrame s t) (fun t x ht => ht.trans (h t x)) xs (GoneFrame.refl s)

theorem goneFrame_freeCells (s : State) (f : Flying) : GoneFrame s (s.freeCells f) := by
  unfold State.freeCells
  split
  · exact ⟨rfl, rfl, rfl, fun _ _ => rfl⟩
  · exact GoneFrame.refl s

theorem goneFrame_setFld {a : Nat} (h : unitBase 0xF0 5 0 ≤ a) (s : State) (f : Fld) (v : Nat) : GoneFrame s (s.setFld a f v) :=
  ⟨rfl, rfl, rfl, fun _ hb => State.reg_setFld_ne _ _ _ fun e => Nat.not_lt.2 h (e ▸ hb)⟩

theorem goneFrame_unadmit (s : State) (f : Flying) : GoneFrame s (s.unadmit f) := by
  unfold State.unadmit
  split
  · exact GoneFrame.refl s
  · refine goneFrame_foldl (fun t a => ?_) _
    dsimp only
    split
    · exact goneFrame_setFld (by unfold Reg.DMP_ADMIT_Q; omega) t _ _
    · exact GoneFrame.refl t

theorem goneFrame_dropBuffer (s : State) (l o : Nat) : GoneFrame s (s.dropBuffer l o) := by
  unfold State.dropBuffer
  split
  · split
    · unfold State.removeOwner
      dsimp only
      split <;> exact ⟨rfl, rfl, rfl, fun _ _ => rfl⟩
    · exact GoneFrame.refl s
  · exact GoneFrame.refl s

theorem goneFrame_packetGone (s : State) (f : Flying) : GoneFrame s (s.packetGone f) := by
  unfold State.packetGone
  dsimp only
  have h := (goneFrame_freeCells s f).trans (goneFrame_unadmit _ f)
  split
  · exact h.trans (goneFrame_dropBuffer _ _ _)
  · exact h

theorem goneFrame_dropOrigin (s : State) : s.dropOrigin.origin = [] ∧ s.dropOrigin.shadow = s.shadow ∧
    ∀ a, a < unitBase 0xF0 5 0 → s.dropOrigin.reg a = s.reg a := by
  obtain ⟨-, ho, hs, hr⟩ := goneFrame_foldl (s := { s with origin := [] }) goneFrame_packetGone s.origin
  exact ⟨ho, hs, hr⟩

theorem fld_dropOrigin {a : Nat} (ha : a < unitBase 0xF0 5 0) (s : State) (f : Fld) : s.dropOrigin.fld a f = s.fld a f :=
  congrArg f.get ((goneFrame_dropOrigin s).2.2 a ha)

/-! ## Both verdicts are known (R515) -/

section
variable {own peer : Bool} {k tick alm : Nat} (ho : s.shadow.own = some own) (hpeer : s.shadow.peer = some (k, peer))
  (hj : s.shadow.judged = some (tick, alm))
include ho hpeer hj

/-- The verdicts are taken off the shadow's state. -/
def State.spent (s : State) : State := { s with shadow := { s.shadow with own := none, peer := none } }

/-- The primary relays until RTE_DRAIN after the swap, or without end where SPLIT is set. -/
def State.relay (s : State) (alm : Nat) : State :=
  { (s.setShd Shd.relaying).dropOrigin with
    shadow := { s.shadow with relayEnd := if s.isOn Reg.RTE_MODE F.RTE_MODE_SPLIT then none
                                          else some (alm + s.fld Reg.RTE_DRAIN F.RTE_DRAIN_NS) } }

/-- The shadow stays a shadow. -/
def State.stayShadow (s : State) : State :=
  { (s.setShd Shd.mirroring).dropOrigin with shadow := { s.shadow with returning := true } }

theorem resolveTake_eq : s.resolveTake =
    if (own && peer) = true then
      if s.shdMode = 1 then s.spent.relay alm
      else if s.mstate = MState.shadow then (s.spent.setShd Shd.taken).setMState MState.lit else s.spent
    else if s.shdMode = 2 then s.spent.stayShadow else s.spent.setShd Shd.mirroring := by
  unfold State.resolveTake
  rw [ho, hpeer, hj]
  rfl

end

theorem fld_relay {a : Nat} (ha : a < unitBase 0xF0 5 0) (s : State) (alm : Nat) (f : Fld) :
    (s.relay alm).fld a f = (s.setShd Shd.relaying).fld a f := fld_dropOrigin ha _ f

theorem fld_stayShadow {a : Nat} (ha : a < unitBase 0xF0 5 0) (s : State) (f : Fld) :
    s.stayShadow.fld a f = (s.setShd Shd.mirroring).fld a f := fld_dropOrigin ha _ f

theorem mstate_setShd (s : State) (st : Nat) : (s.setShd st).mstate = s.mstate :=
  State.fld_setFld_ne _ _ _ _ (by decide)

theorem mstate_spent (s : State) : s.spent.mstate = s.mstate := (rfl)

theorem resolveTake_state {own peer : Bool} {k tick alm : Nat} (ho : s.shadow.own = some own) (hpeer : s.shadow.peer = some (k, peer))
    (hj : s.shadow.judged = some (tick, alm)) {r : State} (hr : s.resolveTake = r) :
    (own = true → peer = true → s.shdMode = 1 → r.shdState = Shd.relaying ∧ r.origin = []) ∧
    (own = true → peer = true → s.shdMode ≠ 1 → s.mstate = MState.shadow → r.shdState = Shd.taken ∧ r.mstate = MState.lit) ∧
    (own = false ∨ peer = false → r.shdState = Shd.mirroring ∧ r.mstate = s.mstate ∧
      (s.shdMode = 2 → r.shadow.returning = true ∧ r.origin = [])) := by
  have hstatus : Reg.VIG_SHD_STATUS < unitBase 0xF0 5 0 := by decide
  have hstate : Reg.VIG_STATE < unitBase 0xF0 5 0 := by decide
  rw [resolveTake_eq ho hpeer hj] at hr
  subst hr
  refine ⟨fun h1 h2 hm => ?_, fun h1 h2 hm hsh => ?_, fun h => ?_⟩
  · rw [if_pos (by rw [h1, h2]; rfl), if_pos hm]
    exact ⟨(fld_relay hstatus _ _ _).trans (State.shdState_setShd _ (by decide)), (goneFrame_dropOrigin _).1⟩
  · rw [if_pos (by rw [h1, h2]; rfl), if_neg hm, if_pos hsh]
    exact ⟨(State.fld_setFld_ne _ _ _ _ (by decide)).trans (State.shdState_setShd _ (by decide)), State.fld_setFld_self _ (by decide) _ _⟩
  · rw [if_neg (by rcases h with h | h <;> simp [h])]
    split
    · exact ⟨(fld_stayShadow hstatus _ _).trans (State.shdState_setShd _ (by decide)),
        (fld_stayShadow hstate _ _).trans ((mstate_setShd _ _).trans (mstate_spent s)), fun _ => ⟨rfl, (goneFrame_dropOrigin _).1⟩⟩
    next hm =>
      exact ⟨State.shdState_setShd _ (by decide), (mstate_setShd _ _).trans (mstate_spent s), fun h2 => absurd h2 hm⟩

end
end Sys2Proof.Machine
end

section
/-! SUPPORT. The takeover tick and the end of relaying (R514, R515). -/
namespace Sys2Proof.Machine

section
variable {s : State}

/-! ## TAKEOVER_JUDGE (R514) -/

/-- The takeover tick is to be judged. -/
def takeDue (s : State) : Prop :=
  s.isOn Reg.VIG_SHD_TAKE F.VIG_SHD_TAKE_VALID = true ∧ (∀ y, s.shadow.judged = some y → y.1 ≠ s.takeTick) ∧
    ((s.shdMode = 1 ∧ s.mstate = MState.lit) ∨ s.shadowing = true) ∧ s.shdState = Shd.mirroring

/-- The module has judged the takeover tick and holds its traffic. -/
def State.judging (s : State) (tick : Nat) : State :=
  { s.setShd Shd.deciding with shadow := { s.shadow with judged := some (tick, s.alm), own := some (quiet s tick) } }

/-- The module has judged the takeover tick: it holds its traffic and sends its verdict. -/
def State.judgeTake (s : State) (tick : Nat) : State :=
  (s.judging tick).sendCtrl (s.judging tick).mirrorPort (ctrlBody 4 (leBytes 4 (if quiet s tick then 1 else 0) ++ leBytes 8 tick))

/-- A verdict of an earlier takeover tick is forgotten. -/
def State.forgetPeer (s : State) : State := { s with shadow := { s.shadow with peer := none } }

theorem fld_forgetPeer (s : State) (a : Nat) (f : Fld) : s.forgetPeer.fld a f = s.fld a f := (rfl)

theorem port_forgetPeer (s : State) (p : Nat) : s.forgetPeer.port p = s.port p := (rfl)

theorem shadow_forgetPeer (s : State) : s.forgetPeer.shadow = { s.shadow with peer := none } := rfl

theorem fld_judging (s : State) (tick a : Nat) (f : Fld) : (s.judging tick).fld a f = (s.setShd Shd.deciding).fld a f :=
  State.fld_withShadow _ _ _ _

theorem shadow_judging (s : State) (tick : Nat) :
    (s.judging tick).shadow = { s.shadow with judged := some (tick, s.alm), own := some (quiet s tick) } := rfl

/-- The takeover tick has been judged already. -/
def takeJudged (s : State) : Bool := s.shadow.judged.any fun y => y.1 = s.takeTick

theorem takeJudged_eq_false (s : State) : takeJudged s = false ↔ ∀ y, s.shadow.judged = some y → y.1 ≠ s.takeTick := by
  unfold takeJudged
  cases s.shadow.judged with
  | none => simp
  | some y => simp

theorem exec_takeoverJudge (s : State) : exec .takeoverJudge s =
    if !s.isOn Reg.VIG_SHD_TAKE F.VIG_SHD_TAKE_VALID || takeJudged s ||
        !((s.shdMode = 1 && s.mstate = MState.lit) || s.shadowing) || s.shdState ≠ Shd.mirroring then .next s
    else
      let b := (s.atAlm (tickAt s s.takeTick)).sweepDigs
      if b.shdState ≠ Shd.mirroring then .next b
      else
        let w := b.judgeTake s.takeTick
        .next (if w.shadow.peer.any (fun v => v.1 == s.takeTick) then w.resolveTake else w.forgetPeer) := by
  show execTakeoverJudge s = _
  unfold execTakeoverJudge takeJudged
  cases s.shadow.judged with
  | none => rfl
  | some y => rfl

theorem takeDue_iff (s : State) : takeDue s ↔ ¬ (!s.isOn Reg.VIG_SHD_TAKE F.VIG_SHD_TAKE_VALID || takeJudged s ||
    !((s.shdMode = 1 && s.mstate = MState.lit) || s.shadowing) || s.shdState ≠ Shd.mirroring) = true := by
  rw [takeDue, ← takeJudged_eq_false]
  simp only [Bool.or_eq_true, Bool.not_eq_true', decide_eq_true_eq, not_or, Bool.not_eq_false, Bool.not_eq_true, Bool.and_eq_true,
    Classical.not_not, and_assoc]

theorem judgeTake_state (s : State) (tick : Nat) : (s.judgeTake tick).shdState = Shd.deciding ∧
    (s.judgeTake tick).shadow = { s.shadow with judged := some (tick, s.alm), own := some (quiet s tick) } ∧
    ctrlBody 4 (leBytes 4 (if quiet s tick then 1 else 0) ++ leBytes 8 tick) ∈ ((s.judgeTake tick).port s.mirrorPort).ctrl := by
  have hne : Reg.VIG_SHD_CTL ≠ Reg.VIG_SHD_STATUS := by decide
  have hmirror : (s.judging tick).mirrorPort = s.mirrorPort := by
    unfold State.mirrorPort
    rw [fld_judging, State.setShd, State.fld_setFld_ne _ _ _ _ hne]
  unfold State.judgeTake
  rw [hmirror]
  refine ⟨?_, ?_, ?_⟩
  · rw [State.shdState, State.fld_sendCtrl, fld_judging]
    exact State.shdState_setShd s (by decide)
  · rw [State.shadow_sendCtrl, shadow_judging]
  · rw [State.port_sendCtrl_self]
    exact List.mem_append_right _ (List.mem_singleton.2 rfl)

/-! ## VERDICT_TIMEOUT and RELAY_END (R514, R515) -/

theorem exec_verdictTimeout_judged {tick alm : Nat} (hj : s.shadow.judged = some (tick, alm)) : exec .verdictTimeout s = .next
    (let w := s.atAlm (alm + 2000)
     if s.shdState = Shd.deciding then { w with shadow := { w.shadow with peer := some (tick, false) } }.resolveTake else s) := by
  show execVerdictTimeout s = _
  unfold execVerdictTimeout
  rw [hj]
  dsimp only
  by_cases hst : s.shdState = Shd.deciding
  · rw [if_neg (not_not_intro hst), if_pos hst]
  · rw [if_pos hst, if_neg hst]

theorem exec_relayEnd_idle (h : s.shdMode ≠ 1 ∨ s.shdState ≠ Shd.relaying ∨ s.mstate ≠ MState.lit ∨ s.shadow.relayEnd = none) :
    exec .relayEnd s = .next s := by
  show execRelayEnd s = _
  unfold execRelayEnd
  split
  next a ha =>
    refine if_neg fun hall => ?_
    simp only [Bool.and_eq_true, decide_eq_true_eq] at hall
    obtain ⟨⟨hm, hst⟩, hlit⟩ := hall
    rcases h with h | h | h | h
    · exact h hm
    · exact h hst
    · exact h hlit
    · exact absurd (ha.symm.trans h) (by simp)
  next => rfl

theorem exec_relayEnd_due {alm : Nat} (ha : s.shadow.relayEnd = some alm) (hm : s.shdMode = 1) (hst : s.shdState = Shd.relaying)
    (hlit : s.mstate = MState.lit) : exec .relayEnd s = .next (s.atAlm alm).endRelay := by
  show execRelayEnd s = _
  unfold execRelayEnd
  rw [ha]
  exact if_pos (by rw [hm, hst, hlit]; decide)

theorem LogOnly.alm {t : State} (h : LogOnly s t) : t.alm = s.alm := by
  have e : t = s.withLog t := h
  exact (congrArg State.alm e).trans rfl

theorem State.alm_stopAll (s : State) : s.stopAll.alm = s.alm := rfl

/-- A job that has begun ends with FAIL_ABORTED. -/
def State.endJob (s : State) : State :=
  if s.fld Reg.ALM_JOB_STATUS F.ALM_JOB_STATUS_PHASE = 5 then s.setPhase 7 Code.failAborted else s

theorem endJob_frame (s : State) : s.endJob.alm = s.alm ∧
    ∀ a, ¬ ashReg a → a ≠ Reg.VIG_REC_CTL → a ≠ Reg.ALM_JOB_STATUS → s.endJob.reg a = s.reg a := by
  unfold State.endJob
  split
  · exact ⟨(logOnly_setPhase s _ _).alm, fun a ha hr hj => State.reg_setPhase_ashReg s ha hr hj _ _⟩
  · exact ⟨rfl, fun _ _ _ _ => rfl⟩

theorem enterDamped_eq (s : State) : s.enterDamped = (s.setMState MState.damped).stopAll.endJob := rfl

theorem enterDamped_frame (s : State) : s.enterDamped.alm = s.alm ∧ s.enterDamped.mstate = MState.damped ∧
    ∀ a, ¬ ashReg a → a ≠ Reg.VIG_REC_CTL → a ≠ Reg.ALM_JOB_STATUS → a ≠ Reg.VIG_STATE → s.enterDamped.reg a = s.reg a := by
  obtain ⟨-, -, -, hstate⟩ := shdRegs
  obtain ⟨halm, hreg⟩ := endJob_frame (s.setMState MState.damped).stopAll
  rw [enterDamped_eq]
  refine ⟨?_, ?_, fun a ha hr hj hs => ?_⟩
  · rw [halm, State.alm_stopAll, State.setMState, State.setFld_alm]
  · rw [State.mstate, State.fld, hreg _ hstate (by decide) (by decide), State.reg_stopAll]
    exact State.fld_setFld_self _ (by decide) _ _
  · rw [hreg a ha hr hj, State.reg_stopAll, State.setMState, State.reg_setFld_ne _ _ _ hs]

/-- MODE is 0 and the relay has ended. -/
def State.modeOff (s : State) : State := (s.setShd Shd.ended).setFld Reg.VIG_SHD_CTL F.VIG_SHD_CTL_MODE 0

theorem endRelay_eq (s : State) : s.endRelay =
    { (s.modeOff.shadow.copies.foldl State.packetGone s.modeOff).enterDamped with shadow := Shadow.none } := rfl

theorem modeOff_state (s : State) : s.modeOff.shdMode = 0 ∧ s.modeOff.shdState = Shd.ended ∧ s.modeOff.alm = s.alm := by
  unfold State.modeOff
  refine ⟨?_, ?_, ?_⟩
  · rw [State.shdMode, State.fld_setFld_self _ (by decide)]
    rfl
  · rw [State.shdState, State.fld_setFld_ne _ _ _ _ (by decide)]
    exact State.shdState_setShd s (by decide)
  · rw [State.setFld_alm, State.setShd, State.setFld_alm]

theorem State.alm_withShadow (s : State) (x : Shadow) : State.alm { s with shadow := x } = s.alm := rfl

theorem endRelay_state (s : State) : s.endRelay.mstate = MState.damped ∧ s.endRelay.shdMode = 0 ∧ s.endRelay.shdState = Shd.ended ∧
    s.endRelay.shadow = Shadow.none ∧ s.endRelay.alm = s.alm := by
  obtain ⟨hctl, hstatus, -, -⟩ := shdRegs
  obtain ⟨hmode, hst, halm⟩ := modeOff_state s
  obtain ⟨ga, -, -, gr⟩ := goneFrame_foldl (s := s.modeOff) goneFrame_packetGone s.modeOff.shadow.copies
  rw [endRelay_eq]
  generalize s.modeOff.shadow.copies.foldl State.packetGone s.modeOff = w at ga gr
  obtain ⟨da, dm, dr⟩ := enterDamped_frame w
  have h1 := (dr _ hctl (by decide) (by decide) (by decide)).trans (gr _ (by decide))
  have h2 := (dr _ hstatus (by decide) (by decide) (by decide)).trans (gr _ (by decide))
  generalize w.enterDamped = t at da dm h1 h2
  refine ⟨?_, ?_, ?_, rfl, ?_⟩
  · rw [State.mstate, State.fld_withShadow]
    exact dm
  · rw [State.shdMode, State.fld_withShadow]
    exact (congrArg F.VIG_SHD_CTL_MODE.get h1).trans hmode
  · rw [State.shdState, State.fld_withShadow]
    exact (congrArg F.VIG_SHD_STATUS_STATE.get h2).trans hst
  · rw [State.alm_withShadow, da, ga, halm]

end

/-- Settles O53, command by command, in the order of R510 to R516. -/
theorem shadowing : Obligations.Shadowing := by
  unfold Obligations.Shadowing
  intro s u p f rest port code tick alm fr m d q own peer k mirror x over_ v take b due r hp hc
  refine ⟨exec_mirrorPacket_shadow p, exec_mirrorPacket_other p, fun hcopies h1 hst => ?_, exec_mirrorHoldTimeout_idle,
    fun h => endShadow_state s h hc tick, fun h => endShadow_other s h code tick, exec_mirrorStop_heard hp, fun h => ?_,
    exec_mirrorPort_down hp, fun hd => ⟨compareDig_same hd, compareDig_differs hd⟩, exec_digestTimeout_other rfl,
    fun h => ⟨exec_digestTimeout_own rfl h, exec_digestTimeout_peer rfl h⟩, fun hdue hst hpeer => ?_, fun hdue hst => ?_,
    fun hno => ?_, fun ho hpeer hj => resolveTake_state ho hpeer hj rfl, fun h => ?_, exec_verdictTimeout_judged,
    fun ha hm hst hlit => ?_, exec_relayEnd_idle⟩
  · let w := s.at (f.since + s.fld Reg.VIG_SHD_HOLD F.VIG_SHD_HOLD_NS)
    obtain ⟨hnow, hshd, hcode, hgone, hctrl⟩ := stopMirroring_state w
    refine ⟨_, exec_mirrorHoldTimeout_mirroring hcopies h1 hst, hnow.trans (State.now_at _), hshd, hcode, hgone, ?_⟩
    have hmirror : w.mirrorPort = mirror := State.fld_at s _ _ _
    rw [hmirror, State.port_at] at hctrl
    exact hctrl
  · have hexec := exec_digest_heard hp h
    refine ⟨fun hs => hexec.trans (by rw [if_pos hs]), fun hs hbad => hexec.trans ?_, fun hs hgood => hexec.trans ?_⟩
    · rw [if_neg (ne_false_of_eq_true hs), if_pos hbad]
    · rw [if_neg (ne_false_of_eq_true hs), if_neg hgood]
  · obtain ⟨hshd, hshadow, hctrl⟩ := judgeTake_state b take
    have hlate : ¬ ((b.judgeTake take).shadow.peer.any fun v => v.1 == take) = true := by
      rw [hshadow]
      cases hb : b.shadow.peer with
      | none => simp
      | some y => simpa using hpeer y hb
    have hexec := exec_takeoverJudge s
    rw [if_neg ((takeDue_iff s).1 hdue)] at hexec
    dsimp only at hexec
    rw [if_neg (not_not_intro hst), if_neg hlate] at hexec
    refine ⟨_, hexec, ?_, ?_, ?_, ?_⟩
    · rw [State.shdState, fld_forgetPeer]
      exact hshd
    · rw [shadow_forgetPeer, hshadow]
    · rw [shadow_forgetPeer, hshadow]
    · rw [port_forgetPeer]
      exact hctrl
  · have hexec := exec_takeoverJudge s
    rw [if_neg ((takeDue_iff s).1 hdue)] at hexec
    dsimp only at hexec
    rw [if_pos hst] at hexec
    exact hexec
  · have hexec := exec_takeoverJudge s
    rw [if_pos (Classical.not_not.1 (mt (takeDue_iff s).2 hno))] at hexec
    exact hexec
  · have hexec := exec_verdict_heard hp h
    refine ⟨fun hne => hexec.trans (by rw [if_pos hne]), fun heq => hexec.trans ?_⟩
    rw [if_neg (not_not_intro heq)]
    rfl
  · obtain ⟨hm', hmode, hshd, hnone, halm⟩ := endRelay_state (s.atAlm alm)
    exact ⟨_, exec_relayEnd_due ha hm hst hlit, hm', hmode, hshd, hnone, halm.trans (State.alm_atAlm _)⟩

end Sys2Proof.Machine
end

section
/-! SUPPORT. What supply and thermal samples leave unchanged, and what the power-down sequence keeps (R574 to R578, R582, R587 to
R591, R593). -/
namespace Sys2Proof.Machine

/-- The addresses of the registers that no flag, count or detection of the power block writes. -/
def quietReg (a : Nat) : Prop := ¬ ashReg a ∧ a ≠ Reg.PWR_STATUS ∧ (a < Reg.PWR_EVENTS 0 ∨ Reg.PWR_EVENTS 8 ≤ a)

/-- The state with the registers, the Ashpit, the lifetime counters and the power unit as they are elsewhere. -/
def State.withPwr (s g : State) : State :=
  { s with regs := g.regs, ash := g.ash, reports := g.reports, reported := g.reported, life := g.life, power := g.power }

/-- The second state differs from the first in the flags and counts of the power block, the Ashpit, the lifetime counters and the
times of the power unit alone. -/
def PwrFrame (s t : State) : Prop :=
  t = s.withPwr t ∧ t.power.samples = s.power.samples ∧ t.power.almMoved = s.power.almMoved ∧ ∀ a, quietReg a → t.reg a = s.reg a

section
variable {s t u : State}

theorem PwrFrame.refl (s : State) : PwrFrame s s := ⟨rfl, rfl, rfl, fun _ _ => rfl⟩

theorem PwrFrame.trans (h1 : PwrFrame s t) (h2 : PwrFrame t u) : PwrFrame s u := by
  obtain ⟨e1, a1, b1, c1⟩ := h1
  obtain ⟨e2, a2, b2, c2⟩ := h2
  have h : t.withPwr u = s.withPwr u := by
    rw [e1]
    rfl
  exact ⟨e2.trans h, a2.trans a1, b2.trans b1, fun a ha => (c2 a ha).trans (c1 a ha)⟩

theorem PwrFrame.now (h : PwrFrame s t) : t.now = s.now := (congrArg State.now h.1).trans rfl
theorem PwrFrame.alm (h : PwrFrame s t) : t.alm = s.alm := (congrArg State.alm h.1).trans rfl
theorem PwrFrame.cores (h : PwrFrame s t) : t.cores = s.cores := (congrArg State.cores h.1).trans rfl
theorem PwrFrame.hearth (h : PwrFrame s t) : t.hearth = s.hearth := (congrArg State.hearth h.1).trans rfl
theorem PwrFrame.lifeKept (h : PwrFrame s t) : t.lifeKept = s.lifeKept := (congrArg State.lifeKept h.1).trans rfl

theorem PwrFrame.fld (h : PwrFrame s t) {a : Nat} (ha : quietReg a) (f : Fld) : t.fld a f = s.fld a f :=
  congrArg f.get (h.2.2.2 a ha)

theorem quietReg_state : quietReg Reg.VIG_STATE := by
  unfold quietReg ashReg
  decide

theorem PwrFrame.mstate (h : PwrFrame s t) : t.mstate = s.mstate := h.fld quietReg_state _

theorem PwrFrame.lifeStamp (h : PwrFrame s t) : t.lifeStamp = s.lifeStamp := by
  obtain ⟨-, -, hmoved, -⟩ := id h
  rw [State.lifeStamp, State.lifeStamp, h.alm, hmoved]

variable (s)

theorem pwrFrame_foldl {α : Type} {f : State → α → State} (h : ∀ t x, PwrFrame t (f t x)) (xs : List α) :
    PwrFrame s (xs.foldl f s) :=
  foldl_keeps (f := f) (fun t => PwrFrame s t) (fun t x ht => ht.trans (h t x)) xs (PwrFrame.refl s)

theorem pwrFrame_setFld {a : Nat} (h : ¬ quietReg a) (f : Fld) (v : Nat) : PwrFrame s (s.setFld a f v) :=
  ⟨rfl, rfl, rfl, fun _ hb => State.reg_setFld_ne _ _ _ fun e => h (e ▸ hb)⟩

theorem pwrFrame_lifeAdd (w n : Nat) : PwrFrame s (s.lifeAdd w n) := ⟨rfl, rfl, rfl, fun _ _ => State.lifeAdd_reg _ _ _ _⟩

theorem pwrFrame_setLife (w n : Nat) : PwrFrame s (s.setLife w n) := ⟨rfl, rfl, rfl, fun _ _ => rfl⟩

theorem pwrFrame_pwrFlag {f : Fld} (hf : f.lo < 8) : PwrFrame s (s.pwrFlag f) := by
  have hstatus : ¬ quietReg Reg.PWR_STATUS := fun h => h.2.1 rfl
  have hevents : ¬ quietReg (Reg.PWR_EVENTS f.lo) := by
    unfold quietReg Reg.PWR_EVENTS
    omega
  exact (pwrFrame_setFld s hstatus f 1).trans (pwrFrame_setFld _ hevents _ _)

theorem LogOnly.withPwr {t : State} (h : LogOnly s t) : t = s.withPwr t := by
  have e : t = s.withLog t := h
  calc t = s.withLog t := e
    _ = s.withPwr (s.withLog t) := rfl
    _ = s.withPwr t := by rw [← e]

theorem LogOnly.power {t : State} (h : LogOnly s t) : t.power = s.power := by
  have e : t = s.withLog t := h
  exact (congrArg State.power e).trans rfl

theorem pwrFrame_logSupply (code site : Nat) (details : List Nat) : PwrFrame s (s.logSupply code site details) := by
  have h := logOnly_logAt s AClass.supply code site (if site = 0xF0 then 6 else 0) 0 details
  exact ⟨LogOnly.withPwr s h, congrArg Power.samples (LogOnly.power s h), congrArg Power.almMoved (LogOnly.power s h),
    fun _ ha => State.reg_logAt_ashReg s ha.1 ..⟩

/-! ## Conditions that must hold for a time -/

/-- The times of the power unit's conditions set. -/
def State.setHolds (s : State) (m : AMap Nat) : State := { s with power := { s.power with holds := m } }

theorem holding_eq (k dur : Nat) (c : Bool) : (s.holding k dur c).2 = s.setHolds (s.holding k dur c).2.power.holds := by
  unfold State.holding
  dsimp only
  split
  · rfl
  · split
    · rfl
    · split <;> rfl

theorem pwrFrame_setHolds (m : AMap Nat) : PwrFrame s (s.setHolds m) := ⟨rfl, rfl, rfl, fun _ _ => rfl⟩

theorem pwrFrame_holding (k dur : Nat) (c : Bool) : PwrFrame s (s.holding k dur c).2 := by
  rw [holding_eq]
  exact pwrFrame_setHolds s _

theorem holding_false (k dur : Nat) : (s.holding k dur false).1 = false := rfl

theorem heldSince_setHolds_set (k v j : Nat) :
    (s.setHolds (AMap.set s.power.holds 0 k v)).heldSince j = if j = k then v else s.heldSince j := AMap.get_set ..

theorem heldSince_setHolds_set2 {k j : Nat} (h : j ≠ k) (v w : Nat) :
    (s.setHolds (AMap.set (AMap.set s.power.holds 0 k v) 0 j w)).heldSince k = v := by
  refine (AMap.get_set ..).trans ?_
  rw [if_neg (Ne.symm h)]
  exact (AMap.get_set ..).trans (if_pos rfl)

variable (k dur : Nat)

theorem holding_not : (s.holding k dur false).1 = false ∧ (s.holding k dur false).2.heldSince k = 0 :=
  ⟨rfl, heldSince_setHolds_set2 s (by omega) 0 0⟩

theorem holding_begins (h : s.heldSince k = 0) : (s.holding k dur true).1 = decide (dur = 0) ∧
    (s.holding k dur true).2.heldSince k = s.now + 1 := by
  unfold State.holding
  dsimp only
  rw [if_neg (by decide), if_pos h]
  exact ⟨rfl, heldSince_setHolds_set2 s (by omega) _ _⟩

theorem holding_holds {t0 : Nat} (h : s.heldSince k = t0 + 1) : (s.holding k dur true).1 =
    decide (t0 + dur ≤ s.now ∧ s.heldSince (2 ^ 32 + k) = 0) := by
  have hcond : (decide (t0 + 1 + dur ≤ s.now + 1) && decide (s.heldSince (2 ^ 32 + k) = 0)) =
      decide (t0 + dur ≤ s.now ∧ s.heldSince (2 ^ 32 + k) = 0) := by
    rw [Bool.decide_and]
    congr 1
    exact decide_eq_decide.2 (by omega)
  unfold State.holding
  dsimp only
  rw [if_neg (by decide), h, if_neg (by omega), ← hcond]
  split
  next hyes => exact hyes.symm
  next hno => exact (eq_false_of_ne_true hno).symm

/-! ## Seconds of operation (R590, R591) -/

theorem pwrFrame_withPower {p : Power} (hs : p.samples = s.power.samples) (hm : p.almMoved = s.power.almMoved) :
    PwrFrame s { s with power := p } := ⟨rfl, hs, hm, fun _ _ => rfl⟩

/-- `n` more seconds of operation are counted. -/
def State.addSeconds (s : State) (n : Nat) : State :=
  let w := { s with power := { s.power with countedTo := s.power.countedTo + n * 1000000000, hotSecond := false } }
  ((w.lifeAdd 2 n).lifeAdd (tempWord (hottestDie w)) n).lifeAdd 15 (if s.power.hotSecond || anyHeld s then n else 0)

theorem countSeconds_cold (hm : s.mstate = MState.cold) :
    s.countSeconds = { s with power := { s.power with countedTo := s.now, hotSecond := false } } := if_pos hm

theorem countSeconds_running (hm : s.mstate ≠ MState.cold) {n : Nat} (hn : (s.now - s.power.countedTo) / 1000000000 = n) :
    s.countSeconds = if n = 0 then s
      else if s.lifeWord 2 < ratedLife && ratedLife ≤ (s.addSeconds n).lifeWord 2 then
        ((s.addSeconds n).pwrFlag F.PWR_STATUS_LIFE_END_SEEN).logSupply Code.done 0xF0 []
      else s.addSeconds n := by
  refine (if_neg hm).trans ?_
  rw [hn]
  rfl

theorem PwrFrame.lifeAdd {t : State} (h : PwrFrame s t) (w n : Nat) : PwrFrame s (t.lifeAdd w n) := h.trans (pwrFrame_lifeAdd t w n)

theorem pwrFrame_addSeconds (n : Nat) : PwrFrame s (s.addSeconds n) := by
  unfold State.addSeconds
  dsimp only
  refine PwrFrame.lifeAdd s (PwrFrame.lifeAdd s (PwrFrame.lifeAdd s ?_ _ _) _ _) _ _
  exact pwrFrame_withPower s rfl rfl

theorem pwrFrame_countSeconds : PwrFrame s s.countSeconds := by
  by_cases hm : s.mstate = MState.cold
  · rw [countSeconds_cold s hm]
    exact pwrFrame_withPower s rfl rfl
  · rw [countSeconds_running s hm rfl]
    split
    · exact PwrFrame.refl s
    · split
      · exact ((pwrFrame_addSeconds s _).trans (pwrFrame_pwrFlag _ (by decide))).trans (pwrFrame_logSupply _ _ _ _)
      · exact pwrFrame_addSeconds s _

theorem lifeWord_lifeAdd (w n j : Nat) : (s.lifeAdd w n).lifeWord j = if j = w then satAdd 64 (s.lifeWord w) n else s.lifeWord j :=
  AMap.get_set ..

theorem tempWord_ne_two (t : Int) : tempWord t ≠ 2 := by
  unfold tempWord
  split
  · decide
  · split
    · decide
    · split
      · decide
      · split <;> decide

theorem LogOnly.lifeWord {t : State} (h : LogOnly s t) (w : Nat) : t.lifeWord w = s.lifeWord w := by
  have e : t = s.withLog t := h
  exact (congrArg (fun x : State => AMap.get x.life 0 w) e).trans rfl

theorem LogOnly.of_pwrFlag (f : Fld) : LogOnly s (s.pwrFlag f) := (logOnly_flag s _ _).trans (logOnly_count _ _ _ _)

theorem lifeWord_withPower (p : Power) (w : Nat) : State.lifeWord { s with power := p } w = s.lifeWord w := rfl

theorem lifeWord_addSeconds (n : Nat) : (s.addSeconds n).lifeWord 2 = satAdd 64 (s.lifeWord 2) n := by
  unfold State.addSeconds
  dsimp only
  rw [lifeWord_lifeAdd, if_neg (by decide), lifeWord_lifeAdd, if_neg (tempWord_ne_two _).symm, lifeWord_lifeAdd, if_pos rfl,
    lifeWord_withPower]

theorem lifeWord_countSeconds (hm : s.mstate ≠ MState.cold) {n : Nat} (hn : (s.now - s.power.countedTo) / 1000000000 = n)
    (h : n ≠ 0) : s.countSeconds.lifeWord 2 = satAdd 64 (s.lifeWord 2) n := by
  rw [countSeconds_running s hm hn, if_neg h, ← lifeWord_addSeconds]
  split
  · exact LogOnly.lifeWord _ ((LogOnly.of_pwrFlag _ _).trans (logOnly_logAt _ _ _ _ _ _ _)) 2
  · rfl

end
end Sys2Proof.Machine
end

section
/-! SUPPORT. Power-down, supply faults, and the supply's and the coolant's samples (R574 to R578, R581, R593). -/
namespace Sys2Proof.Machine

/-- The fields of a word built of three fields that do not overlap. -/
theorem get_wordOf_three {f g h : Fld} (hfits : f.fits ∧ g.fits ∧ h.fits)
    (hapart : f.apart g ∧ f.apart h ∧ g.apart f ∧ g.apart h ∧ h.apart f ∧ h.apart g) (x y z : Nat) :
    f.get (wordOf [(f, x), (g, y), (h, z)]) = x % 2 ^ (f.hi + 1 - f.lo) ∧
    g.get (wordOf [(f, x), (g, y), (h, z)]) = y % 2 ^ (g.hi + 1 - g.lo) ∧
    h.get (wordOf [(f, x), (g, y), (h, z)]) = z % 2 ^ (h.hi + 1 - h.lo) := by
  obtain ⟨hf, hg, hh⟩ := hfits
  obtain ⟨fg, fh, gf, gh, hf', hg'⟩ := hapart
  have none : ∀ p ∈ ([] : List (Fld × Nat)), p.1.fits ∧ p.1.apart h := fun _ hp => absurd hp List.not_mem_nil
  have one : ∀ p ∈ [(h, z)], p.1.fits ∧ p.1.apart g := List.forall_mem_cons.2 ⟨⟨hh, hg'⟩, fun _ hp => absurd hp List.not_mem_nil⟩
  have two : ∀ p ∈ [(g, y), (h, z)], p.1.fits ∧ p.1.apart f :=
    List.forall_mem_cons.2 ⟨⟨hg, gf⟩, List.forall_mem_cons.2 ⟨⟨hh, hf'⟩, fun _ hp => absurd hp List.not_mem_nil⟩⟩
  refine ⟨get_wordOf_head hf x two, ?_, ?_⟩
  · rw [get_wordOf_tail hf fg, get_wordOf_head hg y one]
  · rw [get_wordOf_tail hf fh, get_wordOf_tail hg gh, get_wordOf_head hh z none]

section
variable (s : State)

/-! ## The power-down sequence (R577) -/

/-- Everything but the islands is lost, and the module is COLD. -/
def State.darkened (s : State) : State := s.countSeconds.wiped.setMState MState.cold

/-- The power unit as the sequence leaves it. -/
def Power.dark (p : Power) (triggers : Nat) : Power := { p with triggers := triggers, holds := [] }

theorem goCold_eq (n : Nat) : s.goCold n = State.commitLife { s.darkened with power := s.darkened.power.dark n } := rfl

theorem reg_commitLife (a : Nat) : s.commitLife.reg a = s.reg a := (rfl)

theorem commitLife_parts : s.commitLife.now = s.now ∧ s.commitLife.cores = s.cores ∧ s.commitLife.hearth = s.hearth ∧
    s.commitLife.power = s.power := ⟨rfl, rfl, rfl, rfl⟩

theorem reg_withPower (p : Power) (a : Nat) : State.reg { s with power := p } a = s.reg a := (rfl)

theorem reg_wiped {a : Nat} (h : islandReg a = true) : s.wiped.reg a = s.reg a :=
  AMap.get_filter (p := fun x => islandReg x.1) fun _ => h

theorem reg_darkened {a : Nat} (hq : quietReg a) (hi : islandReg a = true) (hne : a ≠ Reg.VIG_STATE) :
    s.darkened.reg a = s.reg a := by
  unfold State.darkened State.setMState
  rw [State.reg_setFld_ne _ _ _ hne, reg_wiped _ hi]
  exact (pwrFrame_countSeconds s).2.2.2 a hq

theorem mstate_darkened : s.darkened.mstate = MState.cold := by
  unfold State.darkened State.setMState
  rw [State.mstate, State.fld_setFld_self _ (by decide)]
  rfl

theorem darkened_parts : s.darkened.now = s.now ∧ s.darkened.cores = [] ∧ s.darkened.hearth = [] ∧
    s.darkened.power.samples = s.power.samples := by
  have h := pwrFrame_countSeconds s
  obtain ⟨-, hsamples, -⟩ := id h
  unfold State.darkened State.setMState
  refine ⟨?_, ?_, ?_, ?_⟩
  · rw [State.setFld_now]
    exact h.now
  · rw [State.setFld_cores]
    rfl
  · rw [State.setFld_hearth]
    rfl
  · rw [State.setFld_power]
    exact hsamples

theorem reg_goCold {a : Nat} (hq : quietReg a) (hi : islandReg a = true) (hne : a ≠ Reg.VIG_STATE) (n : Nat) :
    (s.goCold n).reg a = s.reg a := by
  rw [goCold_eq, reg_commitLife, reg_withPower]
  exact reg_darkened s hq hi hne

theorem goCold_state (n : Nat) : (s.goCold n).now = s.now ∧ (s.goCold n).mstate = MState.cold ∧ (s.goCold n).cores = [] ∧
    (s.goCold n).hearth = [] ∧ (s.goCold n).power.samples = s.power.samples ∧ (s.goCold n).power.triggers = n := by
  obtain ⟨hnow, hcores, hhearth, hsamples⟩ := darkened_parts s
  have hm := mstate_darkened s
  rw [goCold_eq]
  obtain ⟨cnow, ccores, chearth, cpower⟩ := commitLife_parts { s.darkened with power := s.darkened.power.dark n }
  refine ⟨cnow.trans hnow, ?_, ccores.trans hcores, chearth.trans hhearth, ?_, ?_⟩
  · rw [State.mstate, State.fld, reg_commitLife, reg_withPower]
    exact hm
  · rw [cpower]
    exact hsamples
  · rw [cpower]
    rfl

/-! ## Supply faults (R575, R578) -/

theorem pwrFrame_noteFault (f : SupplyFault) : PwrFrame s (s.noteFault f) := by
  have h := (pwrFrame_logSupply s Code.done f.site (if f.cause ≤ 3 then [f.pair, f.reading] else [])).lifeAdd s 16 1
  unfold State.noteFault
  dsimp only
  split
  · exact h.lifeAdd s 17 1
  · exact h

/-- The word of PWR_LAST_FAULT for a fault. -/
def SupplyFault.word (f : SupplyFault) : Word :=
  wordOf [(F.PWR_LAST_FAULT_CAUSE, f.cause), (F.PWR_LAST_FAULT_SITE, f.site), (F.PWR_LAST_FAULT_PAIR, f.pair)]

/-- The bit mask of the causes of faults. -/
def faultMask (fs : List SupplyFault) : Nat := sumNat ((fs.map SupplyFault.cause).eraseDups.map fun c => 2 ^ c)

theorem supplyFaults_nil : s.supplyFaults [] = s := rfl

theorem supplyFaults_cold (h : s.mstate = MState.cold) (fs : List SupplyFault) : s.supplyFaults fs = s := by
  cases fs with
  | nil => rfl
  | cons f fs => exact if_pos h

theorem supplyFaults_cons (h : s.mstate ≠ MState.cold) (f : SupplyFault) (fs : List SupplyFault) : s.supplyFaults (f :: fs) =
    (((f :: fs).foldl State.noteFault s).setReg Reg.PWR_LAST_FAULT f.word).goCold (faultMask (f :: fs)) := if_neg h

theorem islandReg_pair : ∀ p, p < 4 → islandReg (Reg.PWR_PAIR p) = true := by decide

theorem islandRegs : islandReg Reg.PWR_LAST_FAULT = true ∧ islandReg Reg.PWR_COOLANT = true := by decide

theorem quietRegs : quietReg Reg.PWR_LAST_FAULT ∧ quietReg Reg.PWR_COOLANT := by
  unfold quietReg ashReg
  decide

theorem supplyFaults_state (h : s.mstate ≠ MState.cold) {f : SupplyFault} (hc : f.cause < 256) (hs : f.site < 256) (hp : f.pair < 4)
    (fs : List SupplyFault) {u : State} (hu : s.supplyFaults (f :: fs) = u) : u.mstate = MState.cold ∧
      u.fld Reg.PWR_LAST_FAULT F.PWR_LAST_FAULT_CAUSE = f.cause ∧ u.fld Reg.PWR_LAST_FAULT F.PWR_LAST_FAULT_SITE = f.site ∧
      u.fld Reg.PWR_LAST_FAULT F.PWR_LAST_FAULT_PAIR = f.pair ∧ (fs = [] → u.power.triggers = 2 ^ f.cause) ∧ u.cores = [] ∧
      u.hearth = [] := by
  rw [supplyFaults_cons s h] at hu
  subst hu
  generalize hw : ((f :: fs).foldl State.noteFault s).setReg Reg.PWR_LAST_FAULT f.word = w
  obtain ⟨-, hm, hcores, hhearth, -, htriggers⟩ := goCold_state w (faultMask (f :: fs))
  have hreg : (w.goCold (faultMask (f :: fs))).reg Reg.PWR_LAST_FAULT = f.word := by
    rw [reg_goCold w quietRegs.1 islandRegs.1 (by decide), ← hw, State.reg_setReg_self]
  obtain ⟨gc, gs, gp⟩ := get_wordOf_three (f := F.PWR_LAST_FAULT_CAUSE) (g := F.PWR_LAST_FAULT_SITE) (h := F.PWR_LAST_FAULT_PAIR)
    (by decide) (by decide) f.cause f.site f.pair
  refine ⟨hm, ?_, ?_, ?_, fun hnil => ?_, hcores, hhearth⟩
  · exact (congrArg F.PWR_LAST_FAULT_CAUSE.get hreg).trans (gc.trans (Nat.mod_eq_of_lt hc))
  · exact (congrArg F.PWR_LAST_FAULT_SITE.get hreg).trans (gs.trans (Nat.mod_eq_of_lt hs))
  · exact (congrArg F.PWR_LAST_FAULT_PAIR.get hreg).trans (gp.trans (Nat.mod_eq_of_lt hp))
  · rw [htriggers, hnil]
    rfl

/-- What faults leave of the clock, the samples and the islands' registers. -/
theorem supplyFaults_frame (fs : List SupplyFault) : (s.supplyFaults fs).now = s.now ∧
    (s.supplyFaults fs).power.samples = s.power.samples ∧ ∀ a, quietReg a → islandReg a = true → a ≠ Reg.VIG_STATE →
      a ≠ Reg.PWR_LAST_FAULT → (s.supplyFaults fs).reg a = s.reg a := by
  by_cases h : s.mstate = MState.cold
  · rw [supplyFaults_cold s h]
    exact ⟨rfl, rfl, fun _ _ _ _ _ => rfl⟩
  · cases fs with
    | nil => exact ⟨rfl, rfl, fun _ _ _ _ _ => rfl⟩
    | cons f fs =>
      have hnote := pwrFrame_foldl s pwrFrame_noteFault (f :: fs)
      obtain ⟨-, hsamples, -, hregs⟩ := id hnote
      rw [supplyFaults_cons s h]
      obtain ⟨hnow, -, -, -, hs, -⟩ :=
        goCold_state (((f :: fs).foldl State.noteFault s).setReg Reg.PWR_LAST_FAULT f.word) (faultMask (f :: fs))
      refine ⟨hnow.trans ((State.setReg_now ..).trans hnote.now), hs.trans ?_, fun a hq hi hne hlast => ?_⟩
      · rw [State.setReg_power]
        exact hsamples
      · rw [reg_goCold _ hq hi hne, State.reg_setReg_ne _ _ hlast]
        exact hregs a hq

/-! ## COOLANT_SAMPLE (R581) -/

/-- The coolant's readings are shown and judged for warning. -/
def State.showCoolant (s : State) (inlet outlet : Int) (flow : Nat) : State :=
  let t := s.setReg Reg.PWR_COOLANT (wordOf [(F.PWR_COOLANT_INLET, ofSigned 16 inlet), (F.PWR_COOLANT_OUTLET, ofSigned 16 outlet),
    (F.PWR_COOLANT_FLOW, flow)])
  let w := t.holding 16 1000000000 (decide (280 < inlet) || decide (flow < 3000))
  if w.1 then (w.2.pwrFlag F.PWR_STATUS_COOLANT_WARN_SEEN).logSupply Code.done 0xF0 [] else w.2

theorem exec_coolantSample (inlet outlet : Int) (flow : Nat) : exec (.coolantSample inlet outlet flow) s =
    (let h := (s.showCoolant inlet outlet flow).holding 17 1000000000 (350 < inlet)
     let l := h.2.holding 18 100000000 (flow < 1500)
     .next (l.2.supplyFaults ((if h.1 then [⟨5, 0xF0, 0, ofSigned 16 inlet⟩] else []) ++ (if l.1 then [⟨5, 0xF0, 0, flow⟩] else [])))) :=
  rfl

theorem ofSigned_lt (n : Nat) (x : Int) : ofSigned n x < 2 ^ n := by
  have hpos : (0 : Int) < (2 ^ n : Nat) := by exact_mod_cast Nat.two_pow_pos n
  have hlt := Int.emod_lt_of_pos x hpos
  have hnn := Int.emod_nonneg x (Int.ne_of_gt hpos)
  unfold ofSigned
  omega

theorem showCoolant_state (inlet outlet : Int) (flow : Nat) {t : State} (ht : s.showCoolant inlet outlet flow = t) :
    t.now = s.now ∧ t.mstate = s.mstate ∧ t.cores = s.cores ∧ t.hearth = s.hearth ∧
    t.fld Reg.PWR_COOLANT F.PWR_COOLANT_INLET = ofSigned 16 inlet ∧ t.fld Reg.PWR_COOLANT F.PWR_COOLANT_OUTLET = ofSigned 16 outlet ∧
    t.fld Reg.PWR_COOLANT F.PWR_COOLANT_FLOW = flow % 2 ^ 16 := by
  obtain ⟨-, hcool⟩ := quietRegs
  generalize hw : wordOf [(F.PWR_COOLANT_INLET, ofSigned 16 inlet), (F.PWR_COOLANT_OUTLET, ofSigned 16 outlet),
    (F.PWR_COOLANT_FLOW, flow)] = x
  have hframe : PwrFrame (s.setReg Reg.PWR_COOLANT x) t := by
    subst ht hw
    unfold State.showCoolant
    dsimp only
    split
    · exact ((pwrFrame_holding _ _ _ _).trans (pwrFrame_pwrFlag _ (by decide))).trans (pwrFrame_logSupply _ _ _ _)
    · exact pwrFrame_holding _ _ _ _
  have hstate : (s.setReg Reg.PWR_COOLANT x).mstate = s.mstate := by
    rw [State.mstate, State.fld, State.reg_setReg_ne _ _ (by decide)]
    rfl
  have hshown : t.reg Reg.PWR_COOLANT = x := by
    rw [hframe.2.2.2 _ hcool, State.reg_setReg_self]
  obtain ⟨gi, go, gf⟩ := get_wordOf_three (f := F.PWR_COOLANT_INLET) (g := F.PWR_COOLANT_OUTLET) (h := F.PWR_COOLANT_FLOW)
    (by decide) (by decide) (ofSigned 16 inlet) (ofSigned 16 outlet) flow
  refine ⟨hframe.now.trans (State.setReg_now ..), hframe.mstate.trans hstate, hframe.cores.trans (State.setReg_cores ..),
    hframe.hearth.trans (State.setReg_hearth ..), ?_, ?_, ?_⟩
  · exact (congrArg F.PWR_COOLANT_INLET.get (hshown.trans hw.symm)).trans (gi.trans (Nat.mod_eq_of_lt (ofSigned_lt 16 inlet)))
  · exact (congrArg F.PWR_COOLANT_OUTLET.get (hshown.trans hw.symm)).trans (go.trans (Nat.mod_eq_of_lt (ofSigned_lt 16 outlet)))
  · exact (congrArg F.PWR_COOLANT_FLOW.get (hshown.trans hw.symm)).trans gf

theorem coolantSample_state (inlet outlet : Int) (flow : Nat) : ∃ t, exec (.coolantSample inlet outlet flow) s = .next t ∧
    t.fld Reg.PWR_COOLANT F.PWR_COOLANT_INLET = ofSigned 16 inlet ∧ t.fld Reg.PWR_COOLANT F.PWR_COOLANT_OUTLET = ofSigned 16 outlet ∧
    t.fld Reg.PWR_COOLANT F.PWR_COOLANT_FLOW = flow % 2 ^ 16 ∧ t.now = s.now ∧
    (inlet ≤ 350 → 1500 ≤ flow → t.mstate = s.mstate ∧ t.cores = s.cores ∧ t.hearth = s.hearth) := by
  rw [exec_coolantSample]
  dsimp only
  generalize hw : s.showCoolant inlet outlet flow = w
  obtain ⟨hnow, hm, hcores, hhearth, hinlet, houtlet, hflow⟩ := showCoolant_state s inlet outlet flow hw
  obtain ⟨hq, hi⟩ := (⟨quietRegs.2, islandRegs.2⟩ : quietReg Reg.PWR_COOLANT ∧ islandReg Reg.PWR_COOLANT = true)
  have hheld := (pwrFrame_holding w 17 1000000000 (350 < inlet)).trans
    (pwrFrame_holding (w.holding 17 1000000000 (350 < inlet)).2 18 100000000 (flow < 1500))
  have hquiet : inlet ≤ 350 → 1500 ≤ flow → (w.holding 17 1000000000 (350 < inlet)).1 = false ∧
      ((w.holding 17 1000000000 (350 < inlet)).2.holding 18 100000000 (flow < 1500)).1 = false := by
    intro h1 h2
    rw [decide_eq_false (Int.not_lt.2 h1), decide_eq_false (Nat.not_lt.2 h2)]
    exact ⟨rfl, rfl⟩
  generalize (w.holding 17 1000000000 (350 < inlet)).1 = b1 at hquiet ⊢
  generalize ((w.holding 17 1000000000 (350 < inlet)).2.holding 18 100000000 (flow < 1500)).1 = b2 at hquiet ⊢
  generalize ((w.holding 17 1000000000 (350 < inlet)).2.holding 18 100000000 (flow < 1500)).2 = v at hheld ⊢
  generalize hfs : ((if b1 = true then [(⟨5, 0xF0, 0, ofSigned 16 inlet⟩ : SupplyFault)] else []) ++
    if b2 = true then [⟨5, 0xF0, 0, flow⟩] else []) = fs
  obtain ⟨fnow, -, fregs⟩ := supplyFaults_frame v fs
  have hreg : (v.supplyFaults fs).reg Reg.PWR_COOLANT = w.reg Reg.PWR_COOLANT :=
    (fregs _ hq hi (by decide) (by decide)).trans (hheld.2.2.2 _ hq)
  refine ⟨_, rfl, (congrArg F.PWR_COOLANT_INLET.get hreg).trans hinlet, (congrArg F.PWR_COOLANT_OUTLET.get hreg).trans houtlet,
    (congrArg F.PWR_COOLANT_FLOW.get hreg).trans hflow, fnow.trans (hheld.now.trans hnow), fun h1 h2 => ?_⟩
  obtain ⟨e1, e2⟩ := hquiet h1 h2
  have hnil : fs = [] := by rw [← hfs, e1, e2]; rfl
  rw [hnil, supplyFaults_nil]
  exact ⟨hheld.mstate.trans hm, hheld.cores.trans hcores, hheld.hearth.trans hhearth⟩

end
end Sys2Proof.Machine
end

section
/-! SUPPORT. The supply's samples (R574, R575, R589, R593). -/
namespace Sys2Proof.Machine

theorem foldl_keeps_mem {α β : Type} (P : β → Prop) {f : β → α → β} {xs : List α} (h : ∀ b, ∀ x ∈ xs, P b → P (f b x)) {b : β}
    (hb : P b) : P (xs.foldl f b) := by
  induction xs generalizing b with
  | nil => exact hb
  | cons x xs ih => exact ih (fun b y hy => h b y (List.mem_cons_of_mem _ hy)) (h b x List.mem_cons_self hb)

/-- What one element of a list brings about and no element undoes holds after the list. -/
theorem foldl_brings {α β : Type} (P : β → Prop) {f : β → α → β} {xs : List α} {x : α} (hx : x ∈ xs) (hset : ∀ b, P (f b x))
    (hkeep : ∀ b, ∀ y ∈ xs, P b → P (f b y)) (b : β) : P (xs.foldl f b) := by
  induction xs generalizing b with
  | nil => exact absurd hx List.not_mem_nil
  | cons y xs ih =>
    have htail : ∀ b, ∀ z ∈ xs, P b → P (f b z) := fun b z hz => hkeep b z (List.mem_cons_of_mem _ hz)
    rcases List.mem_cons.1 hx with rfl | hx
    · exact foldl_keeps_mem P htail (hset b)
    · exact ih hx htail (f b y)

section
variable (s : State) (volts amps : List Nat)

/-- The word of a pair's registers. -/
def pairWord (p : Nat) : Word := wordOf [(F.PWR_PAIR_VOLTS, volts.getD p 0), (F.PWR_PAIR_AMPS, amps.getD p 0)]

/-- The pairs' readings are shown. -/
def State.showPairs : State := (List.range 4).foldl (fun s p => s.setReg (Reg.PWR_PAIR p) (pairWord volts amps p)) s

theorem pairReg_inj {p q : Nat} : Reg.PWR_PAIR p = Reg.PWR_PAIR q ↔ p = q := by
  unfold Reg.PWR_PAIR
  omega

theorem reg_showPairs {p : Nat} (hp : p < 4) : (s.showPairs volts amps).reg (Reg.PWR_PAIR p) = pairWord volts amps p := by
  refine foldl_brings (fun t => t.reg (Reg.PWR_PAIR p) = pairWord volts amps p)
    (f := fun t q => t.setReg (Reg.PWR_PAIR q) (pairWord volts amps q)) (List.mem_range.2 hp)
    (fun t => State.reg_setReg_self t _ _) (fun t q _ ht => ?_) s
  by_cases hq : q = p
  · rw [hq, State.reg_setReg_self]
  · rw [State.reg_setReg_ne _ _ fun e => hq (pairReg_inj.1 e).symm]
    exact ht

theorem showPairs_frame : (s.showPairs volts amps).now = s.now ∧ (s.showPairs volts amps).power = s.power := by
  refine foldl_keeps (fun t : State => t.now = s.now ∧ t.power = s.power) (fun t q ht => ?_) _ ⟨rfl, rfl⟩
  rw [State.setReg_now, State.setReg_power]
  exact ht

/-- The sample joins the last 1,000. -/
def State.addSample : State := { s with power := { s.power with samples := ((volts, amps) :: s.power.samples).take 1000 } }

/-- The mean input power of the last `n` samples. -/
def meanPower (xs : List (List Nat × List Nat)) (n : Nat) : Nat :=
  sumNat ((xs.take n).map samplePower) / (1000 * Nat.max 1 (Nat.min n xs.length))

/-- A peak of the input power is shown, where there are samples enough. -/
def State.showPeak (s : State) (xs : List (List Nat × List Nat)) (f : Fld) (n : Nat) : State :=
  if xs.length < n then s else s.setFld Reg.PWR_PEAK f (Nat.max (s.fld Reg.PWR_PEAK f) (meanPower xs n))

/-- The energy of the power unit is set, its whole units counted in the lifetime record. -/
def State.setEnergy (s : State) (e : Nat) : State :=
  { s with power := { s.power with energy := e % 10 ^ 12 } }.lifeAdd 10 (e / 10 ^ 12)

/-- The measured registers of the input, and the energy it has brought. -/
def State.showInput (s : State) (xs : List (List Nat × List Nat)) : State :=
  let t := ((s.setReg Reg.PWR_INPUT (wordOf [(F.PWR_INPUT_VOLTS, volts.foldl Nat.max 0), (F.PWR_INPUT_AMPS, sumNat amps),
    (F.PWR_INPUT_WATTS, meanPower xs 1000)])).showPeak xs F.PWR_PEAK_W10US 10).showPeak xs F.PWR_PEAK_W1MS 1000
  t.setEnergy (t.power.energy + samplePower (volts, amps))

theorem measure_eq : s.measure volts amps =
    ((s.addSample volts amps).showPairs volts amps).showInput volts amps (s.addSample volts amps).power.samples := rfl

/-- What the measured registers of the input leave. -/
def InputFrame (s t : State) : Prop :=
  t.now = s.now ∧ t.power.samples = s.power.samples ∧ ∀ a, a ≠ Reg.PWR_INPUT → a ≠ Reg.PWR_PEAK → t.reg a = s.reg a

theorem InputFrame.trans {s t u : State} (h1 : InputFrame s t) (h2 : InputFrame t u) : InputFrame s u := by
  obtain ⟨a1, b1, c1⟩ := h1
  obtain ⟨a2, b2, c2⟩ := h2
  exact ⟨a2.trans a1, b2.trans b1, fun a hi hp => (c2 a hi hp).trans (c1 a hi hp)⟩

theorem inputFrame_setReg {a : Nat} (h : a = Reg.PWR_INPUT ∨ a = Reg.PWR_PEAK) (w : Word) : InputFrame s (s.setReg a w) :=
  ⟨rfl, rfl, fun b hi hp => State.reg_setReg_ne _ _ (by
    rintro rfl
    rcases h with h | h
    · exact hi h
    · exact hp h)⟩

theorem inputFrame_showPeak (xs : List (List Nat × List Nat)) (f : Fld) (n : Nat) : InputFrame s (s.showPeak xs f n) := by
  unfold State.showPeak
  split
  · exact ⟨rfl, rfl, fun _ _ _ => rfl⟩
  · exact inputFrame_setReg s (Or.inr rfl) _

theorem inputFrame_setEnergy (e : Nat) : InputFrame s (s.setEnergy e) :=
  ⟨rfl, rfl, fun _ _ _ => State.lifeAdd_reg _ _ _ _⟩

theorem inputFrame_showInput (xs : List (List Nat × List Nat)) : InputFrame s (s.showInput volts amps xs) :=
  (((inputFrame_setReg s (Or.inl rfl) _).trans (inputFrame_showPeak _ xs _ _)).trans (inputFrame_showPeak _ xs _ _)).trans
    (inputFrame_setEnergy _ _)

theorem measure_state : (s.measure volts amps).now = s.now ∧ (s.measure volts amps).power.samples.head? = some (volts, amps) ∧
    ∀ p, p < 4 → (s.measure volts amps).reg (Reg.PWR_PAIR p) = pairWord volts amps p := by
  obtain ⟨pnow, ppower⟩ := showPairs_frame (s.addSample volts amps) volts amps
  obtain ⟨hnow, hsamples, hreg⟩ := inputFrame_showInput ((s.addSample volts amps).showPairs volts amps)
    volts amps (s.addSample volts amps).power.samples
  rw [measure_eq]
  refine ⟨hnow.trans pnow, ?_, fun p hp => ?_⟩
  · rw [hsamples, ppower]
    rfl
  · rw [hreg _ (by unfold Reg.PWR_PAIR Reg.PWR_INPUT; omega) (by unfold Reg.PWR_PAIR Reg.PWR_PEAK; omega)]
    exact reg_showPairs _ volts amps hp

/-! ## Warnings and faults of a sample (R574, R575) -/

theorem pwrFrame_supplyWarn (k : Nat) {f : Fld} (hf : f.lo < 8) (low input : Nat) :
    PwrFrame s (s.supplyWarn k f volts low input) := by
  unfold State.supplyWarn
  dsimp only
  split
  · exact ((pwrFrame_holding s _ _ _).trans (pwrFrame_pwrFlag _ hf)).trans (pwrFrame_logSupply _ _ _ _)
  · exact pwrFrame_holding s _ _ _

/-- The state as a sample finds it: its microsecond has come. -/
def State.sampleTime (s : State) : State := (s.at ((s.now / 1000 + 1) * 1000)).countSeconds

/-- The power unit runs, and the sample's readings are shown. -/
def State.sampled (s : State) : State :=
  (if s.sampleTime.power.applied then s.sampleTime else s.sampleTime.islandsUp).measure volts amps

theorem mstate_sampleTime : s.sampleTime.mstate = s.mstate :=
  (pwrFrame_countSeconds _).mstate.trans (State.fld_at _ _ _ _)

theorem now_sampleTime : s.sampleTime.now = (s.now / 1000 + 1) * 1000 := by
  refine (pwrFrame_countSeconds _).now.trans ((State.now_at _).trans ?_)
  exact Nat.max_eq_right (by omega)

section
variable (hv : volts.length = 4) (ha : amps.length = 4)
include hv ha

theorem exec_supplySample_low (hm : s.mstate = MState.cold) (hlow : volts.foldl Nat.max 0 < 3000) : exec (.supplySample volts amps) s =
    .next { s.sampleTime with power := { s.sampleTime.power with applied := false, samples := [] } } := by
  refine (onUnit_of_ok (by rw [hv, ha]; rfl) _).trans (congrArg _ ?_)
  exact if_pos (by rw [Bool.and_eq_true, decide_eq_true_eq, decide_eq_true_eq]; exact ⟨(mstate_sampleTime s).trans hm, hlow⟩)

theorem exec_supplySample_on (h : s.mstate ≠ MState.cold ∨ 3000 ≤ volts.foldl Nat.max 0) :
    ∃ v fs, exec (.supplySample volts amps) s = .next (State.supplyFaults v fs) ∧ PwrFrame (s.sampled volts amps) v := by
  refine ⟨_, _, (onUnit_of_ok (by rw [hv, ha]; rfl) _).trans (congrArg _ (if_neg ?_)), ?_⟩
  · rw [Bool.and_eq_true, decide_eq_true_eq, decide_eq_true_eq]
    rintro ⟨hcold, hlow⟩
    rcases h with h | h
    · exact h ((mstate_sampleTime s).symm.trans hcold)
    · exact Nat.not_lt.2 h hlow
  · exact ((((pwrFrame_supplyWarn _ _ _ (by decide) _ _).trans (pwrFrame_supplyWarn _ _ _ (by decide) _ _)).trans
      (pwrFrame_holding _ _ _ _)).trans (pwrFrame_holding _ _ _ _)).trans (pwrFrame_holding _ _ _ _)

theorem supplySample_state (h : s.mstate ≠ MState.cold ∨ 3000 ≤ volts.foldl Nat.max 0) (p : Nat) :
    ∃ t, exec (.supplySample volts amps) s = .next t ∧ t.now = (s.now / 1000 + 1) * 1000 ∧
      t.power.samples.head? = some (volts, amps) ∧ (p < 4 → t.fld (Reg.PWR_PAIR p) F.PWR_PAIR_VOLTS = volts.getD p 0 % 2 ^ 16 ∧
        t.fld (Reg.PWR_PAIR p) F.PWR_PAIR_AMPS = amps.getD p 0 % 2 ^ 16) := by
  obtain ⟨v, fs, hexec, hframe⟩ := exec_supplySample_on s volts amps hv ha h
  obtain ⟨-, hsamples, -, hregs⟩ := id hframe
  obtain ⟨mnow, mhead, mpair⟩ := measure_state (if s.sampleTime.power.applied then s.sampleTime else s.sampleTime.islandsUp) volts amps
  obtain ⟨fnow, fsamples, fregs⟩ := supplyFaults_frame v fs
  refine ⟨_, hexec, ?_, ?_, fun hp => ?_⟩
  · rw [fnow, hframe.now, ← now_sampleTime]
    refine mnow.trans ?_
    split <;> rfl
  · rw [fsamples, hsamples]
    exact mhead
  · have hq : quietReg (Reg.PWR_PAIR p) := by
      simp only [quietReg, ashReg, Reg.PWR_PAIR, Reg.PWR_STATUS, Reg.PWR_EVENTS, vigRelBase, unitBase]
      omega
    have hi : islandReg (Reg.PWR_PAIR p) = true := islandReg_pair p hp
    have hreg : (v.supplyFaults fs).reg (Reg.PWR_PAIR p) = pairWord volts amps p := by
      rw [fregs _ hq hi (by simp only [Reg.PWR_PAIR, Reg.VIG_STATE, unitBase]; omega)
        (by simp only [Reg.PWR_PAIR, Reg.PWR_LAST_FAULT, unitBase]; omega), hregs _ hq]
      exact mpair p hp
    rw [State.fld, State.fld, hreg, pairWord]
    refine ⟨get_wordOf_head (by decide) _ (by simp only [List.forall_mem_cons]; decide), ?_⟩
    rw [get_wordOf_tail (by decide) (by decide)]
    exact get_wordOf_head (by decide) _ fun _ hx => absurd hx List.not_mem_nil

end

theorem exec_supplySample_refused (h : volts.length ≠ 4 ∨ amps.length ≠ 4) : exec (.supplySample volts amps) s = .refused .noSuchUnit := by
  refine if_neg ?_
  rw [Bool.and_eq_true, decide_eq_true_eq, decide_eq_true_eq, Classical.not_and_iff_not_or_not]
  exact h

end
end Sys2Proof.Machine
end

section
/-! SUPPORT. Thermal samples, throttling, and the lifetime record's commits (R582, R583, R587, R589). -/
namespace Sys2Proof.Machine

/-! ## The shown value of a sensor's register (R593) -/

theorem foldl_max_le_iff {α : Type} (g : α → Int) (xs : List α) (a c : Int) :
    xs.foldl (fun m x => max m (g x)) a ≤ c ↔ a ≤ c ∧ ∀ x ∈ xs, g x ≤ c := by
  induction xs generalizing a with
  | nil => simp
  | cons x xs ih => rw [List.foldl_cons, ih, Int.max_le, List.forall_mem_cons, and_assoc]

theorem shownValue_le_iff (rs : List TempReading) (r : TempReading) (c : Int) : shownValue rs r ≤ c ↔
    r.value ≤ c ∧ ∀ x ∈ rs, sensorReg x = sensorReg r → x.value ≤ c := by
  unfold shownValue
  rw [foldl_max_le_iff]
  simp only [List.mem_filter, decide_eq_true_eq, and_imp]

theorem shownValue_congr {rs : List TempReading} {x y : TempReading} (hx : x ∈ rs) (hy : y ∈ rs) (h : sensorReg x = sensorReg y) :
    shownValue rs x = shownValue rs y := by
  have hle : ∀ x ∈ rs, ∀ y ∈ rs, sensorReg x = sensorReg y → shownValue rs x ≤ shownValue rs y := by
    intro x hx y _ h
    obtain ⟨-, hall⟩ := (shownValue_le_iff rs y (shownValue rs y)).1 (Int.le_refl _)
    exact (shownValue_le_iff rs x _).2 ⟨hall x hx h, fun z hz hzx => hall z hz (hzx.trans h)⟩
  exact Int.le_antisymm (hle x hx y hy h) (hle y hy x hx h.symm)

/-! ## One reading (R582) -/

theorem sensorReg_die {r : TempReading} (h : r.site < 0x40) : sensorReg r = (Reg.PWR_DIE r.site, F.PWR_DIE_TEMP, false) := if_pos h

/-- A reading's register is a compute die's only for its own die's sensors, and never the module's state. -/
theorem sensorReg_ne {x : TempReading} (hx : sensorOk x = true) : (sensorReg x).1 ≠ Reg.VIG_STATE ∧
    ∀ d, d < 0x40 → x.site ≠ d → (sensorReg x).1 ≠ Reg.PWR_DIE d := by
  have hunits := hx
  simp only [sensorOk, Bool.or_eq_true, Bool.and_eq_true, decide_eq_true_eq] at hunits
  unfold sensorReg
  refine ⟨?_, fun d hd hne => ?_⟩
  · split
    · simp only [Reg.PWR_DIE, Reg.VIG_STATE, unitBase]
      omega
    · split
      · split
        · simp only [Reg.PWR_IOD, Reg.VIG_STATE, unitBase]
          omega
        · simp only [Reg.LNK_OE_STATUS, Reg.VIG_STATE, unitBase]
          omega
      · simp only [Reg.PWR_STACK, Reg.VIG_STATE, unitBase]
        omega
  · split
    · simp only [Reg.PWR_DIE, unitBase]
      omega
    · split
      · split
        · simp only [Reg.PWR_DIE, Reg.PWR_IOD, unitBase]
          omega
        · simp only [Reg.PWR_DIE, Reg.LNK_OE_STATUS, unitBase]
          omega
      · simp only [Reg.PWR_DIE, Reg.PWR_STACK, unitBase]
        omega

/-- What the register of a reading shows. -/
def shownCode (rs : List TempReading) (r : TempReading) : Nat :=
  if (sensorReg r).2.2 then ofSigned 8 (Int.fdiv (shownValue rs r) 10) else ofSigned 16 (shownValue rs r)

section
variable (s : State)

theorem pwrFrame_setWarm (l : List Nat) : PwrFrame s { s with power := { s.power with warm := l } } := pwrFrame_withPower s rfl rfl

theorem pwrFrame_takeReading (rs : List TempReading) (r : TempReading) :
    PwrFrame (s.setFld (sensorReg r).1 (sensorReg r).2.1 (shownCode rs r)) (s.takeReading rs r) := by
  unfold State.takeReading shownCode
  generalize sensorReg r = x
  obtain ⟨a, f, whole⟩ := x
  dsimp only
  generalize s.setFld a f (if whole = true then ofSigned 8 (Int.fdiv (shownValue rs r) 10) else ofSigned 16 (shownValue rs r)) = w
  have hhot : PwrFrame w (if (decide (r.site < 0x40) && decide (toSigned 16 (w.lifeWord 18) < r.value)) = true then
      (w.setLife 18 (ofSigned 16 r.value)).setLife 19 w.lifeStamp else w) := by
    split
    · exact (pwrFrame_setLife w _ _).trans (pwrFrame_setLife _ _ _)
    · exact PwrFrame.refl w
  generalize (if (decide (r.site < 0x40) && decide (toSigned 16 (w.lifeWord 18) < r.value)) = true then
      (w.setLife 18 (ofSigned 16 r.value)).setLife 19 w.lifeStamp else w) = v at hhot
  have hheld := hhot.trans (pwrFrame_holding v (1024 + (4 * r.site + r.unit)) 1000000 ((sensorLimits r).1 ≤ r.value))
  split
  · exact ((hheld.trans (pwrFrame_pwrFlag _ (by decide))).trans (pwrFrame_setWarm _ _)).trans (pwrFrame_logSupply _ _ _ _)
  · split
    · exact hheld.trans (pwrFrame_setWarm _ _)
    · exact hheld

theorem quietReg_die {d : Nat} (hd : d < 0x40) : quietReg (Reg.PWR_DIE d) := by
  simp only [quietReg, ashReg, Reg.PWR_DIE, Reg.PWR_STATUS, Reg.PWR_EVENTS, vigRelBase, unitBase]
  omega

theorem islandReg_die : ∀ {d : Nat}, d < 0x40 → islandReg (Reg.PWR_DIE d) = true := by decide

section
variable {rs : List TempReading} (hok : rs.all sensorOk = true)
include hok

/-- The state after all readings are shown. -/
theorem takeReadings_frame : (rs.foldl (State.takeReading rs) s).now = s.now ∧ (rs.foldl (State.takeReading rs) s).mstate = s.mstate ∧
    (rs.foldl (State.takeReading rs) s).cores = s.cores := by
  refine foldl_keeps_mem (fun t : State => t.now = s.now ∧ t.mstate = s.mstate ∧ t.cores = s.cores) (fun t r hr ht => ?_) ⟨rfl, rfl, rfl⟩
  obtain ⟨hnow, hm, hcores⟩ := ht
  obtain ⟨hne, -⟩ := sensorReg_ne (List.all_eq_true.1 hok r hr)
  have h := pwrFrame_takeReading t rs r
  exact ⟨h.now.trans ((State.setFld_now ..).trans hnow),
    h.mstate.trans ((State.fld_setFld_ne t _ _ _ hne.symm).trans hm), h.cores.trans ((State.setFld_cores ..).trans hcores)⟩

theorem takeReadings_shown {r : TempReading} (hr : r ∈ rs) (hsite : r.site < 0x40) :
    (rs.foldl (State.takeReading rs) s).fld (Reg.PWR_DIE r.site) F.PWR_DIE_TEMP = ofSigned 16 (shownValue rs r) := by
  have hq := quietReg_die hsite
  have hsame : ∀ (t : State), ∀ x ∈ rs, x.site = r.site →
      (t.takeReading rs x).fld (Reg.PWR_DIE r.site) F.PWR_DIE_TEMP = ofSigned 16 (shownValue rs r) := by
    intro t x hx hxs
    have hreg : sensorReg x = sensorReg r := by
      rw [sensorReg_die hsite, sensorReg_die (hxs ▸ hsite), hxs]
    rw [(pwrFrame_takeReading t rs x).fld hq, shownCode, hreg, sensorReg_die hsite, shownValue_congr hx hr hreg]
    exact (State.fld_setFld_self t (f := F.PWR_DIE_TEMP) (by decide) _ _).trans (Nat.mod_eq_of_lt (ofSigned_lt 16 _))
  refine foldl_brings (fun t : State => t.fld (Reg.PWR_DIE r.site) F.PWR_DIE_TEMP = ofSigned 16 (shownValue rs r)) hr
    (fun t => hsame t r hr rfl) (fun t y hy ht => ?_) s
  by_cases hys : y.site = r.site
  · exact hsame t y hy hys
  · obtain ⟨-, hother⟩ := sensorReg_ne (List.all_eq_true.1 hok y hy)
    rw [(pwrFrame_takeReading t rs y).fld hq, State.fld_setFld_ne t _ _ _ (hother _ hsite hys).symm]
    exact ht

end

/-! ## THERMAL_SAMPLE (R582) -/

theorem judgeCrits_frame (rs : List TempReading) (x : List SupplyFault × State) :
    PwrFrame x.2 (rs.foldl State.judgeCrit x).2 ∧
    ((∀ r ∈ rs, r.value < (sensorLimits r).2) → (rs.foldl State.judgeCrit x).1 = x.1) := by
  refine foldl_keeps_mem (fun y : List SupplyFault × State => PwrFrame x.2 y.2 ∧
    ((∀ r ∈ rs, r.value < (sensorLimits r).2) → y.1 = x.1)) (fun y r hr hy => ?_) ⟨PwrFrame.refl _, fun _ => rfl⟩
  obtain ⟨hframe, hnone⟩ := hy
  refine ⟨hframe.trans (pwrFrame_holding _ _ _ _), fun hcool => ?_⟩
  refine (if_neg ?_).trans (hnone hcool)
  rw [decide_eq_false (Int.not_le.2 (hcool r hr)), holding_false]
  decide

/-- The state as a thermal sample finds it: its 10 µs have come. -/
def State.thermalTime (s : State) : State := (s.at ((s.now / 10000 + 1) * 10000)).countSeconds

theorem thermalTime_state : s.thermalTime.now = (s.now / 10000 + 1) * 10000 ∧ s.thermalTime.mstate = s.mstate ∧
    s.thermalTime.cores = s.cores := by
  have h := pwrFrame_countSeconds (s.at ((s.now / 10000 + 1) * 10000))
  refine ⟨h.now.trans ((State.now_at _).trans (Nat.max_eq_right (by omega))), h.mstate.trans (State.fld_at _ _ _ _), h.cores.trans ?_⟩
  unfold State.at
  split <;> rfl

variable (readings : List TempReading)

theorem exec_thermalSample_refused (h : readings.all sensorOk = false) : exec (.thermalSample readings) s = .refused .noSuchUnit :=
  if_neg (ne_true_of_eq_false h)

section
variable (hok : readings.all sensorOk = true)
include hok

theorem exec_thermalSample_cold (hm : s.mstate = MState.cold) : exec (.thermalSample readings) s = .next s.thermalTime :=
  (onUnit_of_ok hok _).trans (congrArg _ (if_pos ((thermalTime_state s).2.1.trans hm)))

/-- All readings are shown and judged for WARN. -/
def State.warmed (s : State) (rs : List TempReading) : State := rs.foldl (State.takeReading rs) s.thermalTime

theorem exec_thermalSample_on (hm : s.mstate ≠ MState.cold) : exec (.thermalSample readings) s =
    .next ((readings.foldl State.judgeCrit ([], s.warmed readings)).2.supplyFaults
      (readings.foldl State.judgeCrit ([], s.warmed readings)).1) :=
  (onUnit_of_ok hok _).trans (congrArg _ (if_neg fun h => hm ((thermalTime_state s).2.1.symm.trans h)))

theorem thermalSample_state (hm : s.mstate ≠ MState.cold) (r : TempReading) : ∃ t, exec (.thermalSample readings) s = .next t ∧
    t.now = (s.now / 10000 + 1) * 10000 ∧
    (r ∈ readings → r.site < 0x40 → t.fld (Reg.PWR_DIE r.site) F.PWR_DIE_TEMP = ofSigned 16 (shownValue readings r)) ∧
    ((∀ x ∈ readings, x.value < (sensorLimits x).2) → t.mstate = s.mstate ∧ t.cores = s.cores) := by
  obtain ⟨tnow, tm, tcores⟩ := thermalTime_state s
  obtain ⟨wnow, wm, wcores⟩ := takeReadings_frame s.thermalTime hok
  obtain ⟨hframe, hnone⟩ := judgeCrits_frame readings ([], s.warmed readings)
  have hexec := exec_thermalSample_on s readings hok hm
  generalize readings.foldl State.judgeCrit ([], s.warmed readings) = x at hframe hnone hexec
  obtain ⟨fnow, -, fregs⟩ := supplyFaults_frame x.2 x.1
  refine ⟨_, hexec, fnow.trans (hframe.now.trans (wnow.trans tnow)), fun hr hsite => ?_, fun hcool => ?_⟩
  · have hq := quietReg_die hsite
    have hreg := fregs _ hq (islandReg_die hsite) (by simp only [Reg.PWR_DIE, Reg.VIG_STATE, unitBase]; omega)
      (by simp only [Reg.PWR_DIE, Reg.PWR_LAST_FAULT, unitBase]; omega)
    exact (congrArg F.PWR_DIE_TEMP.get hreg).trans ((hframe.fld hq _).trans (takeReadings_shown _ hok hr hsite))
  · rw [hnone hcool, supplyFaults_nil]
    exact ⟨hframe.mstate.trans (wm.trans tm), hframe.cores.trans (wcores.trans tcores)⟩

end
end
end Sys2Proof.Machine
end

section
/-! SUPPORT. Throttling and the lifetime record's commits (R583, R587 to R590). -/
namespace Sys2Proof.Machine

section
variable (s : State)

/-! ## THROTTLE_UPDATE (R583) -/

theorem dieReg_inj {d e : Nat} : Reg.PWR_DIE d = Reg.PWR_DIE e ↔ d = e := by
  unfold Reg.PWR_DIE
  omega

theorem nextHold_lt (d : Nat) : nextHold s d < 2 ^ 4 := by
  have hlt : s.fld (Reg.PWR_DIE d) F.PWR_DIE_HOLD < 2 ^ 4 := Fld.get_lt _ _
  have hmin : Nat.min 12 (s.fld (Reg.PWR_DIE d) F.PWR_DIE_HOLD + 1) ≤ 12 := Nat.min_le_left _ _
  unfold nextHold
  dsimp only
  split
  · omega
  · split <;> omega

theorem nextHold_congr {s t : State} {d : Nat} (h : t.reg (Reg.PWR_DIE d) = s.reg (Reg.PWR_DIE d)) : nextHold t d = nextHold s d := by
  unfold nextHold State.fld
  rw [h]

theorem alm_withCores (xs : AMap Core) : State.alm { s with cores := xs } = s.alm := rfl

theorem reg_withCores (xs : AMap Core) (a : Nat) : State.reg { s with cores := xs } a = s.reg a := (rfl)

theorem setHold_state (d v : Nat) : (s.setHold d v).alm = s.alm ∧
    ∀ a, (s.setHold d v).reg a = (s.setFld (Reg.PWR_DIE d) F.PWR_DIE_HOLD v).reg a := by
  unfold State.setHold
  exact ⟨(alm_withCores _ _).trans (State.setFld_alm ..), fun a => reg_withCores _ _ a⟩

/-- The cycles that a die's hold has taken are counted. -/
def State.countHeld (s : State) (d : Nat) : State :=
  s.bump Reg.PWR_THROTTLE_CYCLES F.PWR_THROTTLE_CYCLES_COUNT (6250 * s.fld (Reg.PWR_DIE d) F.PWR_DIE_HOLD)

theorem reg_countHeld (d e : Nat) : (s.countHeld d).reg (Reg.PWR_DIE e) = s.reg (Reg.PWR_DIE e) :=
  State.reg_setFld_ne _ _ _ (by simp only [Reg.PWR_DIE, Reg.PWR_THROTTLE_CYCLES, unitBase]; omega)

theorem holdDie_eq (d : Nat) : s.holdDie d =
    if nextHold s d = s.fld (Reg.PWR_DIE d) F.PWR_DIE_HOLD then s.countHeld d
    else if s.fld (Reg.PWR_DIE d) F.PWR_DIE_HOLD = 0 then
      (((s.countHeld d).setHold d (nextHold s d)).pwrFlag F.PWR_STATUS_THROTTLE_SEEN).logSupply Code.done d []
    else (s.countHeld d).setHold d (nextHold s d) := rfl

theorem pwrFrame_throttleSeen (d : Nat) :
    PwrFrame s ((s.pwrFlag F.PWR_STATUS_THROTTLE_SEEN).logSupply Code.done d []) :=
  (pwrFrame_pwrFlag s (by decide)).trans (pwrFrame_logSupply _ _ _ _)

theorem holdDie_alm (d : Nat) : (s.holdDie d).alm = s.alm := by
  have hcount : (s.countHeld d).alm = s.alm := by
    unfold State.countHeld State.bump
    exact State.setFld_alm ..
  obtain ⟨hset, -⟩ := setHold_state (s.countHeld d) d (nextHold s d)
  rw [holdDie_eq]
  split
  · exact hcount
  · split
    · exact (pwrFrame_throttleSeen _ _).alm.trans (hset.trans hcount)
    · exact hset.trans hcount

section
variable {e : Nat} (he : e < 0x40)
include he

theorem holdDie_other {d : Nat} (h : d ≠ e) : (s.holdDie d).reg (Reg.PWR_DIE e) = s.reg (Reg.PWR_DIE e) := by
  have hcount := reg_countHeld s d e
  have hset : ((s.countHeld d).setHold d (nextHold s d)).reg (Reg.PWR_DIE e) = s.reg (Reg.PWR_DIE e) := by
    rw [(setHold_state _ d _).2, State.reg_setFld_ne _ _ _ fun heq => h (dieReg_inj.1 heq).symm, hcount]
  rw [holdDie_eq]
  split
  · exact hcount
  · split
    · rw [(pwrFrame_throttleSeen _ _).2.2.2 _ (quietReg_die he), hset]
    · exact hset

theorem holdDie_self : (s.holdDie e).fld (Reg.PWR_DIE e) F.PWR_DIE_HOLD = nextHold s e := by
  have hset : ((s.countHeld e).setHold e (nextHold s e)).fld (Reg.PWR_DIE e) F.PWR_DIE_HOLD = nextHold s e := by
    rw [State.fld, (setHold_state _ e _).2]
    exact (State.fld_setFld_self _ (by decide) _ _).trans (Nat.mod_eq_of_lt (nextHold_lt s e))
  rw [holdDie_eq]
  split
  next heq =>
    rw [State.fld, reg_countHeld, heq]
    rfl
  next =>
    split
    · rw [(pwrFrame_throttleSeen _ _).fld (quietReg_die he), hset]
    · exact hset

theorem holdDies_other {ds : List Nat} (h : e ∉ ds) : (ds.foldl State.holdDie s).reg (Reg.PWR_DIE e) = s.reg (Reg.PWR_DIE e) :=
  foldl_keeps_mem (fun t : State => t.reg (Reg.PWR_DIE e) = s.reg (Reg.PWR_DIE e))
    (fun t _ hd ht => (holdDie_other t he (ne_of_mem_of_not_mem hd h)).trans ht) rfl

theorem holdDies_mem {ds : List Nat} (hnd : ds.Nodup) (h : e ∈ ds) :
    (ds.foldl State.holdDie s).fld (Reg.PWR_DIE e) F.PWR_DIE_HOLD = nextHold s e := by
  induction ds generalizing s with
  | nil => exact absurd h List.not_mem_nil
  | cons d ds ih =>
    obtain ⟨hd, hds⟩ := List.nodup_cons.1 hnd
    rcases List.mem_cons.1 h with rfl | hmem
    · rw [List.foldl_cons, State.fld, holdDies_other _ he hd]
      exact holdDie_self s he
    · rw [List.foldl_cons, ih (s.holdDie d) hds hmem]
      exact nextHold_congr (holdDie_other s he fun heq => hd (heq ▸ hmem))

end

/-- The state as a throttle update finds it: its multiple of 100 µs has come. -/
def State.throttleTime (s : State) : State := (s.atAlm (nextMultiple 100000 (s.alm + 1))).countSeconds

theorem throttleTime_alm : s.throttleTime.alm % 100000 = 0 ∧ s.alm < s.throttleTime.alm ∧ s.throttleTime.alm ≤ s.alm + 100000 := by
  have h : s.throttleTime.alm = (s.alm + 1 + 100000 - 1) / 100000 * 100000 := by
    refine (pwrFrame_countSeconds _).alm.trans ((State.alm_atAlm _).trans ?_)
    unfold nextMultiple ceilDiv
    exact Nat.max_eq_right (by omega)
  rw [h]
  omega

theorem exec_throttleUpdate_off (h : s.isOn Reg.PWR_THERM_CTL F.PWR_THERM_CTL_THROTTLE_EN = false) :
    exec .throttleUpdate s = .next s := if_pos (by rw [h]; rfl)

theorem exec_throttleUpdate_on (h : s.isOn Reg.PWR_THERM_CTL F.PWR_THERM_CTL_THROTTLE_EN = true) : ∃ p : Power,
    exec .throttleUpdate s = .next { (List.range 64).foldl State.holdDie s.throttleTime with power := p } :=
  ⟨_, if_neg (by rw [h]; decide)⟩

theorem alm_withPower (p : Power) : State.alm { s with power := p } = s.alm := rfl

theorem throttleUpdate_state (h : s.isOn Reg.PWR_THERM_CTL F.PWR_THERM_CTL_THROTTLE_EN = true) (d : Nat) :
    ∃ t, exec .throttleUpdate s = .next t ∧ t.alm % 100000 = 0 ∧ s.alm < t.alm ∧ t.alm ≤ s.alm + 100000 ∧
      (d < 64 → t.fld (Reg.PWR_DIE d) F.PWR_DIE_HOLD = nextHold s d) := by
  obtain ⟨p, hexec⟩ := exec_throttleUpdate_on s h
  have hframe := pwrFrame_countSeconds (s.atAlm (nextMultiple 100000 (s.alm + 1)))
  have halm : ((List.range 64).foldl State.holdDie s.throttleTime).alm = s.throttleTime.alm :=
    foldl_keeps (fun t : State => t.alm = s.throttleTime.alm) (fun t e ht => (holdDie_alm t e).trans ht) _ rfl
  refine ⟨_, hexec, ?_⟩
  rw [alm_withPower, halm]
  obtain ⟨h1, h2, h3⟩ := throttleTime_alm s
  refine ⟨h1, h2, h3, fun hd => ?_⟩
  rw [State.fld, reg_withPower]
  refine (holdDies_mem s.throttleTime hd List.nodup_range (List.mem_range.2 hd)).trans (nextHold_congr ?_)
  exact (hframe.2.2.2 _ (quietReg_die hd)).trans (State.reg_atAlm _ _)

/-! ## LIFE_COMMIT and LIFE_MIRROR (R587, R589) -/

theorem lifeCommit_state : ∃ t, exec .lifeCommit s = .next t ∧ t.lifeKept = (t.life :: s.lifeKept).take 2 ∧
    t.lifeWord 0 = s.lifeStamp ∧ t.now = s.now ∧ t.mstate = s.mstate := by
  have h := pwrFrame_countSeconds s
  obtain ⟨hnow, -, -, -⟩ := commitLife_parts s.countSeconds
  have hstamp : s.countSeconds.commitLife.lifeWord 0 = s.countSeconds.lifeStamp := (AMap.get_set ..).trans (if_pos rfl)
  refine ⟨s.countSeconds.commitLife, rfl, ?_, hstamp.trans h.lifeStamp, hnow.trans h.now, ?_⟩
  · rw [← h.lifeKept]
    rfl
  · rw [State.mstate, State.fld, reg_commitLife]
    exact h.mstate

theorem lifeMirror_state : ∃ t, exec .lifeMirror s = .next t ∧ t.lifeMirror = t.life ∧ t.life = s.countSeconds.life ∧
    t.mstate = s.mstate :=
  ⟨{ s.countSeconds with lifeMirror := s.countSeconds.life }, rfl, rfl, rfl, (pwrFrame_countSeconds s).mstate⟩

end

/-- Settles O60, command by command: samples leave what `PwrFrame` says, faults what `supplyFaults_frame` says. -/
theorem power : Obligations.Power := by
  unfold Obligations.Power
  intro s volts amps inlet outlet flow p d k dur t0 readings r f fs sampled warmed input u fault on hold temp seconds h
  refine ⟨fun hv ha => ⟨exec_supplySample_low s volts amps hv ha, fun hon => supplySample_state s volts amps hv ha hon p⟩,
    exec_supplySample_refused s volts amps, fun hm hc hs hp => supplyFaults_state s hm hc hs hp fs rfl,
    fun hm => supplyFaults_cold s hm fs, supplyFaults_nil s, holding_not s k dur, holding_begins s k dur, fun hk hfired => ?_,
    fun hk hfired => ?_, coolantSample_state s inlet outlet flow, exec_thermalSample_refused s readings,
    fun hok => ⟨exec_thermalSample_cold s readings hok, fun hm => thermalSample_state s readings hok hm r⟩,
    exec_throttleUpdate_off s, fun hon => throttleUpdate_state s hon d, fun hm hn => lifeWord_countSeconds s hm rfl hn,
    lifeCommit_state s, lifeMirror_state s⟩
  · rw [show h.1 = _ from holding_holds s k dur hk]
    exact decide_eq_decide.2 (and_iff_left hfired)
  · rw [show h.1 = _ from holding_holds s k dur hk]
    exact decide_eq_false fun hall => hfired hall.2

end Sys2Proof.Machine
end
